-- ==== Sys2Proof/Word.lean ====
section
/-! DEFINITION. The word types of the module: the control port reads and writes 64-bit registers (R267, R268),
the fabric and the harvest move 128-bit grains (R61), memories are made of bytes. -/

namespace Sys2Proof

/-- A 64-bit register, a harvest or command word. -/
abbrev Word := BitVec 64
/-- A byte of memory, a window, a packet or an image. -/
abbrev Byte := BitVec 8
/-- A 16-byte grain of the fabric (R61). -/
abbrev Grain := BitVec 128

end Sys2Proof
end

