-- ==== Sys2Proof/Syntax.lean ====
section
/-! DEFINITION. The commands: one constructor of `Instr` for each row of the operation table. -/

namespace Sys2Proof

/-- How a unit's acceptance or completion signal missed the slot table (R152). -/
inductive Watch
  | early
  | late
  | missing
  | unrequested
  deriving DecidableEq, Repr

/-- What the checkers and the codes met while a slot word was fetched and carried out. -/
inductive Mishap
  /-- A corrected slot memory word, or constant table word (R160). -/
  | memCorr (const : Bool) (word : BitVec 15)
  /-- An uncorrectable slot memory or constant table word (R160). -/
  | memUncorr (word : BitVec 16)
  /-- A register parity error (R146, R147): 0 tile, 1 mask, 2 general, 3 SFU table; the register; the element read. -/
  | parity (kind : BitVec 2) (reg : BitVec 5) (element : BitVec 8)
  /-- A residue or parity-prediction mismatch in an element, and the bits of the result it changed (R146). -/
  | residue (element : BitVec 8) (flip : BitVec 32)
  /-- A missing, early, late or unrequested signal (R152). -/
  | watchdog (kind : Watch)
  /-- A corrected or uncorrectable pad word, by pad address (R187). -/
  | padCorr (address : BitVec 24)
  | padUncorr (address : BitVec 24)
  /-- A corrected loam line, single-bit or within one symbol, and an uncorrectable one, by logical offset
  (R199, R200). -/
  | loamCorrBit (offset : BitVec 32)
  | loamCorrSymbol (offset : BitVec 32)
  | loamUncorr (offset : BitVec 32)
  /-- An uncorrectable word of the shell's horizon map (R200). -/
  | mapUncorr (word : BitVec 17)
  /-- A weight cell of the active or the shadow plane flips after the check builder has tapped its row (R102). -/
  | cell (shadow : Bool) (row : BitVec 7) (bit : BitVec 12)
  deriving DecidableEq, Repr

/-- The issue of a slot word (R166, R167): the plot, the slot, and what the checkers met. -/
structure Issue where
  lid : BitVec 24
  slot : BitVec 6
  mis : List Mishap
  deriving DecidableEq, Repr

/-- The operands of an array word (R168). -/
structure ArrayWord where
  ra : BitVec 5
  rb : BitVec 5
  rd : BitVec 5
  rc : BitVec 5
  fmtA : BitVec 4
  fmtB : BitVec 4
  outFmt : BitVec 4
  acc : Bool
  rnd : Bool
  clr : Bool
  csrc : Bool
  cimm : BitVec 12
  deriving DecidableEq, Repr

/-- The operands of a vector word (R170). -/
structure VecWord where
  td : BitVec 5
  ta : BitVec 5
  tb : BitVec 5
  tc : BitVec 5
  msk : BitVec 3
  mz : Bool
  ext : BitVec 24
  deriving DecidableEq, Repr

/-- The operands of a mover word (R173). -/
structure MoverWord where
  gs : BitVec 5
  gd : BitVec 5
  gl : BitVec 5
  ssp : BitVec 2
  dsp : BitVec 2
  lsrc : Bool
  len : BitVec 12
  aprev : Bool
  deriving DecidableEq, Repr

/-- The operands of a control word (R176). Each layout uses some of them. -/
structure CtlWord where
  rd : BitVec 5
  rs1 : BitVec 5
  rs2 : BitVec 5
  rs3 : BitVec 5
  cond : BitVec 3
  imm : BitVec 32
  index : BitVec 9
  typ : Bool
  chan : BitVec 4
  deriving DecidableEq, Repr

/-- What the codes and checkers of a shell met in a furrow (R55, R70, R72, R199, R200): its route memory by the word it read, a route
word or one of its program's other words; the crossbar; its loam port or core switch failing; a link word of 64 bits, of the output
link, by its index in the furrow; loam lines and horizon map words. -/
inductive RouteMishap
  | memCorr (word : BitVec 13)
  | memUncorr (word : BitVec 13)
  | crossbar (port : BitVec 3)
  | loamPort
  | coreSwitch
  | linkCorr (word : BitVec 11)
  | linkUncorr (word : BitVec 11)
  | mapUncorr (word : BitVec 17)
  | loamCorrBit (offset : BitVec 32)
  | loamCorrSymbol (offset : BitVec 32)
  | loamUncorr (offset : BitVec 32)
  deriving DecidableEq, Repr

/-- What a headland met while it carried out a dispatch word: link words of 64 bits of its edge link, by their index in the furrow,
and a line of a sowing buffer by its byte offset in the segment's loam (R70, R235). -/
inductive DispatchMishap
  | linkCorr (word : BitVec 7)
  | linkUncorr (word : BitVec 7)
  | lineUncorr (offset : BitVec 36)
  deriving DecidableEq, Repr

/-- What a gleaner met while it carried out a gather or emit word (R251, R261): bench words, its adders and encoders, and
lines and map words of its residual store. -/
inductive GleanMishap
  | benchCorr (grain : BitVec 16)
  | benchUncorr (grain : BitVec 16)
  | residue (grain : BitVec 16)
  | identity
  | residualDirty (offset : BitVec 36)
  | residualCur (offset : BitVec 36)
  | residualMap (word : BitVec 17)
  deriving DecidableEq, Repr

/-- What a standby's ACK acknowledges (R347, R352): a ledger record by its STEP_S, or a parcel. -/
inductive TwinAck
  | record (stepS : BitVec 48)
  | parcel (layer : BitVec 4) (tile : BitVec 24) (elements : BitVec 32)
  deriving DecidableEq, Repr

/-- What an apply met outside the image (R52, R308, R313): sites whose known-answer check failed in a pending substitution, an
uncorrectable line of the incoming plan store half in phases 1 to 4, the headland segment and byte offset of one in phase 5, and
whether the reload failed. -/
structure ApplyObs where
  kat : List (BitVec 13)
  storeBad : Bool
  loadFail : Option (BitVec 2 × BitVec 36)
  reloadFails : Bool
  deriving DecidableEq, Repr

/-- A record that the dusk test raises on a history unit (R331, R336): unit type and number, its cause and its DETAIL. -/
structure DuskHit where
  type : BitVec 4
  id : BitVec 24
  code : BitVec 16
  detail : BitVec 64
  deriving DecidableEq, Repr

/-- A line the loam scrubber reads (R202, R207): a copy of committed loam by site and logical offset, a pad image half by site and
pad address, a spare or fenced stack, a window line, the plan store, a sowing buffer, a transmit area, checkpoint staging or the
ledger, or a residual store by headland and byte offset. -/
inductive ScrubLine
  | committed (p : BitVec 13) (copy : Bool) (offset : BitVec 32)
  | image (p : BitVec 13) (half : Bool) (address : BitVec 23)
  | idle (p : BitVec 13) (offset : BitVec 32)
  | window (line : BitVec 30)
  | store (h : BitVec 2) (incoming : Bool) (offset : BitVec 36)
  | sowing (h : BitVec 2) (offset : BitVec 36)
  /-- The kept segment that stands `k`-th among those of its channel. -/
  | harvest (c : BitVec 5) (k : BitVec 32) (offset : BitVec 36)
  | staging (h : BitVec 2) (parcel : Option (BitVec 4 × BitVec 24 × BitVec 32)) (offset : BitVec 36)
  | residual (h : BitVec 2) (copy : Bool) (offset : BitVec 36)
  /-- A word of a shell's horizon map, or of the residual store's, read with the granule it names (R194, R252). -/
  | map (p : BitVec 13) (word : BitVec 17)
  | residualMap (h : BitVec 2) (word : BitVec 17)
  deriving DecidableEq, Repr

/-- What the code of a scrubbed line says (R199). -/
inductive ScrubFound
  | clean
  | bit
  | symbol
  | uncorrectable
  deriving DecidableEq, Repr

/-- A memory word of two or more failing bits in phase 5 (R401). -/
inductive MarchFail
  | pad (p : BitVec 13) (address : BitVec 24)
  | slotMem (p : BitVec 13) (word : BitVec 16)
  | route (p : BitVec 13) (word : BitVec 13)
  | map (p : BitVec 13) (word : BitVec 17)
  | bench (g : BitVec 7) (grain : BitVec 16)
  deriving DecidableEq, Repr

/-- A unit whose settings bring-up trains and flash keeps (R396): a lane's equaliser and clock recovery (512 and up: twin lanes), the
watch lane, the loam port of a site or of a headland segment, a fabric crossing by its own number, the regulator trims of a region. -/
inductive TrainUnit
  | lane (l : BitVec 10)
  | watch
  | loam (p : BitVec 13)
  | headLoam (h : BitVec 2)
  | crossing (i : BitVec 16)
  | trim (n : BitVec 8)
  deriving DecidableEq, Repr

/-- What the module meets on its way up (R394-R405). Phase 0: whether the secure element answers and the identity passes its CRC, and
the ports that train. Phase 2: whether a copy of the saved settings passes its CRC, contact resistances in microohm. Phase 3: the
units trained in full with the settings found, lanes that do not lock, loam ports of sites that cannot train. Phase 4: shells that
do not acknowledge, cores that fail the broadcast's digest or the known-answer check. Phase 5: march failures. Phase 6: the weak
rows that fail now and are remapped, the refresh multiplier of the rest, stacks that fail at 8 ms with a failing offset, whether
the bed refused margining. Phase 7: lanes that fail the gate with their corrected symbols of the last second, the worst bit error
ratio. Phase 8: links that fail the walk three times, by receiving site and port. Then the milliseconds of work of each phase. -/
structure BootObs where
  identity : Bool
  ports : BitVec 2
  saved : Bool
  contacts : List (BitVec 16)
  trained : List (TrainUnit × BitVec 64)
  lanesOut : List (BitVec 10)
  loamOut : List (BitVec 13)
  silent : List (BitVec 13)
  cores : List (BitVec 13)
  march : List MarchFail
  weakRows : List (BitVec 13 × BitVec 32)
  refreshMin : BitVec 2
  hopeless : List (BitVec 13 × BitVec 32)
  noMargin : Bool
  laneFails : List (BitVec 10 × BitVec 32)
  worstBer : BitVec 32
  walk : List (BitVec 13 × BitVec 2)
  ms : List (BitVec 32)
  deriving DecidableEq, Repr

/-- What the end of a furrow's slots meets: unit signals that no slot word accounts for, by unit (R152), and what the memories met in
words that no unit receives (R160). -/
structure SlotsEnd where
  signals : List (BitVec 3 × Watch)
  mis : List Mishap
  deriving DecidableEq, Repr

/-- The rails of a node of the vote tree: its region, and whether they agree (R76). -/
structure VoteRails where
  region : BitVec 8
  agree : Bool
  deriving DecidableEq, Repr

/-- What a close meets: the time it takes in ns (R210), and the lines it could not write, by site and address (R195). -/
structure CloseObs where
  ns : BitVec 32
  bad : List (BitVec 13 × BitVec 32)
  deriving DecidableEq, Repr

/-- The readings that the controllers take with a heartbeat (R370, R384): the hottest junction in 1/16 degree and the core voltage
in mV of a region, or of headland segment h at 256 + h; region output currents in 1/16 A; voltage and current of each rail; the
1 ms average of the input power; the hottest loam layer in 1/4 degree; coolant inlet, outlet and flow. -/
structure Telemetry where
  temps : List (BitVec 9 × BitVec 16 × BitVec 16)
  amps : List (BitVec 8 × BitVec 16)
  rails : List (BitVec 3 × BitVec 16 × BitVec 16)
  inputW : BitVec 16
  loam : BitVec 12
  inlet : BitVec 12
  outlet : BitVec 12
  flow : BitVec 12
  deriving DecidableEq, Repr

/-- The commands of the block: one constructor for each row of the operation table. -/
inductive Instr
  | meridianFrame (elapsed : BitVec 32) (frame : BitVec 128)
  | meridianReferenceTimeout
  | multiplierLockLoss
  | grantSample
  | furrowBoundary
  | holdLimitFault
  | furrowSlotsEnd (lid : BitVec 24) (o : SlotsEnd)
  | marginFault (n : BitVec 8) (codes : BitVec 32)
  | wload (i : Issue) (o : ArrayWord)
  | shadowReady (lid : BitVec 24)
  | swap (i : Issue) (o : ArrayWord)
  | rows (i : Issue) (o : ArrayWord)
  | trows (i : Issue) (o : ArrayWord)
  | oacc (i : Issue) (o : ArrayWord)
  | odrain (i : Issue) (o : ArrayWord)
  | ediag (i : Issue) (o : ArrayWord)
  | arrayRowOutcome (lid : BitVec 24) (slot : BitVec 6) (row : BitVec 24) (flips : List (BitVec 8 × BitVec 32)) (disagree : Bool)
      (mis : List Mishap)
  | vcopy (i : Issue) (o : VecWord)
  | vtrans (i : Issue) (o : VecWord)
  | vbcrow (i : Issue) (o : VecWord)
  | vbccol (i : Issue) (o : VecWord)
  | veshift (i : Issue) (o : VecWord)
  | vsel (i : Issue) (o : VecWord)
  | vsplat (i : Issue) (o : VecWord)
  | iadd (i : Issue) (o : VecWord)
  | isub (i : Issue) (o : VecWord)
  | imin (i : Issue) (o : VecWord)
  | imax (i : Issue) (o : VecWord)
  | icmp (i : Issue) (o : VecWord)
  | vecAnd (i : Issue) (o : VecWord)
  | vecOr (i : Issue) (o : VecWord)
  | vecXor (i : Issue) (o : VecWord)
  | vecShl (i : Issue) (o : VecWord)
  | vecShr (i : Issue) (o : VecWord)
  | vecShra (i : Issue) (o : VecWord)
  | imul (i : Issue) (o : VecWord)
  | imadd (i : Issue) (o : VecWord)
  | fadd (i : Issue) (o : VecWord)
  | fsub (i : Issue) (o : VecWord)
  | fmin (i : Issue) (o : VecWord)
  | fmax (i : Issue) (o : VecWord)
  | fcmp (i : Issue) (o : VecWord)
  | fabs (i : Issue) (o : VecWord)
  | fneg (i : Issue) (o : VecWord)
  | fmul (i : Issue) (o : VecWord)
  | ffma (i : Issue) (o : VecWord)
  | cvtfi (i : Issue) (o : VecWord)
  | cvtif (i : Issue) (o : VecWord)
  | mand (i : Issue) (o : VecWord)
  | mor (i : Issue) (o : VecWord)
  | mnot (i : Issue) (o : VecWord)
  | frowsum (i : Issue) (o : VecWord)
  | fcolsum (i : Issue) (o : VecWord)
  | frowmax (i : Issue) (o : VecWord)
  | fcolmax (i : Issue) (o : VecWord)
  | irowsum (i : Issue) (o : VecWord)
  | icolsum (i : Issue) (o : VecWord)
  | sum (i : Issue) (o : VecWord)
  | sumsq (i : Issue) (o : VecWord)
  | max (i : Issue) (o : VecWord)
  | min (i : Issue) (o : VecWord)
  | absmax (i : Issue) (o : VecWord)
  | cntnf (i : Issue) (o : VecWord)
  | cntnz (i : Issue) (o : VecWord)
  | many (i : Issue) (o : VecWord)
  | mall (i : Issue) (o : VecWord)
  | mpop (i : Issue) (o : VecWord)
  | vld (i : Issue) (o : VecWord)
  | vst (i : Issue) (o : VecWord)
  | vldl (i : Issue) (o : VecWord)
  | vstl (i : Issue) (o : VecWord)
  | sfu (i : Issue) (o : VecWord)
  | mcopy (i : Issue) (o : MoverWord)
  | mfill (i : Issue) (o : MoverWord)
  | cAdd (i : Issue) (o : CtlWord)
  | cSub (i : Issue) (o : CtlWord)
  | cAnd (i : Issue) (o : CtlWord)
  | cOr (i : Issue) (o : CtlWord)
  | cXor (i : Issue) (o : CtlWord)
  | cShl (i : Issue) (o : CtlWord)
  | cShr (i : Issue) (o : CtlWord)
  | cShra (i : Issue) (o : CtlWord)
  | cCmp (i : Issue) (o : CtlWord)
  | cSel (i : Issue) (o : CtlWord)
  | cMul (i : Issue) (o : CtlWord)
  | cAddi (i : Issue) (o : CtlWord)
  | cAndi (i : Issue) (o : CtlWord)
  | cOri (i : Issue) (o : CtlWord)
  | cXori (i : Issue) (o : CtlWord)
  | cShli (i : Issue) (o : CtlWord)
  | cShri (i : Issue) (o : CtlWord)
  | cShrai (i : Issue) (o : CtlWord)
  | cCmpi (i : Issue) (o : CtlWord)
  | cLil (i : Issue) (o : CtlWord)
  | cLih (i : Issue) (o : CtlWord)
  | cConst (i : Issue) (o : CtlWord)
  | cLd (i : Issue) (o : CtlWord)
  | cSt (i : Issue) (o : CtlWord)
  | cLdl (i : Issue) (o : CtlWord)
  | cStl (i : Issue) (o : CtlWord)
  | cVote (i : Issue) (o : CtlWord)
  | cVread (i : Issue) (o : CtlWord)
  | cExpect (i : Issue) (o : CtlWord)
  | looseAccessOverrun (lid : BitVec 24)
  | voteResult (c : BitVec 4) (o : VoteRails)
  | routeWord (p : BitVec 13) (j : BitVec 8) (obs : List RouteMishap)
  | dispatchWord (h : BitVec 2) (j : BitVec 8) (obs : List DispatchMishap)
  | gatherStart (h : BitVec 2) (j : BitVec 8) (obs : List GleanMishap)
  | gatherAdd (h : BitVec 2) (j : BitVec 8) (obs : List GleanMishap)
  | gatherPass (h : BitVec 2) (j : BitVec 8) (obs : List GleanMishap)
  | emit (h : BitVec 2) (j : BitVec 8) (obs : List GleanMishap)
  | superblockReceive (c : BitVec 5) (elapsed : BitVec 32) (blocks : List (List Byte))
  | laneLockLoss (l : BitVec 10)
  | laneLockRegain (l : BitVec 10)
  | segmentReceive (c : BitVec 5)
  | outboundSuperblock (c : BitVec 5) (badLine : Option (BitVec 32 × BitVec 36))
  | hvRelease (p : BitVec 1) (tag : BitVec 8) (stepS : BitVec 48)
  | hvResend (p : BitVec 1) (tag : BitVec 8) (c : BitVec 5) (hseq : BitVec 32)
  | read (p : BitVec 1) (tag : BitVec 8) (addr : BitVec 48) (len : BitVec 13)
  | write (p : BitVec 1) (tag : BitVec 8) (addr : BitVec 48) (data : List Byte)
  | hello (p : BitVec 1) (tag : BitVec 8) (payload : BitVec 128)
  | packetBadType (p : BitVec 1)
  | portDown (p : BitVec 1)
  | portUp (p : BitVec 1)
  | give (p : BitVec 1) (tag : BitVec 8) (first : BitVec 20) (count : BitVec 21)
  | share (p : BitVec 1) (tag : BitVec 8) (first : BitVec 20) (count : BitVec 21)
  | void (p : BitVec 1) (tag : BitVec 8) (first : BitVec 20) (count : BitVec 21)
  | claim (p : BitVec 1) (tag : BitVec 8) (first : BitVec 20) (count : BitVec 21)
  | reclaim (p : BitVec 1) (tag : BitVec 8) (first : BitVec 20) (count : BitVec 21)
  | recall (p : BitVec 1) (tag : BitVec 8) (first : BitVec 20) (count : BitVec 21)
  | queueDoorbell (p : BitVec 1) (tag : BitVec 8) (q : BitVec 15) (give : BitVec 32)
  | mgmtRing (p : BitVec 1) (tag : BitVec 8) (i : BitVec 1) (base : BitVec 20) (entries : BitVec 21)
  | nop
  | stepStart (kat : List (BitVec 13))
  | migrationStageDone (badLine : Option (BitVec 13)) (shells : List (BitVec 13))
  | evalStart (kat : List (BitVec 13))
  | apply (obs : ApplyObs)
  | lease
  | dusk (hits : List DuskHit)
  | duskStressPass (hits : List DuskHit) (reached : Bool)
  | witness
  | stagingPass
  | copyIn (q : BitVec 15)
  | copyOut (q : BitVec 15)
  | resOut (q : BitVec 15)
  | ckptNow (q : BitVec 15)
  | restore (q : BitVec 15) (kat : List (BitVec 13))
  | manifestOut (q : BitVec 15)
  | ledgerOut (q : BitVec 15)
  | drainWait (q : BitVec 15)
  | horizonClose (o : CloseObs)
  | loopbackTest (shells : List (BitVec 13 × BitVec 2)) (heads : List (BitVec 2 × BitVec 6))
  | parcelDrained (readable : Bool)
  | applyDiscard (p : BitVec 1) (tag : BitVec 8)
  | leaseExpiry
  | controllerLeaseExchange (fromSouth : Bool)
  | notice (index : BitVec 48) (boundary : BitVec 64) (mt phase : BitVec 16) (latency : BitVec 8)
  | ack (what : TwinAck)
  | twinHorizon (stepS : BitVec 48) (committed : Bool)
  | twinLease (raw : List Byte)
  | heartbeat (acks : List (BitVec 64)) (held : BitVec 32)
  | ledger (seq : BitVec 64) (rec : List Byte)
  | manifest (seq : BitVec 64) (m : List Byte)
  | parcel (seq : BitVec 64) (layer : BitVec 4) (tile : BitVec 24) (elements : BitVec 32) (data : List Byte)
  | twinPeriodicSend
  | twinResendTimeout
  | padScrub (lid : BitVec 24) (address : BitVec 23) (uncorrectable : Bool)
  | loamScrub (line : ScrubLine) (found : ScrubFound) (last : Bool)
  | historyLogWrite (half : BitVec 1) (flashError : Bool)
  | railFault (i : BitVec 3)
  | bedWarn
  | regulatorPhaseLoss (n : BitVec 8) (phase : BitVec 3) (cause : BitVec 2)
  | regionShort (n : BitVec 8) (peak ns : BitVec 16)
  | contactSuspect (k : BitVec 6) (excess amps : BitVec 16)
  | paceLower
  | paceRaise
  | feedWithdrawn (cause : BitVec 2)
  | wakeStage (n : BitVec 8)
  | wakeComplete (n : BitVec 8)
  | wakeDeferExpired (n : BitVec 8)
  | coolantRange (inlet outlet flow : BitVec 12)
  | bringUp (obs : BootObs)
  | regionSwitchGroupClose
  | mgmtHeartbeat (missNorth missSouth : Bool) (t : Telemetry)
  | controllerLost (half : BitVec 1)
  | meridianCountRecord
  | laneRegate (p : BitVec 1) (tag : BitVec 8) (channels : BitVec 32) (twin : Bool)
  | regateDone (passed : List (BitVec 10))
  | keyLoad (p : BitVec 1) (tag : BitVec 8) (parcel : BitVec 20)
  | keyLoadTakeEffect
  | attestReq (p : BitVec 1) (tag : BitVec 8) (parcel : BitVec 20)
  | traceSample
  | registerWrite (p : BitVec 1) (tag : BitVec 8) (addr : BitVec 48) (value : BitVec 64)
  | periodStretch (n : BitVec 8) (codes : BitVec 32)
  | restoreLimitExpired
  | railOutOfToleranceLimit (i : BitVec 3)
  | railInTolerance (i : BitVec 3) (delayUs rampUs : BitVec 32) (clean : Bool)
  | feedTimeout
  | coolantInRange (inlet outlet flow : BitVec 12)
  | loamHotChange (p : BitVec 13) (layer : BitVec 1) (hot : Bool)
  | twinLinkSuperblock
  deriving DecidableEq, Repr

end Sys2Proof
end

