-- ==== Sys2Proof/WellFormed.lean ====
section
/-! DEFINITION. Which operands a command can carry at all: what the encodings of the slot words admit (R161, R166-R168,
R170-R173, R176, R177), and the ranges of the numbers that name a unit. A word outside them is refused at apply and
never runs (R178); a meaning answers it with the fault illFormed. -/

namespace Sys2Proof

/-- A slot is 0 to 47 (R166). -/
def slotOk (slot : BitVec 6) : Bool := decide (slot.toNat < 48)

/-- R168: fields an array opcode does not use are zero; with CSRC = 1, RC is zero, else CIMM is. -/
def ArrayWord.ok (o : ArrayWord) (op : Nat) : Bool :=
  let count := if o.csrc then o.rc == 0 else o.cimm == 0
  let noCount := o.rc == 0 && !o.csrc && o.cimm == 0
  if op = 1 ∨ op = 2 then o.rb == 0 && o.fmtB == 0 && !o.clr && count
  else if op = 3 then o.rd == 0 && o.outFmt == 0 && !o.acc && !o.rnd && count
  else if op = 4 then o.ra == 0 && o.rb == 0 && noCount && o.fmtA == 0 && o.fmtB == 0 && !o.acc
  else if op = 5 then !o.clr && count
  else if op = 6 then
    o.rb == 0 && o.rd == 0 && noCount && o.fmtB == 0 && o.outFmt == 0 && !o.acc && !o.rnd && !o.clr
  else
    o.ra == 0 && o.rb == 0 && o.rd == 0 && noCount && o.fmtA == 0 && o.fmtB == 0 && o.outFmt == 0 && !o.acc && !o.rnd &&
      !o.clr

/-- Largest EXT, and the EXT bits, that a vector opcode defines (R171, R172). -/
def vecExtOk (op ext : Nat) : Bool :=
  if op = 3 ∨ op = 4 then decide (ext < 16)
  else if op = 5 then ext % 256 == ext && ext / 4 % 4 == 0
  else if op = 12 then decide (ext < 6)
  else if 16 ≤ op ∧ op ≤ 18 then decide (ext < 32)
  else if op = 28 then decide (ext < 7)
  else if 48 ≤ op ∧ op ≤ 54 then decide (ext < 2)
  else if 58 ≤ op ∧ op ≤ 61 then
    let fmt := ext / 2 ^ 20
    let blk := ext / 2 ^ 18 % 4
    ext / 2 ^ 12 % 32 == 0 && (blk == 0 || (decide (5 ≤ fmt) && decide (fmt ≤ 10))) &&
      (op == 59 || op == 61 || ext / 2 ^ 17 % 2 == 0)
  else if op = 62 then decide (ext < 6)
  else ext == 0

/-- R170, R171: unused fields are zero, mask registers are m0 to m7, and no word writes m0 (R134). -/
def VecWord.ok (o : VecWord) (op : Nat) : Bool :=
  let td := o.td.toNat
  let mask := decide (0 < td) && decide (td < 8)
  let two := (8 ≤ op && op ≤ 15) || op == 19 || op == 20 || (24 ≤ op && op ≤ 28) || op == 31 || op == 32 || op == 6
  let load := 58 ≤ op && op ≤ 61
  vecExtOk op o.ext.toNat &&
  (op == 20 || op == 32 || o.tc == 0) &&
  (two || load || op == 35 || op == 36 || o.tb == 0) &&
  (if op = 12 ∨ op = 28 then mask else if op = 35 ∨ op = 36 ∨ op = 37 then
      mask && decide (o.ta.toNat < 8) && decide (o.tb.toNat < 8) && o.msk == 0
    else if 55 ≤ op ∧ op ≤ 57 then decide (o.ta.toNat < 8)
    else if op = 58 ∨ op = 60 then o.ta == 0
    else if op = 59 ∨ op = 61 then o.td == 0
    else true) &&
  (!(op == 6 || (35 ≤ op && op ≤ 37) || (48 ≤ op && op ≤ 57) || op == 59 || op == 61) || !o.mz)

/-- R173: spaces are assigned, loam to loam does not exist, and unused fields are zero. -/
def MoverWord.ok (o : MoverWord) (op : Nat) : Bool :=
  decide (o.ssp ≠ 3) && decide (o.dsp ≠ 3) && !(o.ssp == 1 && o.dsp == 1) && (op == 1 || o.ssp == 0) &&
    (if o.lsrc then o.gl == 0 else o.len == 0) && (o.ssp == 2 || !o.aprev)

/-- R176, R177: the fields outside a control opcode's layout are zero, its condition is assigned, a shift is below
64. -/
def CtlWord.ok (o : CtlWord) (op : Nat) : Bool :=
  let noTable := o.index == 0 && !o.typ
  let noVote := o.chan == 0
  if op ≤ 11 then
    o.imm == 0 && noTable && noVote && (op == 10 || o.rs3 == 0) && (if op = 9 then decide (o.cond.toNat < 6) else o.cond == 0)
  else if op ≤ 25 then
    o.rs2 == 0 && o.rs3 == 0 && noTable && noVote && (if op = 23 then decide (o.cond.toNat < 6) else o.cond == 0) &&
      (!(20 ≤ op && op ≤ 22) || decide (o.imm.toNat < 64)) && (!(op == 24 || op == 25) || o.rs1 == 0)
  else if op = 26 then
    o.rs1 == 0 && o.rs2 == 0 && o.rs3 == 0 && o.cond == 0 && o.imm == 0 && !o.typ && noVote
  else if op = 32 ∨ op = 34 then o.rs2 == 0 && o.rs3 == 0 && o.cond == 0 && noTable && noVote
  else if op = 33 ∨ op = 35 then o.rd == 0 && o.rs3 == 0 && o.cond == 0 && noTable && noVote
  else if op = 40 then o.rd == 0 && o.rs2 == 0 && o.rs3 == 0 && o.cond == 0 && o.imm == 0 && noTable
  else if op = 41 then o.rs1 == 0 && o.rs2 == 0 && o.rs3 == 0 && o.cond == 0 && o.imm == 0 && noTable
  else o.rd == 0 && o.rs2 == 0 && o.rs3 == 0 && o.cond == 0 && o.imm == 0 && noVote

/-- The unit exists. -/
def TrainUnit.ok : TrainUnit → Bool
  | .lane l => decide (l.toNat < 528)
  | .loam p => decide (p.toNat < 5120)
  | .watch => true
  | .headLoam _ => true
  | .crossing _ => true
  | .trim _ => true

/-- The sites and lanes that an observation names exist. -/
def bootObsOk (o : BootObs) : Bool :=
  let site (p : BitVec 13) := decide (p.toNat < 5120)
  let lane (l : BitVec 10) := decide (l.toNat < 528)
  o.lanesOut.all lane && o.loamOut.all site && o.silent.all site && o.cores.all site &&
    (o.march.all fun f => match f with
      | .pad p _ => site p
      | .slotMem p _ => site p
      | .route p _ => site p
      | .map p _ => site p
      | .bench _ _ => true) &&
    (o.weakRows.all fun x => site x.1) && (o.hopeless.all fun x => site x.1) && (o.laneFails.all fun x => lane x.1) &&
    (o.walk.all fun x => site x.1) && (o.trained.all fun x => x.1.ok) && decide (o.refreshMin.toNat < 3)

/-- The commands whose operands can occur: exactly these answer a next state; the others fault with illFormed. -/
def Instr.wellFormed : Instr → Bool
  | .meridianFrame _ _ => true
  | .meridianReferenceTimeout => true
  | .multiplierLockLoss => true
  | .grantSample => true
  | .furrowBoundary => true
  | .holdLimitFault => true
  | .furrowSlotsEnd _ _ => true
  | .marginFault _ _ => true
  | .wload i o => slotOk i.slot && o.ok 6
  | .shadowReady _ => true
  | .swap i o => slotOk i.slot && o.ok 7
  | .rows i o => slotOk i.slot && o.ok 1
  | .trows i o => slotOk i.slot && o.ok 2
  | .oacc i o => slotOk i.slot && o.ok 3
  | .odrain i o => slotOk i.slot && o.ok 4
  | .ediag i o => slotOk i.slot && o.ok 5
  | .arrayRowOutcome _ slot _ _ _ _ => slotOk slot
  | .vcopy i o => slotOk i.slot && o.ok 0x01
  | .vtrans i o => slotOk i.slot && o.ok 0x02
  | .vbcrow i o => slotOk i.slot && o.ok 0x03
  | .vbccol i o => slotOk i.slot && o.ok 0x04
  | .veshift i o => slotOk i.slot && o.ok 0x05
  | .vsel i o => slotOk i.slot && o.ok 0x06
  | .vsplat i o => slotOk i.slot && o.ok 0x07
  | .iadd i o => slotOk i.slot && o.ok 0x08
  | .isub i o => slotOk i.slot && o.ok 0x09
  | .imin i o => slotOk i.slot && o.ok 0x0A
  | .imax i o => slotOk i.slot && o.ok 0x0B
  | .icmp i o => slotOk i.slot && o.ok 0x0C
  | .vecAnd i o => slotOk i.slot && o.ok 0x0D
  | .vecOr i o => slotOk i.slot && o.ok 0x0E
  | .vecXor i o => slotOk i.slot && o.ok 0x0F
  | .vecShl i o => slotOk i.slot && o.ok 0x10
  | .vecShr i o => slotOk i.slot && o.ok 0x11
  | .vecShra i o => slotOk i.slot && o.ok 0x12
  | .imul i o => slotOk i.slot && o.ok 0x13
  | .imadd i o => slotOk i.slot && o.ok 0x14
  | .fadd i o => slotOk i.slot && o.ok 0x18
  | .fsub i o => slotOk i.slot && o.ok 0x19
  | .fmin i o => slotOk i.slot && o.ok 0x1A
  | .fmax i o => slotOk i.slot && o.ok 0x1B
  | .fcmp i o => slotOk i.slot && o.ok 0x1C
  | .fabs i o => slotOk i.slot && o.ok 0x1D
  | .fneg i o => slotOk i.slot && o.ok 0x1E
  | .fmul i o => slotOk i.slot && o.ok 0x1F
  | .ffma i o => slotOk i.slot && o.ok 0x20
  | .cvtfi i o => slotOk i.slot && o.ok 0x21
  | .cvtif i o => slotOk i.slot && o.ok 0x22
  | .mand i o => slotOk i.slot && o.ok 0x23
  | .mor i o => slotOk i.slot && o.ok 0x24
  | .mnot i o => slotOk i.slot && o.ok 0x25
  | .frowsum i o => slotOk i.slot && o.ok 0x28
  | .fcolsum i o => slotOk i.slot && o.ok 0x29
  | .frowmax i o => slotOk i.slot && o.ok 0x2A
  | .fcolmax i o => slotOk i.slot && o.ok 0x2B
  | .irowsum i o => slotOk i.slot && o.ok 0x2C
  | .icolsum i o => slotOk i.slot && o.ok 0x2D
  | .sum i o => slotOk i.slot && o.ok 0x30
  | .sumsq i o => slotOk i.slot && o.ok 0x31
  | .max i o => slotOk i.slot && o.ok 0x32
  | .min i o => slotOk i.slot && o.ok 0x33
  | .absmax i o => slotOk i.slot && o.ok 0x34
  | .cntnf i o => slotOk i.slot && o.ok 0x35
  | .cntnz i o => slotOk i.slot && o.ok 0x36
  | .many i o => slotOk i.slot && o.ok 0x37
  | .mall i o => slotOk i.slot && o.ok 0x38
  | .mpop i o => slotOk i.slot && o.ok 0x39
  | .vld i o => slotOk i.slot && o.ok 0x3A
  | .vst i o => slotOk i.slot && o.ok 0x3B
  | .vldl i o => slotOk i.slot && o.ok 0x3C
  | .vstl i o => slotOk i.slot && o.ok 0x3D
  | .sfu i o => slotOk i.slot && o.ok 0x3E
  | .mcopy i o => slotOk i.slot && o.ok 1
  | .mfill i o => slotOk i.slot && o.ok 2
  | .cAdd i o => slotOk i.slot && o.ok 0x01
  | .cSub i o => slotOk i.slot && o.ok 0x02
  | .cAnd i o => slotOk i.slot && o.ok 0x03
  | .cOr i o => slotOk i.slot && o.ok 0x04
  | .cXor i o => slotOk i.slot && o.ok 0x05
  | .cShl i o => slotOk i.slot && o.ok 0x06
  | .cShr i o => slotOk i.slot && o.ok 0x07
  | .cShra i o => slotOk i.slot && o.ok 0x08
  | .cCmp i o => slotOk i.slot && o.ok 0x09
  | .cSel i o => slotOk i.slot && o.ok 0x0A
  | .cMul i o => slotOk i.slot && o.ok 0x0B
  | .cAddi i o => slotOk i.slot && o.ok 0x10
  | .cAndi i o => slotOk i.slot && o.ok 0x11
  | .cOri i o => slotOk i.slot && o.ok 0x12
  | .cXori i o => slotOk i.slot && o.ok 0x13
  | .cShli i o => slotOk i.slot && o.ok 0x14
  | .cShri i o => slotOk i.slot && o.ok 0x15
  | .cShrai i o => slotOk i.slot && o.ok 0x16
  | .cCmpi i o => slotOk i.slot && o.ok 0x17
  | .cLil i o => slotOk i.slot && o.ok 0x18
  | .cLih i o => slotOk i.slot && o.ok 0x19
  | .cConst i o => slotOk i.slot && o.ok 0x1A
  | .cLd i o => slotOk i.slot && o.ok 0x20
  | .cSt i o => slotOk i.slot && o.ok 0x21
  | .cLdl i o => slotOk i.slot && o.ok 0x22
  | .cStl i o => slotOk i.slot && o.ok 0x23
  | .cVote i o => slotOk i.slot && o.ok 0x28
  | .cVread i o => slotOk i.slot && o.ok 0x29
  | .cExpect i o => slotOk i.slot && o.ok 0x2C
  | .looseAccessOverrun _ => true
  | .voteResult _ _ => true
  | .routeWord p _ _ => decide (p.toNat < 5120)
  | .dispatchWord _ _ _ => true
  | .gatherStart _ _ _ => true
  | .gatherAdd _ _ _ => true
  | .gatherPass _ _ _ => true
  | .emit _ _ _ => true
  | .superblockReceive _ _ blocks => decide (blocks.length = 16) && blocks.all fun b => decide (b.length = 1024)
  | .laneLockLoss l => decide (l.toNat < 528)
  | .laneLockRegain l => decide (l.toNat < 528)
  | .segmentReceive _ => true
  | .outboundSuperblock _ _ => true
  | .hvRelease _ _ _ => true
  | .hvResend _ _ _ _ => true
  | .read _ _ _ _ => true
  | .write _ _ _ data => decide (data.length < 8192)
  | .hello _ _ _ => true
  | .packetBadType _ => true
  | .portDown _ => true
  | .portUp _ => true
  | .give _ _ _ _ => true
  | .share _ _ _ _ => true
  | .void _ _ _ _ => true
  | .claim _ _ _ _ => true
  | .reclaim _ _ _ _ => true
  | .recall _ _ _ _ => true
  | .queueDoorbell _ _ _ _ => true
  | .mgmtRing _ _ _ _ _ => true
  | .nop => true
  | .stepStart _ => true
  | .migrationStageDone _ _ => true
  | .evalStart _ => true
  | .apply _ => true
  | .lease => true
  | .dusk _ => true
  | .duskStressPass _ _ => true
  | .witness => true
  | .stagingPass => true
  | .copyIn _ => true
  | .copyOut _ => true
  | .resOut _ => true
  | .ckptNow _ => true
  | .restore _ _ => true
  | .manifestOut _ => true
  | .ledgerOut _ => true
  | .drainWait _ => true
  | .horizonClose o => o.bad.all fun x => decide (x.1.toNat < 5120)
  | .loopbackTest _ _ => true
  | .parcelDrained _ => true
  | .applyDiscard _ _ => true
  | .leaseExpiry => true
  | .controllerLeaseExchange _ => true
  | .notice _ _ _ _ _ => true
  | .ack _ => true
  | .twinHorizon _ _ => true
  | .twinLease raw => decide (raw.length = 192)
  | .heartbeat _ _ => true
  | .ledger _ rec => decide (64 ≤ rec.length)
  | .manifest _ m => decide (m.length = 320)
  | .parcel _ _ _ _ data => decide (data.length = 65536)
  | .twinPeriodicSend => true
  | .twinResendTimeout => true
  | .padScrub _ _ _ => true
  | .loamScrub _ _ _ => true
  | .historyLogWrite _ _ => true
  | .railFault i => decide (i.toNat < 6)
  | .bedWarn => true
  | .regulatorPhaseLoss _ _ cause => decide (cause.toNat < 3)
  | .regionShort _ _ _ => true
  | .contactSuspect _ _ _ => true
  | .paceLower => true
  | .paceRaise => true
  | .feedWithdrawn cause => decide (cause.toNat < 3)
  | .wakeStage _ => true
  | .wakeComplete _ => true
  | .wakeDeferExpired _ => true
  | .coolantRange _ _ _ => true
  | .bringUp obs => bootObsOk obs
  | .regionSwitchGroupClose => true
  | .mgmtHeartbeat _ _ _ => true
  | .controllerLost _ => true
  | .meridianCountRecord => true
  | .laneRegate _ _ _ _ => true
  | .regateDone _ => true
  | .keyLoad _ _ _ => true
  | .keyLoadTakeEffect => true
  | .attestReq _ _ _ => true
  | .traceSample => true
  | .registerWrite _ _ _ _ => true
  | .periodStretch _ _ => true
  | .restoreLimitExpired => true
  | .railOutOfToleranceLimit _ => true
  | .railInTolerance i _ _ _ => decide (i.toNat < 6)
  | .feedTimeout => true
  | .coolantInRange _ _ _ => true
  | .loamHotChange p _ _ => decide (p.toNat < 5120)
  | .twinLinkSuperblock => true

end Sys2Proof
end

