-- ==== Sys2Proof/Decode.lean ====
section
/-! DEFINITION. The commands that a word of the table's bits spells. The table gives no row any bits: the block is commanded on its
ports and pins, and no word names a command. -/

namespace Sys2Proof

/-- The command that a word of `nbits` bits spells: none, because no row of the operation table has an encoding. -/
def decodeTableWord (_nbits _w : Nat) : Option Instr := none

end Sys2Proof
end

