-- ==== Sys2Proof/Config.lean ====
section
/-! DEFINITION. What the spec leaves to the hardware and the model leaves free: constants with no body, so that
nothing can be proved of their values, each named by the log entry beside it. Each is applied to a plain counter
or to the operands the value depends on. -/

namespace Sys2Proof.Config

/-- R103: the ratio of a check record whose absolute value a is NaN while S and c are finite, by c and a (log entry 63). -/
opaque checkRatio : BitVec 32 → BitVec 32 → BitVec 32

/-- R174: whether a read of a mover's destination before the completion step sees the new contents of a grain, by
logical id, grain address and array step (log entry 20). -/
opaque moverRace : Nat → Nat → Nat → Bool

/-- R192: what a transient read returns where the current configuration has not written, by site, logical offset and
the count of configurations and dusk tests (log entry 21). -/
opaque loamResidue : Nat → Nat → Nat → Byte

/-- R142: the SFU's result for a function and an input, before the bound of the spec is imposed (log entry 22). -/
opaque sfu : Nat → BitVec 32 → BitVec 32

/-- R63: what a mover reads at a grain of an arrival page that no route placed, by logical id, furrow and grain (log
entry 23). -/
opaque arrivalResidue : Nat → Nat → Nat → Grain

/-- R143, R159: in how many steps a loose access completes, by logical id, array step and address; at most 48 (log entry
24). -/
opaque looseSteps : Nat → Nat → Nat → Nat

/-- R141: the 64 bits of a SUMSQ whose exact sum passes the 64-bit range (log entry 25). -/
opaque sumSquares : Nat → Word

/-- R198: whether a stream read, fetched during the furrow before, saw what that furrow wrote, by logical id, furrow and loam
offset (log entry 26). -/
opaque streamFetch : Nat → Nat → Nat → Bool

/-- R244, R245: what a gleaner reads at a bench grain that no gather word has written in the step, by gleaner and grain (log
entry 27). -/
opaque benchResidue : Nat → Nat → Grain

/-- R322 cause 0x0007: the rate limit of a lane in corrected symbols per second, by lane (log entry 28). -/
opaque laneRateLimit : Nat → Nat

/-- R359: the payload of a twin message, by message type, the fields and the bytes it carries: the spec gives no payload layouts
(log entry 29). -/
opaque twinPayload : Nat → List Nat → List Byte → List Byte

/-- R360: the code of the event that a standby posts for a checkpoint that does not verify: the spec names the event and gives no
code (log entry 32). -/
opaque twinVerifyEvent : Nat

/-- R397, R411: the major, minor and security version of a firmware bundle, from bit 0 up, by its bytes: the spec gives the bundle no
layout (log entry 68). -/
opaque bundleVersion : List Byte → BitVec 48

/-- R322 cause 0x020C: the workload number that a known-answer check reports outside the dusk test, by site (log entry 35). -/
opaque katWorkload : Nat → BitVec 16

/-- R337, R55: what committed loam holds once a dusk test has overwritten it or its shell has gone dark, by byte and dusk test (log
entry 34). -/
opaque duskResidue : Nat → Nat → Byte

/-- R313, R288: the row that the DEGRADED event names where a reload of the programs in effect fails: no row caused it (log entry
33). -/
opaque degradedRow : Nat → BitVec 9

end Sys2Proof.Config
end

