-- ==== Sys2Proof/Machine/Bits.lean ====
section
/-! DEFINITION. Bit fields, byte order and small arithmetic that the chapters share: little-endian byte
strings (R10), bit ranges [msb:lsb], sign extension, 48-bit furrow comparison (R21), bounded search. -/

namespace Sys2Proof.Machine

/-- Bits [lo + w − 1 : lo] of a number. -/
def bitsOf (x lo w : Nat) : Nat := (x >>> lo) % 2 ^ w

/-- Bit `i` of a number. -/
def bitOf (x i : Nat) : Bool := Nat.testBit x i

/-- 1 for true. -/
def b2n (b : Bool) : Nat := if b then 1 else 0

/-- Set bits [lo + w − 1 : lo] of a number to a value. -/
def setBits (x lo w v : Nat) : Nat :=
  x % 2 ^ lo + (v % 2 ^ w) * 2 ^ lo + (x >>> (lo + w)) * 2 ^ (lo + w)

/-- A saturating sum in `w` bits. -/
def satAdd (w a b : Nat) : Nat := min (a + b) (2 ^ w - 1)

/-- The number that little-endian bytes spell (R10). -/
def leNat : List Byte → Nat
  | [] => 0
  | b :: bs => b.toNat + 256 * leNat bs

/-- The `n` little-endian bytes of a number (R10). -/
def leBytes (n x : Nat) : List Byte :=
  match n with
  | 0 => []
  | n + 1 => BitVec.ofNat 8 x :: leBytes n (x / 256)

/-- The number that big-endian bytes spell, as SHA-512 numbers them. -/
def beNat (bs : List Byte) : Nat := leNat bs.reverse

/-- Field [lo + w − 1 : lo] of 64-bit word `i` of a byte string. -/
def wordField (bs : List Byte) (i lo w : Nat) : Nat := bitsOf (leNat ((bs.drop (8 * i)).take 8)) lo w

/-- Little-endian 64-bit words of a list. -/
def wordsBytes (ws : List Nat) : List Byte := (ws.map (leBytes 8)).flatten

/-- Two's complement value of the low `w` bits. -/
def signedOf (w x : Nat) : Int :=
  let y := x % 2 ^ w
  if y < 2 ^ (w - 1) then (y : Int) else (y : Int) - (2 ^ w : Nat)

/-- The `w`-bit two's complement word of an integer. -/
def wordOfInt (w : Nat) (x : Int) : Nat := (x % ((2 ^ w : Nat) : Int)).toNat

/-- R21: furrow number `a` is later than `b`, modulo 2^48. -/
def furrowLater (a b : Nat) : Bool :=
  let d := (a + 2 ^ 48 - b % 2 ^ 48) % 2 ^ 48
  decide (1 ≤ d) && decide (d ≤ 2 ^ 47 - 1)

/-- A furrow number `n` after another, modulo 2^48 (R21). -/
def furrowAdd (a n : Nat) : Nat := (a + n) % 2 ^ 48

/-- Population count of the low `w` bits. -/
def popCount (w x : Nat) : Nat := ((List.range w).filter fun i => Nat.testBit x i).length

/-- ⌈a / b⌉. -/
def ceilDiv (a b : Nat) : Nat := (a + b - 1) / b

/-- Split a list into pieces of `n`, the last one possibly shorter; `fuel` bounds the pieces. -/
def chunksFuel {α : Type} (fuel n : Nat) (xs : List α) : List (List α) :=
  match fuel with
  | 0 => []
  | f + 1 => match xs with
    | [] => []
    | _ => xs.take n :: chunksFuel f n (xs.drop n)

/-- Split a list into pieces of `n`. -/
def chunks {α : Type} (n : Nat) (xs : List α) : List (List α) := chunksFuel xs.length n xs

/-- Pad a byte string with zeros to a multiple of `n`. -/
def padTo (n : Nat) (bs : List Byte) : List Byte :=
  bs ++ List.replicate ((n - bs.length % n) % n) 0

/-- Zero bytes. -/
def zeroBytes (n : Nat) : List Byte := List.replicate n 0

/-- Exclusive-or of two byte strings of one length. -/
def xorBytes (a b : List Byte) : List Byte := List.zipWith (· ^^^ ·) a b

end Sys2Proof.Machine
end

