-- ==== Sys2Proof/Machine/Crc.lean ====
section
/-! DEFINITION. The cyclic redundancy checks the spec names: CRC-32 with the IEEE 802.3 polynomial (R16),
CRC-32C (R153, R219, R267, R325, R351) and CRC-64 with the ECMA-182 polynomial in its reflected form (R219).
All three run reflected, from all ones, with a final complement; the spec states this for CRC-64, and for the
two 32-bit checks it is the standard form of the named code (log entry 8). -/

namespace Sys2Proof.Machine

/-- One bit of a reflected CRC register. -/
def crcStep (poly r : Nat) : Nat := if r % 2 = 1 then (r / 2) ^^^ poly else r / 2

/-- Eight bits of a reflected CRC register. -/
def crcByteLoop (poly : Nat) : Nat → Nat → Nat
  | 0, r => r
  | n + 1, r => crcByteLoop poly n (crcStep poly r)

/-- A reflected CRC register after a byte string. -/
def crcRun (poly : Nat) : List Byte → Nat → Nat
  | [], r => r
  | b :: bs, r => crcRun poly bs (crcByteLoop poly 8 (r ^^^ b.toNat))

/-- CRC-32, IEEE 802.3. -/
def crc32 (bs : List Byte) : Nat := crcRun 0xEDB88320 bs 0xFFFFFFFF ^^^ 0xFFFFFFFF
/-- CRC-32C. -/
def crc32c (bs : List Byte) : Nat := crcRun 0x82F63B78 bs 0xFFFFFFFF ^^^ 0xFFFFFFFF
/-- CRC-64, ECMA-182, reflected. -/
def crc64 (bs : List Byte) : Nat :=
  crcRun 0xC96C5795D7870F42 bs 0xFFFFFFFFFFFFFFFF ^^^ 0xFFFFFFFFFFFFFFFF

end Sys2Proof.Machine
end

