-- ==== Sys2Proof/Machine/Sha512.lean ====
section
/-! DEFINITION. SHA-512 (FIPS 180-4), the digest the spec names for plans, sowing and harvest digests,
checkpoint roots and witnesses (R10, R234, R260, R306, R348, R422). Its constants are computed from what the standard says they are:
the first 64 bits of the fractional parts of square and cube roots of primes. -/

namespace Sys2Proof.Machine.Sha512

/-- A prime below 23², by trial division. -/
def prime (n : Nat) : Bool :=
  decide (2 ≤ n) && [2, 3, 5, 7, 11, 13, 17, 19].all fun q => n == q || n % q != 0
/-- The first eighty primes. -/
def primes : List Nat := (List.range 410).filter prime

/-- The largest r below 2^bits added to `r` with r^k ≤ x, found bit by bit from the top. -/
def root (k x : Nat) : Nat → Nat → Nat
  | 0, r => r
  | b + 1, r => root k x b (if (r + 2 ^ b) ^ k ≤ x then r + 2 ^ b else r)
/-- The first 64 bits of the fractional part of the k-th root of n. -/
def fraction (k n : Nat) : Nat := root k (n * 2 ^ (64 * k)) 70 0 % 2 ^ 64

/-- The round constants, from cube roots, and the initial hash value, from square roots. -/
def roundKeys : List Nat := primes.map (fraction 3)
def start : List Nat := (primes.take 8).map (fraction 2)

/-- A word turned right by k places. -/
def turn (x k : Nat) : Nat := x / 2 ^ k + x % 2 ^ k * 2 ^ (64 - k)
/-- The sum modulo 2 of a word's turns by each place of a list, and a further word. -/
def mix (places : List Nat) (x more : Nat) : Nat := places.foldl (fun acc k => acc ^^^ turn x k) more
/-- Each bit of y where x has 1, of z where it has 0; and the bit that most of three words have. -/
def choose (x y z : Nat) : Nat := z ^^^ (x &&& (y ^^^ z))
def most (x y z : Nat) : Nat := (x &&& (y ||| z)) ||| (y &&& z)

/-- The schedule, newest word first, longer by one. -/
def nextWord (ws : List Nat) : Nat :=
  let old (k : Nat) : Nat := ws.getD (k - 1) 0
  (old 16 + old 7 + mix [1, 8] (old 15) (old 15 / 2 ^ 7) + mix [19, 61] (old 2) (old 2 / 2 ^ 6)) % 2 ^ 64
/-- The words of the eighty rounds. -/
def schedule (ws : List Nat) : List Nat :=
  ((List.range 64).foldl (fun acc _ => nextWord acc :: acc) ws.reverse).reverse

/-- One round on the eight working words, by key and schedule word together. -/
def round (v : List Nat) (kw : Nat) : List Nat :=
  match v with
  | [a, b, c, d, e, f, g, h] =>
    let t := h + mix [14, 18, 41] e 0 + choose e f g + kw
    [(t + mix [28, 34, 39] a 0 + most a b c) % 2 ^ 64, a, b, c, (d + t) % 2 ^ 64, e, f, g]
  | _ => v

/-- The hash value after one block of sixteen words. -/
def block (hv ws : List Nat) : List Nat :=
  let v := (List.zipWith (· + ·) roundKeys (schedule ws)).foldl round hv
  List.zipWith (fun x y => (x + y) % 2 ^ 64) hv v

/-- The padded message (R10: byte strings in the order of the standard). -/
def padded (bs : List Byte) : List Byte :=
  let n := bs.length
  let z := (256 - (n + 17) % 128) % 128
  bs ++ 0x80#8 :: (zeroBytes z ++ (leBytes 16 (8 * n)).reverse)

/-- The 64-byte digest. -/
def hash (bs : List Byte) : List Byte :=
  let hv := (chunks 128 (padded bs)).foldl (fun hv blk => block hv ((chunks 8 blk).map beNat)) start
  (hv.map fun x => (leBytes 8 x).reverse).flatten

end Sys2Proof.Machine.Sha512

/-- The SHA-512 digest of a byte string, 64 bytes in the order of the standard. -/
def Sys2Proof.Machine.sha512 (bs : List Sys2Proof.Byte) : List Sys2Proof.Byte :=
  Sys2Proof.Machine.Sha512.hash bs
end

