-- ==== Sys2Proof/Machine/Ed25519.lean ====
section
/-! DEFINITION. Ed25519 (RFC 8032), the signature the spec names for plans, leases, manifests, CAPS, key lists,
attestation and witnesses (R10, R272, R305, R348, R355, R420-R422): public key, signing and verification. -/

namespace Sys2Proof.Machine.Ed25519

/-- The field prime 2^255 − 19. -/
def p : Nat := 2 ^ 255 - 19
/-- The group order. -/
def ord : Nat := 2 ^ 252 + 27742317777372353535851937790883648493

def fadd (a b : Nat) : Nat := (a + b) % p
def fsub (a b : Nat) : Nat := (a + (p - b % p)) % p
def fmul (a b : Nat) : Nat := a * b % p

/-- a^e in the field, `fuel` bits. -/
def fpow (fuel a e : Nat) : Nat :=
  match fuel with
  | 0 => 1
  | n + 1 =>
    let r := fpow n (fmul a a) (e / 2)
    if e % 2 = 1 then fmul a r else r

def finv (a : Nat) : Nat := fpow 256 a (p - 2)

/-- The curve constant −121665/121666. -/
def d : Nat := 37095705934669439343138083508754565189542113879843219016388785533085940283555
/-- √−1. -/
def sqrtM1 : Nat := 19681161376707505956807079304988542015446066515923890162744021073123829784752

/-- A point in extended coordinates. -/
structure Pt where
  x : Nat
  y : Nat
  z : Nat
  t : Nat

/-- The neutral point. -/
def zero : Pt := ⟨0, 1, 1, 0⟩

/-- The base point. -/
def base : Pt :=
  let x := 15112221349535400772501151409588531511454012693041857206046113283949847762202
  let y := 46316835694926478169428394003475163141307993866256225615783033603165251855960
  ⟨x, y, 1, fmul x y⟩

/-- Point addition. -/
def add (a b : Pt) : Pt :=
  let aa := fmul (fsub a.y a.x) (fsub b.y b.x)
  let bb := fmul (fadd a.y a.x) (fadd b.y b.x)
  let cc := fmul (fmul (2 * a.t) d) b.t
  let dd := fmul (2 * a.z) b.z
  let e := fsub bb aa
  let f := fsub dd cc
  let g := fadd dd cc
  let h := fadd bb aa
  ⟨fmul e f, fmul g h, fmul f g, fmul e h⟩

/-- n · a, `fuel` bits. -/
def smul (fuel n : Nat) (a : Pt) : Pt :=
  match fuel with
  | 0 => zero
  | k + 1 =>
    let r := smul k (n / 2) (add a a)
    if n % 2 = 1 then add a r else r

/-- Equality of points. -/
def eqPt (a b : Pt) : Bool :=
  fmul a.x b.z == fmul b.x a.z && fmul a.y b.z == fmul b.y a.z

/-- The 32-byte encoding of a point. -/
def encodePt (a : Pt) : List Byte :=
  let zi := finv a.z
  let x := fmul a.x zi
  let y := fmul a.y zi
  leBytes 32 (y + (x % 2) * 2 ^ 255)

/-- The point a 32-byte string encodes, if any (RFC 8032, 5.1.3). -/
def decodePt (bs : List Byte) : Option Pt :=
  let v := leNat bs
  let sign := v / 2 ^ 255 % 2
  let y := v % 2 ^ 255
  if p ≤ y then none else
    let u := fsub (fmul y y) 1
    let w := fadd (fmul d (fmul y y)) 1
    let w3 := fmul w (fmul w w)
    let w7 := fmul w3 (fmul w3 w)
    let x0 := fmul (fmul u w3) (fpow 256 (fmul u w7) ((p - 5) / 8))
    let vx := fmul w (fmul x0 x0)
    let x1? := if vx = u then some x0 else if vx = fsub 0 u then some (fmul x0 sqrtM1) else none
    match x1? with
    | none => none
    | some x1 =>
      if x1 = 0 ∧ sign = 1 then none
      else
        let x := if x1 % 2 = sign then x1 else p - x1
        some ⟨x, y, 1, fmul x y⟩

/-- The clamped scalar of a secret key. -/
def scalar (h : List Byte) : Nat :=
  let a := leNat (h.take 32)
  a % 2 ^ 254 / 8 * 8 + 2 ^ 254

/-- The public key of a 32-byte secret. -/
def publicKey (secret : List Byte) : List Byte := encodePt (smul 256 (scalar (sha512 secret)) base)

/-- The 64-byte signature. -/
def sign (secret msg : List Byte) : List Byte :=
  let h := sha512 secret
  let a := scalar h
  let pk := encodePt (smul 256 a base)
  let r := leNat (sha512 (h.drop 32 ++ msg)) % ord
  let rb := encodePt (smul 256 r base)
  let k := leNat (sha512 (rb ++ pk ++ msg)) % ord
  rb ++ leBytes 32 ((r + k * a) % ord)

/-- Verification. -/
def verify (pk msg sig : List Byte) : Bool :=
  let s := leNat (sig.drop 32)
  if sig.length ≠ 64 ∨ pk.length ≠ 32 ∨ ord ≤ s then false else
    match decodePt pk, decodePt (sig.take 32) with
    | some a, some r =>
      let k := leNat (sha512 (sig.take 32 ++ pk ++ msg)) % ord
      eqPt (smul 256 s base) (add r (smul 256 k a))
    | _, _ => false

end Sys2Proof.Machine.Ed25519
end

