-- ==== Sys2Proof/Machine/Regs.lean ====
section
/-! DEFINITION. The register map of the spec: every field of every register table, by the register's own
name, with its address, place, width, access code, reset value and whether its description begins "Live."
(R11, R12; R41, R42, R60, R78, R79, R107, R108, R132, R133, R157-R159, R182, R183, R210-R212, R238-R240,
R264, R265, R291-R293, R319, R340, R366, R390, R411, R414, R428, R443). -/

namespace Sys2Proof.Machine

/-- Access codes (R11). -/
inductive Access | ro | rw | wo | w1c
  deriving DecidableEq, Repr

/-- One field of one register instance: the register's control-port address, the field's lowest bit, its
width and its reset value. -/
structure Fld where
  addr : Nat
  lo : Nat
  width : Nat
  reset : Nat
  deriving DecidableEq, Repr

/-- The key of a field in the sparse field map: one number for address and lowest bit. -/
def Fld.key (f : Fld) : Nat := f.addr * 64 + f.lo

/-- One row of a register's field table. -/
structure FieldRow where
  name : String
  lo : Nat
  width : Nat
  access : Access
  live : Bool
  reset : Nat
  deriving DecidableEq, Repr

/-- One level of instance numbering: the address stride, the first number and the count up to the last. -/
structure Dim where
  stride : Nat
  first : Nat
  limit : Nat
  deriving DecidableEq, Repr

/-- One register of a map table; `config` marks the configuration registers, whose writes go to the shadow
copy (R11, R41, R311). -/
structure RegRow where
  name : String
  base : Nat
  dims : List Dim
  config : Bool
  fields : List FieldRow
  deriving DecidableEq, Repr

def F.MERIDIAN_COUNT.COUNT : Fld := ⟨0x100000010000, 0, 64, 0x0⟩
def F.FURROW_INDEX.INDEX : Fld := ⟨0x100000010008, 0, 48, 0x0⟩
def F.FURROW_CFG.FURROW_MT : Fld := ⟨0x100000010010, 0, 16, 0x28⟩
def F.FURROW_CFG.FURROW_PHASE : Fld := ⟨0x100000010010, 16, 16, 0x0⟩
def F.FURROW_CFG.GRANT_EVAL_MT : Fld := ⟨0x100000010010, 32, 8, 0x10⟩
def F.FURROW_CFG.CLOCK_POLICY : Fld := ⟨0x100000010010, 40, 2, 0x0⟩
def F.FURROW_CFG.TWIN_LOCK : Fld := ⟨0x100000010010, 42, 1, 0x0⟩
def F.PACE_CFG.PACE_MODE : Fld := ⟨0x100000010018, 0, 1, 0x0⟩
def F.PACE_CFG.PACE_RATIO : Fld := ⟨0x100000010018, 8, 5, 0x10⟩
def F.PACE_CFG.PACE_FLOOR : Fld := ⟨0x100000010018, 16, 5, 0x8⟩
def F.HOLD_LIMIT.LIMIT : Fld := ⟨0x100000010020, 0, 32, 0x100000⟩
def F.GRANT_STATUS.TERMS : Fld := ⟨0x100000010028, 0, 8, 0x80⟩
def F.GRANT_STATUS.GRANTED : Fld := ⟨0x100000010028, 8, 1, 0x0⟩
def F.HOLD_COUNT.COUNT : Fld := ⟨0x100000010030, 0, 48, 0x0⟩
def F.HOLD_BY_TERM.COUNT (i : Nat) : Fld := ⟨0x100000010040 + 0x8 * i, 0, 48, 0x0⟩
def F.MERIDIAN_STATUS.LOCKED : Fld := ⟨0x100000010080, 0, 1, 0x0⟩
def F.MERIDIAN_STATUS.HOLDOVER_SEEN : Fld := ⟨0x100000010080, 1, 1, 0x0⟩
def F.MERIDIAN_STATUS.CRC_ERR_COUNT : Fld := ⟨0x100000010080, 16, 16, 0x0⟩
def F.MERIDIAN_STATUS.LOSS_COUNT : Fld := ⟨0x100000010080, 32, 16, 0x0⟩
def F.TWIN_LOCK_STATUS.LOCKED : Fld := ⟨0x100000010088, 0, 1, 0x0⟩
def F.TWIN_LOCK_STATUS.LATENCY_MT : Fld := ⟨0x100000010088, 8, 8, 0x0⟩
def F.TWIN_LOCK_STATUS.LOCK_SLIPS : Fld := ⟨0x100000010088, 16, 32, 0x0⟩
def F.PACE_STATUS.EFFECTIVE : Fld := ⟨0x100000010090, 0, 5, 0x10⟩
def F.PACE_STATUS.AT_FLOOR : Fld := ⟨0x100000010090, 5, 1, 0x0⟩
def F.CLK_CFG.STRETCH_THRESH (i : Nat) : Fld := ⟨0x100000100000 + 0x40 * i, 0, 8, 0x8⟩
def F.CLK_CFG.MARGIN_FLOOR (i : Nat) : Fld := ⟨0x100000100000 + 0x40 * i, 8, 8, 0x2⟩
def F.CLK_CFG.SLACK_WARN (i : Nat) : Fld := ⟨0x100000100000 + 0x40 * i, 16, 8, 0x8⟩
def F.MARGIN_NOW.CODES (i : Nat) : Fld := ⟨0x100000100008 + 0x40 * i, 0, 32, 0x0⟩
def F.MARGIN_NOW.LOWEST (i : Nat) : Fld := ⟨0x100000100008 + 0x40 * i, 32, 8, 0x0⟩
def F.STRETCH_COUNT.COUNT (i : Nat) : Fld := ⟨0x100000100010 + 0x40 * i, 0, 48, 0x0⟩
def F.SLACK_MIN.SLACK (i : Nat) : Fld := ⟨0x100000100018 + 0x40 * i, 0, 16, 0x0⟩
def F.SLIP_COUNT.COUNT (i : Nat) : Fld := ⟨0x100000100020 + 0x40 * i, 0, 48, 0x0⟩
def F.OVERRUN_COUNT.COUNT (i : Nat) : Fld := ⟨0x100000100028 + 0x40 * i, 0, 48, 0x0⟩
def F.GRID_SHAPE.PRODUCT_GRADE : Fld := ⟨0x100000020000, 0, 2, 0x0⟩
def F.GRID_SHAPE.CONFIG_GRADE : Fld := ⟨0x100000020000, 2, 2, 0x0⟩
def F.GRID_SHAPE.SEAM_MODE : Fld := ⟨0x100000020000, 4, 1, 0x0⟩
def F.GRID_SHAPE.X_DIM : Fld := ⟨0x100000020000, 16, 12, 0x40⟩
def F.GRID_SHAPE.Y_DIM : Fld := ⟨0x100000020000, 28, 12, 0x40⟩
def F.GRID_SHAPE.HOLE_COUNT : Fld := ⟨0x100000020000, 40, 8, 0x0⟩
def F.GRID_CFG.GRADE : Fld := ⟨0x100000020008, 0, 2, 0x0⟩
def F.GRID_CFG.SEAM_MODE : Fld := ⟨0x100000020008, 2, 1, 0x0⟩
def F.REPAIR_STATUS.DEGRADED : Fld := ⟨0x100000020010, 0, 1, 0x0⟩
def F.REPAIR_STATUS.SUBST_PENDING : Fld := ⟨0x100000020010, 1, 1, 0x0⟩
def F.REPAIR_STATUS.SUBST_COUNT : Fld := ⟨0x100000020010, 16, 16, 0x0⟩
def F.REPAIR_STATUS.LAST_ROW : Fld := ⟨0x100000020010, 32, 9, 0x0⟩
def F.REPAIR_STATUS.ROWS_NO_SPARE : Fld := ⟨0x100000020010, 48, 10, 0x0⟩
def F.HOLE_MAP.DARK (i : Nat) : Fld := ⟨0x100000020020 + 0x8 * i, 0, 64, 0x0⟩
def F.ROW_MAP.POS_SITE (i : Nat) : Fld := ⟨0x100000021000 + 0x8 * i, 0, 32, 0x98763210⟩
def F.ROW_MAP.SITE_STATE (i : Nat) : Fld := ⟨0x100000021000 + 0x8 * i, 32, 20, 0x500⟩
def F.ROW_MAP.SPARE_COUNT (i : Nat) : Fld := ⟨0x100000021000 + 0x8 * i, 52, 4, 0x2⟩
def F.FABRIC_CAPS.GRAIN_BYTES : Fld := ⟨0x100000030000, 0, 8, 0x10⟩
def F.FABRIC_CAPS.GRAINS_WIDE : Fld := ⟨0x100000030000, 8, 8, 0xc0⟩
def F.FABRIC_CAPS.GRAINS_NARROW : Fld := ⟨0x100000030000, 16, 8, 0x30⟩
def F.FABRIC_CAPS.ROUTE_WORDS : Fld := ⟨0x100000030000, 24, 14, 0x2000⟩
def F.FABRIC_CAPS.VOTE_CHANNELS : Fld := ⟨0x100000030000, 38, 5, 0x10⟩
def F.FABRIC_CAPS.VOTE_LATENCY : Fld := ⟨0x100000030000, 48, 4, 0x6⟩
def F.FABRIC_STATUS.PROGRAM : Fld := ⟨0x100000030008, 0, 4, 0x0⟩
def F.FABRIC_STATUS.RUNNING : Fld := ⟨0x100000030008, 4, 1, 0x0⟩
def F.FABRIC_STATUS.STEP_FURROW : Fld := ⟨0x100000030008, 8, 40, 0x0⟩
def F.VOTE_CFG.OP : Fld := ⟨0x100000030010, 0, 16, 0x0⟩
def F.VOTE_CFG.ENABLE : Fld := ⟨0x100000030010, 16, 16, 0x0⟩
def F.VOTE_RESULT.VALUE (i : Nat) : Fld := ⟨0x100000030100 + 0x8 * i, 0, 1, 0x0⟩
def F.VOTE_RESULT.POISONED (i : Nat) : Fld := ⟨0x100000030100 + 0x8 * i, 1, 1, 0x0⟩
def F.VOTE_RESULT.FURROW (i : Nat) : Fld := ⟨0x100000030100 + 0x8 * i, 2, 48, 0x0⟩
def F.EDGE_LINK_FAIL.FAILED (i : Nat) : Fld := ⟨0x100000030200 + 0x8 * i, 0, 64, 0x0⟩
def F.ROUTER_STATUS.RUNNING (i : Nat) : Fld := ⟨0x100000200000 + 0x100 * i, 0, 1, 0x0⟩
def F.ROUTER_STATUS.SHELL_FAIL (i : Nat) : Fld := ⟨0x100000200000 + 0x100 * i, 1, 1, 0x0⟩
def F.ROUTER_STATUS.WORDS_LOADED (i : Nat) : Fld := ⟨0x100000200000 + 0x100 * i, 16, 14, 0x0⟩
def F.GRAINS_SENT.COUNT (i : Nat) (j : Nat) : Fld := ⟨0x100000200008 + 0x100 * i + 0x8 * j, 0, 48, 0x0⟩
def F.CORRECTED.COUNT (i : Nat) (j : Nat) : Fld := ⟨0x100000200028 + 0x100 * i + 0x8 * j, 0, 48, 0x0⟩
def F.UNCORRECTED.COUNT (i : Nat) (j : Nat) : Fld := ⟨0x100000200048 + 0x100 * i + 0x8 * j, 0, 48, 0x0⟩
def F.POISON_COUNT.COUNT (i : Nat) : Fld := ⟨0x100000200068 + 0x100 * i, 0, 48, 0x0⟩
def F.ROUTE_MEM_CORR.COUNT (i : Nat) : Fld := ⟨0x100000200070 + 0x100 * i, 0, 48, 0x0⟩
def F.CHECK_CAPS.TAU_EXP_C8 : Fld := ⟨0x100000040000, 0, 8, 0x14⟩
def F.CHECK_CAPS.TAU_EXP_C16 : Fld := ⟨0x100000040000, 8, 8, 0x13⟩
def F.CHECK_CAPS.TAU_EXP_C32 : Fld := ⟨0x100000040000, 16, 8, 0x12⟩
def F.CHECK_CAPS.A_FLOOR_EXP : Fld := ⟨0x100000040000, 24, 8, 0x64⟩
def F.CHECK_CAPS.PIPE_DEPTH : Fld := ⟨0x100000040000, 32, 8, 0x96⟩
def F.CHECK_CAPS.TURNAROUND : Fld := ⟨0x100000040000, 40, 8, 0x8⟩
def F.CHECK_CAPS.LOAD_READY : Fld := ⟨0x100000040000, 48, 8, 0x88⟩
def F.CHECK_CFG.ACTION : Fld := ⟨0x100000040008, 0, 1, 0x0⟩
def F.CHECK_CFG.SHIFT_C8 : Fld := ⟨0x100000040008, 8, 3, 0x0⟩
def F.CHECK_CFG.SHIFT_C16 : Fld := ⟨0x100000040008, 12, 3, 0x0⟩
def F.CHECK_CFG.SHIFT_C32 : Fld := ⟨0x100000040008, 16, 3, 0x0⟩
def F.CHECK_CFG.RECORD_LIMIT : Fld := ⟨0x100000040008, 24, 8, 0x10⟩
def F.CHK_SUM.COUNT (i : Nat) : Fld := ⟨0x100000040010 + 0x8 * i, 0, 64, 0x0⟩
def F.ARRAY_STATUS.ACTIVE_VALID (i : Nat) : Fld := ⟨0x200000004000 + 0x100000 * i, 0, 1, 0x0⟩
def F.ARRAY_STATUS.SHADOW_STATE (i : Nat) : Fld := ⟨0x200000004000 + 0x100000 * i, 1, 2, 0x0⟩
def F.ARRAY_STATUS.ACC_VALID (i : Nat) : Fld := ⟨0x200000004000 + 0x100000 * i, 3, 1, 0x0⟩
def F.ARRAY_STATUS.ACTIVE_FMT (i : Nat) : Fld := ⟨0x200000004000 + 0x100000 * i, 8, 4, 0x0⟩
def F.ARRAY_STATUS.SHADOW_FMT (i : Nat) : Fld := ⟨0x200000004000 + 0x100000 * i, 12, 4, 0x0⟩
def F.ARRAY_STATUS.MODE (i : Nat) : Fld := ⟨0x200000004000 + 0x100000 * i, 16, 3, 0x0⟩
def F.ARRAY_STATUS.T (i : Nat) : Fld := ⟨0x200000004000 + 0x100000 * i, 32, 32, 0x0⟩
def F.ROWS_STREAMED.COUNT (i : Nat) : Fld := ⟨0x200000004008 + 0x100000 * i, 0, 48, 0x0⟩
def F.CHK_COUNT.COUNT (i : Nat) (j : Nat) : Fld := ⟨0x200000004010 + 0x100000 * i + 0x8 * j, 0, 48, 0x0⟩
def F.SAT_COUNT.COUNT (i : Nat) : Fld := ⟨0x200000004038 + 0x100000 * i, 0, 48, 0x0⟩
def F.LAST_FAIL.FURROW (i : Nat) : Fld := ⟨0x200000004040 + 0x100000 * i, 0, 48, 0x0⟩
def F.LAST_FAIL.SLOT (i : Nat) : Fld := ⟨0x200000004040 + 0x100000 * i, 48, 6, 0x0⟩
def F.LAST_FAIL_DETAIL.ROW (i : Nat) : Fld := ⟨0x200000004048 + 0x100000 * i, 0, 24, 0x0⟩
def F.LAST_FAIL_DETAIL.MODE (i : Nat) : Fld := ⟨0x200000004048 + 0x100000 * i, 24, 3, 0x0⟩
def F.LAST_FAIL_DETAIL.RATIO (i : Nat) : Fld := ⟨0x200000004048 + 0x100000 * i, 32, 32, 0x0⟩
def F.FORMAT_CAPS.CODES : Fld := ⟨0x100000050000, 0, 16, 0x7fff⟩
def F.FORMAT_CAPS.MX_MAJOR : Fld := ⟨0x100000050000, 16, 4, 0x1⟩
def F.FORMAT_CAPS.MX_MINOR : Fld := ⟨0x100000050000, 20, 4, 0x0⟩
def F.FORMAT_CAPS.B16_VERSION : Fld := ⟨0x100000050000, 24, 4, 0x1⟩
def F.FORMAT_CAPS.RNG_ALGO : Fld := ⟨0x100000050000, 28, 4, 0x1⟩
def F.RNG_INIT.STATE (i : Nat) : Fld := ⟨0x200000005000 + 0x100000 * i, 0, 64, 0x1⟩
def F.RNG_STATE.STATE (i : Nat) : Fld := ⟨0x200000005008 + 0x100000 * i, 0, 64, 0x1⟩
def F.RNG_WORDS.COUNT (i : Nat) : Fld := ⟨0x200000005010 + 0x100000 * i, 0, 48, 0x0⟩
def F.CONV_SAT_COUNT.COUNT (i : Nat) : Fld := ⟨0x200000005018 + 0x100000 * i, 0, 48, 0x0⟩
def F.CONV_NONFINITE_COUNT.COUNT (i : Nat) : Fld := ⟨0x200000005020 + 0x100000 * i, 0, 48, 0x0⟩
def F.VECTOR_CAPS.TILE_DIM : Fld := ⟨0x100000060000, 0, 8, 0x10⟩
def F.VECTOR_CAPS.TILE_REGS : Fld := ⟨0x100000060000, 8, 8, 0x20⟩
def F.VECTOR_CAPS.MASK_REGS : Fld := ⟨0x100000060000, 16, 4, 0x8⟩
def F.VECTOR_CAPS.PIPES_M : Fld := ⟨0x100000060000, 20, 4, 0x1⟩
def F.VECTOR_CAPS.PIPES_V : Fld := ⟨0x100000060000, 24, 4, 0x4⟩
def F.VECTOR_CAPS.SFU_FUNCS : Fld := ⟨0x100000060000, 28, 6, 0x3f⟩
def F.VECTOR_CAPS.GEN_REGS : Fld := ⟨0x100000060000, 40, 8, 0x20⟩
def F.VECTOR_CAPS.LOOSE_STEPS : Fld := ⟨0x100000060000, 48, 8, 0x30⟩
def F.VEC_STATUS.PIPES (i : Nat) : Fld := ⟨0x200000006000 + 0x100000 * i, 0, 3, 0x1⟩
def F.VEC_STATUS.SFU (i : Nat) : Fld := ⟨0x200000006000 + 0x100000 * i, 3, 1, 0x0⟩
def F.VEC_STATUS.BUSY (i : Nat) : Fld := ⟨0x200000006000 + 0x100000 * i, 4, 1, 0x0⟩
def F.TILE_OPS.COUNT (i : Nat) : Fld := ⟨0x200000006008 + 0x100000 * i, 0, 48, 0x0⟩
def F.SFU_OPS.COUNT (i : Nat) : Fld := ⟨0x200000006010 + 0x100000 * i, 0, 48, 0x0⟩
def F.VEC_SAT_COUNT.COUNT (i : Nat) : Fld := ⟨0x200000006018 + 0x100000 * i, 0, 48, 0x0⟩
def F.VEC_CHK_FAIL.COUNT (i : Nat) : Fld := ⟨0x200000006020 + 0x100000 * i, 0, 48, 0x0⟩
def F.REG_PARITY_ERR.COUNT (i : Nat) : Fld := ⟨0x200000006028 + 0x100000 * i, 0, 48, 0x0⟩
def F.CTL_STATUS.LAST_VARIANT (i : Nat) : Fld := ⟨0x200000007000 + 0x100000 * i, 0, 2, 0x0⟩
def F.CTL_STATUS.IN_VARIANT (i : Nat) : Fld := ⟨0x200000007000 + 0x100000 * i, 2, 1, 0x0⟩
def F.CTL_STATUS.LAST_FORK (i : Nat) : Fld := ⟨0x200000007000 + 0x100000 * i, 8, 8, 0x0⟩
def F.FORKS_TAKEN.COUNT (i : Nat) (j : Nat) : Fld := ⟨0x200000007008 + 0x100000 * i + 0x8 * j, 0, 48, 0x0⟩
def F.EXPECT_FAIL.COUNT (i : Nat) : Fld := ⟨0x200000007028 + 0x100000 * i, 0, 48, 0x0⟩
def F.WATCHDOG_FAIL.COUNT (i : Nat) : Fld := ⟨0x200000007030 + 0x100000 * i, 0, 48, 0x0⟩
def F.SIGNATURE_FAIL.COUNT (i : Nat) : Fld := ⟨0x200000007038 + 0x100000 * i, 0, 48, 0x0⟩
def F.LOOSE_MAX.STEPS (i : Nat) : Fld := ⟨0x200000007040 + 0x100000 * i, 0, 8, 0x0⟩
def F.SLOT_CAPS.SLOT_WORDS : Fld := ⟨0x100000070000, 0, 16, 0x8000⟩
def F.SLOT_CAPS.SLOTS : Fld := ⟨0x100000070000, 16, 6, 0x30⟩
def F.SLOT_CAPS.UNITS : Fld := ⟨0x100000070000, 22, 3, 0x4⟩
def F.SLOT_CAPS.PROGRAMS : Fld := ⟨0x100000070000, 25, 5, 0x10⟩
def F.SLOT_CAPS.CONST_WORDS : Fld := ⟨0x100000070000, 32, 10, 0x200⟩
def F.SLOT_CAPS.VARIANTS : Fld := ⟨0x100000070000, 42, 3, 0x4⟩
def F.SLOT_CAPS.ISA_MAJOR : Fld := ⟨0x100000070000, 48, 8, 0x1⟩
def F.SLOT_CAPS.ISA_MINOR : Fld := ⟨0x100000070000, 56, 8, 0x0⟩
def F.SEQ_STATUS.PROGRAM (i : Nat) : Fld := ⟨0x200000003000 + 0x100000 * i, 0, 4, 0x0⟩
def F.SEQ_STATUS.PRESENT (i : Nat) : Fld := ⟨0x200000003000 + 0x100000 * i, 4, 1, 0x0⟩
def F.SEQ_STATUS.RUNNING (i : Nat) : Fld := ⟨0x200000003000 + 0x100000 * i, 5, 1, 0x0⟩
def F.SEQ_STATUS.HEADER (i : Nat) : Fld := ⟨0x200000003000 + 0x100000 * i, 8, 15, 0x0⟩
def F.SEQ_STATUS.STEP_FURROW (i : Nat) : Fld := ⟨0x200000003000 + 0x100000 * i, 24, 40, 0x0⟩
def F.PROG_LOADED.SLOT_WORDS (i : Nat) : Fld := ⟨0x200000003008 + 0x100000 * i, 0, 16, 0x0⟩
def F.PROG_LOADED.CONST_WORDS (i : Nat) : Fld := ⟨0x200000003008 + 0x100000 * i, 16, 10, 0x0⟩
def F.PROG_LOADED.PRESENT_MASK (i : Nat) : Fld := ⟨0x200000003008 + 0x100000 * i, 32, 16, 0x0⟩
def F.WORDS_ISSUED.COUNT (i : Nat) : Fld := ⟨0x200000003010 + 0x100000 * i, 0, 48, 0x0⟩
def F.SLOT_CONFLICTS.COUNT (i : Nat) : Fld := ⟨0x200000003018 + 0x100000 * i, 0, 48, 0x0⟩
def F.SLOT_MEM_CORR.COUNT (i : Nat) : Fld := ⟨0x200000003020 + 0x100000 * i, 0, 48, 0x0⟩
def F.SLOT_MEM_UNCORR.COUNT (i : Nat) : Fld := ⟨0x200000003028 + 0x100000 * i, 0, 48, 0x0⟩
def F.MEM_CAPS.PAD_BANK_KIB : Fld := ⟨0x100000080000, 0, 16, 0x400⟩
def F.MEM_CAPS.BANKS_M : Fld := ⟨0x100000080000, 16, 4, 0x8⟩
def F.MEM_CAPS.BANKS_V : Fld := ⟨0x100000080000, 20, 4, 0x6⟩
def F.MEM_CAPS.SITE_LOAM_MIB : Fld := ⟨0x100000080000, 24, 16, 0x258⟩
def F.MEM_CAPS.COMMITTED_MIB : Fld := ⟨0x100000080000, 40, 12, 0x80⟩
def F.MEM_CAPS.PORT_BUDGET : Fld := ⟨0x100000080000, 52, 12, 0x180⟩
def F.LOAM_CFG.REFRESH_MULT : Fld := ⟨0x100000080008, 0, 2, 0x0⟩
def F.LOAM_CFG.SCRUB_EN : Fld := ⟨0x100000080008, 2, 1, 0x1⟩
def F.LOAM_CFG.PAD_SCRUB_EN : Fld := ⟨0x100000080008, 3, 1, 0x1⟩
def F.MEM_STATUS.HORIZON_LOST : Fld := ⟨0x100000080010, 0, 1, 0x0⟩
def F.MEM_STATUS.REFRESH_MIN : Fld := ⟨0x100000080010, 4, 2, 0x0⟩
def F.MEM_STATUS.CLOSE_NS : Fld := ⟨0x100000080010, 16, 32, 0x0⟩
def F.LOAM_PART_ATTR.TYPE (i : Nat) : Fld := ⟨0x100000080100 + 0x8 * i, 0, 4, 0x0⟩
def F.LOAM_PART_ATTR.CODEC (i : Nat) : Fld := ⟨0x100000080100 + 0x8 * i, 4, 2, 0x0⟩
def F.LOAM_PART_ATTR.KEEP (i : Nat) : Fld := ⟨0x100000080100 + 0x8 * i, 6, 1, 0x0⟩
def F.LOAM_PART_ATTR.SRC_FMT (i : Nat) : Fld := ⟨0x100000080100 + 0x8 * i, 8, 4, 0x0⟩
def F.LOAM_PART_ATTR.SLOT_UNITS (i : Nat) : Fld := ⟨0x100000080100 + 0x8 * i, 12, 5, 0x0⟩
def F.LOAM_PART_ATTR.OVERFLOW_CHUNKS (i : Nat) : Fld := ⟨0x100000080100 + 0x8 * i, 32, 32, 0x0⟩
def F.LOAM_PART_BASE.VALUE (i : Nat) : Fld := ⟨0x100000080140 + 0x8 * i, 0, 64, 0x0⟩
def F.LOAM_PART_SIZE.VALUE (i : Nat) : Fld := ⟨0x100000080180 + 0x8 * i, 0, 64, 0x0⟩
def F.HL_PART.SOW_UNITS (i : Nat) : Fld := ⟨0x100000080200 + 0x8 * i, 0, 16, 0x0⟩
def F.HL_PART.HARVEST_UNITS (i : Nat) : Fld := ⟨0x100000080200 + 0x8 * i, 16, 16, 0x0⟩
def F.HL_PART.STAGE_UNITS (i : Nat) : Fld := ⟨0x100000080200 + 0x8 * i, 32, 16, 0x0⟩
def F.PAD_CFG.MODE (i : Nat) : Fld := ⟨0x200000008000 + 0x100000 * i, 0, 16, 0x5555⟩
def F.PAD_CFG.CARRY (i : Nat) : Fld := ⟨0x200000008000 + 0x100000 * i, 16, 8, 0x0⟩
def F.CACHE_WIN.BASE (i : Nat) (j : Nat) : Fld := ⟨0x200000008008 + 0x100000 * i + 0x8 * j, 0, 32, 0x0⟩
def F.CACHE_WIN.SIZE (i : Nat) (j : Nat) : Fld := ⟨0x200000008008 + 0x100000 * i + 0x8 * j, 32, 16, 0x0⟩
def F.LOAM_STREAM.BASE (i : Nat) (j : Nat) : Fld := ⟨0x200000008048 + 0x100000 * i + 0x8 * j, 0, 32, 0x0⟩
def F.LOAM_STREAM.SIZE (i : Nat) (j : Nat) : Fld := ⟨0x200000008048 + 0x100000 * i + 0x8 * j, 32, 16, 0x0⟩
def F.PAD_STATUS.STALE (i : Nat) : Fld := ⟨0x200000008058 + 0x100000 * i, 0, 1, 0x1⟩
def F.PAD_STATUS.IMAGE_HALF (i : Nat) : Fld := ⟨0x200000008058 + 0x100000 * i, 1, 1, 0x0⟩
def F.PAD_CORR.COUNT (i : Nat) : Fld := ⟨0x200000008060 + 0x100000 * i, 0, 48, 0x0⟩
def F.PAD_UNCORR.COUNT (i : Nat) : Fld := ⟨0x200000008068 + 0x100000 * i, 0, 48, 0x0⟩
def F.BANK_CONFLICTS.COUNT (i : Nat) : Fld := ⟨0x200000008070 + 0x100000 * i, 0, 48, 0x0⟩
def F.CACHE_MISSES.COUNT (i : Nat) : Fld := ⟨0x200000008078 + 0x100000 * i, 0, 48, 0x0⟩
def F.LOAM_STATUS.POWERED (i : Nat) : Fld := ⟨0x100000400000 + 0x100 * i, 0, 1, 0x0⟩
def F.LOAM_STATUS.HORIZON_LOST (i : Nat) : Fld := ⟨0x100000400000 + 0x100 * i, 1, 1, 0x0⟩
def F.LOAM_STATUS.REFRESH_MULT (i : Nat) : Fld := ⟨0x100000400000 + 0x100 * i, 2, 2, 0x0⟩
def F.LOAM_STATUS.HOT (i : Nat) : Fld := ⟨0x100000400000 + 0x100 * i, 4, 1, 0x0⟩
def F.LOAM_STATUS.WEAK_ROWS (i : Nat) : Fld := ⟨0x100000400000 + 0x100 * i, 8, 16, 0x0⟩
def F.CORR_BIT.COUNT (i : Nat) : Fld := ⟨0x100000400008 + 0x100 * i, 0, 48, 0x0⟩
def F.CORR_SYMBOL.COUNT (i : Nat) : Fld := ⟨0x100000400010 + 0x100 * i, 0, 48, 0x0⟩
def F.UNCORR.COUNT (i : Nat) : Fld := ⟨0x100000400018 + 0x100 * i, 0, 48, 0x0⟩
def F.PORT_PEAK.COUNT (i : Nat) : Fld := ⟨0x100000400020 + 0x100 * i, 0, 48, 0x0⟩
def F.STASH_SAT.COUNT (i : Nat) : Fld := ⟨0x100000400028 + 0x100 * i, 0, 48, 0x0⟩
def F.STASH_OVERFLOW.COUNT (i : Nat) : Fld := ⟨0x100000400030 + 0x100 * i, 0, 48, 0x0⟩
def F.SCRUB_PASSES.COUNT (i : Nat) : Fld := ⟨0x100000400038 + 0x100 * i, 0, 48, 0x0⟩
def F.SOW_CAPS.CHANNELS : Fld := ⟨0x100000090000, 0, 8, 0x20⟩
def F.SOW_CAPS.LANES : Fld := ⟨0x100000090000, 8, 10, 0x200⟩
def F.SOW_CAPS.LANES_PER_CHAN : Fld := ⟨0x100000090000, 18, 5, 0x10⟩
def F.SOW_CAPS.BLOCK_MT : Fld := ⟨0x100000090000, 23, 6, 0x28⟩
def F.SOW_CAPS.PAYLOAD_GRAINS : Fld := ⟨0x100000090000, 29, 7, 0x3c⟩
def F.SOW_CAPS.CREDIT_EXP : Fld := ⟨0x100000090000, 36, 4, 0xc⟩
def F.SOW_CAPS.CODECS : Fld := ⟨0x100000090000, 40, 3, 0x7⟩
def F.SOW_CAPS.ENTRY_BITS : Fld := ⟨0x100000090000, 48, 8, 0x12⟩
def F.SOW_STATUS.EPOCH : Fld := ⟨0x100000090008, 0, 16, 0x0⟩
def F.SOW_STATUS.EPOCH_CHANGES : Fld := ⟨0x100000090008, 16, 16, 0x0⟩
def F.SOW_STATUS.CHAN_UP : Fld := ⟨0x100000090008, 32, 32, 0x0⟩
def F.SOW_DIGEST.DIGEST (i : Nat) : Fld := ⟨0x100000090040 + 0x8 * i, 0, 64, 0x0⟩
def F.SOW_CHAN_CFG.ENABLE (i : Nat) : Fld := ⟨0x100000090100 + 0x8 * i, 0, 1, 0x0⟩
def F.SOW_CHAN_CFG.LOCK_GROUP (i : Nat) : Fld := ⟨0x100000090100 + 0x8 * i, 1, 4, 0x0⟩
def F.SOW_CHAN_CFG.LEAD_FW (i : Nat) : Fld := ⟨0x100000090100 + 0x8 * i, 16, 16, 0x40⟩
def F.CHAN_STATUS.EXPECT_SSEQ (i : Nat) : Fld := ⟨0x100000091000 + 0x80 * i, 0, 32, 0x0⟩
def F.CHAN_STATUS.HELD_BLOCKS (i : Nat) : Fld := ⟨0x100000091000 + 0x80 * i, 32, 21, 0x0⟩
def F.SEG_ACCEPTED.COUNT (i : Nat) : Fld := ⟨0x100000091008 + 0x80 * i, 0, 48, 0x0⟩
def F.SEG_LOST.COUNT (i : Nat) : Fld := ⟨0x100000091010 + 0x80 * i, 0, 48, 0x0⟩
def F.SEQ_DISCARD.COUNT (i : Nat) : Fld := ⟨0x100000091018 + 0x80 * i, 0, 48, 0x0⟩
def F.MALFORMED.COUNT (i : Nat) : Fld := ⟨0x100000091020 + 0x80 * i, 0, 48, 0x0⟩
def F.CREDIT_VIOL.COUNT (i : Nat) : Fld := ⟨0x100000091028 + 0x80 * i, 0, 48, 0x0⟩
def F.STALE.COUNT (i : Nat) : Fld := ⟨0x100000091030 + 0x80 * i, 0, 48, 0x0⟩
def F.MISMATCH.COUNT (i : Nat) : Fld := ⟨0x100000091038 + 0x80 * i, 0, 48, 0x0⟩
def F.LATE.COUNT (i : Nat) : Fld := ⟨0x100000091040 + 0x80 * i, 0, 48, 0x0⟩
def F.SB_LOST.COUNT (i : Nat) : Fld := ⟨0x100000091048 + 0x80 * i, 0, 48, 0x0⟩
def F.CONV_SAT.COUNT (i : Nat) : Fld := ⟨0x100000091050 + 0x80 * i, 0, 48, 0x0⟩
def F.CONV_NONFINITE.COUNT (i : Nat) : Fld := ⟨0x100000091058 + 0x80 * i, 0, 48, 0x0⟩
def F.LANE_STATUS.LOCKED (i : Nat) : Fld := ⟨0x100000094000 + 0x20 * i, 0, 1, 0x0⟩
def F.LANE_STATUS.RETRAINS (i : Nat) : Fld := ⟨0x100000094000 + 0x20 * i, 16, 16, 0x0⟩
def F.CORR_SYMBOLS.COUNT (i : Nat) : Fld := ⟨0x100000094008 + 0x20 * i, 0, 48, 0x0⟩
def F.UNCORR_CW.COUNT (i : Nat) : Fld := ⟨0x100000094010 + 0x20 * i, 0, 48, 0x0⟩
def F.HV_CAPS.GLEANERS : Fld := ⟨0x1000000a0000, 0, 8, 0x80⟩
def F.HV_CAPS.BENCH_GRAINS : Fld := ⟨0x1000000a0000, 8, 17, 0x10000⟩
def F.HV_CAPS.OPS_PER_FW : Fld := ⟨0x1000000a0000, 25, 10, 0x100⟩
def F.HV_CAPS.CODECS : Fld := ⟨0x1000000a0000, 35, 5, 0x1f⟩
def F.HV_CAPS.NORM_BINS : Fld := ⟨0x1000000a0000, 40, 4, 0xf⟩
def F.HV_STATUS.COMMITTED_S : Fld := ⟨0x1000000a0008, 0, 48, 0x0⟩
def F.HV_STATUS.KEPT_STEPS : Fld := ⟨0x1000000a0008, 48, 8, 0x0⟩
def F.HV_CLIP.CLIP : Fld := ⟨0x1000000a0010, 0, 32, 0x3f800000⟩
def F.HV_RELEASE.STEP_S : Fld := ⟨0x1000000a0018, 0, 48, 0x0⟩
def F.HV_RESEND_STEP.STEP_S : Fld := ⟨0x1000000a0020, 0, 48, 0x0⟩
def F.HV_RESEND.CHANNEL : Fld := ⟨0x1000000a0028, 0, 5, 0x0⟩
def F.HV_RESEND.HSEQ : Fld := ⟨0x1000000a0028, 32, 32, 0x0⟩
def F.HV_DIGEST.DIGEST (i : Nat) : Fld := ⟨0x1000000a0040 + 0x8 * i, 0, 64, 0x0⟩
def F.HV_SEG_CFG.RES_UNITS (i : Nat) : Fld := ⟨0x1000000a0100 + 0x8 * i, 0, 16, 0x0⟩
def F.HV_SEG_STATUS.TX_FREE (i : Nat) : Fld := ⟨0x1000000a0120 + 0x8 * i, 0, 32, 0x0⟩
def F.HV_NORM.SUMSQ (i : Nat) : Fld := ⟨0x1000000a0200 + 0x8 * i, 0, 64, 0x0⟩
def F.GL_STATUS.ACTIVE (i : Nat) : Fld := ⟨0x1000000a1000 + 0x80 * i, 0, 1, 0x0⟩
def F.GRAINS_GATHERED.COUNT (i : Nat) : Fld := ⟨0x1000000a1008 + 0x80 * i, 0, 48, 0x0⟩
def F.ELEMENTS_EMITTED.COUNT (i : Nat) : Fld := ⟨0x1000000a1010 + 0x80 * i, 0, 48, 0x0⟩
def F.B16_SAT.COUNT (i : Nat) : Fld := ⟨0x1000000a1018 + 0x80 * i, 0, 48, 0x0⟩
def F.NONFINITE.COUNT (i : Nat) : Fld := ⟨0x1000000a1020 + 0x80 * i, 0, 48, 0x0⟩
def F.POISON.COUNT (i : Nat) : Fld := ⟨0x1000000a1028 + 0x80 * i, 0, 48, 0x0⟩
def F.CHK_FAIL.COUNT (i : Nat) : Fld := ⟨0x1000000a1030 + 0x80 * i, 0, 48, 0x0⟩
def F.BENCH_CORR.COUNT (i : Nat) : Fld := ⟨0x1000000a1038 + 0x80 * i, 0, 48, 0x0⟩
def F.BENCH_UNCORR.COUNT (i : Nat) : Fld := ⟨0x1000000a1040 + 0x80 * i, 0, 48, 0x0⟩
def F.PORT_CAPS.PORTS : Fld := ⟨0x1000000b0000, 0, 2, 0x2⟩
def F.PORT_CAPS.TAGS : Fld := ⟨0x1000000b0000, 2, 9, 0x100⟩
def F.PORT_CAPS.MAX_LENGTH : Fld := ⟨0x1000000b0000, 11, 13, 0x1000⟩
def F.PORT_CAPS.PROTO_MAJOR : Fld := ⟨0x1000000b0000, 24, 16, 0x1⟩
def F.PORT_CAPS.PROTO_MINOR : Fld := ⟨0x1000000b0000, 40, 16, 0x0⟩
def F.PORT_STATUS.UP (i : Nat) : Fld := ⟨0x1000000b0008 + 0x8 * i, 0, 1, 0x0⟩
def F.PORT_STATUS.EXCHANGED (i : Nat) : Fld := ⟨0x1000000b0008 + 0x8 * i, 1, 1, 0x0⟩
def F.PORT_STATUS.BAD_PACKETS (i : Nat) : Fld := ⟨0x1000000b0008 + 0x8 * i, 16, 16, 0x0⟩
def F.PORT_STATUS.TAG_ERRORS (i : Nat) : Fld := ⟨0x1000000b0008 + 0x8 * i, 32, 16, 0x0⟩
def F.PORT_STATUS.DOWN_COUNT (i : Nat) : Fld := ⟨0x1000000b0008 + 0x8 * i, 48, 16, 0x0⟩
def F.MGMT_RING.BASE_PARCEL (i : Nat) : Fld := ⟨0x1000000b0020 + 0x8 * i, 0, 20, 0x0⟩
def F.MGMT_RING.ENTRIES (i : Nat) : Fld := ⟨0x1000000b0020 + 0x8 * i, 20, 21, 0x0⟩
def F.EVENTS_LOST.COUNT : Fld := ⟨0x1000000b0030, 0, 48, 0x0⟩
def F.PLAN_CAPS.FORMAT_MAJOR : Fld := ⟨0x1000000c0000, 0, 16, 0x1⟩
def F.PLAN_CAPS.FORMAT_MINOR : Fld := ⟨0x1000000c0000, 16, 16, 0x0⟩
def F.PLAN_CAPS.MAX_IMAGE_MIB : Fld := ⟨0x1000000c0000, 32, 10, 0x200⟩
def F.PLAN_STATUS.APPLYING : Fld := ⟨0x1000000c0008, 0, 1, 0x0⟩
def F.PLAN_STATUS.SHADOWS_DIRTY : Fld := ⟨0x1000000c0008, 1, 1, 0x0⟩
def F.PLAN_STATUS.HOST_VALUES : Fld := ⟨0x1000000c0008, 2, 1, 0x0⟩
def F.PLAN_STATUS.CONFIGURED : Fld := ⟨0x1000000c0008, 3, 1, 0x0⟩
def F.PLAN_STATUS.APPLY_COUNT : Fld := ⟨0x1000000c0008, 16, 32, 0x0⟩
def F.PLAN_STATUS.CONFIG_COUNT : Fld := ⟨0x1000000c0008, 48, 16, 0x0⟩
def F.MODE_CFG.PAIRED : Fld := ⟨0x1000000c0010, 0, 1, 0x0⟩
def F.MODE_CFG.CKPT_MODE : Fld := ⟨0x1000000c0010, 2, 2, 0x0⟩
def F.MODE_CFG.CKPT_EVERY : Fld := ⟨0x1000000c0010, 16, 16, 0x32⟩
def F.MODE_CFG.EVAL_PROGRAMS : Fld := ⟨0x1000000c0010, 32, 16, 0x0⟩
def F.APPLY_CTL.DISCARD : Fld := ⟨0x1000000c0018, 0, 1, 0x0⟩
def F.APPLY_LAST.REASON : Fld := ⟨0x1000000c0020, 0, 16, 0x0⟩
def F.APPLY_LAST.SECTION : Fld := ⟨0x1000000c0020, 16, 16, 0x0⟩
def F.APPLY_LAST.DETAIL : Fld := ⟨0x1000000c0020, 32, 32, 0x0⟩
def F.PLAN_ID.ID : Fld := ⟨0x1000000c0028, 0, 64, 0x0⟩
def F.PLAN_DIGEST.DIGEST (i : Nat) : Fld := ⟨0x1000000c0040 + 0x8 * i, 0, 64, 0x0⟩
def F.FAULT_CAPS.LOG_ENTRIES : Fld := ⟨0x1000000d0000, 0, 24, 0xf80000⟩
def F.FAULT_CAPS.WINDOW_DAYS : Fld := ⟨0x1000000d0000, 24, 8, 0x1e⟩
def F.FAULT_CAPS.PERM_EVENTS : Fld := ⟨0x1000000d0000, 32, 4, 0x3⟩
def F.FAULT_CAPS.LOG_RATE : Fld := ⟨0x1000000d0000, 36, 12, 0x100⟩
def F.HIST_CFG.CORR_LIMIT : Fld := ⟨0x1000000d0008, 0, 16, 0x100⟩
def F.HIST_STATUS.NORTH_HEAD : Fld := ⟨0x1000000d0010, 0, 24, 0x0⟩
def F.HIST_STATUS.SOUTH_HEAD : Fld := ⟨0x1000000d0010, 24, 24, 0x0⟩
def F.HIST_STATUS.NORTH_WRAPPED : Fld := ⟨0x1000000d0010, 48, 1, 0x0⟩
def F.HIST_STATUS.SOUTH_WRAPPED : Fld := ⟨0x1000000d0010, 49, 1, 0x0⟩
def F.HIST_STATUS.FLASH_ERR : Fld := ⟨0x1000000d0010, 56, 8, 0x0⟩
def F.LOG_DROPPED.COUNT : Fld := ⟨0x1000000d0018, 0, 48, 0x0⟩
def F.HIST_CURSOR.INDEX : Fld := ⟨0x1000000d0020, 0, 24, 0x0⟩
def F.HIST_CURSOR.HALF : Fld := ⟨0x1000000d0020, 24, 1, 0x0⟩
def F.HIST_QUERY.UNIT_TYPE : Fld := ⟨0x1000000d0028, 0, 4, 0x0⟩
def F.HIST_QUERY.UNIT_ID : Fld := ⟨0x1000000d0028, 8, 24, 0x0⟩
def F.HIST_ENTRY.WORD (i : Nat) : Fld := ⟨0x1000000d0040 + 0x8 * i, 0, 64, 0x0⟩
def F.HIST_SUMMARY.WORD (i : Nat) : Fld := ⟨0x1000000d0080 + 0x8 * i, 0, 64, 0x0⟩
def F.CLASS_COUNT.COUNT (i : Nat) : Fld := ⟨0x1000000d00a0 + 0x8 * i, 0, 32, 0x0⟩
def F.DUSK_STATUS.RUNNING : Fld := ⟨0x1000000d00c8, 0, 1, 0x0⟩
def F.DUSK_STATUS.STAGE : Fld := ⟨0x1000000d00c8, 1, 3, 0x0⟩
def F.DUSK_STATUS.LAST_MERIDIAN : Fld := ⟨0x1000000d00c8, 8, 48, 0x0⟩
def F.FENCED_GLEANERS.MASK (i : Nat) : Fld := ⟨0x1000000d00d0 + 0x8 * i, 0, 64, 0x0⟩
def F.CKPT_STATUS.DRAINING : Fld := ⟨0x1000000e0000, 0, 1, 0x0⟩
def F.CKPT_STATUS.DEFERRED : Fld := ⟨0x1000000e0000, 1, 1, 0x0⟩
def F.CKPT_STATUS.NOW_PENDING : Fld := ⟨0x1000000e0000, 2, 1, 0x0⟩
def F.CKPT_STATUS.CKPT_SEQ : Fld := ⟨0x1000000e0000, 8, 32, 0x0⟩
def F.CKPT_STATUS.STEPS_SINCE : Fld := ⟨0x1000000e0000, 40, 16, 0x0⟩
def F.CKPT_STEP.STEP_S : Fld := ⟨0x1000000e0008, 0, 48, 0x0⟩
def F.CKPT_REMAIN.COUNT : Fld := ⟨0x1000000e0010, 0, 48, 0x0⟩
def F.CKPT_UNPLANNED.COUNT : Fld := ⟨0x1000000e0018, 0, 48, 0x0⟩
def F.CKPT_ROOT.ROOT (i : Nat) : Fld := ⟨0x1000000e0040 + 0x8 * i, 0, 64, 0x0⟩
def F.LEASE_STATUS.VALID : Fld := ⟨0x1000000e0080, 0, 1, 0x0⟩
def F.LEASE_STATUS.ROLE : Fld := ⟨0x1000000e0080, 1, 2, 0x3⟩
def F.LEASE_STATUS.IN_CHARGE : Fld := ⟨0x1000000e0080, 3, 1, 0x0⟩
def F.LEASE_STATUS.DISAGREE : Fld := ⟨0x1000000e0080, 4, 1, 0x0⟩
def F.LEASE_STATUS.SUPERSEDED : Fld := ⟨0x1000000e0080, 5, 1, 0x0⟩
def F.LEASE_SEQ.VALUE : Fld := ⟨0x1000000e0088, 0, 64, 0x0⟩
def F.LEASE_EXPIRY.VALUE : Fld := ⟨0x1000000e0090, 0, 64, 0x0⟩
def F.TWIN_STATUS.LINK_UP : Fld := ⟨0x1000000e0098, 0, 1, 0x0⟩
def F.TWIN_STATUS.LEDGER_INCOMPLETE : Fld := ⟨0x1000000e0098, 1, 1, 0x0⟩
def F.TWIN_STATUS.HELD_CKPT : Fld := ⟨0x1000000e0098, 8, 32, 0x0⟩
def F.TWIN_STATUS.LEDGER_STEPS : Fld := ⟨0x1000000e0098, 40, 24, 0x0⟩
def F.POWER_CAPS.MODULE_CAP_MAX : Fld := ⟨0x1000000f0000, 0, 16, 0x6000⟩
def F.POWER_CAPS.REGION_CAP : Fld := ⟨0x1000000f0000, 16, 8, 0x7d⟩
def F.POWER_CAPS.REGION_CAP_6 : Fld := ⟨0x1000000f0000, 24, 8, 0x6e⟩
def F.POWER_CAPS.PHASES : Fld := ⟨0x1000000f0000, 32, 4, 0x8⟩
def F.POWER_CAPS.PHASE_A : Fld := ⟨0x1000000f0000, 36, 5, 0x14⟩
def F.POWER_CAPS.WAKE_DEFER_MAX : Fld := ⟨0x1000000f0000, 41, 13, 0x1000⟩
def F.POWER_CFG.MODULE_CAP : Fld := ⟨0x1000000f0008, 0, 16, 0x6000⟩
def F.POWER_CFG.P_LIMIT : Fld := ⟨0x1000000f0008, 16, 16, 0x61a8⟩
def F.THERM_CFG.T_PACE : Fld := ⟨0x1000000f0010, 0, 8, 0x64⟩
def F.POWER_STATUS.INPUT_W : Fld := ⟨0x1000000f0018, 0, 16, 0x0⟩
def F.POWER_STATUS.HOTTEST : Fld := ⟨0x1000000f0018, 16, 12, 0x0⟩
def F.POWER_STATUS.CAUSE : Fld := ⟨0x1000000f0018, 28, 4, 0x0⟩
def F.POWER_STATUS.PACE_STEPS : Fld := ⟨0x1000000f0018, 32, 16, 0x0⟩
def F.RAIL_MON.MV (i : Nat) : Fld := ⟨0x1000000f0040 + 0x8 * i, 0, 16, 0x0⟩
def F.RAIL_MON.AMPS (i : Nat) : Fld := ⟨0x1000000f0040 + 0x8 * i, 16, 16, 0x0⟩
def F.RAIL_MON.IN_TOL (i : Nat) : Fld := ⟨0x1000000f0040 + 0x8 * i, 32, 1, 0x0⟩
def F.CONTACT_MON.EXCESS (i : Nat) : Fld := ⟨0x1000000f0100 + 0x8 * i, 0, 16, 0x0⟩
def F.CONTACT_MON.R_UOHM (i : Nat) : Fld := ⟨0x1000000f0100 + 0x8 * i, 16, 16, 0x0⟩
def F.CONTACT_MON.SUSPECT (i : Nat) : Fld := ⟨0x1000000f0100 + 0x8 * i, 32, 1, 0x0⟩
def F.REGION_CFG.WAKE_DEFER (i : Nat) : Fld := ⟨0x1000000f1000 + 0x8 * i, 0, 13, 0x1000⟩
def F.REGION_CFG.SLEEP_EN (i : Nat) : Fld := ⟨0x1000000f1000 + 0x8 * i, 13, 1, 0x0⟩
def F.REGION_CFG.SLEEP_MIN_FW (i : Nat) : Fld := ⟨0x1000000f1000 + 0x8 * i, 16, 16, 0x400⟩
def F.REGION_CFG.WAKE_LEAD_FW (i : Nat) : Fld := ⟨0x1000000f1000 + 0x8 * i, 32, 16, 0xc0⟩
def F.REGION_PSTAT.SWITCH (i : Nat) : Fld := ⟨0x1000000f2000 + 0x8 * i, 0, 1, 0x0⟩
def F.REGION_PSTAT.DARK_LATCH (i : Nat) : Fld := ⟨0x1000000f2000 + 0x8 * i, 1, 1, 0x0⟩
def F.REGION_PSTAT.AWAKE (i : Nat) : Fld := ⟨0x1000000f2000 + 0x8 * i, 2, 1, 0x0⟩
def F.REGION_PSTAT.WAKING (i : Nat) : Fld := ⟨0x1000000f2000 + 0x8 * i, 3, 1, 0x0⟩
def F.REGION_PSTAT.PHASES (i : Nat) : Fld := ⟨0x1000000f2000 + 0x8 * i, 4, 4, 0x8⟩
def F.REGION_PSTAT.CAP (i : Nat) : Fld := ⟨0x1000000f2000 + 0x8 * i, 8, 8, 0x7d⟩
def F.REGION_PSTAT.DEFERRED (i : Nat) : Fld := ⟨0x1000000f2000 + 0x8 * i, 16, 16, 0x0⟩
def F.REGION_PSTAT.WAKES (i : Nat) : Fld := ⟨0x1000000f2000 + 0x8 * i, 32, 16, 0x0⟩
def F.REGION_DEMAND.PLAN_PEAK (i : Nat) : Fld := ⟨0x1000000f3000 + 0x8 * i, 0, 16, 0x0⟩
def F.REGION_DEMAND.MEAS_PEAK (i : Nat) : Fld := ⟨0x1000000f3000 + 0x8 * i, 16, 16, 0x0⟩
def F.REGION_DEMAND.MEAS_NOW (i : Nat) : Fld := ⟨0x1000000f3000 + 0x8 * i, 32, 16, 0x0⟩
def F.ID_PART.PART : Fld := ⟨0x100000000000, 0, 4, 0x0⟩
def F.ID_PART.GENERATION : Fld := ⟨0x100000000000, 4, 8, 0x2⟩
def F.ID_PART.STEPPING : Fld := ⟨0x100000000000, 12, 8, 0x0⟩
def F.ID_SERIAL.VALUE : Fld := ⟨0x100000000008, 0, 64, 0x0⟩
def F.ID_KEY.VALUE (i : Nat) : Fld := ⟨0x100000000010 + 0x8 * i, 0, 64, 0x0⟩
def F.FW_VERSION.MAJOR : Fld := ⟨0x100000000030, 0, 16, 0x0⟩
def F.FW_VERSION.MINOR : Fld := ⟨0x100000000030, 16, 16, 0x0⟩
def F.FW_VERSION.SECURITY : Fld := ⟨0x100000000030, 32, 16, 0x0⟩
def F.FW_VERSION.NORTH_COPY : Fld := ⟨0x100000000030, 48, 1, 0x0⟩
def F.FW_VERSION.SOUTH_COPY : Fld := ⟨0x100000000030, 49, 1, 0x0⟩
def F.BOOT_STATUS.PHASE : Fld := ⟨0x100000000038, 0, 4, 0x0⟩
def F.BOOT_STATUS.STATE : Fld := ⟨0x100000000038, 4, 2, 0x0⟩
def F.BOOT_STATUS.PATH : Fld := ⟨0x100000000038, 6, 1, 0x0⟩
def F.BOOT_STATUS.CODE : Fld := ⟨0x100000000038, 8, 8, 0x0⟩
def F.BOOT_STATUS.ELAPSED_MS : Fld := ⟨0x100000000038, 16, 32, 0x0⟩
def F.BOOT_STATUS.GRID_SHORT : Fld := ⟨0x100000000038, 48, 10, 0x0⟩
def F.PHASE_MS.MS (i : Nat) : Fld := ⟨0x100000000040 + 0x8 * i, 0, 32, 0x0⟩
def F.SAVED_STATUS.VALID : Fld := ⟨0x100000000088, 0, 1, 0x0⟩
def F.SAVED_STATUS.FAST_REFUSED : Fld := ⟨0x100000000088, 1, 7, 0x0⟩
def F.SAVED_STATUS.NO_MARGIN : Fld := ⟨0x100000000088, 8, 1, 0x0⟩
def F.SAVED_STATUS.AGE_DAYS : Fld := ⟨0x100000000088, 16, 16, 0x0⟩
def F.MGMT_STATUS.NORTH_ALIVE : Fld := ⟨0x100000000090, 0, 1, 0x0⟩
def F.MGMT_STATUS.SOUTH_ALIVE : Fld := ⟨0x100000000090, 1, 1, 0x0⟩
def F.MGMT_STATUS.LEADER : Fld := ⟨0x100000000090, 2, 1, 0x0⟩
def F.MGMT_STATUS.ONE_CONTROLLER : Fld := ⟨0x100000000090, 3, 1, 0x0⟩
def F.MGMT_STATUS.HB_MISSES : Fld := ⟨0x100000000090, 16, 16, 0x0⟩
def F.BOOT_CFG.FORCE_FULL : Fld := ⟨0x100000000098, 0, 1, 0x0⟩
def F.GATE_SUMMARY.TESTED : Fld := ⟨0x1000000000a0, 0, 10, 0x0⟩
def F.GATE_SUMMARY.FAILED : Fld := ⟨0x1000000000a0, 10, 10, 0x0⟩
def F.GATE_SUMMARY.UNTESTED : Fld := ⟨0x1000000000a0, 20, 10, 0x0⟩
def F.GATE_SUMMARY.REGATE_RUNNING : Fld := ⟨0x1000000000a0, 30, 1, 0x0⟩
def F.GATE_SUMMARY.WORST_BER : Fld := ⟨0x1000000000a0, 32, 32, 0x0⟩
def F.LANE_EXCLUDED.MASK (i : Nat) : Fld := ⟨0x100000000100 + 0x8 * i, 0, 64, 0x0⟩
def F.LANE_REGATE.CHANNELS : Fld := ⟨0x100000000148, 0, 32, 0x0⟩
def F.LANE_REGATE.TWIN : Fld := ⟨0x100000000148, 32, 1, 0x0⟩
def F.PERF_CFG.EVENT (i : Nat) (j : Nat) : Fld := ⟨0x200000009000 + 0x100000 * i + 0x8 * j, 0, 8, 0x0⟩
def F.PERF_CFG.LIVE (i : Nat) (j : Nat) : Fld := ⟨0x200000009000 + 0x100000 * i + 0x8 * j, 8, 1, 0x0⟩
def F.PERF_COUNT.COUNT (i : Nat) (j : Nat) : Fld := ⟨0x200000009100 + 0x100000 * i + 0x8 * j, 0, 48, 0x0⟩
def F.TRACE_CFG.MIRROR : Fld := ⟨0x100000110000, 0, 1, 0x0⟩
def F.TRACE_CFG.HORIZON : Fld := ⟨0x100000110000, 1, 1, 0x0⟩
def F.TRACE_CFG.SAMPLE : Fld := ⟨0x100000110000, 2, 1, 0x0⟩
def F.TRACE_CFG.TO_QUEUE : Fld := ⟨0x100000110000, 3, 1, 0x0⟩
def F.TRACE_CFG.QUEUE : Fld := ⟨0x100000110000, 4, 15, 0x1⟩
def F.TRACE_CFG.SAMPLE_CTR : Fld := ⟨0x100000110000, 19, 5, 0x0⟩
def F.TRACE_CFG.SAMPLE_ID : Fld := ⟨0x100000110000, 24, 24, 0x0⟩
def F.TRACE_CFG.PERIOD : Fld := ⟨0x100000110000, 48, 16, 0x0⟩
def F.TRACE_STATUS.WATCH_DROPPED : Fld := ⟨0x100000110008, 0, 32, 0x0⟩
def F.TRACE_STATUS.QUEUE_DROPPED : Fld := ⟨0x100000110008, 32, 32, 0x0⟩
def F.KEY_LOAD.PARCEL : Fld := ⟨0x100000110010, 0, 20, 0x0⟩
def F.ATTEST_REQ.PARCEL : Fld := ⟨0x100000110018, 0, 20, 0x0⟩
def F.OBS_STATUS.KEY_RESULT : Fld := ⟨0x100000110020, 0, 4, 0x0⟩
def F.OBS_STATUS.ATTEST_DONE : Fld := ⟨0x100000110020, 4, 1, 0x0⟩
def F.OBS_STATUS.ATTEST_OWNER : Fld := ⟨0x100000110020, 5, 1, 0x0⟩
def F.KEY_STATUS.PLAN_KEYS : Fld := ⟨0x100000110028, 0, 8, 0x0⟩
def F.KEY_STATUS.LEASE_KEYS : Fld := ⟨0x100000110028, 8, 8, 0x0⟩
def F.KEY_STATUS.OWNER_SET : Fld := ⟨0x100000110028, 16, 1, 0x0⟩
def F.KEY_STATUS.PENDING : Fld := ⟨0x100000110028, 17, 1, 0x0⟩
def F.KEY_STATUS.KEY_SEQ : Fld := ⟨0x100000110028, 18, 46, 0x0⟩
def F.WITNESS_STATUS.LAST_S : Fld := ⟨0x100000110030, 0, 48, 0x0⟩
def F.WITNESS_STATUS.HELD : Fld := ⟨0x100000110030, 48, 11, 0x0⟩
def F.ID_CERT.VALUE (i : Nat) : Fld := ⟨0x100000110040 + 0x8 * i, 0, 64, 0x0⟩
def F.COOLANT_STATUS.INLET : Fld := ⟨0x100000120000, 0, 12, 0x0⟩
def F.COOLANT_STATUS.OUTLET : Fld := ⟨0x100000120000, 12, 12, 0x0⟩
def F.COOLANT_STATUS.FLOW : Fld := ⟨0x100000120000, 24, 12, 0x0⟩
def F.COOLANT_STATUS.IN_RANGE : Fld := ⟨0x100000120000, 36, 1, 0x0⟩
def F.COOLANT_STATUS.EXCURSIONS : Fld := ⟨0x100000120000, 37, 16, 0x0⟩
def F.QUEUE_CFG.BASE_PARCEL (i : Nat) : Fld := ⟨0x100001000000 + 0x10 * i, 0, 20, 0x0⟩
def F.QUEUE_CFG.ENTRIES (i : Nat) : Fld := ⟨0x100001000000 + 0x10 * i, 20, 21, 0x0⟩
def F.QUEUE_CFG.KIND (i : Nat) : Fld := ⟨0x100001000000 + 0x10 * i, 41, 3, 0x0⟩
def F.QUEUE_CFG.EP_TYPE (i : Nat) : Fld := ⟨0x100001000000 + 0x10 * i, 44, 4, 0x0⟩
def F.QUEUE_CFG.LEDGER (i : Nat) : Fld := ⟨0x100001000000 + 0x10 * i, 48, 1, 0x0⟩
def F.QUEUE_EP.EP_ID (i : Nat) : Fld := ⟨0x100001000008 + 0x10 * i, 0, 24, 0x0⟩
def F.QUEUE_DOORBELL.GIVE (i : Nat) : Fld := ⟨0x300000200000 + 0x10 * i, 0, 32, 0x0⟩
def F.QUEUE_STATE.GIVE (i : Nat) : Fld := ⟨0x300000200008 + 0x10 * i, 0, 32, 0x0⟩
def F.QUEUE_STATE.DONE (i : Nat) : Fld := ⟨0x300000200008 + 0x10 * i, 32, 32, 0x0⟩

/-- The registers of chapter 01. -/
def regRows01a : List RegRow := [
  { name := "MERIDIAN_COUNT", base := 0x100000010000, dims := [], config := false,
    fields := [⟨"COUNT", 0, 64, .ro, true, 0x0⟩] },
  { name := "FURROW_INDEX", base := 0x100000010008, dims := [], config := false,
    fields := [⟨"INDEX", 0, 48, .ro, true, 0x0⟩] },
  { name := "FURROW_CFG", base := 0x100000010010, dims := [], config := true,
    fields := [⟨"FURROW_MT", 0, 16, .rw, false, 0x28⟩, ⟨"FURROW_PHASE", 16, 16, .rw, false, 0x0⟩, ⟨"GRANT_EVAL_MT", 32, 8, .rw, false, 0x10⟩, ⟨"CLOCK_POLICY", 40, 2, .rw, false, 0x0⟩, ⟨"TWIN_LOCK", 42, 1, .rw, false, 0x0⟩] },
  { name := "PACE_CFG", base := 0x100000010018, dims := [], config := true,
    fields := [⟨"PACE_MODE", 0, 1, .rw, false, 0x0⟩, ⟨"PACE_RATIO", 8, 5, .rw, false, 0x10⟩, ⟨"PACE_FLOOR", 16, 5, .rw, false, 0x8⟩] },
  { name := "HOLD_LIMIT", base := 0x100000010020, dims := [], config := true,
    fields := [⟨"LIMIT", 0, 32, .rw, false, 0x100000⟩] },
  { name := "GRANT_STATUS", base := 0x100000010028, dims := [], config := false,
    fields := [⟨"TERMS", 0, 8, .ro, true, 0x80⟩, ⟨"GRANTED", 8, 1, .ro, true, 0x0⟩] },
  { name := "HOLD_COUNT", base := 0x100000010030, dims := [], config := false,
    fields := [⟨"COUNT", 0, 48, .ro, false, 0x0⟩] },
  { name := "HOLD_BY_TERM", base := 0x100000010040, dims := [⟨0x8, 0, 8⟩], config := false,
    fields := [⟨"COUNT", 0, 48, .ro, false, 0x0⟩] },
  { name := "MERIDIAN_STATUS", base := 0x100000010080, dims := [], config := false,
    fields := [⟨"LOCKED", 0, 1, .ro, true, 0x0⟩, ⟨"HOLDOVER_SEEN", 1, 1, .w1c, false, 0x0⟩, ⟨"CRC_ERR_COUNT", 16, 16, .ro, true, 0x0⟩, ⟨"LOSS_COUNT", 32, 16, .ro, true, 0x0⟩] },
  { name := "TWIN_LOCK_STATUS", base := 0x100000010088, dims := [], config := false,
    fields := [⟨"LOCKED", 0, 1, .ro, true, 0x0⟩, ⟨"LATENCY_MT", 8, 8, .ro, false, 0x0⟩, ⟨"LOCK_SLIPS", 16, 32, .ro, true, 0x0⟩] }]
def regRows01b : List RegRow := [
  { name := "PACE_STATUS", base := 0x100000010090, dims := [], config := false,
    fields := [⟨"EFFECTIVE", 0, 5, .ro, true, 0x10⟩, ⟨"AT_FLOOR", 5, 1, .ro, true, 0x0⟩] },
  { name := "CLK_CFG", base := 0x100000100000, dims := [⟨0x40, 0, 256⟩], config := true,
    fields := [⟨"STRETCH_THRESH", 0, 8, .rw, false, 0x8⟩, ⟨"MARGIN_FLOOR", 8, 8, .rw, false, 0x2⟩, ⟨"SLACK_WARN", 16, 8, .rw, false, 0x8⟩] },
  { name := "MARGIN_NOW", base := 0x100000100008, dims := [⟨0x40, 0, 256⟩], config := false,
    fields := [⟨"CODES", 0, 32, .ro, true, 0x0⟩, ⟨"LOWEST", 32, 8, .ro, true, 0x0⟩] },
  { name := "STRETCH_COUNT", base := 0x100000100010, dims := [⟨0x40, 0, 256⟩], config := false,
    fields := [⟨"COUNT", 0, 48, .ro, false, 0x0⟩] },
  { name := "SLACK_MIN", base := 0x100000100018, dims := [⟨0x40, 0, 256⟩], config := false,
    fields := [⟨"SLACK", 0, 16, .ro, false, 0x0⟩] },
  { name := "SLIP_COUNT", base := 0x100000100020, dims := [⟨0x40, 0, 256⟩], config := false,
    fields := [⟨"COUNT", 0, 48, .ro, false, 0x0⟩] },
  { name := "OVERRUN_COUNT", base := 0x100000100028, dims := [⟨0x40, 0, 256⟩], config := false,
    fields := [⟨"COUNT", 0, 48, .ro, false, 0x0⟩] }]
def regRows01 : List RegRow := regRows01a ++ regRows01b

/-- The registers of chapter 02. -/
def regRows02 : List RegRow := [
  { name := "GRID_SHAPE", base := 0x100000020000, dims := [], config := false,
    fields := [⟨"PRODUCT_GRADE", 0, 2, .ro, false, 0x0⟩, ⟨"CONFIG_GRADE", 2, 2, .ro, false, 0x0⟩, ⟨"SEAM_MODE", 4, 1, .ro, false, 0x0⟩, ⟨"X_DIM", 16, 12, .ro, false, 0x40⟩, ⟨"Y_DIM", 28, 12, .ro, false, 0x40⟩, ⟨"HOLE_COUNT", 40, 8, .ro, false, 0x0⟩] },
  { name := "GRID_CFG", base := 0x100000020008, dims := [], config := true,
    fields := [⟨"GRADE", 0, 2, .rw, false, 0x0⟩, ⟨"SEAM_MODE", 2, 1, .rw, false, 0x0⟩] },
  { name := "REPAIR_STATUS", base := 0x100000020010, dims := [], config := false,
    fields := [⟨"DEGRADED", 0, 1, .ro, true, 0x0⟩, ⟨"SUBST_PENDING", 1, 1, .ro, true, 0x0⟩, ⟨"SUBST_COUNT", 16, 16, .ro, false, 0x0⟩, ⟨"LAST_ROW", 32, 9, .ro, false, 0x0⟩, ⟨"ROWS_NO_SPARE", 48, 10, .ro, false, 0x0⟩] },
  { name := "HOLE_MAP", base := 0x100000020020, dims := [⟨0x8, 0, 4⟩], config := false,
    fields := [⟨"DARK", 0, 64, .ro, false, 0x0⟩] },
  { name := "ROW_MAP", base := 0x100000021000, dims := [⟨0x8, 0, 512⟩], config := false,
    fields := [⟨"POS_SITE", 0, 32, .ro, false, 0x98763210⟩, ⟨"SITE_STATE", 32, 20, .ro, false, 0x500⟩, ⟨"SPARE_COUNT", 52, 4, .ro, false, 0x2⟩] }]

/-- The registers of chapter 03. -/
def regRows03 : List RegRow := [
  { name := "FABRIC_CAPS", base := 0x100000030000, dims := [], config := false,
    fields := [⟨"GRAIN_BYTES", 0, 8, .ro, false, 0x10⟩, ⟨"GRAINS_WIDE", 8, 8, .ro, false, 0xc0⟩, ⟨"GRAINS_NARROW", 16, 8, .ro, false, 0x30⟩, ⟨"ROUTE_WORDS", 24, 14, .ro, false, 0x2000⟩, ⟨"VOTE_CHANNELS", 38, 5, .ro, false, 0x10⟩, ⟨"VOTE_LATENCY", 48, 4, .ro, false, 0x6⟩] },
  { name := "FABRIC_STATUS", base := 0x100000030008, dims := [], config := false,
    fields := [⟨"PROGRAM", 0, 4, .ro, true, 0x0⟩, ⟨"RUNNING", 4, 1, .ro, true, 0x0⟩, ⟨"STEP_FURROW", 8, 40, .ro, true, 0x0⟩] },
  { name := "VOTE_CFG", base := 0x100000030010, dims := [], config := true,
    fields := [⟨"OP", 0, 16, .rw, false, 0x0⟩, ⟨"ENABLE", 16, 16, .rw, false, 0x0⟩] },
  { name := "VOTE_RESULT", base := 0x100000030100, dims := [⟨0x8, 0, 16⟩], config := false,
    fields := [⟨"VALUE", 0, 1, .ro, false, 0x0⟩, ⟨"POISONED", 1, 1, .ro, false, 0x0⟩, ⟨"FURROW", 2, 48, .ro, false, 0x0⟩] },
  { name := "EDGE_LINK_FAIL", base := 0x100000030200, dims := [⟨0x8, 0, 4⟩], config := false,
    fields := [⟨"FAILED", 0, 64, .ro, true, 0x0⟩] },
  { name := "ROUTER_STATUS", base := 0x100000200000, dims := [⟨0x100, 0, 5120⟩], config := false,
    fields := [⟨"RUNNING", 0, 1, .ro, true, 0x0⟩, ⟨"SHELL_FAIL", 1, 1, .ro, false, 0x0⟩, ⟨"WORDS_LOADED", 16, 14, .ro, false, 0x0⟩] },
  { name := "GRAINS_SENT", base := 0x100000200008, dims := [⟨0x100, 0, 5120⟩, ⟨0x8, 0, 4⟩], config := false,
    fields := [⟨"COUNT", 0, 48, .ro, false, 0x0⟩] },
  { name := "CORRECTED", base := 0x100000200028, dims := [⟨0x100, 0, 5120⟩, ⟨0x8, 0, 4⟩], config := false,
    fields := [⟨"COUNT", 0, 48, .ro, false, 0x0⟩] },
  { name := "UNCORRECTED", base := 0x100000200048, dims := [⟨0x100, 0, 5120⟩, ⟨0x8, 0, 4⟩], config := false,
    fields := [⟨"COUNT", 0, 48, .ro, false, 0x0⟩] },
  { name := "POISON_COUNT", base := 0x100000200068, dims := [⟨0x100, 0, 5120⟩], config := false,
    fields := [⟨"COUNT", 0, 48, .ro, false, 0x0⟩] },
  { name := "ROUTE_MEM_CORR", base := 0x100000200070, dims := [⟨0x100, 0, 5120⟩], config := false,
    fields := [⟨"COUNT", 0, 48, .ro, false, 0x0⟩] }]

/-- The registers of chapter 04. -/
def regRows04 : List RegRow := [
  { name := "CHECK_CAPS", base := 0x100000040000, dims := [], config := false,
    fields := [⟨"TAU_EXP_C8", 0, 8, .ro, false, 0x14⟩, ⟨"TAU_EXP_C16", 8, 8, .ro, false, 0x13⟩, ⟨"TAU_EXP_C32", 16, 8, .ro, false, 0x12⟩, ⟨"A_FLOOR_EXP", 24, 8, .ro, false, 0x64⟩, ⟨"PIPE_DEPTH", 32, 8, .ro, false, 0x96⟩, ⟨"TURNAROUND", 40, 8, .ro, false, 0x8⟩, ⟨"LOAD_READY", 48, 8, .ro, false, 0x88⟩] },
  { name := "CHECK_CFG", base := 0x100000040008, dims := [], config := true,
    fields := [⟨"ACTION", 0, 1, .rw, false, 0x0⟩, ⟨"SHIFT_C8", 8, 3, .rw, false, 0x0⟩, ⟨"SHIFT_C16", 12, 3, .rw, false, 0x0⟩, ⟨"SHIFT_C32", 16, 3, .rw, false, 0x0⟩, ⟨"RECORD_LIMIT", 24, 8, .rw, false, 0x10⟩] },
  { name := "CHK_SUM", base := 0x100000040010, dims := [⟨0x8, 0, 5⟩], config := false,
    fields := [⟨"COUNT", 0, 64, .ro, false, 0x0⟩] },
  { name := "ARRAY_STATUS", base := 0x200000004000, dims := [⟨0x100000, 0, 16777216⟩], config := false,
    fields := [⟨"ACTIVE_VALID", 0, 1, .ro, true, 0x0⟩, ⟨"SHADOW_STATE", 1, 2, .ro, true, 0x0⟩, ⟨"ACC_VALID", 3, 1, .ro, true, 0x0⟩, ⟨"ACTIVE_FMT", 8, 4, .ro, true, 0x0⟩, ⟨"SHADOW_FMT", 12, 4, .ro, true, 0x0⟩, ⟨"MODE", 16, 3, .ro, true, 0x0⟩, ⟨"T", 32, 32, .ro, true, 0x0⟩] },
  { name := "ROWS_STREAMED", base := 0x200000004008, dims := [⟨0x100000, 0, 16777216⟩], config := false,
    fields := [⟨"COUNT", 0, 48, .ro, false, 0x0⟩] },
  { name := "CHK_COUNT", base := 0x200000004010, dims := [⟨0x100000, 0, 16777216⟩, ⟨0x8, 0, 5⟩], config := false,
    fields := [⟨"COUNT", 0, 48, .ro, false, 0x0⟩] },
  { name := "SAT_COUNT", base := 0x200000004038, dims := [⟨0x100000, 0, 16777216⟩], config := false,
    fields := [⟨"COUNT", 0, 48, .ro, false, 0x0⟩] },
  { name := "LAST_FAIL", base := 0x200000004040, dims := [⟨0x100000, 0, 16777216⟩], config := false,
    fields := [⟨"FURROW", 0, 48, .ro, true, 0x0⟩, ⟨"SLOT", 48, 6, .ro, true, 0x0⟩] },
  { name := "LAST_FAIL_DETAIL", base := 0x200000004048, dims := [⟨0x100000, 0, 16777216⟩], config := false,
    fields := [⟨"ROW", 0, 24, .ro, true, 0x0⟩, ⟨"MODE", 24, 3, .ro, true, 0x0⟩, ⟨"RATIO", 32, 32, .ro, true, 0x0⟩] }]

/-- The registers of chapter 05. -/
def regRows05 : List RegRow := [
  { name := "FORMAT_CAPS", base := 0x100000050000, dims := [], config := false,
    fields := [⟨"CODES", 0, 16, .ro, false, 0x7fff⟩, ⟨"MX_MAJOR", 16, 4, .ro, false, 0x1⟩, ⟨"MX_MINOR", 20, 4, .ro, false, 0x0⟩, ⟨"B16_VERSION", 24, 4, .ro, false, 0x1⟩, ⟨"RNG_ALGO", 28, 4, .ro, false, 0x1⟩] },
  { name := "RNG_INIT", base := 0x200000005000, dims := [⟨0x100000, 0, 16777216⟩], config := false,
    fields := [⟨"STATE", 0, 64, .ro, true, 0x1⟩] },
  { name := "RNG_STATE", base := 0x200000005008, dims := [⟨0x100000, 0, 16777216⟩], config := false,
    fields := [⟨"STATE", 0, 64, .ro, true, 0x1⟩] },
  { name := "RNG_WORDS", base := 0x200000005010, dims := [⟨0x100000, 0, 16777216⟩], config := false,
    fields := [⟨"COUNT", 0, 48, .ro, false, 0x0⟩] },
  { name := "CONV_SAT_COUNT", base := 0x200000005018, dims := [⟨0x100000, 0, 16777216⟩], config := false,
    fields := [⟨"COUNT", 0, 48, .ro, false, 0x0⟩] },
  { name := "CONV_NONFINITE_COUNT", base := 0x200000005020, dims := [⟨0x100000, 0, 16777216⟩], config := false,
    fields := [⟨"COUNT", 0, 48, .ro, false, 0x0⟩] }]

/-- The registers of chapter 06. -/
def regRows06a : List RegRow := [
  { name := "VECTOR_CAPS", base := 0x100000060000, dims := [], config := false,
    fields := [⟨"TILE_DIM", 0, 8, .ro, false, 0x10⟩, ⟨"TILE_REGS", 8, 8, .ro, false, 0x20⟩, ⟨"MASK_REGS", 16, 4, .ro, false, 0x8⟩, ⟨"PIPES_M", 20, 4, .ro, false, 0x1⟩, ⟨"PIPES_V", 24, 4, .ro, false, 0x4⟩, ⟨"SFU_FUNCS", 28, 6, .ro, false, 0x3f⟩, ⟨"GEN_REGS", 40, 8, .ro, false, 0x20⟩, ⟨"LOOSE_STEPS", 48, 8, .ro, false, 0x30⟩] },
  { name := "VEC_STATUS", base := 0x200000006000, dims := [⟨0x100000, 0, 16777216⟩], config := false,
    fields := [⟨"PIPES", 0, 3, .ro, false, 0x1⟩, ⟨"SFU", 3, 1, .ro, false, 0x0⟩, ⟨"BUSY", 4, 1, .ro, true, 0x0⟩] },
  { name := "TILE_OPS", base := 0x200000006008, dims := [⟨0x100000, 0, 16777216⟩], config := false,
    fields := [⟨"COUNT", 0, 48, .ro, false, 0x0⟩] },
  { name := "SFU_OPS", base := 0x200000006010, dims := [⟨0x100000, 0, 16777216⟩], config := false,
    fields := [⟨"COUNT", 0, 48, .ro, false, 0x0⟩] },
  { name := "VEC_SAT_COUNT", base := 0x200000006018, dims := [⟨0x100000, 0, 16777216⟩], config := false,
    fields := [⟨"COUNT", 0, 48, .ro, false, 0x0⟩] },
  { name := "VEC_CHK_FAIL", base := 0x200000006020, dims := [⟨0x100000, 0, 16777216⟩], config := false,
    fields := [⟨"COUNT", 0, 48, .ro, true, 0x0⟩] },
  { name := "REG_PARITY_ERR", base := 0x200000006028, dims := [⟨0x100000, 0, 16777216⟩], config := false,
    fields := [⟨"COUNT", 0, 48, .ro, true, 0x0⟩] },
  { name := "CTL_STATUS", base := 0x200000007000, dims := [⟨0x100000, 0, 16777216⟩], config := false,
    fields := [⟨"LAST_VARIANT", 0, 2, .ro, true, 0x0⟩, ⟨"IN_VARIANT", 2, 1, .ro, true, 0x0⟩, ⟨"LAST_FORK", 8, 8, .ro, true, 0x0⟩] },
  { name := "FORKS_TAKEN", base := 0x200000007008, dims := [⟨0x100000, 0, 16777216⟩, ⟨0x8, 0, 4⟩], config := false,
    fields := [⟨"COUNT", 0, 48, .ro, false, 0x0⟩] },
  { name := "EXPECT_FAIL", base := 0x200000007028, dims := [⟨0x100000, 0, 16777216⟩], config := false,
    fields := [⟨"COUNT", 0, 48, .ro, true, 0x0⟩] }]
def regRows06b : List RegRow := [
  { name := "WATCHDOG_FAIL", base := 0x200000007030, dims := [⟨0x100000, 0, 16777216⟩], config := false,
    fields := [⟨"COUNT", 0, 48, .ro, true, 0x0⟩] },
  { name := "SIGNATURE_FAIL", base := 0x200000007038, dims := [⟨0x100000, 0, 16777216⟩], config := false,
    fields := [⟨"COUNT", 0, 48, .ro, true, 0x0⟩] },
  { name := "LOOSE_MAX", base := 0x200000007040, dims := [⟨0x100000, 0, 16777216⟩], config := false,
    fields := [⟨"STEPS", 0, 8, .ro, false, 0x0⟩] }]
def regRows06 : List RegRow := regRows06a ++ regRows06b

/-- The registers of chapter 07. -/
def regRows07 : List RegRow := [
  { name := "SLOT_CAPS", base := 0x100000070000, dims := [], config := false,
    fields := [⟨"SLOT_WORDS", 0, 16, .ro, false, 0x8000⟩, ⟨"SLOTS", 16, 6, .ro, false, 0x30⟩, ⟨"UNITS", 22, 3, .ro, false, 0x4⟩, ⟨"PROGRAMS", 25, 5, .ro, false, 0x10⟩, ⟨"CONST_WORDS", 32, 10, .ro, false, 0x200⟩, ⟨"VARIANTS", 42, 3, .ro, false, 0x4⟩, ⟨"ISA_MAJOR", 48, 8, .ro, false, 0x1⟩, ⟨"ISA_MINOR", 56, 8, .ro, false, 0x0⟩] },
  { name := "SEQ_STATUS", base := 0x200000003000, dims := [⟨0x100000, 0, 16777216⟩], config := false,
    fields := [⟨"PROGRAM", 0, 4, .ro, true, 0x0⟩, ⟨"PRESENT", 4, 1, .ro, true, 0x0⟩, ⟨"RUNNING", 5, 1, .ro, true, 0x0⟩, ⟨"HEADER", 8, 15, .ro, true, 0x0⟩, ⟨"STEP_FURROW", 24, 40, .ro, true, 0x0⟩] },
  { name := "PROG_LOADED", base := 0x200000003008, dims := [⟨0x100000, 0, 16777216⟩], config := false,
    fields := [⟨"SLOT_WORDS", 0, 16, .ro, false, 0x0⟩, ⟨"CONST_WORDS", 16, 10, .ro, false, 0x0⟩, ⟨"PRESENT_MASK", 32, 16, .ro, false, 0x0⟩] },
  { name := "WORDS_ISSUED", base := 0x200000003010, dims := [⟨0x100000, 0, 16777216⟩], config := false,
    fields := [⟨"COUNT", 0, 48, .ro, false, 0x0⟩] },
  { name := "SLOT_CONFLICTS", base := 0x200000003018, dims := [⟨0x100000, 0, 16777216⟩], config := false,
    fields := [⟨"COUNT", 0, 48, .ro, true, 0x0⟩] },
  { name := "SLOT_MEM_CORR", base := 0x200000003020, dims := [⟨0x100000, 0, 16777216⟩], config := false,
    fields := [⟨"COUNT", 0, 48, .ro, false, 0x0⟩] },
  { name := "SLOT_MEM_UNCORR", base := 0x200000003028, dims := [⟨0x100000, 0, 16777216⟩], config := false,
    fields := [⟨"COUNT", 0, 48, .ro, true, 0x0⟩] }]

/-- The registers of chapter 08. -/
def regRows08a : List RegRow := [
  { name := "MEM_CAPS", base := 0x100000080000, dims := [], config := false,
    fields := [⟨"PAD_BANK_KIB", 0, 16, .ro, false, 0x400⟩, ⟨"BANKS_M", 16, 4, .ro, false, 0x8⟩, ⟨"BANKS_V", 20, 4, .ro, false, 0x6⟩, ⟨"SITE_LOAM_MIB", 24, 16, .ro, false, 0x258⟩, ⟨"COMMITTED_MIB", 40, 12, .ro, false, 0x80⟩, ⟨"PORT_BUDGET", 52, 12, .ro, false, 0x180⟩] },
  { name := "LOAM_CFG", base := 0x100000080008, dims := [], config := true,
    fields := [⟨"REFRESH_MULT", 0, 2, .rw, false, 0x0⟩, ⟨"SCRUB_EN", 2, 1, .rw, false, 0x1⟩, ⟨"PAD_SCRUB_EN", 3, 1, .rw, false, 0x1⟩] },
  { name := "MEM_STATUS", base := 0x100000080010, dims := [], config := false,
    fields := [⟨"HORIZON_LOST", 0, 1, .ro, true, 0x0⟩, ⟨"REFRESH_MIN", 4, 2, .ro, false, 0x0⟩, ⟨"CLOSE_NS", 16, 32, .ro, false, 0x0⟩] },
  { name := "LOAM_PART_ATTR", base := 0x100000080100, dims := [⟨0x8, 0, 8⟩], config := true,
    fields := [⟨"TYPE", 0, 4, .rw, false, 0x0⟩, ⟨"CODEC", 4, 2, .rw, false, 0x0⟩, ⟨"KEEP", 6, 1, .rw, false, 0x0⟩, ⟨"SRC_FMT", 8, 4, .rw, false, 0x0⟩, ⟨"SLOT_UNITS", 12, 5, .rw, false, 0x0⟩, ⟨"OVERFLOW_CHUNKS", 32, 32, .rw, false, 0x0⟩] },
  { name := "LOAM_PART_BASE", base := 0x100000080140, dims := [⟨0x8, 0, 8⟩], config := true,
    fields := [⟨"VALUE", 0, 64, .rw, false, 0x0⟩] },
  { name := "LOAM_PART_SIZE", base := 0x100000080180, dims := [⟨0x8, 0, 8⟩], config := true,
    fields := [⟨"VALUE", 0, 64, .rw, false, 0x0⟩] },
  { name := "HL_PART", base := 0x100000080200, dims := [⟨0x8, 0, 4⟩], config := true,
    fields := [⟨"SOW_UNITS", 0, 16, .rw, false, 0x0⟩, ⟨"HARVEST_UNITS", 16, 16, .rw, false, 0x0⟩, ⟨"STAGE_UNITS", 32, 16, .rw, false, 0x0⟩] },
  { name := "PAD_CFG", base := 0x200000008000, dims := [⟨0x100000, 0, 16777216⟩], config := true,
    fields := [⟨"MODE", 0, 16, .rw, false, 0x5555⟩, ⟨"CARRY", 16, 8, .rw, false, 0x0⟩] },
  { name := "CACHE_WIN", base := 0x200000008008, dims := [⟨0x100000, 0, 16777216⟩, ⟨0x8, 0, 8⟩], config := true,
    fields := [⟨"BASE", 0, 32, .rw, false, 0x0⟩, ⟨"SIZE", 32, 16, .rw, false, 0x0⟩] },
  { name := "LOAM_STREAM", base := 0x200000008048, dims := [⟨0x100000, 0, 16777216⟩, ⟨0x8, 0, 2⟩], config := true,
    fields := [⟨"BASE", 0, 32, .rw, false, 0x0⟩, ⟨"SIZE", 32, 16, .rw, false, 0x0⟩] }]
def regRows08b : List RegRow := [
  { name := "PAD_STATUS", base := 0x200000008058, dims := [⟨0x100000, 0, 16777216⟩], config := false,
    fields := [⟨"STALE", 0, 1, .ro, true, 0x1⟩, ⟨"IMAGE_HALF", 1, 1, .ro, true, 0x0⟩] },
  { name := "PAD_CORR", base := 0x200000008060, dims := [⟨0x100000, 0, 16777216⟩], config := false,
    fields := [⟨"COUNT", 0, 48, .ro, false, 0x0⟩] },
  { name := "PAD_UNCORR", base := 0x200000008068, dims := [⟨0x100000, 0, 16777216⟩], config := false,
    fields := [⟨"COUNT", 0, 48, .ro, true, 0x0⟩] },
  { name := "BANK_CONFLICTS", base := 0x200000008070, dims := [⟨0x100000, 0, 16777216⟩], config := false,
    fields := [⟨"COUNT", 0, 48, .ro, true, 0x0⟩] },
  { name := "CACHE_MISSES", base := 0x200000008078, dims := [⟨0x100000, 0, 16777216⟩], config := false,
    fields := [⟨"COUNT", 0, 48, .ro, false, 0x0⟩] },
  { name := "LOAM_STATUS", base := 0x100000400000, dims := [⟨0x100, 0, 5120⟩], config := false,
    fields := [⟨"POWERED", 0, 1, .ro, true, 0x0⟩, ⟨"HORIZON_LOST", 1, 1, .ro, true, 0x0⟩, ⟨"REFRESH_MULT", 2, 2, .ro, true, 0x0⟩, ⟨"HOT", 4, 1, .ro, true, 0x0⟩, ⟨"WEAK_ROWS", 8, 16, .ro, false, 0x0⟩] },
  { name := "CORR_BIT", base := 0x100000400008, dims := [⟨0x100, 0, 5120⟩], config := false,
    fields := [⟨"COUNT", 0, 48, .ro, false, 0x0⟩] },
  { name := "CORR_SYMBOL", base := 0x100000400010, dims := [⟨0x100, 0, 5120⟩], config := false,
    fields := [⟨"COUNT", 0, 48, .ro, false, 0x0⟩] },
  { name := "UNCORR", base := 0x100000400018, dims := [⟨0x100, 0, 5120⟩], config := false,
    fields := [⟨"COUNT", 0, 48, .ro, true, 0x0⟩] },
  { name := "PORT_PEAK", base := 0x100000400020, dims := [⟨0x100, 0, 5120⟩], config := false,
    fields := [⟨"COUNT", 0, 48, .ro, false, 0x0⟩] }]
def regRows08c : List RegRow := [
  { name := "STASH_SAT", base := 0x100000400028, dims := [⟨0x100, 0, 5120⟩], config := false,
    fields := [⟨"COUNT", 0, 48, .ro, false, 0x0⟩] },
  { name := "STASH_OVERFLOW", base := 0x100000400030, dims := [⟨0x100, 0, 5120⟩], config := false,
    fields := [⟨"COUNT", 0, 48, .ro, true, 0x0⟩] },
  { name := "SCRUB_PASSES", base := 0x100000400038, dims := [⟨0x100, 0, 5120⟩], config := false,
    fields := [⟨"COUNT", 0, 48, .ro, false, 0x0⟩] }]
def regRows08 : List RegRow := regRows08a ++ regRows08b ++ regRows08c

/-- The registers of chapter 09. -/
def regRows09a : List RegRow := [
  { name := "SOW_CAPS", base := 0x100000090000, dims := [], config := false,
    fields := [⟨"CHANNELS", 0, 8, .ro, false, 0x20⟩, ⟨"LANES", 8, 10, .ro, false, 0x200⟩, ⟨"LANES_PER_CHAN", 18, 5, .ro, false, 0x10⟩, ⟨"BLOCK_MT", 23, 6, .ro, false, 0x28⟩, ⟨"PAYLOAD_GRAINS", 29, 7, .ro, false, 0x3c⟩, ⟨"CREDIT_EXP", 36, 4, .ro, false, 0xc⟩, ⟨"CODECS", 40, 3, .ro, false, 0x7⟩, ⟨"ENTRY_BITS", 48, 8, .ro, false, 0x12⟩] },
  { name := "SOW_STATUS", base := 0x100000090008, dims := [], config := false,
    fields := [⟨"EPOCH", 0, 16, .ro, true, 0x0⟩, ⟨"EPOCH_CHANGES", 16, 16, .ro, true, 0x0⟩, ⟨"CHAN_UP", 32, 32, .ro, true, 0x0⟩] },
  { name := "SOW_DIGEST", base := 0x100000090040, dims := [⟨0x8, 0, 8⟩], config := false,
    fields := [⟨"DIGEST", 0, 64, .ro, false, 0x0⟩] },
  { name := "SOW_CHAN_CFG", base := 0x100000090100, dims := [⟨0x8, 0, 32⟩], config := true,
    fields := [⟨"ENABLE", 0, 1, .rw, false, 0x0⟩, ⟨"LOCK_GROUP", 1, 4, .rw, false, 0x0⟩, ⟨"LEAD_FW", 16, 16, .rw, false, 0x40⟩] },
  { name := "CHAN_STATUS", base := 0x100000091000, dims := [⟨0x80, 0, 32⟩], config := false,
    fields := [⟨"EXPECT_SSEQ", 0, 32, .ro, true, 0x0⟩, ⟨"HELD_BLOCKS", 32, 21, .ro, true, 0x0⟩] },
  { name := "SEG_ACCEPTED", base := 0x100000091008, dims := [⟨0x80, 0, 32⟩], config := false,
    fields := [⟨"COUNT", 0, 48, .ro, true, 0x0⟩] },
  { name := "SEG_LOST", base := 0x100000091010, dims := [⟨0x80, 0, 32⟩], config := false,
    fields := [⟨"COUNT", 0, 48, .ro, true, 0x0⟩] },
  { name := "SEQ_DISCARD", base := 0x100000091018, dims := [⟨0x80, 0, 32⟩], config := false,
    fields := [⟨"COUNT", 0, 48, .ro, true, 0x0⟩] },
  { name := "MALFORMED", base := 0x100000091020, dims := [⟨0x80, 0, 32⟩], config := false,
    fields := [⟨"COUNT", 0, 48, .ro, true, 0x0⟩] },
  { name := "CREDIT_VIOL", base := 0x100000091028, dims := [⟨0x80, 0, 32⟩], config := false,
    fields := [⟨"COUNT", 0, 48, .ro, true, 0x0⟩] }]
def regRows09b : List RegRow := [
  { name := "STALE", base := 0x100000091030, dims := [⟨0x80, 0, 32⟩], config := false,
    fields := [⟨"COUNT", 0, 48, .ro, true, 0x0⟩] },
  { name := "MISMATCH", base := 0x100000091038, dims := [⟨0x80, 0, 32⟩], config := false,
    fields := [⟨"COUNT", 0, 48, .ro, true, 0x0⟩] },
  { name := "LATE", base := 0x100000091040, dims := [⟨0x80, 0, 32⟩], config := false,
    fields := [⟨"COUNT", 0, 48, .ro, true, 0x0⟩] },
  { name := "SB_LOST", base := 0x100000091048, dims := [⟨0x80, 0, 32⟩], config := false,
    fields := [⟨"COUNT", 0, 48, .ro, true, 0x0⟩] },
  { name := "CONV_SAT", base := 0x100000091050, dims := [⟨0x80, 0, 32⟩], config := false,
    fields := [⟨"COUNT", 0, 48, .ro, true, 0x0⟩] },
  { name := "CONV_NONFINITE", base := 0x100000091058, dims := [⟨0x80, 0, 32⟩], config := false,
    fields := [⟨"COUNT", 0, 48, .ro, true, 0x0⟩] },
  { name := "LANE_STATUS", base := 0x100000094000, dims := [⟨0x20, 0, 512⟩], config := false,
    fields := [⟨"LOCKED", 0, 1, .ro, true, 0x0⟩, ⟨"RETRAINS", 16, 16, .ro, true, 0x0⟩] },
  { name := "CORR_SYMBOLS", base := 0x100000094008, dims := [⟨0x20, 0, 512⟩], config := false,
    fields := [⟨"COUNT", 0, 48, .ro, true, 0x0⟩] },
  { name := "UNCORR_CW", base := 0x100000094010, dims := [⟨0x20, 0, 512⟩], config := false,
    fields := [⟨"COUNT", 0, 48, .ro, true, 0x0⟩] }]
def regRows09 : List RegRow := regRows09a ++ regRows09b

/-- The registers of chapter 10. -/
def regRows10a : List RegRow := [
  { name := "HV_CAPS", base := 0x1000000a0000, dims := [], config := false,
    fields := [⟨"GLEANERS", 0, 8, .ro, false, 0x80⟩, ⟨"BENCH_GRAINS", 8, 17, .ro, false, 0x10000⟩, ⟨"OPS_PER_FW", 25, 10, .ro, false, 0x100⟩, ⟨"CODECS", 35, 5, .ro, false, 0x1f⟩, ⟨"NORM_BINS", 40, 4, .ro, false, 0xf⟩] },
  { name := "HV_STATUS", base := 0x1000000a0008, dims := [], config := false,
    fields := [⟨"COMMITTED_S", 0, 48, .ro, false, 0x0⟩, ⟨"KEPT_STEPS", 48, 8, .ro, true, 0x0⟩] },
  { name := "HV_CLIP", base := 0x1000000a0010, dims := [], config := false,
    fields := [⟨"CLIP", 0, 32, .rw, true, 0x3f800000⟩] },
  { name := "HV_RELEASE", base := 0x1000000a0018, dims := [], config := false,
    fields := [⟨"STEP_S", 0, 48, .wo, false, 0x0⟩] },
  { name := "HV_RESEND_STEP", base := 0x1000000a0020, dims := [], config := false,
    fields := [⟨"STEP_S", 0, 48, .rw, true, 0x0⟩] },
  { name := "HV_RESEND", base := 0x1000000a0028, dims := [], config := false,
    fields := [⟨"CHANNEL", 0, 5, .wo, false, 0x0⟩, ⟨"HSEQ", 32, 32, .wo, false, 0x0⟩] },
  { name := "HV_DIGEST", base := 0x1000000a0040, dims := [⟨0x8, 0, 8⟩], config := false,
    fields := [⟨"DIGEST", 0, 64, .ro, false, 0x0⟩] },
  { name := "HV_SEG_CFG", base := 0x1000000a0100, dims := [⟨0x8, 0, 4⟩], config := true,
    fields := [⟨"RES_UNITS", 0, 16, .rw, false, 0x0⟩] },
  { name := "HV_SEG_STATUS", base := 0x1000000a0120, dims := [⟨0x8, 0, 4⟩], config := false,
    fields := [⟨"TX_FREE", 0, 32, .ro, true, 0x0⟩] },
  { name := "HV_NORM", base := 0x1000000a0200, dims := [⟨0x8, 1, 16⟩], config := false,
    fields := [⟨"SUMSQ", 0, 64, .ro, false, 0x0⟩] }]
def regRows10b : List RegRow := [
  { name := "GL_STATUS", base := 0x1000000a1000, dims := [⟨0x80, 0, 128⟩], config := false,
    fields := [⟨"ACTIVE", 0, 1, .ro, true, 0x0⟩] },
  { name := "GRAINS_GATHERED", base := 0x1000000a1008, dims := [⟨0x80, 0, 128⟩], config := false,
    fields := [⟨"COUNT", 0, 48, .ro, false, 0x0⟩] },
  { name := "ELEMENTS_EMITTED", base := 0x1000000a1010, dims := [⟨0x80, 0, 128⟩], config := false,
    fields := [⟨"COUNT", 0, 48, .ro, false, 0x0⟩] },
  { name := "B16_SAT", base := 0x1000000a1018, dims := [⟨0x80, 0, 128⟩], config := false,
    fields := [⟨"COUNT", 0, 48, .ro, false, 0x0⟩] },
  { name := "NONFINITE", base := 0x1000000a1020, dims := [⟨0x80, 0, 128⟩], config := false,
    fields := [⟨"COUNT", 0, 48, .ro, false, 0x0⟩] },
  { name := "POISON", base := 0x1000000a1028, dims := [⟨0x80, 0, 128⟩], config := false,
    fields := [⟨"COUNT", 0, 48, .ro, true, 0x0⟩] },
  { name := "CHK_FAIL", base := 0x1000000a1030, dims := [⟨0x80, 0, 128⟩], config := false,
    fields := [⟨"COUNT", 0, 48, .ro, true, 0x0⟩] },
  { name := "BENCH_CORR", base := 0x1000000a1038, dims := [⟨0x80, 0, 128⟩], config := false,
    fields := [⟨"COUNT", 0, 48, .ro, false, 0x0⟩] },
  { name := "BENCH_UNCORR", base := 0x1000000a1040, dims := [⟨0x80, 0, 128⟩], config := false,
    fields := [⟨"COUNT", 0, 48, .ro, true, 0x0⟩] }]
def regRows10 : List RegRow := regRows10a ++ regRows10b

/-- The registers of chapter 11. -/
def regRows11 : List RegRow := [
  { name := "PORT_CAPS", base := 0x1000000b0000, dims := [], config := false,
    fields := [⟨"PORTS", 0, 2, .ro, false, 0x2⟩, ⟨"TAGS", 2, 9, .ro, false, 0x100⟩, ⟨"MAX_LENGTH", 11, 13, .ro, false, 0x1000⟩, ⟨"PROTO_MAJOR", 24, 16, .ro, false, 0x1⟩, ⟨"PROTO_MINOR", 40, 16, .ro, false, 0x0⟩] },
  { name := "PORT_STATUS", base := 0x1000000b0008, dims := [⟨0x8, 0, 2⟩], config := false,
    fields := [⟨"UP", 0, 1, .ro, true, 0x0⟩, ⟨"EXCHANGED", 1, 1, .ro, true, 0x0⟩, ⟨"BAD_PACKETS", 16, 16, .ro, true, 0x0⟩, ⟨"TAG_ERRORS", 32, 16, .ro, true, 0x0⟩, ⟨"DOWN_COUNT", 48, 16, .ro, true, 0x0⟩] },
  { name := "MGMT_RING", base := 0x1000000b0020, dims := [⟨0x8, 0, 2⟩], config := false,
    fields := [⟨"BASE_PARCEL", 0, 20, .rw, false, 0x0⟩, ⟨"ENTRIES", 20, 21, .rw, false, 0x0⟩] },
  { name := "EVENTS_LOST", base := 0x1000000b0030, dims := [], config := false,
    fields := [⟨"COUNT", 0, 48, .ro, true, 0x0⟩] },
  { name := "QUEUE_CFG", base := 0x100001000000, dims := [⟨0x10, 0, 32768⟩], config := true,
    fields := [⟨"BASE_PARCEL", 0, 20, .rw, false, 0x0⟩, ⟨"ENTRIES", 20, 21, .rw, false, 0x0⟩, ⟨"KIND", 41, 3, .rw, false, 0x0⟩, ⟨"EP_TYPE", 44, 4, .rw, false, 0x0⟩, ⟨"LEDGER", 48, 1, .rw, false, 0x0⟩] },
  { name := "QUEUE_EP", base := 0x100001000008, dims := [⟨0x10, 0, 32768⟩], config := true,
    fields := [⟨"EP_ID", 0, 24, .rw, false, 0x0⟩] },
  { name := "QUEUE_DOORBELL", base := 0x300000200000, dims := [⟨0x10, 0, 32768⟩], config := false,
    fields := [⟨"GIVE", 0, 32, .wo, false, 0x0⟩] },
  { name := "QUEUE_STATE", base := 0x300000200008, dims := [⟨0x10, 0, 32768⟩], config := false,
    fields := [⟨"GIVE", 0, 32, .ro, true, 0x0⟩, ⟨"DONE", 32, 32, .ro, false, 0x0⟩] }]

/-- The registers of chapter 12. -/
def regRows12 : List RegRow := [
  { name := "PLAN_CAPS", base := 0x1000000c0000, dims := [], config := false,
    fields := [⟨"FORMAT_MAJOR", 0, 16, .ro, false, 0x1⟩, ⟨"FORMAT_MINOR", 16, 16, .ro, false, 0x0⟩, ⟨"MAX_IMAGE_MIB", 32, 10, .ro, false, 0x200⟩] },
  { name := "PLAN_STATUS", base := 0x1000000c0008, dims := [], config := false,
    fields := [⟨"APPLYING", 0, 1, .ro, true, 0x0⟩, ⟨"SHADOWS_DIRTY", 1, 1, .ro, true, 0x0⟩, ⟨"HOST_VALUES", 2, 1, .ro, false, 0x0⟩, ⟨"CONFIGURED", 3, 1, .ro, false, 0x0⟩, ⟨"APPLY_COUNT", 16, 32, .ro, false, 0x0⟩, ⟨"CONFIG_COUNT", 48, 16, .ro, false, 0x0⟩] },
  { name := "MODE_CFG", base := 0x1000000c0010, dims := [], config := true,
    fields := [⟨"PAIRED", 0, 1, .rw, false, 0x0⟩, ⟨"CKPT_MODE", 2, 2, .rw, false, 0x0⟩, ⟨"CKPT_EVERY", 16, 16, .rw, false, 0x32⟩, ⟨"EVAL_PROGRAMS", 32, 16, .rw, false, 0x0⟩] },
  { name := "APPLY_CTL", base := 0x1000000c0018, dims := [], config := false,
    fields := [⟨"DISCARD", 0, 1, .wo, false, 0x0⟩] },
  { name := "APPLY_LAST", base := 0x1000000c0020, dims := [], config := false,
    fields := [⟨"REASON", 0, 16, .ro, true, 0x0⟩, ⟨"SECTION", 16, 16, .ro, true, 0x0⟩, ⟨"DETAIL", 32, 32, .ro, true, 0x0⟩] },
  { name := "PLAN_ID", base := 0x1000000c0028, dims := [], config := false,
    fields := [⟨"ID", 0, 64, .ro, false, 0x0⟩] },
  { name := "PLAN_DIGEST", base := 0x1000000c0040, dims := [⟨0x8, 0, 8⟩], config := false,
    fields := [⟨"DIGEST", 0, 64, .ro, false, 0x0⟩] }]

/-- The registers of chapter 13. -/
def regRows13 : List RegRow := [
  { name := "FAULT_CAPS", base := 0x1000000d0000, dims := [], config := false,
    fields := [⟨"LOG_ENTRIES", 0, 24, .ro, false, 0xf80000⟩, ⟨"WINDOW_DAYS", 24, 8, .ro, false, 0x1e⟩, ⟨"PERM_EVENTS", 32, 4, .ro, false, 0x3⟩, ⟨"LOG_RATE", 36, 12, .ro, false, 0x100⟩] },
  { name := "HIST_CFG", base := 0x1000000d0008, dims := [], config := true,
    fields := [⟨"CORR_LIMIT", 0, 16, .rw, false, 0x100⟩] },
  { name := "HIST_STATUS", base := 0x1000000d0010, dims := [], config := false,
    fields := [⟨"NORTH_HEAD", 0, 24, .ro, true, 0x0⟩, ⟨"SOUTH_HEAD", 24, 24, .ro, true, 0x0⟩, ⟨"NORTH_WRAPPED", 48, 1, .ro, true, 0x0⟩, ⟨"SOUTH_WRAPPED", 49, 1, .ro, true, 0x0⟩, ⟨"FLASH_ERR", 56, 8, .ro, true, 0x0⟩] },
  { name := "LOG_DROPPED", base := 0x1000000d0018, dims := [], config := false,
    fields := [⟨"COUNT", 0, 48, .ro, true, 0x0⟩] },
  { name := "HIST_CURSOR", base := 0x1000000d0020, dims := [], config := false,
    fields := [⟨"INDEX", 0, 24, .rw, true, 0x0⟩, ⟨"HALF", 24, 1, .rw, true, 0x0⟩] },
  { name := "HIST_QUERY", base := 0x1000000d0028, dims := [], config := false,
    fields := [⟨"UNIT_TYPE", 0, 4, .rw, true, 0x0⟩, ⟨"UNIT_ID", 8, 24, .rw, true, 0x0⟩] },
  { name := "HIST_ENTRY", base := 0x1000000d0040, dims := [⟨0x8, 0, 8⟩], config := false,
    fields := [⟨"WORD", 0, 64, .ro, true, 0x0⟩] },
  { name := "HIST_SUMMARY", base := 0x1000000d0080, dims := [⟨0x8, 0, 4⟩], config := false,
    fields := [⟨"WORD", 0, 64, .ro, true, 0x0⟩] },
  { name := "CLASS_COUNT", base := 0x1000000d00a0, dims := [⟨0x8, 0, 5⟩], config := false,
    fields := [⟨"COUNT", 0, 32, .ro, true, 0x0⟩] },
  { name := "DUSK_STATUS", base := 0x1000000d00c8, dims := [], config := false,
    fields := [⟨"RUNNING", 0, 1, .ro, true, 0x0⟩, ⟨"STAGE", 1, 3, .ro, true, 0x0⟩, ⟨"LAST_MERIDIAN", 8, 48, .ro, false, 0x0⟩] },
  { name := "FENCED_GLEANERS", base := 0x1000000d00d0, dims := [⟨0x8, 0, 2⟩], config := false,
    fields := [⟨"MASK", 0, 64, .ro, false, 0x0⟩] }]

/-- The registers of chapter 14. -/
def regRows14 : List RegRow := [
  { name := "CKPT_STATUS", base := 0x1000000e0000, dims := [], config := false,
    fields := [⟨"DRAINING", 0, 1, .ro, true, 0x0⟩, ⟨"DEFERRED", 1, 1, .ro, true, 0x0⟩, ⟨"NOW_PENDING", 2, 1, .ro, true, 0x0⟩, ⟨"CKPT_SEQ", 8, 32, .ro, false, 0x0⟩, ⟨"STEPS_SINCE", 40, 16, .ro, false, 0x0⟩] },
  { name := "CKPT_STEP", base := 0x1000000e0008, dims := [], config := false,
    fields := [⟨"STEP_S", 0, 48, .ro, false, 0x0⟩] },
  { name := "CKPT_REMAIN", base := 0x1000000e0010, dims := [], config := false,
    fields := [⟨"COUNT", 0, 48, .ro, true, 0x0⟩] },
  { name := "CKPT_UNPLANNED", base := 0x1000000e0018, dims := [], config := false,
    fields := [⟨"COUNT", 0, 48, .ro, true, 0x0⟩] },
  { name := "CKPT_ROOT", base := 0x1000000e0040, dims := [⟨0x8, 0, 8⟩], config := false,
    fields := [⟨"ROOT", 0, 64, .ro, false, 0x0⟩] },
  { name := "LEASE_STATUS", base := 0x1000000e0080, dims := [], config := false,
    fields := [⟨"VALID", 0, 1, .ro, true, 0x0⟩, ⟨"ROLE", 1, 2, .ro, true, 0x3⟩, ⟨"IN_CHARGE", 3, 1, .ro, true, 0x0⟩, ⟨"DISAGREE", 4, 1, .ro, true, 0x0⟩, ⟨"SUPERSEDED", 5, 1, .ro, true, 0x0⟩] },
  { name := "LEASE_SEQ", base := 0x1000000e0088, dims := [], config := false,
    fields := [⟨"VALUE", 0, 64, .ro, true, 0x0⟩] },
  { name := "LEASE_EXPIRY", base := 0x1000000e0090, dims := [], config := false,
    fields := [⟨"VALUE", 0, 64, .ro, true, 0x0⟩] },
  { name := "TWIN_STATUS", base := 0x1000000e0098, dims := [], config := false,
    fields := [⟨"LINK_UP", 0, 1, .ro, true, 0x0⟩, ⟨"LEDGER_INCOMPLETE", 1, 1, .ro, true, 0x0⟩, ⟨"HELD_CKPT", 8, 32, .ro, true, 0x0⟩, ⟨"LEDGER_STEPS", 40, 24, .ro, true, 0x0⟩] }]

/-- The registers of chapter 15. -/
def regRows15 : List RegRow := [
  { name := "POWER_CAPS", base := 0x1000000f0000, dims := [], config := false,
    fields := [⟨"MODULE_CAP_MAX", 0, 16, .ro, false, 0x6000⟩, ⟨"REGION_CAP", 16, 8, .ro, false, 0x7d⟩, ⟨"REGION_CAP_6", 24, 8, .ro, false, 0x6e⟩, ⟨"PHASES", 32, 4, .ro, false, 0x8⟩, ⟨"PHASE_A", 36, 5, .ro, false, 0x14⟩, ⟨"WAKE_DEFER_MAX", 41, 13, .ro, false, 0x1000⟩] },
  { name := "POWER_CFG", base := 0x1000000f0008, dims := [], config := true,
    fields := [⟨"MODULE_CAP", 0, 16, .rw, false, 0x6000⟩, ⟨"P_LIMIT", 16, 16, .rw, false, 0x61a8⟩] },
  { name := "THERM_CFG", base := 0x1000000f0010, dims := [], config := true,
    fields := [⟨"T_PACE", 0, 8, .rw, false, 0x64⟩] },
  { name := "POWER_STATUS", base := 0x1000000f0018, dims := [], config := false,
    fields := [⟨"INPUT_W", 0, 16, .ro, true, 0x0⟩, ⟨"HOTTEST", 16, 12, .ro, true, 0x0⟩, ⟨"CAUSE", 28, 4, .ro, true, 0x0⟩, ⟨"PACE_STEPS", 32, 16, .ro, true, 0x0⟩] },
  { name := "RAIL_MON", base := 0x1000000f0040, dims := [⟨0x8, 0, 6⟩], config := false,
    fields := [⟨"MV", 0, 16, .ro, true, 0x0⟩, ⟨"AMPS", 16, 16, .ro, true, 0x0⟩, ⟨"IN_TOL", 32, 1, .ro, true, 0x0⟩] },
  { name := "CONTACT_MON", base := 0x1000000f0100, dims := [⟨0x8, 0, 64⟩], config := false,
    fields := [⟨"EXCESS", 0, 16, .ro, true, 0x0⟩, ⟨"R_UOHM", 16, 16, .ro, false, 0x0⟩, ⟨"SUSPECT", 32, 1, .ro, true, 0x0⟩] },
  { name := "REGION_CFG", base := 0x1000000f1000, dims := [⟨0x8, 0, 256⟩], config := true,
    fields := [⟨"WAKE_DEFER", 0, 13, .rw, false, 0x1000⟩, ⟨"SLEEP_EN", 13, 1, .rw, false, 0x0⟩, ⟨"SLEEP_MIN_FW", 16, 16, .rw, false, 0x400⟩, ⟨"WAKE_LEAD_FW", 32, 16, .rw, false, 0xc0⟩] },
  { name := "REGION_PSTAT", base := 0x1000000f2000, dims := [⟨0x8, 0, 256⟩], config := false,
    fields := [⟨"SWITCH", 0, 1, .ro, true, 0x0⟩, ⟨"DARK_LATCH", 1, 1, .ro, false, 0x0⟩, ⟨"AWAKE", 2, 1, .ro, true, 0x0⟩, ⟨"WAKING", 3, 1, .ro, true, 0x0⟩, ⟨"PHASES", 4, 4, .ro, false, 0x8⟩, ⟨"CAP", 8, 8, .ro, false, 0x7d⟩, ⟨"DEFERRED", 16, 16, .ro, true, 0x0⟩, ⟨"WAKES", 32, 16, .ro, false, 0x0⟩] },
  { name := "REGION_DEMAND", base := 0x1000000f3000, dims := [⟨0x8, 0, 256⟩], config := false,
    fields := [⟨"PLAN_PEAK", 0, 16, .ro, false, 0x0⟩, ⟨"MEAS_PEAK", 16, 16, .ro, true, 0x0⟩, ⟨"MEAS_NOW", 32, 16, .ro, true, 0x0⟩] }]

/-- The registers of chapter 16. -/
def regRows16 : List RegRow := [
  { name := "ID_PART", base := 0x100000000000, dims := [], config := false,
    fields := [⟨"PART", 0, 4, .ro, false, 0x0⟩, ⟨"GENERATION", 4, 8, .ro, false, 0x2⟩, ⟨"STEPPING", 12, 8, .ro, false, 0x0⟩] },
  { name := "ID_SERIAL", base := 0x100000000008, dims := [], config := false,
    fields := [⟨"VALUE", 0, 64, .ro, false, 0x0⟩] },
  { name := "ID_KEY", base := 0x100000000010, dims := [⟨0x8, 0, 4⟩], config := false,
    fields := [⟨"VALUE", 0, 64, .ro, false, 0x0⟩] },
  { name := "FW_VERSION", base := 0x100000000030, dims := [], config := false,
    fields := [⟨"MAJOR", 0, 16, .ro, false, 0x0⟩, ⟨"MINOR", 16, 16, .ro, false, 0x0⟩, ⟨"SECURITY", 32, 16, .ro, false, 0x0⟩, ⟨"NORTH_COPY", 48, 1, .ro, false, 0x0⟩, ⟨"SOUTH_COPY", 49, 1, .ro, false, 0x0⟩] },
  { name := "BOOT_STATUS", base := 0x100000000038, dims := [], config := false,
    fields := [⟨"PHASE", 0, 4, .ro, true, 0x0⟩, ⟨"STATE", 4, 2, .ro, true, 0x0⟩, ⟨"PATH", 6, 1, .ro, true, 0x0⟩, ⟨"CODE", 8, 8, .ro, true, 0x0⟩, ⟨"ELAPSED_MS", 16, 32, .ro, true, 0x0⟩, ⟨"GRID_SHORT", 48, 10, .ro, false, 0x0⟩] },
  { name := "PHASE_MS", base := 0x100000000040, dims := [⟨0x8, 0, 9⟩], config := false,
    fields := [⟨"MS", 0, 32, .ro, true, 0x0⟩] },
  { name := "SAVED_STATUS", base := 0x100000000088, dims := [], config := false,
    fields := [⟨"VALID", 0, 1, .ro, false, 0x0⟩, ⟨"FAST_REFUSED", 1, 7, .ro, false, 0x0⟩, ⟨"NO_MARGIN", 8, 1, .ro, false, 0x0⟩, ⟨"AGE_DAYS", 16, 16, .ro, false, 0x0⟩] },
  { name := "MGMT_STATUS", base := 0x100000000090, dims := [], config := false,
    fields := [⟨"NORTH_ALIVE", 0, 1, .ro, true, 0x0⟩, ⟨"SOUTH_ALIVE", 1, 1, .ro, true, 0x0⟩, ⟨"LEADER", 2, 1, .ro, true, 0x0⟩, ⟨"ONE_CONTROLLER", 3, 1, .ro, true, 0x0⟩, ⟨"HB_MISSES", 16, 16, .ro, true, 0x0⟩] },
  { name := "BOOT_CFG", base := 0x100000000098, dims := [], config := false,
    fields := [⟨"FORCE_FULL", 0, 1, .rw, false, 0x0⟩] },
  { name := "GATE_SUMMARY", base := 0x1000000000a0, dims := [], config := false,
    fields := [⟨"TESTED", 0, 10, .ro, false, 0x0⟩, ⟨"FAILED", 10, 10, .ro, true, 0x0⟩, ⟨"UNTESTED", 20, 10, .ro, true, 0x0⟩, ⟨"REGATE_RUNNING", 30, 1, .ro, true, 0x0⟩, ⟨"WORST_BER", 32, 32, .ro, false, 0x0⟩] },
  { name := "LANE_EXCLUDED", base := 0x100000000100, dims := [⟨0x8, 0, 9⟩], config := false,
    fields := [⟨"MASK", 0, 64, .ro, true, 0x0⟩] },
  { name := "LANE_REGATE", base := 0x100000000148, dims := [], config := false,
    fields := [⟨"CHANNELS", 0, 32, .wo, false, 0x0⟩, ⟨"TWIN", 32, 1, .wo, false, 0x0⟩] }]

/-- The registers of chapter 17. -/
def regRows17 : List RegRow := [
  { name := "PERF_CFG", base := 0x200000009000, dims := [⟨0x100000, 0, 16777216⟩, ⟨0x8, 0, 32⟩], config := true,
    fields := [⟨"EVENT", 0, 8, .rw, false, 0x0⟩, ⟨"LIVE", 8, 1, .rw, false, 0x0⟩] },
  { name := "PERF_COUNT", base := 0x200000009100, dims := [⟨0x100000, 0, 16777216⟩, ⟨0x8, 0, 32⟩], config := false,
    fields := [⟨"COUNT", 0, 48, .ro, false, 0x0⟩] },
  { name := "TRACE_CFG", base := 0x100000110000, dims := [], config := false,
    fields := [⟨"MIRROR", 0, 1, .rw, false, 0x0⟩, ⟨"HORIZON", 1, 1, .rw, false, 0x0⟩, ⟨"SAMPLE", 2, 1, .rw, false, 0x0⟩, ⟨"TO_QUEUE", 3, 1, .rw, false, 0x0⟩, ⟨"QUEUE", 4, 15, .rw, false, 0x1⟩, ⟨"SAMPLE_CTR", 19, 5, .rw, false, 0x0⟩, ⟨"SAMPLE_ID", 24, 24, .rw, false, 0x0⟩, ⟨"PERIOD", 48, 16, .rw, false, 0x0⟩] },
  { name := "TRACE_STATUS", base := 0x100000110008, dims := [], config := false,
    fields := [⟨"WATCH_DROPPED", 0, 32, .ro, true, 0x0⟩, ⟨"QUEUE_DROPPED", 32, 32, .ro, true, 0x0⟩] },
  { name := "KEY_LOAD", base := 0x100000110010, dims := [], config := false,
    fields := [⟨"PARCEL", 0, 20, .wo, false, 0x0⟩] },
  { name := "ATTEST_REQ", base := 0x100000110018, dims := [], config := false,
    fields := [⟨"PARCEL", 0, 20, .wo, false, 0x0⟩] },
  { name := "OBS_STATUS", base := 0x100000110020, dims := [], config := false,
    fields := [⟨"KEY_RESULT", 0, 4, .ro, true, 0x0⟩, ⟨"ATTEST_DONE", 4, 1, .w1c, false, 0x0⟩, ⟨"ATTEST_OWNER", 5, 1, .w1c, false, 0x0⟩] },
  { name := "KEY_STATUS", base := 0x100000110028, dims := [], config := false,
    fields := [⟨"PLAN_KEYS", 0, 8, .ro, true, 0x0⟩, ⟨"LEASE_KEYS", 8, 8, .ro, true, 0x0⟩, ⟨"OWNER_SET", 16, 1, .ro, true, 0x0⟩, ⟨"PENDING", 17, 1, .ro, true, 0x0⟩, ⟨"KEY_SEQ", 18, 46, .ro, true, 0x0⟩] },
  { name := "WITNESS_STATUS", base := 0x100000110030, dims := [], config := false,
    fields := [⟨"LAST_S", 0, 48, .ro, false, 0x0⟩, ⟨"HELD", 48, 11, .ro, false, 0x0⟩] },
  { name := "ID_CERT", base := 0x100000110040, dims := [⟨0x8, 0, 16⟩], config := false,
    fields := [⟨"VALUE", 0, 64, .ro, false, 0x0⟩] }]

/-- The registers of chapter 18. -/
def regRows18 : List RegRow := [
  { name := "COOLANT_STATUS", base := 0x100000120000, dims := [], config := false,
    fields := [⟨"INLET", 0, 12, .ro, true, 0x0⟩, ⟨"OUTLET", 12, 12, .ro, true, 0x0⟩, ⟨"FLOW", 24, 12, .ro, true, 0x0⟩, ⟨"IN_RANGE", 36, 1, .ro, true, 0x0⟩, ⟨"EXCURSIONS", 37, 16, .ro, true, 0x0⟩] }]

/-- Every register the spec gives. -/
def regRows : List RegRow :=
  regRows01 ++ regRows02 ++ regRows03 ++ regRows04 ++ regRows05 ++ regRows06 ++ regRows07 ++ regRows08 ++ regRows09 ++ regRows10 ++ regRows11 ++ regRows12 ++ regRows13 ++ regRows14 ++ regRows15 ++ regRows16 ++ regRows17 ++ regRows18

/-- Peel one address offset down the instance dimensions, widest stride first. -/
def Dim.peel : List Dim → Nat → Option (List Nat)
  | [], off => if off = 0 then some [] else none
  | d :: ds, off =>
    let i := off / d.stride
    if i < d.first ∨ d.limit ≤ i then none else (Dim.peel ds (off % d.stride)).map (i :: ·)

/-- The instance numbers with which a row lies at an address. -/
def RegRow.at? (r : RegRow) (addr : Nat) : Option (List Nat) :=
  if addr < r.base then none else Dim.peel r.dims (addr - r.base)

/-- The register at an address, with its instance numbers (R273). -/
def findReg (addr : Nat) : Option (RegRow × List Nat) :=
  regRows.findSome? fun r => (r.at? addr).map (r, ·)

/-- The field of a row at an address. -/
def FieldRow.fld (f : FieldRow) (addr : Nat) : Fld := ⟨addr, f.lo, f.width, f.reset⟩

end Sys2Proof.Machine
end

