-- ==== Sys2Proof/Machine/Sparse.lean ====
section
/-! DEFINITION. Sparse stores in one canonical form: a list of (number, value) pairs with strictly rising
numbers, in which no entry equals what an unlisted number reads as. Window bytes, loam bytes, pads, register
fields, queues and history summaries are all held this way, so that equal contents are equal data. -/

namespace Sys2Proof.Machine

/-- A sparse store of values by number. -/
abbrev SMap (α : Type) := List (Nat × α)

namespace SMap

variable {α : Type}

/-- The listed value at a number, if any. -/
def find? (m : SMap α) (k : Nat) : Option α :=
  match m with
  | [] => none
  | (j, v) :: rest => if j = k then some v else find? rest k

/-- The value at a number; `d` says what an unlisted number reads as. -/
def get (d : α) (m : SMap α) (k : Nat) : α := (find? m k).getD d

/-- Take a number out of the list. -/
def drop (m : SMap α) (k : Nat) : SMap α :=
  match m with
  | [] => []
  | (j, v) :: rest => if j = k then drop rest k else (j, v) :: drop rest k

/-- List a value in its place. -/
def put (m : SMap α) (k : Nat) (v : α) : SMap α :=
  match m with
  | [] => [(k, v)]
  | (j, w) :: rest => if k < j then (k, v) :: (j, w) :: rest else (j, w) :: put rest k v

/-- Write a value: the entry is listed only if it differs from what an unlisted number reads as. -/
def set [DecidableEq α] (d : α) (m : SMap α) (k : Nat) (v : α) : SMap α :=
  if v = d then drop m k else put (drop m k) k v

/-- List a value at a number, whatever it is: for stores that have no value for an unlisted number. -/
def ins (m : SMap α) (k : Nat) (v : α) : SMap α := put (drop m k) k v

/-- Apply a function to the value at a number. -/
def modify [DecidableEq α] (d : α) (m : SMap α) (k : Nat) (f : α → α) : SMap α :=
  set d m k (f (get d m k))

/-- Write a list of values at consecutive numbers. -/
def setAll [DecidableEq α] (d : α) (m : SMap α) (k : Nat) : List α → SMap α
  | [] => m
  | v :: vs => setAll d (set d m k v) (k + 1) vs

/-- Read `n` values at consecutive numbers. -/
def getAll (d : α) (m : SMap α) (k : Nat) : Nat → List α
  | 0 => []
  | n + 1 => get d m k :: getAll d m (k + 1) n

/-- Drop every number in a range. -/
def clearRange (m : SMap α) (lo n : Nat) : SMap α :=
  m.filter fun p => p.1 < lo || lo + n ≤ p.1

/-- Every listed number of a range, in rising order. -/
def keysIn (m : SMap α) (lo n : Nat) : List Nat :=
  (m.map (·.1)).filter fun k => lo ≤ k && k < lo + n

/-- The numbers rise strictly. -/
def rising : SMap α → Bool
  | [] => true
  | [_] => true
  | (j, _) :: (k, v) :: rest => decide (j < k) && rising ((k, v) :: rest)

/-- The canonical form. -/
def wf [DecidableEq α] (d : α) (m : SMap α) : Bool :=
  rising m && m.all fun p => decide (p.2 ≠ d)

end SMap

/-- A set of numbers, kept as a sparse store of units. -/
abbrev NSet := SMap Unit

namespace NSet
def mem (s : NSet) (k : Nat) : Bool := (SMap.find? s k).isSome
def insert (s : NSet) (k : Nat) : NSet := SMap.put (SMap.drop s k) k ()
def erase (s : NSet) (k : Nat) : NSet := SMap.drop s k
def toList (s : NSet) : List Nat := s.map (·.1)
end NSet

end Sys2Proof.Machine
end

