-- ==== Sys2Proof/Machine/Types.lean ====
section
/-! DEFINITION. The parts of the machine's state, chapter by chapter, as plain data. State.lean joins them. -/

namespace Sys2Proof.Machine

/-! ### Records and history (R287, R321, R327) -/

/-- An event or fault record that waits for its publication point (R278, R287, R321, R323). `d4`, `d5` and `d6`
are words 4 to 6; word 7 is formed when it posts. -/
structure PRec where
  kind : Nat
  code : Nat
  furrow : Nat
  meridian : Nat
  srcType : Nat
  srcId : Nat
  phys : Nat
  d4 : Nat
  d5 : Nat
  d6 : Nat
  /-- The history unit the record is attributed to (R328): type and number. -/
  unit : Option (Nat × Nat)
  /-- The endpoint whose event queue receives it (R287): EP_TYPE and EP_ID. -/
  ep : Option (Nat × Nat)
  /-- The step attempt or dusk test in which it arose (R329). -/
  attempt : Nat
  classifiable : Bool
  fenced : Bool
  abandoned : Bool
  recordedOnly : Bool
  degraded : Bool
  dusk : Bool
  /-- Word 7 of a trace record (R416). -/
  d7 : Nat := 0
  deriving DecidableEq, Repr

/-- The summary of a history unit (R327); `lastAttempt` enforces one classifiable event per attempt (R329),
`lastCorr` the hourly record of class corrected (R323). -/
structure Summary where
  state : Nat
  total : Nat
  corr : Nat
  duskNom : Nat
  duskStress : Nat
  corrSince : Nat
  lastEvent : Nat
  prevEvent : Nat
  /-- The classifiable event before PREV_EVENT (EVENTS_30D, R321). -/
  third : Nat
  lastAttempt : Nat
  lastCorr : Option Nat
  /-- How many of the three events count as older than any window because the meridian index has fallen since (R326): 3 all, 2 all
  but the latest, 1 the third; and whether CORR_SINCE does. -/
  old : Nat
  corrOld : Bool
  deriving DecidableEq, Repr

/-- A CLEAN unit without events. -/
def Summary.zero : Summary := ⟨0, 0, 0, 0, 0, 0, 0, 0, 0, 0, none, 0, false⟩

/-- A copy of a summary in carrier flash, with the CRC-32C of its 32 bytes (R324, R325). -/
structure SumCopy where
  val : Summary
  crc : Nat
  deriving DecidableEq, Repr

/-- The history that the management controllers keep (R324, R325): the unit summaries they work with; in flash the summary areas by
half, copy and unit, and the two log rings, each entry with its CRC-32C above its 512 bits; the records waiting to be written, by
half, and the rate windows of the halves. -/
structure HistorySt where
  sum : SMap Summary
  flash : SMap SumCopy
  ring : SMap Nat
  wait : List (Nat × Nat × Nat)
  rate : SMap (Nat × Nat)
  /-- Classifiable events logged, over all units (R396). -/
  events : Nat
  deriving DecidableEq, Repr

/-! ### Queues (R280, R282) -/

/-- A processed entry waiting to be returned at a publication point. -/
structure Finish where
  idx : Nat
  status : Nat
  result : Nat
  /-- It returns ahead of the entries before it, and DONE does not pass it yet (R285). -/
  early : Bool := false
  deriving DecidableEq, Repr

/-- A hardware queue beyond its registers: the next entry to process or fill, the finished entries, and the
SEQ and LOST counts of its records (R287). -/
structure QueueSt where
  next : Nat
  seq : Nat
  lost : Nat
  fin : List Finish
  /-- Queue 0: the port through which an entry's doorbell arrived (R301). -/
  via : SMap Nat
  deriving DecidableEq, Repr

def QueueSt.zero : QueueSt := ⟨0, 0, 0, [], []⟩

/-- A completion the module sent on a port (R267, R268): port, tag, packet type, status, payload. -/
structure Completion where
  tag : Nat
  type : Nat
  status : Nat
  payload : List Byte
  deriving DecidableEq, Repr

/-- A control port beyond its registers: tags outstanding, completions sent and not yet taken by the link, and
the versions chosen by the last HELLO (R268, R271). -/
structure PortSt where
  out : List Completion
  proto : Option (Nat × Nat)
  plan : Option (Nat × Nat)
  deriving DecidableEq, Repr

def PortSt.zero : PortSt := ⟨[], none, none⟩

/-- The window (R275, R279): its bytes, the parcel flag words, the parcels that a pending media fault marks for
VOID, the 64-byte lines known to be uncorrectable, the queues that a lost ring line has disabled, the rings they had (first parcel and
number), and whether the loam that holds the window has lost its contents (R373). -/
structure WindowSt where
  bytes : SMap Byte
  flags : SMap (BitVec 4)
  toVoid : NSet
  badLines : NSet
  off : NSet
  stranded : SMap (Nat × Nat)
  lost : Bool
  deriving DecidableEq, Repr

/-! ### Time and the step (R17-R34, R342, R343) -/

/-- Where the module stands between horizons. -/
inductive Phase
  | idle          -- STEP false, nothing of a step under way
  | substituting  -- R52: migration stages run before the repeat
  | staging       -- R283: the staging pass
  | running       -- STEP true
  | closing       -- R195, R342: after the horizon, before the commit
  deriving DecidableEq, Repr

/-- The meridian domain beyond its registers (R16-R19, R24, R39). -/
structure TimeSt where
  /-- The reference clock runs. -/
  refRunning : Bool
  /-- A meridian loss is in force (R18), and the local count at which it was declared (R19). -/
  loss : Bool
  lossAt : Nat
  /-- MERIDIAN_REFUSED has posted in this loss (R19). -/
  refused : Bool
  /-- Consecutive frames that failed their CRC (R18). -/
  badFrames : Nat
  /-- Frames with SOURCE_HOLDOVER = 1 (R16). -/
  holdoverFrames : Nat
  /-- Slack events posted (R34). -/
  slackEvents : Nat
  /-- INDEX of the first frame of a possible locking pair (R19, R398). -/
  firstFrame : Option Nat
  /-- The grant terms have been sampled for the coming boundary (R24). -/
  sampled : Bool
  /-- Advance notices to adopt, oldest first: furrow index and boundary count (R39). -/
  notices : List (Nat × Nat)
  /-- Regions whose present period is stretched by 8/8 (R29). -/
  full : NSet
  deriving DecidableEq, Repr

/-- The step under way, or the last one (R23, R162, R342, R343). -/
structure StepSt where
  phase : Phase
  eval : Bool
  /-- Step attempts and dusk tests begun (R329). -/
  attempt : Nat
  program : Nat
  seed : Nat
  word : Nat
  /-- STEP_S: the first furrow of the attempt. -/
  stepS : Nat
  /-- LENGTH of the program in furrows (R162). -/
  length : Nat
  /-- A step has begun since power-up (R126). -/
  begun : Bool
  /-- Furrows granted since the step start. -/
  granted : Nat
  /-- Consecutive boundaries at which each hold term was false (R26). -/
  holdRun : SMap Nat
  /-- The class of the first fault, once a fault has ended the attempt (R288, R343). -/
  fault : Option Nat
  /-- Queue 0's entry for the step command, while it can be returned: a lost ring line takes it (R290). -/
  q0idx : Option Nat
  /-- COPY_IN entries consumed by this attempt: queue, entry and status (R283). -/
  staged : List (Nat × Nat × Nat)
  /-- Bytes drained since the step start was accepted (R346). -/
  drained : Nat
  /-- The module took the lead or the standby role for this step. -/
  asLead : Bool
  /-- The ledger record of this attempt was acknowledged by the standby (R352). -/
  ledgerAcked : Bool
  /-- Program of the current furrow's slots has been checked for overrun (R32). -/
  judged : Bool
  /-- Local clock stretch of the furrow, by region, in 1/8 nominal periods (R29). -/
  stretch : SMap Nat
  /-- Slip of the furrow, by logical id, in lc (R31). -/
  slip : SMap Nat
  /-- Lowest slack of the step, by region, 1/8 periods, for regions below the nominal figure (R34). -/
  slackMin : SMap Nat
  /-- Per plot of the last committed step: generator words and longest loose access (R133, R159). -/
  lastWords : SMap Nat
  lastLoose : SMap Nat
  /-- Lowest replica-path code since the step start, by region (R321 MARGIN_MIN). -/
  marginMin : SMap Nat
  /-- Fault records of the step's furrows by class, and corrections counted in them (R423). -/
  faultCount : SMap Nat
  corrections : Nat
  /-- Boundaries held in the step (R416). -/
  held : Nat
  /-- The sowing epoch has advanced for this attempt (R222). -/
  epochDone : Bool
  /-- NORM segment formed: bins (sum as binary64, elements, non-finite) (R258). -/
  norm : Option (List (Nat × Nat × Nat))
  /-- HV_CLIP at the step start (R259). -/
  clip : Nat
  /-- Bytes that the step start must see drained: min(DRAIN_SLICE, undrained bytes) at its acceptance (R346). -/
  slice : Nat
  /-- Vector and gleaner check failures of the step (R423). -/
  vecFails : Nat
  gleanFails : Nat
  /-- Regions whose incomplete wake held the last boundary (R26). -/
  wakeHeld : List Nat
  /-- The step formed a ledger record (R351). -/
  ledgered : Bool
  /-- Queue 0 entries that the last abandonment has returned ahead of their turn (R285). -/
  skip : List Nat
  /-- PROTECTED parcels wait behind the latched COPY term (R347): the fabric leg may run. -/
  copyHeld : Bool
  deriving DecidableEq, Repr

def StepSt.zero : StepSt := {
  phase := .idle, eval := false, attempt := 0, program := 0, seed := 0, word := 0, stepS := 0, length := 0, begun := false,
  granted := 0, holdRun := [], fault := none, q0idx := none, staged := [], drained := 0, asLead := false,
  ledgerAcked := false, judged := true, stretch := [], slip := [], slackMin := [], lastWords := [], lastLoose := [],
  marginMin := [], faultCount := [], corrections := 0, held := 0, epochDone := false, norm := none,
  clip := 0, slice := 0, vecFails := 0, gleanFails := 0, wakeHeld := [], ledgered := false, skip := [],
  copyHeld := false }

/-! ### The grid (R51-R55, R73) -/

/-- One row change a substitution prepares (R52): the new sites and the copies still to run. -/
structure RowChange where
  row : Nat
  sites : List Nat
  /-- Copies left: logical position, old site, new site. -/
  moves : List (Nat × Nat × Nat)
  deriving DecidableEq, Repr

/-- Repair state beyond its registers. -/
structure GridSt where
  /-- Site states as the module holds them now, where they differ from the registers: a fence or a DARK state set
  during a step shows only from the publication point of the abandonment (R60). -/
  hidden : SMap Nat
  /-- The substitution under way (R52). -/
  changes : List RowChange
  /-- New cores that failed the known-answer check are fenced at once; those fenced since the last horizon. -/
  fencedNow : NSet
  /-- Loopback tests to run at the end of an abandonment (R73, R334): link keys 4p + d, and 2^20 + 64h + LINK for
  headland ports. -/
  loopbacks : NSet
  /-- Shells that failed since the last bring-up (R56). -/
  shellFailed : NSet
  deriving DecidableEq, Repr

def GridSt.zero : GridSt := ⟨[], [], [], [], []⟩

/-! ### The fabric (R61-R76) -/

/-- A grain with its poison mark (R74). -/
structure Cell where
  val : Grain
  poison : Bool
  deriving DecidableEq, Repr

/-- A page or queue entry: its furrow tag, whether every grain that its furrow sends over the link has been sent, and the grains
written (R37, R63, R69, R71). -/
structure FPage where
  tag : Nat
  complete : Bool
  grains : SMap Cell
  deriving DecidableEq, Repr

def FPage.zero : FPage := ⟨0, false, []⟩

/-- One vote in flight (R75): channel, furrow, the bits combined so far, the poison mark. -/
structure VoteSt where
  chan : Nat
  furrow : Nat
  acc : Bool
  poison : Bool
  deriving DecidableEq, Repr

/-- Fabric contents: send pages by 2p + parity, arrival pages likewise, input buffers and crossing queues by
(4p + d)·4 + n mod 4, votes in flight, and the readable results. -/
structure FabricSt where
  send : SMap FPage
  arrive : SMap FPage
  inputs : SMap FPage
  votes : List VoteSt
  /-- Latest readable result of a channel: value, poisoned, furrow. -/
  readable : SMap (Bool × Bool × Nat)
  /-- Grains on edge links toward the headland, by (64h + LINK)·4 + n mod 4. -/
  edge : SMap FPage
  /-- Stream writes on their way to loam (R198): logical id, furrow, loam offset, bytes. -/
  loamOut : List (Nat × Nat × Nat × List Byte)
  /-- Stream reads fetched for the present furrow and ahead of the next one (R198): by logical id, the loam offset and the
  bytes of each route word with IN = LOAM. -/
  loamIn : SMap (List (Nat × List Byte))
  loamNext : SMap (List (Nat × List Byte))
  /-- The route words carried out in the present furrow, by 256p + j (R66). -/
  sent : NSet
  deriving DecidableEq, Repr

def FabricSt.zero : FabricSt := ⟨[], [], [], [], [], [], [], [], [], []⟩

/-! ### Checkpoints, ledger, restore (R345-R353) -/

/-- A kept parcel of the current checkpoint (R345-R347). -/
structure ParcelSt where
  drained : Bool
  exposed : Bool
  sent : Bool
  acked : Bool
  /-- Its checkpoint copy could not be read (R365). -/
  failed : Bool
  deriving DecidableEq, Repr

/-- A running RESTORE (R350). -/
structure RestoreSt where
  idx : Nat
  queue : Nat
  manifest : List Byte
  /-- Arrival limit in mt. -/
  limit : Nat
  started : Nat
  /-- The parcels that have arrived, by parcel key: the restored copies. -/
  data : SMap (List Byte)
  deriving DecidableEq, Repr

/-- A segment of KIND 4 that waits for the lanes (R347, R348, R352): region code, TILE, ELEMENTS, STEP_S, the checkpoint it
belongs to, and its bytes. -/
structure DrainSeg where
  layer : Nat
  tile : Nat
  elements : Nat
  stepS : Nat
  seq : Nat
  payload : List Byte
  deriving DecidableEq, Repr

/-- Checkpoints beyond their registers. -/
structure CkptSt where
  /-- Kept parcels of the last snapshot, by parcel key. -/
  parcels : SMap ParcelSt
  /-- CKPT maps: granules whose checkpoint copy is copy 1. -/
  map : NSet
  /-- Image halves that hold the checkpoint, by 16·lid + bank: half 1. -/
  half : NSet
  /-- Residual granules whose checkpoint copy is copy 1. -/
  resMap : NSet
  /-- Leaves of drained parcels. -/
  leaves : SMap (List Byte)
  /-- Drained data in headland staging, waiting to be sent or acknowledged. -/
  stage : SMap (List Byte)
  /-- The drain can no longer complete (R365). -/
  broken : Bool
  commitMeridian : Nat
  /-- Step and CKPT_SEQ of the snapshot under drain; whether its manifest has gone. -/
  stepS : Nat
  seq : Nat
  told : Bool
  /-- Checkpoint copies of undrained parcels that a new configuration of the same kept layout left behind (R365). -/
  held : SMap (List Byte)
  /-- The last four manifests: CKPT_SEQ and bytes (R348). -/
  manifests : List (Nat × List Byte)
  restore : Option RestoreSt
  /-- The ledger area: STEP_S and record bytes (R352). -/
  ledger : List (Nat × List Byte)
  /-- Segments for the lanes, oldest first, and HSEQ of the next one by channel, counted within the present CKPT_SEQ. -/
  out : List DrainSeg
  hseq : SMap Nat
  deriving DecidableEq, Repr

def CkptSt.zero : CkptSt := ⟨[], [], [], [], [], [], false, 0, 0, 0, false, [], [], none, [], [], []⟩

/-! ### Leases and the twin (R355-R361) -/

/-- A lease as its bytes spell it (R355). -/
structure Lease where
  role : Nat
  seq : Nat
  issue : Nat
  expiry : Nat
  twinSerial : Nat
  twinKey : List Byte
  raw : List Byte
  deriving DecidableEq, Repr

/-- What a twin message says (R39, R352, R358-R360). The spec gives the header and no layout of the payloads. -/
inductive TwinBody
  | notice (index boundary furrowMt phase : Nat)
  /-- A ledger record, by its STEP_S, or a parcel, by its key. -/
  | ackLedger (stepS : Nat)
  | ackParcel (key : Nat)
  | parcel (key : Nat) (data : List Byte)
  | manifest (bytes : List Byte)
  | ledger (record : List Byte)
  | heartbeat (acks : List Nat)
  | horizon (stepS : Nat) (committed : Bool)
  | lease (raw : List Byte)
  deriving DecidableEq, Repr

/-- A twin message with its sequence number and the grains of it that have not gone. -/
structure TwinMsg where
  body : TwinBody
  seq : Nat
  left : Nat
  /-- Meridian count at which it was last sent, once sent. -/
  sentAt : Option Nat
  deriving DecidableEq, Repr

/-- Leases and the twin link beyond their registers. -/
structure TwinSt where
  north : Option Lease
  south : Option Lease
  /-- The lease with the greatest LEASE_SEQ ever accepted (R356). -/
  newest : Option Lease
  /-- 0x0701 has posted for the held lease (R357). -/
  expiredPosted : Bool
  /-- The newest valid lead lease received from the twin (R358). -/
  twinLease : Option Lease
  /-- Neither module acts as lead: equal lead sequences (R358). -/
  equalLead : Bool
  /-- Messages to send, in the order queued. -/
  queue : List TwinMsg
  /-- Sent messages of types 4 to 6 awaiting acknowledgement. -/
  unacked : List TwinMsg
  nextSeq : Nat
  /-- Sequence numbers of types 4 to 6 received, to acknowledge in the next HEARTBEAT. -/
  received : List Nat
  /-- Parcels of the checkpoint arriving from the lead, by parcel key (R360). -/
  parcels : SMap (List Byte)
  /-- The messages whose last grain the last superblock carried, with their sequence numbers; and its sixteen lane blocks. -/
  sent : List (Nat × TwinBody)
  blocks : List (List Byte)
  /-- The twin lanes that are not locked (R366). -/
  down : NSet
  deriving DecidableEq, Repr

def TwinSt.zero : TwinSt := ⟨none, none, none, false, none, false, [], [], 0, [], [], [], [], (List.range 16).map fun k => (k, ())⟩

/-! ### Plots (R80, R134, R147, R160, R184) -/

/-- The 256 elements of a tile register, element (r, c) at 16r + c (R134). -/
abbrev Tile := List (BitVec 32)

/-- A weight plane (R80, R99): raw rows as read from the pad, and the check vectors built while it loaded.
`state`: 0 EMPTY, 1 LOADING, 2 READY or VALID. `upsets` are the cells that have flipped since the check builder tapped their row:
row and bit (R102). -/
structure Plane where
  state : Nat
  fmt : Nat
  rows : List (List Byte)
  upsets : List (Nat × Nat)
  /-- r, s, r′, s′ in binary32 for the floating class. -/
  fr : List (BitVec 32)
  fs : List (BitVec 32)
  fr' : List (BitVec 32)
  fs' : List (BitVec 32)
  /-- The same in 64-bit integers for the integer class. -/
  ir : List Int
  is : List Int
  ir' : List Int
  is' : List Int
  deriving DecidableEq, Repr

def Plane.empty : Plane := ⟨0, 0, [], [], [], [], [], [], [], [], [], []⟩

/-- The accumulator plane (R80, R89, R95, R99). -/
structure AccPlane where
  valid : Bool
  /-- Pair class: 0 integer, 1 floating 8-bit group, 2 16-bit group, 3 32-bit group. -/
  cls : Nat
  t : Nat
  /-- Row k's accumulators: binary32 words, or INT32 words. -/
  acc : List (List (BitVec 32))
  /-- Rows of the group not yet added: bytes of operand A, bytes of operand B, with their formats. -/
  group : List (List Byte × Nat × List Byte × Nat)
  /-- Check accumulators c and a of each row, binary32 or integer. -/
  cF : List (BitVec 32)
  aF : List (BitVec 32)
  cI : List Int
  aI : List Int
  /-- Rows that used a NaN or infinite operand; rows with a saturated accumulator. -/
  nonfin : List Bool
  sat : List Bool
  deriving DecidableEq, Repr

def AccPlane.empty : AccPlane := ⟨false, 0, 0, [], [], [], [], [], [], [], []⟩

/-- A stream, drain or load that the array is feeding (R86, R92). -/
structure Feed where
  mode : Nat
  p0 : Nat
  slot : Nat
  count : Nat
  next : Nat
  /-- Bytes of the row being read: operand A so far, operand B. -/
  gotA : List Byte
  gotB : List Byte
  srcA : Nat
  strideA : Nat
  srcB : Nat
  strideB : Nat
  fmtA : Nat
  fmtB : Nat
  dst : Nat
  dstStride : Nat
  outFmt : Nat
  acc : Bool
  rnd : Bool
  clr : Bool
  deriving DecidableEq, Repr

/-- A result row on its way to its destination and its check (R92, R100): values before conversion. -/
structure RowFlight where
  due : Nat
  mode : Nat
  slot : Nat
  row : Nat
  /-- Pair class as in AccPlane. -/
  cls : Nat
  vals : List (BitVec 32)
  cF : BitVec 32
  aF : BitVec 32
  cI : Int
  /-- EMPTY by order 1 of R100; NONFINITE by an operand; SATURATED. -/
  empty : Bool
  nonfin : Bool
  sat : Bool
  /-- m of R101. -/
  m : Nat
  /-- The row is written (false for the EMPTY outcome of a COUNT of 0). -/
  write : Bool
  /-- The destination row as the ACC read found it. -/
  old : List Byte
  dst : Nat
  outFmt : Nat
  acc : Bool
  rnd : Bool
  deriving DecidableEq, Repr

/-- A write that lands at a later step (R137, R147, R187). -/
inductive Landing
  | greg (i : Nat) (v : Word)
  /-- A tile with the mask of the elements written; the others are kept, or zeroed. -/
  | tile (i : Nat) (v : Tile) (mask : BitVec 256) (mz : Bool)
  | mask (i : Nat) (v mask : BitVec 256) (mz : Bool)
  | pad (a : Nat) (bs : List Byte)
  /-- Four tile rows of a tile store, converted as they are written (R127, R140): format, SR, MX block, address of the
  first row, pitch, first tile row, elements and mask. -/
  | store (fmt : Nat) (rnd : Bool) (blk a pitch row slot : Nat) (v : Tile) (mask : BitVec 256)
  deriving DecidableEq, Repr

/-- A tile load reading its rows (R140, R186). -/
structure LoadRun where
  p0 : Nat
  slot : Nat
  td : Nat
  fmt : Nat
  blk : Nat
  addr : Nat
  pitch : Nat
  mask : BitVec 256
  mz : Bool
  got : List (List Byte)
  deriving DecidableEq, Repr

/-- A mover transfer (R174), or a loose store on its way to loam (R191): grains read so far and the completion
step. Spaces: source 0 pad, 1 loam, 2 arrival page, 3 fill; destination 0 pad, 1 loam, 2 send page. -/
structure Transfer where
  p0 : Nat
  slot : Nat
  ssp : Nat
  dsp : Nat
  src : Nat
  dst : Nat
  len : Nat
  rate : Nat
  lat : Nat
  fill : Word
  /-- Furrow of the arrival page read, and of the send page written. -/
  pageIn : Nat
  pageOut : Nat
  got : List Cell
  deriving DecidableEq, Repr

/-- A loose store that has not completed (R143, R191): its loam bytes by logical offset, each with the bits of them it writes
(R144). -/
structure LooseStore where
  due : Nat
  bytes : List (Nat × List Byte × List Byte)
  deriving DecidableEq, Repr

/-- One scheduled access to the pad in one step (R184, R186): the spans it touches, whether it writes, and the slot
word it belongs to. -/
structure PadAccess where
  spans : List (Nat × Nat)
  write : Bool
  unit : Nat
  op : Nat
  slot : Nat
  deriving DecidableEq, Repr

/-- A plot's core. Memories that outlast the step are elsewhere (`pads`, `slots`); this is what a step start
clears (R80, R135, R148). -/
structure PlotSt where
  /-- Every step below this one has been carried out. -/
  now : Nat
  tiles : SMap Tile
  masks : SMap (BitVec 256)
  gregs : SMap Word
  active : Plane
  shadow : Plane
  accp : AccPlane
  /-- Step at which the shadow plane becomes READY (R82). -/
  readyAt : Nat
  /-- First step at which the load port is free (R82, R93). -/
  loadFree : Nat
  /-- Feed end and mode of the last stream (R93); none before the first. -/
  feedEnd : Option (Nat × Nat)
  feeds : List Feed
  flight : List RowFlight
  land : List (Nat × Landing)
  loads : List LoadRun
  moves : List Transfer
  stores : List LooseStore
  /-- Pad accesses by the step in which they use their bank port. -/
  ports : SMap (List PadAccess)
  /-- First steps at which the tile pipe, the SFU and the mover take another word (R136, R174). -/
  pipeFree : Nat
  sfuFree : Nat
  moverFree : Nat
  /-- The step from which no tile operation is in flight (R158). -/
  busyUntil : Nat
  /-- Running CRC-32C register over the furrow's slot words (R153), and how many of them have been fetched. -/
  crc : Nat
  fetched : Nat
  /-- Variant taken, by fork number (R149). -/
  variants : SMap Nat
  /-- Last fork and whether the plot is in a variant (R159). -/
  lastFork : Nat
  /-- Last array mode issued (R108 MODE). -/
  mode : Nat
  /-- Check records posted in this step (R104). -/
  records : Nat
  /-- Generator state, once a word has been taken in the step, and the words taken (R126, R133). -/
  rng : Option Nat
  words : Nat
  /-- Longest loose access of the step (R159). -/
  loose : Nat
  /-- Loose accesses outstanding: issue step, slot, unit, op and address (R143). -/
  loosePend : List (Nat × Nat × Nat × Nat × Nat)
  deriving DecidableEq, Repr

def PlotSt.zero : PlotSt := {
  now := 0, tiles := [], masks := [], gregs := [], active := Plane.empty, shadow := Plane.empty,
  accp := AccPlane.empty, readyAt := 0, loadFree := 0, feedEnd := none, feeds := [], flight := [], land := [],
  loads := [], moves := [], stores := [], ports := [], pipeFree := 0, sfuFree := 0, moverFree := 0,
  busyUntil := 0, crc := 0xFFFFFFFF, fetched := 0, variants := [], lastFork := 0, mode := 0, records := 0, rng := none, words := 0, loose := 0,
  loosePend := [] }

/-- The core once the step has ended: what is under way stops, and the registers, planes and generator stay as they are until
the next step start (R80, R126, R135, R148). -/
def PlotSt.halt (x : PlotSt) : PlotSt := { x with
  feeds := [], flight := [], land := [], loads := [], moves := [], stores := [], ports := [], loosePend := [], pipeFree := 0,
  sfuFree := 0, moverFree := 0, loadFree := 0, busyUntil := 0 }

/-! ### Memories of plots and sites (R160, R184, R192, R194) -/

/-- Memories, by plot or site. Keys: pad and image bytes (2·p + half)·2^23 + address for images and lid·2^23 +
address for pads; loam (2·p + copy)·2^32 + offset; granules p·2^24 + offset / 256; blocks p·2^24 + offset / 1024;
slot words lid·2^15 + word; constants lid·2^9 + index; route words p-independent: lid of the plot whose site runs
them, at lid·2^13 + word. -/
structure MemSt where
  pad : SMap Byte
  image : SMap Byte
  /-- Committed partitions: both copies of every granule. -/
  loam : SMap Byte
  /-- Transient partitions: the bytes written since the configuration began (R192). -/
  trans : SMap Byte
  cur : NSet
  dirty : NSet
  /-- Lossless blocks written in this step, their overflow chunks, and the chunks taken (R206). -/
  blockWritten : NSet
  chunk : SMap Nat
  chunkNext : SMap Nat
  /-- Cache-mode banks: the lines of a set, most recently used first, at (8·lid + bank)·4096 + set. -/
  cache : SMap (List Nat)
  slots : SMap Word
  consts : SMap Word
  routes : SMap Word
  /-- Mover and stream grains counted at a site's loam port in the furrow (R197, R212 PORT_PEAK). -/
  portGrains : SMap Nat
  /-- Loam layers above 85 °C, by 2p + layer (R201). -/
  hot : NSet
  /-- The dusk test that overwrote committed loam, by its attempt number, until a restore or a new configuration (R337). -/
  garbled : Option Nat
  /-- Dusk tests that have overwritten loam. -/
  wipes : Nat
  deriving DecidableEq, Repr

def MemSt.zero : MemSt := ⟨[], [], [], [], [], [], [], [], [], [], [], [], [], [], [], none, 0⟩

/-! ### Sowing (R213-R240) -/

/-- A sowing segment whose last grain has arrived (R219, R220): its header, its payload, whether a payload grain was lost,
and the meridian count at which it counts as complete (R225). -/
structure Seg where
  hdr : List Byte
  payload : List Byte
  lost : Bool
  doneAt : Nat
  deriving DecidableEq, Repr

/-- A buffered segment: the entry that claims it, whether it was counted in MISMATCH, and the furrow index in which its
last grain was dispatched (R221-R224). -/
structure Buffered where
  seg : Seg
  entry : Option Nat
  mismatch : Bool
  spent : Option Nat
  deriving DecidableEq, Repr

/-- The receiver of a channel beyond its registers: credit blocks returned in the epoch, SB_SEQ of the previous superblock
(R218), the parser, the segments that wait for their check, and the buffer. -/
structure ChanSt where
  returned : Nat
  lastSb : Option Nat
  resync : Bool
  hdr : List Grain
  want : Nat
  body : List (Option Grain)
  arrived : List Seg
  buffer : List Buffered
  deriving DecidableEq, Repr

def ChanSt.zero : ChanSt := ⟨0, none, false, [], 0, [], [], []⟩

/-- The receiver of a lane beyond its registers: consecutive blocks without their sync byte, and, on an unlocked lane, consecutive
blocks with it (R218); corrected symbols of the present second (R322 0x0007). -/
structure LaneSt where
  misses : Nat
  good : Nat
  second : Nat
  symbols : Nat
  deriving DecidableEq, Repr

def LaneSt.zero : LaneSt := ⟨0, 0, 0, 0⟩

/-- An entry of a sowing table (R226). -/
structure SowEntry where
  dueRel : Nat
  chan : Nat
  kind : Nat
  codec : Nat
  src : Nat
  dst : Nat
  layer : Nat
  tile : Nat
  elements : Nat
  bytes : Nat
  pitch : Nat
  deriving DecidableEq, Repr

/-- Sowing beyond its registers: channels, lanes, the digests of the entries claimed in the step (R234), and the dispatch words
carried out in the present furrow, by 256h + j (R228). -/
structure SowSt where
  chans : SMap ChanSt
  lanes : SMap LaneSt
  digests : SMap (List Byte)
  sent : NSet
  deriving DecidableEq, Repr

def SowSt.zero : SowSt := ⟨[], [], [], []⟩

/-! ### Harvest (R241-R265) -/

/-- An entry of a harvest table (R246). -/
structure HvEntry where
  layer : Nat
  tile : Nat
  codec : Nat
  bin : Nat
  rnd : Bool
  elements : Nat
  gleaner : Nat
  resOffset : Nat
  passFmt : Nat
  passGrains : Nat
  deriving DecidableEq, Repr

/-- A harvest section table of one program (R300): the entries and NORM_REL where a norm segment is formed. -/
structure HvTable where
  entries : List HvEntry
  normRel : Option Nat
  deriving DecidableEq, Repr

def HvTable.zero : HvTable := ⟨[], none⟩

/-- A harvest segment being encoded (R245): headland, payload so far, grains taken, emit words carried out, counts. -/
structure OpenSeg where
  head : Nat
  payload : List Byte
  grains : Nat
  words : Nat
  sat : Nat
  nonfin : Nat
  /-- Elements of a B16 block whose sixteen are not yet gathered, each with the generator word it took (R125, R248). -/
  pend : List (BitVec 32 × Option Nat)
  deriving DecidableEq, Repr

/-- A harvest segment in the transmit area (R253-R257): `hseq` once its first grain has gone on the lanes, and whether an
uncorrectable line keeps it from being sent (R261). -/
structure HvSeg where
  chan : Nat
  stepS : Nat
  kind : Nat
  codec : Nat
  fmt : Nat
  bin : Nat
  layer : Nat
  tile : Nat
  gleaner : Nat
  elements : Nat
  sat : Nat
  nonfin : Nat
  payload : List Byte
  hseq : Option Nat
  committed : Bool
  lost : Bool := false
  deriving DecidableEq, Repr

/-- The transmitter of a channel (R254): grains of the segment on the lanes that have not gone, the checkpoint segment it
is if any, segments to resend (step and HSEQ), and the superblock sequence. -/
structure TxSt where
  cur : List Grain
  curDrain : Option Nat
  resend : List (Nat × Nat)
  sbSeq : Nat
  deriving DecidableEq, Repr

def TxSt.zero : TxSt := ⟨[], none, [], 0⟩

/-- A superblock on the outbound lanes of a channel (R215, R217, R255): control word and stream grains. -/
structure OutSb where
  ctl : List Byte
  grains : List Grain
  deriving DecidableEq, Repr

/-- Harvest beyond its registers (R242-R258). Bench grains by g·2^16 + grain; open segments by entry index; kept segments
in the order queued; exact norm accumulators by 128·b + g in units of 2^−298, with element and non-finite counts and
whether a NaN or an infinity went in; generator states; gleaner check records of the step; the residual store by
(2h + copy)·2^40 + offset with CUR and DIRTY by h·2^32 + offset / 256; transmitters; what went on the lanes last. -/
structure HarvestSt where
  bench : SMap Cell
  segs : SMap OpenSeg
  kept : List HvSeg
  norm : SMap (Nat × Nat × Nat × Bool × Bool)
  rng : SMap Nat
  records : SMap Nat
  residual : SMap Byte
  resCur : NSet
  resDirty : NSet
  tx : SMap TxSt
  out : SMap OutSb
  /-- STEP_S of the last abandoned step (R255). -/
  abandonedS : Nat
  /-- The next word of each headland's gleaner group in the present furrow (R66, R243). -/
  pos : SMap Nat
  deriving DecidableEq, Repr

def HarvestSt.zero : HarvestSt := ⟨[], [], [], [], [], [], [], [], [], [], [], 0, []⟩

/-! ### The field plan (R75, R207, R294-R319) -/

/-- The CHECKPOINT section (R349): order entries as region, first parcel and count; DRAIN_CHANNELS; DRAIN_SLICE in bytes;
LEDGER_UNITS; and the furrow by which a program's acknowledgement is due, where one is. -/
structure CkptPlan where
  order : List (Nat × Nat × Nat)
  channels : Nat
  slice : Nat
  ledgerUnits : Nat
  ack : SMap Nat
  deriving DecidableEq, Repr

/-- What the applied plan gives beyond registers and plot memories: vote participation, by channel·2^24 + logical id; the
sowing and harvest tables by program; the dispatch and gleaner memories of the headlands, by h·2^32 + word address; the
most bytes a step of a program can queue at a headland, by 4j + h (R256); the CHECKPOINT section; and the plan store's
current half (R307): the image in effect. -/
structure PlanSt where
  voters : NSet
  sowTab : SMap (List SowEntry)
  hvTab : SMap HvTable
  dispatch : SMap Word
  gleaner : SMap Word
  txMax : SMap Nat
  ckpt : Option CkptPlan
  image : List Byte
  /-- By 256·program + region: the runs of furrows with scheduled work, and the scheduled demand in 1/16 A from each
  furrow on (R376, R379). -/
  busy : SMap (List (Nat × Nat))
  demand : SMap (List (Nat × Nat))
  deriving DecidableEq, Repr

def PlanSt.zero : PlanSt := ⟨[], [], [], [], [], [], none, [], [], []⟩

/-! ### Power (R367-R391) -/

/-- A region that sleeps or wakes (R379, R380): stages closed, the meridian count of the last one, the granted furrow of the
last refusal, and the adjacent region that refused it. -/
structure WakeSt where
  stages : Nat
  lastAt : Nat
  refusedIn : Option Nat
  refusedBy : Nat
  /-- 0x0503 has posted for this wake. -/
  expired : Bool
  deriving DecidableEq, Repr

/-- Power beyond its registers: the pins of R369 (FEED_PERMIT, PWR_FAULT_N, BED_WARN_N), whether a permit has been withdrawn
since the rails came up, regions asleep or waking, whether AT_PACE_FLOOR
has posted for the present descent, when each contact group last posted, the phases latched off by region (carrier flash), and
regions that go dark at the next horizon. -/
structure PowerSt where
  permit : Bool
  faultN : Bool
  bedWarnN : Bool
  withdrawn : Bool
  wakes : SMap WakeSt
  floorPosted : Bool
  contactAt : SMap Nat
  phaseOff : SMap Nat
  doomed : NSet
  /-- Rails that have risen since VMGT did, by rail index (R371). -/
  risen : NSet
  /-- The hottest loam layer of the last telemetry, in 1/4 °C (R385). -/
  loamTemp : Nat
  deriving DecidableEq, Repr

def PowerSt.zero : PowerSt := {
  permit := false, faultN := true, bedWarnN := true, withdrawn := false, wakes := [], floorPosted := false,
  contactAt := [], phaseOff := [], doomed := [], risen := [], loamTemp := 0 }

/-! ### Bring-up and the dusk test (R336-R338, R392-R408) -/

/-- A copy of the firmware bundle: the management firmware with the plot firmware image, and its Ed25519 signature (R397). -/
structure Bundle where
  bytes : List Byte
  sig : List Byte
  deriving DecidableEq, Repr

/-- The saved settings (R396): the serial number and firmware major version they name, the meridian count they were written at, and
whether a lower count has been acquired since; the units' values, by unit; the weak-row remap, by stack · 2^32 + row, and
REFRESH_MIN; whether the last path asks for a full one (condition 7), whether the bed refused margining; the dark latches and phase
latches as they stood. -/
structure Saved where
  serial : Nat
  major : Nat
  meridian : Nat
  old : Bool
  values : SMap Nat
  remap : NSet
  refreshMin : Nat
  again : Bool
  noMargin : Bool
  dark : NSet
  phaseOff : SMap Nat
  /-- Classifiable events logged when they were written. -/
  events : Nat
  deriving DecidableEq, Repr

/-- Bring-up and the controllers beyond their registers. Carrier flash: the firmware copies (north first and second, south first and
second), the saved settings, the last recorded meridian count, and the mark of an orderly power-down. The rest is of this power-up:
whether the last power-down was orderly, what the bring-up meets, the switch groups closed, heartbeats missed in a row by
controller, the lane mask of a running re-gate and of the next, and the lanes excluded as untested. -/
structure BootSt where
  fw : List (Option Bundle)
  saved : Option Saved
  lastCount : Nat
  orderly : Bool
  wasOrderly : Bool
  obs : Option BootObs
  groups : Nat
  misses : SMap Nat
  regate : Option Nat
  regateNext : Nat
  untested : NSet
  /-- Milliseconds of work done in the current phase, and whether it must be run again (R393, R409). -/
  work : Nat
  repeats : Bool
  /-- Heartbeats since VLOAM is in tolerance (R374). -/
  loamMs : Nat
  /-- The meridian count of the first lock since VMGT rose (R398). -/
  acquired : Option Nat
  /-- The settings in force, by unit, and the rows remapped (R396, R399, R402). -/
  values : SMap Nat
  remap : NSet
  /-- Phase 7: the lanes measured that have stayed locked, and those that have not (R403). -/
  gate : NSet
  fallen : NSet
  deriving DecidableEq, Repr

def BootSt.zero : BootSt := {
  fw := [], saved := none, lastCount := 0, orderly := false, wasOrderly := false, obs := none, groups := 0, misses := [],
  regate := none, regateNext := 0, untested := [], work := 0, repeats := false, loamMs := 0, acquired := none, values := [],
  remap := [], gate := [], fallen := [] }

/-- A dusk test in its coolant wait: the units that the nominal pass reproduced. -/
structure DuskSt where
  nominal : List (Nat × Nat)
  /-- A line of queue 0's ring was lost meanwhile, and the command's completion with it (R279). -/
  lost : Bool := false
  deriving DecidableEq, Repr

/-! ### Observation and trust (R413-R427) -/

/-- Observation beyond its registers: records waiting on the watch connector and its SEQ (R416, R417), the key list image in
force and one that waits (R419, R420), the attestation request (R421), the witnesses held, oldest first, with the digest
of the last one formed (R422, R423), and the furrows granted since the last counter sample (R416). -/
structure ObsSt where
  watch : List (List Byte)
  watchSeq : Nat
  keys : List Byte
  keyPending : Option (List Byte)
  attest : Option Nat
  witnesses : List (Nat × List Byte)
  lastW : List Byte
  sampled : Nat
  deriving DecidableEq, Repr

end Sys2Proof.Machine
end

