-- ==== Sys2Proof/Machine/State.lean ====
section
/-! DEFINITION. The state of the block, its reset value, and the ways a command can stop. -/

namespace Sys2Proof.Machine

/-- What is fixed at manufacture (R411, R418, R421): the product grade (0 Full, 1 Narrow), the stepping, the serial number, the
identity's secret key, and the 64-byte certificate signature of the identity block; the release key in ROM and the firmware
rollback counter in the secure element (R397). -/
structure Manufacture where
  grade : Nat
  stepping : Nat
  serial : Nat
  secret : List Byte
  certSig : List Byte
  releaseKey : List Byte
  rollback : Nat
  deriving DecidableEq, Repr

/-- The machine. Every register field is in `regs`, with the value it now has; chapters with state beyond their registers have a
part of their own. -/
structure State where
  /-- The commands that wait, first in, first out. -/
  pending : List Instr
  /-- The model's own counter: distinguishes the free values of separate commands (log entry 3). -/
  freeCtr : Nat
  /-- Register fields, by field key, where they differ from their reset values (R11). -/
  regs : SMap Nat
  /-- The fields as of the last horizon, apply or restore: what a field that is not Live reads as (R6). -/
  pub : SMap Nat
  /-- The fields as they stood at the step start, while an attempt is under way: what an abandonment returns to (R7, R341). -/
  base : Option (SMap Nat)
  /-- Configuration values that the host has written and no apply has taken (R298, R319). -/
  shadow : SMap Nat
  man : Manufacture
  time : TimeSt
  step : StepSt
  /-- Records and events that wait for their publication point (R278, R287). -/
  recs : List PRec
  /-- Sensor readings: temperature and core voltage, by region, and by headland segment h at 256 + h (R321, R384). -/
  sense : SMap (Nat × Nat)
  hist : HistorySt
  queues : SMap QueueSt
  ports : SMap PortSt
  win : WindowSt
  grid : GridSt
  fab : FabricSt
  plots : SMap PlotSt
  mem : MemSt
  ckpt : CkptSt
  twin : TwinSt
  plan : PlanSt
  sow : SowSt
  hv : HarvestSt
  obs : ObsSt
  power : PowerSt
  boot : BootSt
  dusk : Option DuskSt
  deriving DecidableEq, Repr

/-- The module without power: every register at its reset value, no rail present, no controller running, no command waiting, and in
flash nothing but a firmware bundle that verifies. A BRING_UP takes it from here to readiness (R394). What the spec sets at manufacture is fixed by log entry 2. -/
def State.reset : State := {
  pending := [], freeCtr := 0, regs := [], pub := [], base := none, shadow := []
  man := { grade := 0, stepping := 0, serial := 0, secret := List.replicate 32 0, certSig := List.replicate 64 0
           releaseKey := Ed25519.publicKey (List.replicate 32 0), rollback := 0 }
  time := {
    refRunning := false, loss := false, lossAt := 0, refused := false, badFrames := 0, holdoverFrames := 0, slackEvents := 0
    firstFrame := none, sampled := false, notices := [], full := [] }
  step := StepSt.zero, recs := [], sense := []
  hist := { sum := [], flash := [], ring := [], wait := [], rate := [], events := 0 }
  queues := [], ports := []
  win := { bytes := [], flags := [], toVoid := [], badLines := [], off := [], stranded := [], lost := false }
  grid := GridSt.zero, fab := FabricSt.zero, plots := [], mem := MemSt.zero, ckpt := CkptSt.zero, twin := TwinSt.zero
  plan := PlanSt.zero, sow := SowSt.zero, hv := HarvestSt.zero
  obs := {
    watch := [], watchSeq := 0, keys := [], keyPending := none, attest := none, witnesses := [], lastW := [], sampled := 0 }
  power := PowerSt.zero, boot := { BootSt.zero with fw := List.replicate 4 (some ⟨[], Ed25519.sign (List.replicate 32 0) []⟩) }, dusk := none }

/-- The ways a command can fault. -/
inductive Fault
  /-- Raised by the meanings whose operands can name no unit or word of the hardware (a lid with no plot to issue to, a site past
  5,119, a slot word whose fields are outside their encoding, an address past the end of what it addresses): no such command can
  reach the hardware. Safe: the model stops. -/
  | illFormed
  deriving DecidableEq, Repr

/-- The ways a command can be refused. -/
inductive Refusal
  /-- Raised by an arm of `exec` for a row without a meaning in the model. Safe: the model stops. -/
  | notModelled (mnemonic : String)
  deriving DecidableEq, Repr

/-- What a meaning answers. -/
abbrev Out := Host.Outcome State Fault Refusal

end Sys2Proof.Machine
end

