-- ==== Sys2Proof/Machine/Ops.lean ====
section
/-! DEFINITION. Named operations over registers, the grid, the window and the records: every meaning reads and
writes the machine through these. -/

namespace Sys2Proof.Machine

/-! ### Register fields (R6, R11, R12) -/

/-- A field's value in a field map: an unlisted field holds its reset value. -/
def fldGet (m : SMap Nat) (f : Fld) : Nat := (SMap.find? m f.key).getD f.reset

/-- Write a field in a field map, in its width, in canonical form. -/
def fldSet (m : SMap Nat) (f : Fld) (v : Nat) : SMap Nat :=
  if v % 2 ^ f.width = f.reset then SMap.drop m f.key else SMap.ins m f.key (v % 2 ^ f.width)

namespace State

/-- The present value of a field. -/
def getF (s : State) (f : Fld) : Nat := fldGet s.regs f

/-- The value of a field as of the last horizon, apply or restore (R6). -/
def pubF (s : State) (f : Fld) : Nat := fldGet s.pub f

/-- Write the present value of a field: an abandonment takes the write back (R7, R341). -/
def setF (s : State) (f : Fld) (v : Nat) : State := { s with regs := fldSet s.regs f v }

/-- Write a field so that an abandonment leaves it: physical facts, fences, latches. -/
def keepF (s : State) (f : Fld) (v : Nat) : State :=
  { s with regs := fldSet s.regs f v, base := s.base.map fun b => fldSet b f v }

/-- Write a field so that it reads back at once: registers written directly (R11), and values the module
publishes outside a horizon. -/
def nowF (s : State) (f : Fld) (v : Nat) : State :=
  { s with regs := fldSet s.regs f v, base := s.base.map fun b => fldSet b f v, pub := fldSet s.pub f v }

/-- Add to a counter; counters wrap in their width. -/
def incF (s : State) (f : Fld) (n : Nat) : State := s.setF f (s.getF f + n)

/-- Add to a saturating counter. -/
def incSat (s : State) (f : Fld) (n : Nat) : State := s.setF f (satAdd f.width (s.getF f) n)

/-- Add to a saturating counter that an abandonment leaves (Live counters, R12). -/
def incLive (s : State) (f : Fld) (n : Nat) : State := s.keepF f (satAdd f.width (s.getF f) n)

/-- The meridian count. -/
def meridian (s : State) : Nat := s.getF F.MERIDIAN_COUNT.COUNT
/-- The furrow index. -/
def furrow (s : State) : Nat := s.getF F.FURROW_INDEX.INDEX
/-- Meridian lock is held. -/
def locked (s : State) : Bool := s.getF F.MERIDIAN_STATUS.LOCKED == 1
/-- STEP (R23). -/
def running (s : State) : Bool := s.step.phase == .running
/-- An attempt of a step is under way, from its staging pass to its commit. -/
def inAttempt (s : State) : Bool :=
  s.step.phase == .running || s.step.phase == .staging || s.step.phase == .closing
/-- A publication point of the third kind (R278): STEP false, no staging pass, no horizon close. -/
def atPublication (s : State) : Bool := s.step.phase == .idle || s.step.phase == .substituting

/-! ### The grid (R2, R3, R43, R45, R57) -/

/-- 1 when the configured grade is Narrow. -/
def narrow (s : State) : Bool := s.getF F.GRID_SHAPE.CONFIG_GRADE == 1
/-- Logical positions per row: 8 or 7. -/
def rowLen (s : State) : Nat := if s.narrow then 7 else 8
/-- Column and row of a logical id (R3). -/
def lidX (lid : Nat) : Nat := lid % 4096
def lidY (lid : Nat) : Nat := lid / 4096
/-- Physical row k of a logical id (R2). -/
def rowOf (s : State) (lid : Nat) : Nat := 8 * (8 * (lidY lid / 8) + lidX lid / s.rowLen) + lidY lid % 8
/-- Position in its row. -/
def posOf (s : State) (lid : Nat) : Nat := lidX lid % s.rowLen
/-- Region n of a logical id. -/
def regionOf (s : State) (lid : Nat) : Nat := s.rowOf lid / 2
/-- The region is declared a hole (R57). -/
def isHole (s : State) (n : Nat) : Bool := bitOf (s.getF (F.HOLE_MAP.DARK (n / 64))) (n % 64)
/-- The logical id lies on the configured grid. -/
def onGrid (s : State) (lid : Nat) : Bool :=
  decide (lidX lid < s.getF F.GRID_SHAPE.X_DIM) && decide (lidY lid < s.getF F.GRID_SHAPE.Y_DIM)
/-- The logical plot is present (R1, R57). -/
def present (s : State) (lid : Nat) : Bool := s.onGrid lid && !s.isHole (s.regionOf lid)
/-- The column pattern makes it a V-plot (R1). -/
def isV (s : State) (lid : Nat) : Bool :=
  s.posOf lid == 3 || s.posOf lid == (if s.narrow then 6 else 7)
/-- The site behind a logical plot (R60): p = 80f + 10r + s. -/
def siteOf (s : State) (lid : Nat) : Nat :=
  10 * s.rowOf lid + bitsOf (s.getF (F.ROW_MAP.POS_SITE (s.rowOf lid))) (4 * s.posOf lid) 4
/-- Row, position within the row, field and region of a site. -/
def siteRow (p : Nat) : Nat := p / 10
def siteS (p : Nat) : Nat := p % 10
def siteRegion (p : Nat) : Nat := p / 20
/-- The site states of a row as they stand now, a fence of the running step included (R51, R60). -/
def rowStates (s : State) (k : Nat) : Nat :=
  (SMap.find? s.grid.hidden k).getD (s.getF (F.ROW_MAP.SITE_STATE k))
/-- State of a site now: 0 ACTIVE, 1 SPARE, 2 FENCED, 3 DARK. -/
def siteState (s : State) (p : Nat) : Nat := bitsOf (s.rowStates (p / 10)) (2 * (p % 10)) 2
/-- A V-site (R43). -/
def siteIsV (p : Nat) : Bool := p % 10 == 3 || p % 10 == 5 || p % 10 == 9
/-- The logical plot a site backs, if any. -/
def lidOfSite (s : State) (p : Nat) : Option Nat :=
  let k := p / 10
  let f := k / 8
  let ps := s.getF (F.ROW_MAP.POS_SITE k)
  ((List.range s.rowLen).find? fun i => bitsOf ps (4 * i) 4 == p % 10).bind fun i =>
    let lid := (8 * (f / 8) + k % 8) * 4096 + s.rowLen * (f % 8) + i
    if s.present lid then some lid else none
/-- Every present logical plot, in ascending logical id. -/
def plotList (s : State) : List Nat :=
  ((List.range 64).map fun y => (List.range (s.getF F.GRID_SHAPE.X_DIM)).map fun x => y * 4096 + x).flatten.filter
    s.present
/-- The core behind a plot takes no slot word: fenced, dark or absent (R51). -/
def coreFenced (s : State) (lid : Nat) : Bool := decide (2 ≤ s.siteState (s.siteOf lid))

/-! ### The window (R275, R281) -/

def winGet (s : State) (a n : Nat) : List Byte := SMap.getAll 0 s.win.bytes a n
def winPut (s : State) (a : Nat) (bs : List Byte) : State :=
  { s with win := { s.win with bytes := SMap.setAll 0 s.win.bytes a bs } }
/-- A 64-bit window word. -/
def winWord (s : State) (a : Nat) : Nat := leNat (s.winGet a 8)
def winPutWord (s : State) (a v : Nat) : State := s.winPut a (leBytes 8 v)
/-- The flag word of a parcel. -/
def flag (s : State) (p : Nat) : BitVec 4 := SMap.get 0 s.win.flags p
/-- The owner of a parcel: 0 HOST, 1 DEVICE, 2 SHARED-RO, 3 VOID. -/
def owner (s : State) (p : Nat) : Nat := (s.flag p).toNat % 4
def setFlag (s : State) (p : Nat) (v : BitVec 4) : State :=
  { s with win := { s.win with flags := SMap.set 0 s.win.flags p v } }
def isPending (s : State) (p : Nat) : Bool := (s.flag p).getLsbD 2
def isRing (s : State) (p : Nat) : Bool := (s.flag p).getLsbD 3
/-- Write zeros over a parcel and forget its bad lines. -/
def zeroParcel (s : State) (p : Nat) : State :=
  { s with win := { s.win with bytes := SMap.clearRange s.win.bytes (p * 65536) 65536,
                               badLines := SMap.clearRange s.win.badLines (p * 1024) 1024 } }
/-- The parcels a byte range touches; a range of no bytes touches none (R289). -/
def parcelsOf (a len : Nat) : List Nat :=
  if len = 0 then [] else (List.range ((a + len - 1) / 65536 - a / 65536 + 1)).map (· + a / 65536)
/-- A range meets an uncorrectable line. -/
def hasBadLine (s : State) (a len : Nat) : Bool :=
  (s.win.lost && decide (len ≠ 0)) || s.win.badLines.any fun l => decide (l.1 * 64 < a + len) && decide (a < l.1 * 64 + 64)

/-- Sensor readings of a region, or of headland segment h at 256 + h: temperature in 1/16 °C, 16 bits two's
complement, and core voltage in mV (R321). -/
def sensorTemp (s : State) (n : Nat) : Nat := ((SMap.find? s.sense n).getD (0, 0)).1 % 2 ^ 16
def sensorVcore (s : State) (n : Nat) : Nat := ((SMap.find? s.sense n).getD (0, 0)).2 % 2 ^ 16

/-! ### Queues (R280-R282) -/

/-- First ring parcel of a queue. -/
def qBase (s : State) (q : Nat) : Nat :=
  if q < 2 then s.getF (F.MGMT_RING.BASE_PARCEL q) else s.getF (F.QUEUE_CFG.BASE_PARCEL q)
/-- Ring entries of a queue; 0 when disabled. -/
def qEntries (s : State) (q : Nat) : Nat :=
  if NSet.mem s.win.off q then 0
  else if q < 2 then s.getF (F.MGMT_RING.ENTRIES q) else s.getF (F.QUEUE_CFG.ENTRIES q)
/-- 1 for an event queue: queue 1, or KIND 1. -/
def qIsEvent (s : State) (q : Nat) : Bool :=
  if q < 2 then q == 1 else s.getF (F.QUEUE_CFG.KIND q) == 1
def qEpType (s : State) (q : Nat) : Nat := if q < 2 then 0 else s.getF (F.QUEUE_CFG.EP_TYPE q)
def qEpId (s : State) (q : Nat) : Nat := if q < 2 then 0 else s.getF (F.QUEUE_EP.EP_ID q)
def qLedger (s : State) (q : Nat) : Bool := decide (2 ≤ q) && s.getF (F.QUEUE_CFG.LEDGER q) == 1
def qGive (s : State) (q : Nat) : Nat := s.getF (F.QUEUE_STATE.GIVE q)
def qDone (s : State) (q : Nat) : Nat := s.getF (F.QUEUE_STATE.DONE q)
def queue (s : State) (q : Nat) : QueueSt := SMap.get QueueSt.zero s.queues q
def setQueue (s : State) (q : Nat) (x : QueueSt) : State :=
  { s with queues := SMap.set QueueSt.zero s.queues q x }
/-- Window address of entry i of queue q (R281). -/
def entryAddr (s : State) (q i : Nat) : Nat := s.qBase q * 65536 + 64 * (i % s.qEntries q)
/-- Entry i of queue q is given and not yet processed. -/
def hasNext (s : State) (q : Nat) : Bool :=
  decide (s.qEntries q ≠ 0) && decide ((s.queue q).next ≠ s.qGive q)
/-- Queues 2 to 32767 with a non-zero ENTRIES field in a field map, in ascending number. -/
def ringedQueues (m : SMap Nat) : List Nat :=
  m.filterMap fun kv =>
    let base := (F.QUEUE_CFG.ENTRIES 0).key
    if base ≤ kv.1 ∧ (kv.1 - base) % 1024 = 0 ∧ (kv.1 - base) / 1024 < 32768 ∧ kv.2 ≠ 0
    then some ((kv.1 - base) / 1024) else none
/-- Enabled queues 2 to 32767, in ascending number. -/
def enabledQueues (s : State) : List Nat := (ringedQueues s.regs).filter fun q => !NSet.mem s.win.off q
/-- Parcels of a queue's ring. -/
def ringParcels (s : State) (q : Nat) : List Nat :=
  (List.range (ceilDiv (s.qEntries q) 1024)).map (· + s.qBase q)

end State

end Sys2Proof.Machine
end

