-- ==== Sys2Proof/Machine/Records.lean ====
section
/-! DEFINITION. Event and fault records, unit history and classification (R287, R288, R320-R331), parcel changes and
the publication point (R276, R278, R282). -/

namespace Sys2Proof.Machine

/-- Source types of a record (R287). -/
def srcModule : Nat := 0
def srcPlot : Nat := 1
def srcSite : Nat := 2
def srcRegion : Nat := 3
def srcHeadland : Nat := 4
def srcGleaner : Nat := 5
def srcChannel : Nat := 6
def srcLane : Nat := 7
def srcQueue : Nat := 8
def srcPort : Nat := 9

/-- History unit types (R328). -/
def unitCore : Nat := 1
def unitShell : Nat := 2
def unitLink : Nat := 3
def unitRegion : Nat := 4
def unitGleaner : Nat := 5
def unitLane : Nat := 6
def unitHeadland : Nat := 7
def unitController : Nat := 8

/-- How many units of each type there are (R328); 0 for a refused type. -/
def unitCount : Nat → Nat
  | 1 => 5120
  | 2 => 5120
  | 3 => 20480
  | 4 => 256
  | 5 => 128
  | 6 => 512
  | 7 => 4
  | 8 => 2
  | _ => 0

/-- The number of a history unit in the stores. -/
def unitKey (u : Nat × Nat) : Nat := u.1 * 2 ^ 24 + u.2

/-- Thirty days of meridian time (R326). -/
def window30 : Nat := 1620000000000000
/-- One hour of meridian time. -/
def hourMt : Nat := 2250000000000
/-- One second and one millisecond of meridian time (R9). -/
def secondMt : Nat := 625000000
def milliMt : Nat := 625000

namespace State

/-- PHYS of a record (R321): the site of a plot or a site, a region, a gleaner or a lane by its number, else 0. -/
def physOf (s : State) (srcType srcId : Nat) : Nat :=
  if srcType = srcPlot then s.siteOf srcId
  else if srcType = srcSite ∨ srcType = srcRegion ∨ srcType = srcGleaner ∨ srcType = srcLane then srcId
  else 0

/-- Where a record reads its environment (R321): a region's sensors, or at 256 + h those of the headland segment nearest a unit
outside the regions. The module itself has no place: HN (log entry 57). -/
def sensorOf (s : State) (srcType srcId : Nat) : Nat :=
  if srcType = srcPlot then s.regionOf srcId
  else if srcType = srcSite then siteRegion srcId
  else if srcType = srcRegion then srcId
  else 256 + (if srcType = srcHeadland then srcId
    else if srcType = srcGleaner then srcId / 32
    else if srcType = srcChannel then srcId / 8
    else if srcType = srcLane then (if srcId < 512 then srcId / 128 else 1)
    else if srcType = srcPort then 2 * srcId
    else 0)

/-- The environment word of a record (R321 word 5): region sensors, or the headland values outside the regions. -/
def envWord (s : State) (srcType srcId : Nat) : Nat :=
  let n := s.sensorOf srcType srcId
  if 256 ≤ n then s.sensorTemp n + s.sensorVcore n * 2 ^ 16 + 0xFFFF * 2 ^ 32
  else
    let low := s.getF (F.MARGIN_NOW.LOWEST n)
    s.sensorTemp n + s.sensorVcore n * 2 ^ 16 + low * 2 ^ 32 +
      ((SMap.find? s.step.marginMin n).getD low) * 2 ^ 40 + s.getF (F.REGION_PSTAT.PHASES n) * 2 ^ 48

/-- Word 4 of a fault record (R321): the slot word's unit, OP and slot, and the place in the step. -/
def opWord (s : State) (unit op slot : Nat) : Nat :=
  unit + op * 16 + slot * 1024 +
    (if s.inAttempt then s.step.program * 2 ^ 16 + (s.step.granted % 2 ^ 40) * 2 ^ 20 else 0)

/-- The endpoint whose event queue a record of a source goes to (R287). -/
def recEp (s : State) (srcType srcId : Nat) : Option (Nat × Nat) :=
  if srcType = srcPlot then some (1, srcId)
  else if srcType = srcSite then (s.lidOfSite srcId).map fun l => (1, l)
  else if srcType = srcGleaner then some (2, srcId)
  else none

/-- Queue an event record (R287, R288). -/
def event (s : State) (code srcType srcId d4 : Nat) (d5 : Nat := 0) : State :=
  { s with recs := s.recs ++ [{
      kind := 1, code := code, furrow := s.furrow, meridian := s.meridian,
      srcType := srcType, srcId := srcId, phys := 0, d4 := d4, d5 := d5, d6 := 0, unit := none, ep := s.recEp srcType srcId, attempt := 0, classifiable := false,
      fenced := false, abandoned := false, recordedOnly := false, degraded := false, dusk := false }] }

end State

/-- What a detection says of a fault (R321, R322). -/
structure FaultArgs where
  code : Nat
  srcType : Nat
  srcId : Nat
  /-- OP_UNIT, OPCODE and SLOT of word 4. -/
  opUnit : Nat := 0
  op : Nat := 0
  slot : Nat := 0
  detail : Nat := 0
  unit : Option (Nat × Nat) := none
  /-- The fault abandons a running step (R7). -/
  abandons : Bool := true
  classifiable : Bool := true
  fenced : Bool := false
  recordedOnly : Bool := false
  degraded : Bool := false
  dusk : Bool := false
  deriving DecidableEq, Repr

/-- The class of a cause (R322): its high byte. -/
def causeClass (code : Nat) : Nat := code / 256

/-- R329: the causes that never classify: meridian loss, hold limits on SOWN, TWIN and COPY, contact, lease and
the corrected class. -/
def causeClassifies (code : Nat) : Bool :=
  let c := causeClass code
  decide (1 ≤ c) && decide (c ≤ 5) && !(decide (0x0405 ≤ code) && decide (code ≤ 0x0408))

namespace State

/-- Count a fault record of the running step's furrows for its witness (R423). -/
def countFault (s : State) (code : Nat) : State :=
  if s.inAttempt && decide (0 < s.step.granted) then
    { s with step := { s.step with faultCount := SMap.modify 0 s.step.faultCount (causeClass code) (· + 1) } }
  else s

/-- Count corrections of the running step for its witness (R423). -/
def countCorrections (s : State) (n : Nat) : State :=
  if s.inAttempt && decide (0 < s.step.granted) then
    { s with step := { s.step with corrections := s.step.corrections + n } }
  else s

/-- Raise a fault: its record waits for the publication point, and a step under way is marked for abandonment at
the boundary that ends the furrow (R7, R40, R323, R343). -/
def raise (s : State) (a : FaultArgs) : State :=
  let ab := a.abandons && s.inAttempt
  let r : PRec := {
    kind := 2, code := a.code, furrow := s.furrow, meridian := s.meridian, srcType := a.srcType,
    srcId := a.srcId, phys := s.physOf a.srcType a.srcId, d4 := s.opWord a.opUnit a.op a.slot, d5 := s.envWord a.srcType a.srcId,
    d6 := a.detail, unit := a.unit, ep := s.recEp a.srcType a.srcId,
    attempt := (if s.inAttempt || a.dusk then s.step.attempt else 0),
    classifiable := a.classifiable && causeClassifies a.code && a.unit.isSome,
    fenced := a.fenced, abandoned := ab, recordedOnly := a.recordedOnly, degraded := a.degraded, dusk := a.dusk }
  let s := s.countFault a.code
  { s with recs := s.recs ++ [r],
           step := if ab then { s.step with fault := some (s.step.fault.getD (causeClass a.code)) } else s.step }

/-- The half whose controller owns a unit (R324): 0 north, 1 south; a record of no unit goes to the north half
(log entry 30). -/
def unitHalf (u : Option (Nat × Nat)) : Nat :=
  match u with
  | none => 0
  | some (t, i) =>
    if t = 1 ∨ t = 2 then (if i / 80 < 32 then 0 else 1)
    else if t = 3 then (if i / 320 < 32 then 0 else 1)
    else if t = 4 then (if i / 4 < 32 then 0 else 1)
    else if t = 5 then (if i / 32 < 2 then 0 else 1)
    else if t = 6 then (if i / 128 < 2 then 0 else 1)
    else if t = 7 then (if i < 2 then 0 else 1)
    else if i = 0 then 0 else 1

/-- A controller is lost (R393). -/
def controllerLost (s : State) (half : Nat) : Bool :=
  if half = 0 then s.getF F.MGMT_STATUS.NORTH_ALIVE == 0 else s.getF F.MGMT_STATUS.SOUTH_ALIVE == 0

/-- The half that writes the records of a unit: the owner's, or the other's if the owner cannot write (R324). -/
def writeHalf (s : State) (u : Option (Nat × Nat)) : Nat :=
  let h := unitHalf u
  if s.controllerLost h && !s.controllerLost (1 - h) then 1 - h else h

end State

/-- The 32 bytes of a summary, as words (R327). -/
def summaryWord (x : Summary) (i : Nat) : Nat :=
  if i = 0 then x.state + x.total * 2 ^ 8 + x.corr * 2 ^ 24 + x.duskNom * 2 ^ 40 + x.duskStress * 2 ^ 44
  else if i = 1 then x.corrSince
  else if i = 2 then x.lastEvent
  else x.prevEvent
/-- The CRC-32C of a summary (R325). -/
def summaryCrc (x : Summary) : Nat := crc32c (wordsBytes ((List.range 4).map (summaryWord x)))

/-- Where a copy of a unit's summary lies, by half and copy (R324). -/
def copyKey (half copy key : Nat) : Nat := (2 * half + copy) * 2 ^ 28 + key

namespace HistorySt

/-- Write a unit's summary: what the controllers work with, and both copies in a half (R324, R325). -/
def store (h : HistorySt) (half key : Nat) (x : Summary) : HistorySt := { h with
  sum := SMap.set Summary.zero h.sum key x
  flash := SMap.ins (SMap.ins h.flash (copyKey half 0 key) ⟨x, summaryCrc x⟩) (copyKey half 1 key) ⟨x, summaryCrc x⟩ }

/-- A copy that passes its CRC. -/
def copy? (h : HistorySt) (half copy key : Nat) : Option Summary :=
  ((SMap.find? h.flash (copyKey half copy key)).filter fun c => c.crc == summaryCrc c.val).map (·.val)

/-- A half's summary of a unit: one that fails its CRC is taken from the other copy (R325). -/
def half? (h : HistorySt) (half key : Nat) : Option Summary := (h.copy? half 0 key).or (h.copy? half 1 key)

/-- The later of two summaries by meridian count, `a` where they are level (R324). -/
def later (a b : Summary) : Summary :=
  let at' (x : Summary) : Nat := max x.lastEvent x.corrSince
  if at' a < at' b ∨ (at' a = at' b ∧ a.total + a.corr < b.total + b.corr) then b else a

/-- Both halves' summaries of a unit merged (R324). -/
def merged (h : HistorySt) (key : Nat) : Option Summary :=
  match h.half? 0 key, h.half? 1 key with
  | some a, some b => some (later a b)
  | a, b => a.or b

end HistorySt

namespace State

/-- The working summary of a unit. -/
def summary (s : State) (u : Nat × Nat) : Summary := SMap.get Summary.zero s.hist.sum (unitKey u)
def setSummary (s : State) (u : Nat × Nat) (x : Summary) : State :=
  { s with hist := s.hist.store (s.writeHalf (some u)) (unitKey u) x }

/-- A recorded event lies within the 30 days that end at `m` (R326). -/
def within30 (m t : Nat) (old : Bool) : Bool :=
  !old && decide (t ≠ 0) && decide (t ≤ m) && decide (m - t < window30)
/-- The latest event of a unit, and the one before it, lie within the 30 days that end at `m`. -/
def lastIn30 (m : Nat) (x : Summary) : Bool := within30 m x.lastEvent (x.old == 3)
def prevIn30 (m : Nat) (x : Summary) : Bool := within30 m x.prevEvent (decide (2 ≤ x.old))
/-- So does the one before both. -/
def thirdIn30 (m : Nat) (x : Summary) : Bool := within30 m x.third (x.old != 0)

/-- R331: the state of a unit after a classifiable event. -/
def stateAfterEvent (x : Summary) (m : Nat) : Nat :=
  if x.state = 4 then 4
  else if lastIn30 m x && prevIn30 m x then 4
  else if x.state = 3 then 3
  else 1

/-- Count a classifiable event of a unit (R329, R331): at most one per attempt. -/
def classify (s : State) (u : Nat × Nat) (m attempt : Nat) : State :=
  let x := s.summary u
  if attempt ≠ 0 ∧ x.lastAttempt = attempt then s else
    let s := { s with hist := { s.hist with events := s.hist.events + 1 } }
    s.setSummary u { x with state := stateAfterEvent x m, total := satAdd 16 x.total 1, lastEvent := m,
                            prevEvent := x.lastEvent, third := x.prevEvent, lastAttempt := attempt, old := x.old - 1 }

/-- R330: a correction of a unit; `code` is its corrected cause. One record for the first correction in each hour of
meridian time (R323), one classifiable record when CORR_COUNT reaches CORR_LIMIT. -/
def correct (s : State) (u : Nat × Nat) (a : FaultArgs) : State :=
  let x0 := s.summary u
  let m := s.meridian
  let x := if x0.corrOld || decide (window30 < m - x0.corrSince) then { x0 with corr := 0, corrSince := m, corrOld := false } else x0
  let n := satAdd 16 x.corr 1
  let limit := s.getF F.HIST_CFG.CORR_LIMIT
  let r : PRec := {
    kind := 2, code := a.code, furrow := s.furrow, meridian := m, srcType := a.srcType,
    srcId := a.srcId, phys := s.physOf a.srcType a.srcId, d4 := s.opWord a.opUnit a.op a.slot, d5 := s.envWord a.srcType a.srcId, d6 := a.detail,
    unit := some u, ep := s.recEp a.srcType a.srcId, attempt := (if s.inAttempt || a.dusk then s.step.attempt else 0),
    classifiable := false, fenced := false, abandoned := false, recordedOnly := false, degraded := false,
    dusk := a.dusk }
  let hour := m / hourMt
  let s := s.countCorrections 1
  if limit ≠ 0 ∧ limit ≤ n then
    let s := s.setSummary u { x with corr := 0, corrSince := m, lastCorr := some hour }
    let s := s.countFault a.code
    { s with recs := s.recs ++ [{ r with classifiable := true }] }
  else if x.lastCorr = some hour then s.setSummary u { x with corr := n }
  else
    let s := (s.setSummary u { x with corr := n, lastCorr := some hour }).countFault a.code
    { s with recs := s.recs ++ [r] }

/-- Records logged in the present second by a half (R325). -/
def logRate (s : State) (half : Nat) : Nat :=
  let r := SMap.get (0, 0) s.hist.rate half
  if r.1 = s.meridian / secondMt then r.2 else 0

/-- Records of a half beyond its rate wait, in a queue of 65,536; one that finds it full is dropped and counted (R325). -/
def logWait (s : State) (h code entry : Nat) : State :=
  if 65536 ≤ (s.hist.wait.filter fun w => w.1 == h).length then s.nowF F.LOG_DROPPED.COUNT (s.getF F.LOG_DROPPED.COUNT + 1)
  else { s with hist := { s.hist with wait := s.hist.wait ++ [(h, code, entry)] } }

/-- Give a posted fault record to the log (R325). -/
def logRecord (s : State) (u : Option (Nat × Nat)) (code entry : Nat) : State :=
  let h := s.writeHalf u
  let waiting := (s.hist.wait.filter fun w => w.1 == h).length
  if causeClass code = 0 ∧ 4096 ≤ s.logRate h + waiting then s.nowF F.LOG_DROPPED.COUNT (s.getF F.LOG_DROPPED.COUNT + 1)
  else s.logWait h code entry

/-- Word 7 of a fault record (R321). -/
def histWord (s : State) (r : PRec) : Nat :=
  let flags := b2n r.fenced * 2 ^ 48 + b2n r.abandoned * 2 ^ 49 + b2n r.recordedOnly * 2 ^ 50 +
    b2n r.degraded * 2 ^ 51 + b2n r.dusk * 2 ^ 52
  match r.unit with
  | none => flags
  | some u =>
    let x := s.summary u
    let n := b2n (lastIn30 r.meridian x) + b2n (prevIn30 r.meridian x) + b2n (thirdIn30 r.meridian x)
    n + (x.total % 2 ^ 16) * 2 ^ 8 + x.duskNom * 2 ^ 24 + x.duskStress * 2 ^ 28 + x.state * 2 ^ 32 + flags

/-- Words 3 to 7 of a record. -/
def recTail (s : State) (r : PRec) : List Nat :=
  if r.kind = 2 then
    [r.srcType + r.srcId * 2 ^ 16 + r.phys * 2 ^ 40, r.d4, r.d5, r.d6, s.histWord r]
  else [r.srcType + r.srcId * 2 ^ 16, r.d4, r.d5, r.d6, r.d7]

/-- The event queue that takes a record (R287): the lowest-numbered enabled event queue whose endpoint is the
source, else queue 1. -/
def recQueue (s : State) (r : PRec) : Nat :=
  match r.ep with
  | none => 1
  | some (t, i) =>
    (s.enabledQueues.find? fun q => s.qIsEvent q && s.qEpType q == t && s.qEpId q == i).getD 1

/-- The 64 bytes of a record with the queue's SEQ and LOST (R287). -/
def recBytes (s : State) (r : PRec) (seq lost : Nat) : List Byte :=
  wordsBytes ([r.kind * 2 ^ 8 + r.code * 2 ^ 16 + seq * 2 ^ 32, r.furrow + lost * 2 ^ 48, r.meridian] ++ s.recTail r)

/-- A record of a bring-up goes to the unit history alone, an event nowhere (R395). -/
def historyRecord (s : State) (r : PRec) : State :=
  if r.kind = 2 then
    let s := match r.unit with
      | some u => if r.classifiable then s.classify u r.meridian r.attempt else s
      | none => s
    s.logRecord r.unit r.code (leNat (s.recBytes r 0 0))
  else s
/-- The records of a bring-up so far go to the history. -/
def historyOnly (s : State) : State := s.recs.foldl historyRecord { s with recs := [] }

/-- Put a record on the watch connector, or drop it when more than 4,096 wait (R417). -/
def watchOut (s : State) (bs : List Byte) : State :=
  if 4096 < s.obs.watch.length then s.nowF F.TRACE_STATUS.WATCH_DROPPED (satAdd 32 (s.getF F.TRACE_STATUS.WATCH_DROPPED) 1)
  else { s with obs := { s.obs with watch := s.obs.watch ++ [bs] } }

/-- The copy of a record that MIRROR sends to the watch connector, with that destination's SEQ (R416). -/
def mirror (s : State) (r : PRec) : State :=
  if s.getF F.TRACE_CFG.MIRROR = 1 ∧ r.kind ≠ 3 then
    let n := s.obs.watchSeq
    let s := { s with obs := { s.obs with watchSeq := (n + 1) % 2 ^ 32 } }
    s.watchOut (s.recBytes r n 0)
  else s

/-- Deliver or drop a record on its queue (R287). -/
def deliver (s : State) (q : Nat) (r : PRec) : State :=
  let x := s.queue q
  let seq := x.seq
  if s.hasNext q then
    let bs := s.recBytes r seq x.lost
    let s := s.winPut (s.entryAddr q x.next) bs
    let s := s.setQueue q { x with next := (x.next + 1) % 2 ^ 32, seq := (seq + 1) % 2 ^ 32, lost := 0 }
    s.nowF (F.QUEUE_STATE.DONE q) ((s.qDone q + 1) % 2 ^ 32)
  else
    let s := s.setQueue q { x with seq := (seq + 1) % 2 ^ 32, lost := satAdd 16 x.lost 1 }
    if r.kind = 3 then s.nowF F.TRACE_STATUS.QUEUE_DROPPED (satAdd 32 (s.getF F.TRACE_STATUS.QUEUE_DROPPED) 1)
    else s.nowF F.EVENTS_LOST.COUNT (s.getF F.EVENTS_LOST.COUNT + 1)

/-- The queue of a trace record (R428): queue 1 or an enabled event queue, else none. -/
def traceQueue (s : State) : Option Nat :=
  let q := s.getF F.TRACE_CFG.QUEUE
  if q = 1 then some q
  else if decide (2 ≤ q) && decide (s.qEntries q ≠ 0) && s.qIsEvent q then some q else none

/-- Post one record: classify its unit, log it, deliver it (R287, R323, R325, R329). -/
def post (s : State) (r : PRec) : State :=
  if r.kind = 2 then
    let s := match r.unit with
      | some u => if r.classifiable then s.classify u r.meridian r.attempt else s
      | none => s
    let q := s.recQueue r
    let entry := leNat (s.recBytes r (s.queue q).seq (s.queue q).lost)
    ((s.logRecord r.unit r.code entry).deliver q r).mirror r
  else if r.kind = 3 then
    match s.traceQueue with
    | some q => s.deliver q r
    | none => s.nowF F.TRACE_STATUS.QUEUE_DROPPED (satAdd 32 (s.getF F.TRACE_STATUS.QUEUE_DROPPED) 1)
  else (s.deliver (s.recQueue r) r).mirror r

/-- Post every waiting record in the order it arose. -/
def postAll (s : State) : State := s.recs.foldl post { s with recs := [] }

/-! ### Returned entries and parcel changes (R276, R278, R282, R290) -/

/-- Return one finished entry: STATUS, RESULT, DONE_FURROW, OWNER to HOST, DONE advanced (R282), later for one ahead of its turn. -/
def returnEntry (s : State) (q : Nat) (f : Finish) : State :=
  let a := s.entryAddr q f.idx
  let w0 := s.winWord a
  let s := s.winPutWord a (setBits (setBits w0 16 16 f.status) 0 2 0)
  let s := s.winPutWord (a + 48) f.result
  let s := s.winPutWord (a + 56) s.furrow
  let s := if f.early then s else s.nowF (F.QUEUE_STATE.DONE q) ((s.qDone q + 1) % 2 ^ 32)
  if f.status = 0 then s else s.event 0x0014 srcQueue q (q + f.idx * 2 ^ 32)

/-- Return every finished entry of a queue, in index order. -/
def returnQueue (s : State) (q : Nat) : State :=
  let x := s.queue q
  let s := s.setQueue q { x with fin := [] }
  if s.qEntries q = 0 then s else x.fin.foldl (fun s f => s.returnEntry q f) s

/-- Return the finished entries of every queue. -/
def returnAll (s : State) : State :=
  ((s.queues.filter fun x => !x.2.fin.isEmpty).map (·.1)).foldl returnQueue s

/-- Entries of a queue given and not returned. -/
def unreturned (s : State) (q : Nat) : List Nat :=
  if s.qEntries q = 0 then [] else
    (List.range ((s.qGive q + 2 ^ 32 - s.qDone q) % 2 ^ 32)).map fun i => (s.qDone q + i) % 2 ^ 32

/-- A parcel is used by an entry given and not returned (R290); an entry of LENGTH 0 touches none (R289). -/
def parcelInUse (s : State) (p : Nat) : Bool :=
  (0 :: s.enabledQueues).any fun q =>
    !s.qIsEvent q && (s.unreturned q).any fun i =>
      let a := s.entryAddr q i
      (parcelsOf (s.winWord (a + 16) % 2 ^ 36) (s.winWord (a + 8) % 2 ^ 48)).contains p

/-- Take the pending change of one parcel into effect. -/
def settleParcel (s : State) (p : Nat) : State :=
  if s.isPending p && !s.parcelInUse p then s.setFlag p 0 else s

/-- Take every pending parcel change into effect (R276, R278). -/
def settleParcels (s : State) : State :=
  let s := s.win.toVoid.toList.foldl (fun s p =>
    if s.owner p == 0 then s else (s.zeroParcel p).setFlag p 3) s
  let s := { s with win := { s.win with toVoid := [] } }
  ((s.win.flags.filter fun f => f.2.getLsbD 2).map (·.1)).foldl settleParcel s

/-- The publication point (R278): entries return, parcel changes take effect, records post. -/
def publish (s : State) : State := s.returnAll.settleParcels.postAll

/-- Bring-up has reported readiness (R270, R406). -/
def isReady (s : State) : Bool := s.getF F.BOOT_STATUS.STATE == 3

/-- What follows every command: while STEP is false and neither a staging pass nor a close runs, every moment is a
publication point (R278); before readiness fault records go to the unit history only (R395). -/
def settle (s : State) : State :=
  if s.atPublication then (if s.isReady then s.publish else s.historyOnly) else s

/-- The state after a command that began in `s` and whose effect leaves `t`: settled. No command touches the queue of waiting
commands or what is fixed at manufacture (R411, R418, R421). -/
def after (s t : State) : State := { t.settle with pending := s.pending, man := s.man }

/-- What every meaning answers. -/
def answer (s t : State) : Out := .next (s.after t)

/-- A command whose operands can occur answers its effect; another stops with the fault illFormed. -/
def answerIf (s : State) (ok : Bool) (t : State) : Out := if ok then s.answer t else .fault .illFormed

end State

end Sys2Proof.Machine
end

