-- ==== Sys2Proof/Machine/Grid.lean ====
section
/-! DEFINITION. Row assignments, fencing, dark sites and DEGRADED (R43, R46-R48, R51, R55, R60, R334). -/

namespace Sys2Proof.Machine

/-- R47: every valid assignment, in lexicographic order. `prev` is the site before, counted from the west seam
port as 0 (site s is s + 1); `ok` and `live` are the states of the sites. -/
def assignments (ok live : Nat → Bool) : List Bool → Nat → List (List Nat)
  | [], prev =>
    if 11 - prev ≤ 2 ∨ (11 - prev = 3 ∧ (live prev || live (prev + 1))) then [[]] else []
  | v :: vs, prev =>
    let step (s : Nat) : List (List Nat) :=
      if s < 10 ∧ State.siteIsV s = v ∧ ok s ∧ (s < prev + 2 ∨ (live prev || live (prev + 1))) then
        (assignments ok live vs (s + 1)).map (s :: ·)
      else []
    step prev ++ step (prev + 1) ++ step (prev + 2)

/-- The column pattern of a row (R1): true for V. -/
def columnPattern (narrow : Bool) : List Bool :=
  if narrow then [false, false, false, true, false, false, true]
  else [false, false, false, true, false, false, false, true]

/-- The canonical map of a grade (R48). -/
def canonicalMap (narrow : Bool) : List Nat :=
  if narrow then [0, 1, 2, 3, 6, 7, 9] else [0, 1, 2, 3, 6, 7, 8, 9]

/-- Positions that differ between two maps. -/
def movedCount (a b : List Nat) : Nat := ((List.zip a b).filter fun p => p.1 != p.2).length

/-- R48: the valid assignment that moves the fewest positions from `cur`, the lexicographically smallest of
those. -/
def bestAssignment (narrow : Bool) (states : Nat) (cur : List Nat) : Option (List Nat) :=
  let st (s : Nat) := bitsOf states (2 * s) 2
  let all := assignments (fun s => decide (st s < 2)) (fun s => decide (st s ≠ 3)) (columnPattern narrow) 0
  all.foldl (fun best a => match best with
    | none => some a
    | some b => if movedCount cur a < movedCount cur b then some a else best) none

/-- The map word of a list of sites (R60). -/
def mapWord (sites : List Nat) : Nat :=
  (List.zipIdx sites).foldl (fun w p => setBits w (4 * p.2) 4 p.1) 0xFFFFFFFF

/-- Site states of a row after a map: unfenced sites become ACTIVE if the map uses them, else SPARE. -/
def statesWithMap (states : Nat) (sites : List Nat) : Nat :=
  (List.range 10).foldl (fun w s =>
    if bitsOf w (2 * s) 2 < 2 then setBits w (2 * s) 2 (if sites.contains s then 0 else 1) else w) states

/-- Sites of a row in state SPARE. -/
def spareCount (states : Nat) : Nat := ((List.range 10).filter fun s => bitsOf states (2 * s) 2 == 1).length

namespace State

/-- The current map of a row as a list of sites. -/
def rowSites (s : State) (k : Nat) : List Nat :=
  (List.range s.rowLen).map fun i => bitsOf (s.getF (F.ROW_MAP.POS_SITE k)) (4 * i) 4

/-- Rows outside holes with no SPARE site (R60). -/
def countNoSpare (s : State) : Nat :=
  ((List.range 512).filter fun k => !s.isHole (k / 2) && s.getF (F.ROW_MAP.SPARE_COUNT k) == 0).length

/-- Write a row's site states into its register, spare count beside it (R60). -/
def writeStates (s : State) (k states : Nat) : State :=
  let s := s.nowF (F.ROW_MAP.SITE_STATE k) states
  let s := s.nowF (F.ROW_MAP.SPARE_COUNT k) (spareCount states)
  s.nowF F.REPAIR_STATUS.ROWS_NO_SPARE s.countNoSpare

/-- Set the state of a site: within a step it stays hidden until the publication point of the abandonment, within a
substitution until its order 5 (R60). -/
def setSite (s : State) (p st : Nat) : State :=
  let w := setBits (s.rowStates (p / 10)) (2 * (p % 10)) 2 st
  if s.inAttempt || s.step.phase == .substituting then { s with grid := { s.grid with hidden := SMap.ins s.grid.hidden (p / 10) w } }
  else s.writeStates (p / 10) w

/-- Show the states set during an abandoned attempt (R60). -/
def revealSites (s : State) : State :=
  let h := s.grid.hidden
  h.foldl (fun s kv => s.writeStates kv.1 kv.2) { s with grid := { s.grid with hidden := [] } }

/-- Set DEGRADED (R54); the event names a row. It posts when DEGRADED is set, and not again at each refused step start or apply (log
entry 61). -/
def degrade (s : State) (row : Nat) : State :=
  if s.getF F.REPAIR_STATUS.DEGRADED = 1 then s
  else (s.keepF F.REPAIR_STATUS.DEGRADED 1).event 0x0003 srcModule 0 row

/-- R51: fence the core of a site, and test its row; answers whether the row still has an assignment. -/
def fenceSite (s : State) (p : Nat) : State :=
  if 2 ≤ s.siteState p then s
  else
    let s := s.setSite p 2
    let s := { s with grid := { s.grid with fencedNow := NSet.insert s.grid.fencedNow p } }
    let s := s.keepF F.REPAIR_STATUS.SUBST_PENDING 1
    match bestAssignment s.narrow (s.rowStates (p / 10)) (s.rowSites (p / 10)) with
    | some _ => s
    | none => s.degrade (p / 10)

/-- R55: the shell of a site has failed: DARK and DEGRADED. -/
def shellFail (s : State) (p : Nat) : State :=
  let s := s.keepF (F.ROUTER_STATUS.SHELL_FAIL p) 1
  let s := { s with grid := { s.grid with shellFailed := NSet.insert s.grid.shellFailed p } }
  (s.setSite p 3).degrade (p / 10)

/-- The row still has a valid assignment with the site fenced: what DEGRADED on the record says. -/
def rowLostBy (s : State) (p : Nat) : Bool :=
  decide (s.siteState p < 2) &&
    (bestAssignment s.narrow (setBits (s.rowStates (p / 10)) (2 * (p % 10)) 2 2) (s.rowSites (p / 10))).isNone

/-- A fault attributed to a plot's core (R51, R334): the record, then the fence. -/
def coreFault (s : State) (lid : Nat) (a : FaultArgs) : State :=
  let p := s.siteOf lid
  let lost := s.rowLostBy p
  let s := s.raise { a with
    srcType := srcPlot, srcId := lid, unit := some (unitCore, p),
    fenced := true, degraded := lost }
  s.fenceSite p

/-- The shell's four ports are looped back at the end of the abandonment (R334): links 4p + d. -/
def queueLoopback (s : State) (p : Nat) : State :=
  { s with grid := { s.grid with loopbacks := [0, 1, 2, 3].foldl (fun m d => NSet.insert m (4 * p + d)) s.grid.loopbacks } }

/-- A run-time slot conflict (R94, R179): counted, recorded with its rule, the step abandoned. -/
def slotConflict (s : State) (lid opUnit op slot rule : Nat) : State :=
  let s := s.incLive (F.SLOT_CONFLICTS.COUNT lid) 1
  s.coreFault lid { code := 0x0203, srcType := srcPlot, srcId := lid, opUnit := opUnit, op := op, slot := slot, detail := rule }

end State

end Sys2Proof.Machine
end

