-- ==== Sys2Proof/Machine/Num.lean ====
section
/-! DEFINITION. Number formats, conversion, rounding, exact sums and the seeded generators (R109-R131), the array's
aligned group sum (R95, R96), and binary32 arithmetic (R139). Every value is exact until the one rounding the
spec names. -/

namespace Sys2Proof.Machine

/-- A number as any format spells it: NaN, ±infinity, or ±mag · 2^exp exactly. -/
inductive Fv
  | nan
  | inf (neg : Bool)
  | fin (neg : Bool) (mag : Nat) (exp : Int)
  deriving DecidableEq, Repr

/-- An exact dyadic number m · 2^e. -/
structure Dy where
  m : Int
  e : Int
  deriving DecidableEq, Repr

namespace Dy
def zero : Dy := ⟨0, 0⟩
/-- The mantissa of `d` counted in units of 2^e, for e at most d's exponent. -/
def atExp (d : Dy) (e : Int) : Int := d.m * (2 ^ (d.e - e).toNat : Nat)
def add (a b : Dy) : Dy := let e := min a.e b.e; ⟨a.atExp e + b.atExp e, e⟩
def neg (a : Dy) : Dy := ⟨-a.m, a.e⟩
def sub (a b : Dy) : Dy := a.add b.neg
def mul (a b : Dy) : Dy := ⟨a.m * b.m, a.e + b.e⟩
def abs (a : Dy) : Dy := ⟨(a.m.natAbs : Int), a.e⟩
def le (a b : Dy) : Bool := let e := min a.e b.e; decide (a.atExp e ≤ b.atExp e)
def lt (a b : Dy) : Bool := !b.le a
def isZero (a : Dy) : Bool := a.m == 0
def max (a b : Dy) : Dy := if a.le b then b else a
end Dy

namespace Fv
/-- The exact value of a finite number. -/
def dy : Fv → Dy
  | .fin s m e => ⟨if s then -(m : Int) else m, e⟩
  | _ => Dy.zero
def isNan : Fv → Bool
  | .nan => true
  | _ => false
def isInf : Fv → Bool
  | .inf _ => true
  | _ => false
def finite : Fv → Bool
  | .fin _ _ _ => true
  | _ => false
def isZero : Fv → Bool
  | .fin _ 0 _ => true
  | _ => false
def signBit : Fv → Bool
  | .nan => false
  | .inf s => s
  | .fin s _ _ => s
def neg : Fv → Fv
  | .nan => .nan
  | .inf s => .inf !s
  | .fin s m e => .fin (!s) m e
def abs : Fv → Fv
  | .nan => .nan
  | .inf _ => .inf false
  | .fin _ m e => .fin false m e
/-- A dyadic as a number; an exact zero takes the sign given. -/
def ofDy (d : Dy) (zeroNeg : Bool := false) : Fv :=
  if d.m = 0 then .fin zeroNeg 0 0 else .fin (decide (d.m < 0)) d.m.natAbs d.e
def ofInt (x : Int) : Fv := .fin (decide (x < 0)) x.natAbs 0
/-- Exact sum (IEEE 754 rules for infinities and zeros). -/
def add : Fv → Fv → Fv
  | .nan, _ => .nan
  | _, .nan => .nan
  | .inf s, .inf t => if s = t then .inf s else .nan
  | .inf s, _ => .inf s
  | _, .inf t => .inf t
  | .fin s m e, .fin t n f =>
    ofDy ((Fv.fin s m e).dy.add (Fv.fin t n f).dy) (s && t)
/-- Exact product. -/
def mul : Fv → Fv → Fv
  | .nan, _ => .nan
  | _, .nan => .nan
  | .inf s, .inf t => .inf (s != t)
  | .inf s, .fin t n _ => if n = 0 then .nan else .inf (s != t)
  | .fin s m _, .inf t => if m = 0 then .nan else .inf (s != t)
  | .fin s m e, .fin t n f => .fin (s != t) (m * n) (e + f)
end Fv

/-- Rounding of a conversion: to nearest even, or stochastic with a generator word (R123, R124). -/
inductive Round
  | rne
  | sr (w : Nat)
  deriving DecidableEq, Repr

/-- ⌊log2 of a non-zero mag · 2^exp⌋. -/
def leadExp (mag : Nat) (exp : Int) : Int := (Nat.log2 mag : Int) + exp

/-- mag · 2^exp as a count of 2^q, rounded. -/
def roundMag (r : Round) (mag : Nat) (exp q : Int) : Nat :=
  if q ≤ exp then mag * 2 ^ (exp - q).toNat
  else
    let sh := (q - exp).toNat
    let quo := mag / 2 ^ sh
    let rem := mag % 2 ^ sh
    match r with
    | .rne =>
      let half := 2 ^ (sh - 1)
      if half < rem ∨ (rem = half ∧ quo % 2 = 1) then quo + 1 else quo
    | .sr w => if 2 ^ 32 ≤ rem * 2 ^ 32 / 2 ^ sh + w then quo + 1 else quo

/-- A floating element layout (R111): exponent bits, significand bits, bias, the code of the largest finite value,
whether infinities exist, the canonical NaN, and whether overflow saturates (R121). -/
structure FFmt where
  e : Nat
  m : Nat
  bias : Nat
  maxCode : Nat
  hasInf : Bool
  nan : Option Nat
  sat : Bool
  deriving DecidableEq, Repr

def fBinary32 : FFmt := ⟨8, 23, 127, 0x7F7FFFFF, true, some 0x7FC00000, false⟩
def fBinary64 : FFmt := ⟨11, 52, 1023, 0x7FEFFFFFFFFFFFFF, true, some 0x7FF8000000000000, false⟩
def fBinary16 : FFmt := ⟨5, 10, 15, 0x7BFF, true, some 0x7E00, false⟩
def fBf16 : FFmt := ⟨8, 7, 127, 0x7F7F, true, some 0x7FC0, false⟩
def fE4M3 : FFmt := ⟨4, 3, 7, 0x7E, false, some 0x7F, true⟩
def fE5M2 : FFmt := ⟨5, 2, 15, 0x7B, true, some 0x7E, true⟩
def fE3M2 : FFmt := ⟨3, 2, 3, 0x1F, false, none, true⟩
def fE2M3 : FFmt := ⟨2, 3, 1, 0x1F, false, none, true⟩
def fE2M1 : FFmt := ⟨2, 1, 1, 0x7, false, none, true⟩

/-- Read a floating element (R111). -/
def decodeF (f : FFmt) (x : Nat) : Fv :=
  let s := Nat.testBit x (f.e + f.m)
  let body := x % 2 ^ (f.e + f.m)
  let ex := body / 2 ^ f.m
  let man := body % 2 ^ f.m
  if f.maxCode < body then (if f.hasInf ∧ man = 0 then .inf s else .nan)
  else if ex = 0 then .fin s man (1 - (f.bias : Int) - f.m)
  else .fin s (2 ^ f.m + man) ((ex : Int) - f.bias - f.m)

/-- What a conversion writes, and how it counts (R121). -/
structure Conv where
  bits : Nat
  sat : Bool := false
  nonfin : Bool := false
  deriving DecidableEq, Repr

/-- The code of a finite magnitude in a floating layout, before any overflow rule. -/
def encodeMag (f : FFmt) (r : Round) (mag : Nat) (exp : Int) : Nat :=
  if mag = 0 then 0 else
    let qmin : Int := 1 - (f.bias : Int) - f.m
    let q := max (leadExp mag exp - f.m) qmin
    let n := roundMag r mag exp q
    if n < 2 ^ f.m then n
    else (q - qmin).toNat * 2 ^ f.m + n

/-- Convert into a floating layout (R121). -/
def encodeF (f : FFmt) (r : Round) : Fv → Conv
  | .nan => { bits := f.nan.getD 0, nonfin := true }
  | .inf s =>
    if f.hasInf then { bits := b2n s * 2 ^ (f.e + f.m) + (2 ^ f.e - 1) * 2 ^ f.m }
    else { bits := f.nan.getD 0, nonfin := true }
  | .fin s mag exp =>
    let c := encodeMag f r mag exp
    let sb := b2n s * 2 ^ (f.e + f.m)
    if c ≤ f.maxCode then { bits := sb + c }
    else if f.sat then { bits := sb + f.maxCode, sat := true }
    else { bits := sb + (2 ^ f.e - 1) * 2 ^ f.m }

/-- binary32 by round-to-nearest-even. -/
def toF32 (v : Fv) : BitVec 32 := BitVec.ofNat 32 (encodeF fBinary32 .rne v).bits
/-- The value of a binary32 word. -/
def ofF32 (x : BitVec 32) : Fv := decodeF fBinary32 x.toNat

/-- num / den rounded to nearest even in binary32, for positive num and den. -/
def ratF32 (num den : Nat) : BitVec 32 :=
  if den = 0 then BitVec.ofNat 32 0x7F800000
  else if num = 0 then 0
  else
    let k := 64 + Nat.log2 den
    let quo := num * 2 ^ k / den
    let sticky := if num * 2 ^ k % den = 0 then 0 else 1
    toF32 (.fin false (2 * quo + sticky) (-(k : Int) - 1))

/-- Round a finite value to an integer. -/
def roundInt (r : Round) (neg : Bool) (mag : Nat) (exp : Int) : Int :=
  let n := roundMag r mag exp 0
  if neg then -(n : Int) else n

/-- Convert into a `w`-bit two's complement integer (R121). -/
def encodeInt (w : Nat) (r : Round) : Fv → Conv
  | .nan => { bits := 0, nonfin := true }
  | .inf s => { bits := if s then 2 ^ (w - 1) else 2 ^ (w - 1) - 1, sat := true }
  | .fin s mag exp =>
    let n := roundInt r s mag exp
    if n < -(2 ^ (w - 1) : Nat) then { bits := 2 ^ (w - 1), sat := true }
    else if (2 ^ (w - 1) - 1 : Nat) < n then { bits := 2 ^ (w - 1) - 1, sat := true }
    else { bits := wordOfInt w n }

/-! ### MX blocks (R113-R115, R122) -/

/-- Element layout, element bits, emax of the MX formats; MXINT8 has no floating layout. -/
def mxElem : Nat → Option FFmt
  | 0x5 => some fE4M3
  | 0x6 => some fE5M2
  | 0x7 => some fE3M2
  | 0x8 => some fE2M3
  | 0x9 => some fE2M1
  | _ => none
def mxBits : Nat → Nat
  | 0x7 => 6
  | 0x8 => 6
  | 0x9 => 4
  | _ => 8
def mxEmax : Nat → Int
  | 0x5 => 8
  | 0x6 => 15
  | 0x7 => 4
  | 0x8 => 2
  | 0x9 => 2
  | _ => 0
/-- Largest finite element value. -/
def mxMax : Nat → Dy
  | 0x5 => ⟨448, 0⟩
  | 0x6 => ⟨57344, 0⟩
  | 0x7 => ⟨28, 0⟩
  | 0x8 => ⟨15, -1⟩
  | 0x9 => ⟨6, 0⟩
  | _ => ⟨127, -6⟩
def isMx (c : Nat) : Bool := decide (5 ≤ c) && decide (c ≤ 10)

/-- Value of an MX element under its scale byte (R113). -/
def mxValue (code x scale : Nat) : Fv :=
  if scale = 255 then .nan else
    let v := match mxElem code with
      | some f => decodeF f x
      | none => Fv.fin (Nat.testBit x 7) (signedOf 8 x).natAbs (-6)
    match v with
    | .fin s m e => .fin s m (e + scale - 127)
    | v => v

/-- Convert 32 values into an MX block: scale byte, element codes, counts (R122). -/
def mxEncode (code : Nat) (rs : List Round) (vs : List Fv) : Nat × List Conv :=
  if vs.any fun v => !v.finite then
    (255, vs.map fun v => { bits := 0, nonfin := !v.finite })
  else
    let amax := vs.foldl (fun a v => a.max v.dy.abs) Dy.zero
    let elem (r : Round) (v : Fv) : Conv := match mxElem code with
      | some f => encodeF f r v
      | none => match v with
        | .fin s m e =>
          let n := roundInt r s m (e + 6)
          if n < -127 then { bits := 0x81, sat := true }
          else if 127 < n then { bits := 0x7F, sat := true } else { bits := wordOfInt 8 n }
        | _ => { bits := 0 }
    if amax.isZero then (0x7F, vs.map fun v => elem .rne v)
    else
      let x0 := leadExp amax.m.natAbs amax.e - mxEmax code
      let x1 := if (Dy.mk amax.m (amax.e - x0)).le (mxMax code) then x0 else x0 + 1
      let x := if x1 < -127 then -127 else if 127 < x1 then 127 else x1
      ((x + 127).toNat, List.zipWith (fun r v => match v with
        | Fv.fin s m e => elem r (.fin s m (e - x))
        | v => elem r v) rs vs)

/-! ### B16 blocks (R117, R118) -/

/-- The sixteen values of a B16 block. -/
def b16Decode (g : Nat) : List Fv :=
  let x := g % 256
  (List.range 16).map fun i =>
    let q := signedOf 7 (bitsOf g (7 * i + 8) 7)
    if x = 255 then
      (if q = 1 then .inf false else if q = -1 then .inf true else if q = -64 then .nan else .fin false 0 0)
    else .fin (decide (q < 0)) q.natAbs ((x : Int) - 133)

/-- Encode 16 values; also whether any element was clamped, element by element. -/
def b16Encode (rs : List Round) (vs : List Fv) : Nat × List Conv :=
  let pack (x : Nat) (qs : List Int) (sat : Bool) : Nat :=
    x + (List.zipIdx qs).foldl (fun a p => a + wordOfInt 7 p.1 * 2 ^ (7 * p.2 + 8)) 0 + b2n sat * 2 ^ 120
  if vs.any fun v => !v.finite then
    let qs : List Int := vs.map fun v => match v with
      | .nan => -64
      | .inf s => if s then -1 else 1
      | .fin _ _ _ => 0
    (pack 255 qs false, vs.map fun v => { bits := 0, nonfin := !v.finite })
  else
    let mx := vs.foldl (fun a v => a.max v.dy.abs) Dy.zero
    if mx.isZero then (0, vs.map fun _ => { bits := 0 })
    else
      let e := leadExp mx.m.natAbs mx.e
      let x0 := e + 128
      let x1 := if (Dy.mk 63 (e - 5)).lt mx then e + 129 else x0
      let x2 := if x1 < 1 then 1 else x1
      let x := if 254 < x2 then 254 else x2
      let qc := List.zipWith (fun r v => match v with
        | Fv.fin s m ex =>
          let q := roundInt r s m (ex - (x - 133))
          if 63 < q then ((63 : Int), true) else if q < -63 then (-63, true) else (q, false)
        | _ => (0, false)) rs vs
      (pack x.toNat (qc.map (·.1)) (qc.any (·.2)), qc.map fun p => { bits := 0, sat := p.2 })

/-! ### Rows and packed elements (R110, R114) -/

/-- Element width in bits of a code (R109). -/
def elemBits : Nat → Nat
  | 0x0 => 32
  | 0x1 => 16
  | 0x2 => 16
  | 0x7 => 6
  | 0x8 => 6
  | 0x9 => 4
  | 0xC => 4
  | 0xD => 32
  | 0xE => 7
  | _ => 8

/-- Element i of a packed run (R110). -/
def packedElem (w : Nat) (bs : List Byte) (i : Nat) : Nat :=
  bitsOf (leNat ((bs.drop (w * i / 8)).take (w / 8 + 2))) (w * i % 8) w

/-- Pack elements of width w into bytes. -/
def packElems (w : Nat) (xs : List Nat) : List Byte :=
  leBytes ((w * xs.length + 7) / 8)
    ((List.zipIdx xs).foldl (fun a p => a + (p.1 % 2 ^ w) * 2 ^ (w * p.2)) 0)

/-- The value of one element of a plain (unscaled) code. -/
def elemValue (code x : Nat) : Fv :=
  match code with
  | 0x0 => decodeF fBinary32 x
  | 0x1 => decodeF fBinary16 x
  | 0x2 => decodeF fBf16 x
  | 0x3 => decodeF fE4M3 x
  | 0x4 => decodeF fE5M2 x
  | 0xB => .ofInt (signedOf 8 x)
  | 0xC => .ofInt (signedOf 4 x)
  | 0xD => .ofInt (signedOf 32 x)
  | _ => .nan

/-- Bytes of a 128-element array row (R84). -/
def rowBytes (code : Nat) : Nat :=
  match code with
  | 0x0 => 512
  | 0x1 => 256
  | 0x2 => 256
  | 0xD => 512
  | 0x5 => 132
  | 0x6 => 132
  | 0xA => 132
  | 0x7 => 100
  | 0x8 => 100
  | 0x9 => 68
  | 0xC => 64
  | _ => 128

/-- The 128 values of an array row (R114). -/
def rowValues (code : Nat) (bs : List Byte) : List Fv :=
  if isMx code then
    let w := mxBits code
    (List.range 128).map fun i =>
      mxValue code (packedElem w bs i) ((bs.drop (16 * w + i / 32)).headD 0).toNat
  else (List.range 128).map fun i => elemValue code (packedElem (elemBits code) bs i)

/-- The 128 integers of an INT8 or INT4 row. -/
def rowInts (code : Nat) (bs : List Byte) : List Int :=
  (List.range 128).map fun i => signedOf (elemBits code) (packedElem (elemBits code) bs i)

/-- Convert one value into an unscaled target code with one rounding (R121). -/
def convElem (code : Nat) (r : Round) (v : Fv) : Conv :=
  match code with
  | 0x0 => encodeF fBinary32 .rne v
  | 0x1 => encodeF fBinary16 r v
  | 0x2 => encodeF fBf16 r v
  | 0x3 => encodeF fE4M3 r v
  | 0x4 => encodeF fE5M2 r v
  | 0xB => encodeInt 8 r v
  | 0xC => encodeInt 4 r v
  | _ => encodeInt 32 r v

/-! ### Exact sums and the aligned group sum (R95, R96, R141) -/

/-- An exact sum, with the IEEE rules for NaN and infinities. -/
def sumFv (vs : List Fv) : Fv :=
  if vs.any Fv.isNan then .nan
  else if vs.any (fun v => v == .inf false) && vs.any (fun v => v == .inf true) then .nan
  else if vs.any (fun v => v == .inf false) then .inf false
  else if vs.any (fun v => v == .inf true) then .inf true
  else .ofDy (vs.foldl (fun a v => a.add v.dy) Dy.zero) (!vs.isEmpty && vs.all Fv.signBit)

/-- R95: one group of products, aligned to the leading bit of the largest and cut 48 bits below it. -/
def groupSum (ps : List Fv) : Fv :=
  if ps.any (fun v => !v.finite) then sumFv ps
  else
    let tops := ps.filterMap fun v => match v with
      | .fin _ m e => if m = 0 then none else some (leadExp m e)
      | _ => none
    match tops with
    | [] => .fin false 0 0
    | t :: ts =>
      let q := ts.foldl max t - 48
      let total : Int := ps.foldl (fun a v => match v with
        | .fin s m e =>
          let n : Nat := if q ≤ e then m * 2 ^ (e - q).toNat else m / 2 ^ (q - e).toNat
          if s then a - n else a + n
        | _ => a) 0
      .ofDy ⟨total, q⟩

/-- Add a group to a binary32 accumulator, rounding once. -/
def accGroup (acc : BitVec 32) (ps : List Fv) : BitVec 32 := toF32 ((ofF32 acc).add (groupSum ps))

/-- R95: a whole sum of products, in consecutive groups of G. -/
def alignedSum (g : Nat) (ps : List Fv) : BitVec 32 := (chunks g ps).foldl accGroup 0

/-! ### Operand classes of the array (R84, R101) -/

/-- Pair class: 0 integer, 1 floating 8-bit group, 2 16-bit group, 3 32-bit group; none for a refused code. -/
def fmtClass : Nat → Option Nat
  | 0x0 => some 3
  | 0x1 => some 2
  | 0x2 => some 2
  | 0xB => some 0
  | 0xC => some 0
  | c => if 3 ≤ c ∧ c ≤ 10 then some 1 else none

/-- Class of an operand pair (R84): the slower of two floating operands; mixed pairs are refused. -/
def pairClass (a b : Nat) : Option Nat :=
  match fmtClass a, fmtClass b with
  | some x, some y => if x = 0 ∧ y = 0 then some 0 else if x = 0 ∨ y = 0 then none else some (max x y)
  | _, _ => none

/-- Group size G of a class. -/
def groupSize : Nat → Nat
  | 1 => 32
  | 2 => 16
  | 3 => 8
  | _ => 128

/-- Twice the steps a row takes: 1 for two rows per step, 2 for one, 4 for 1/2, 16 for 1/8 (R84). -/
def rowHalfSteps : Nat → Nat
  | 0x9 => 1
  | 0xC => 1
  | 0x1 => 4
  | 0x2 => 4
  | 0x0 => 16
  | _ => 2

/-- The pair runs at the rate of its slower operand. -/
def pairHalfSteps (a b : Nat) : Nat := max (rowHalfSteps a) (rowHalfSteps b)

/-- A product of two floating operands: exact, but rounded to binary32 when both are binary32 (R95). -/
def arrayProduct (both32 : Bool) (a b : Fv) : Fv :=
  let p := a.mul b
  if both32 then ofF32 (toF32 p) else p

/-! ### The seeded generators (R126) -/

def m64 (x : Nat) : Nat := x % 2 ^ 64
def rngInit (seed lid : Nat) : Nat :=
  let z := m64 seed ^^^ m64 (lid * 0x9E3779B97F4A7C15)
  let z := m64 ((z ^^^ (z >>> 30)) * 0xBF58476D1CE4E5B9)
  let z := m64 ((z ^^^ (z >>> 27)) * 0x94D049BB133111EB)
  let z := z ^^^ (z >>> 31)
  if z = 0 then 1 else z
/-- The next state; the word is drawn from it. -/
def rngStep (x : Nat) : Nat :=
  let x := x ^^^ (x >>> 12)
  let x := x ^^^ m64 (x <<< 25)
  x ^^^ (x >>> 27)
def rngWord (x : Nat) : Nat := m64 (x * 0x2545F4914F6CDD1D) >>> 32
/-- Draw `n` words: the words and the state after them. -/
def rngDraw : Nat → Nat → List Nat × Nat
  | 0, x => ([], x)
  | n + 1, x =>
    let y := rngStep x
    let r := rngDraw n y
    (rngWord y :: r.1, r.2)

/-! ### binary32 and INT32 operations (R139) -/

def f32add (a b : BitVec 32) : BitVec 32 := toF32 ((ofF32 a).add (ofF32 b))
def f32sub (a b : BitVec 32) : BitVec 32 := toF32 ((ofF32 a).add (ofF32 b).neg)
def f32mul (a b : BitVec 32) : BitVec 32 := toF32 ((ofF32 a).mul (ofF32 b))
def f32fma (a b c : BitVec 32) : BitVec 32 := toF32 (((ofF32 a).mul (ofF32 b)).add (ofF32 c))

/-- Order of two non-NaN values, −0 below +0 (R139). -/
def fvLtTotal (a b : Fv) : Bool :=
  match a, b with
  | .inf s, .inf t => s && !t
  | .inf s, _ => s
  | _, .inf t => !t
  | .fin s m e, .fin t n f =>
    if m = 0 ∧ n = 0 then s && !t else (Fv.fin s m e).dy.lt (Fv.fin t n f).dy
  | _, _ => false
/-- IEEE comparison: −0 equals +0. -/
def fvLt (a b : Fv) : Bool :=
  match a, b with
  | .inf s, .inf t => s && !t
  | .inf s, .fin _ _ _ => s
  | .fin _ _ _, .inf t => !t
  | .fin s m e, .fin t n f => (Fv.fin s m e).dy.lt (Fv.fin t n f).dy
  | _, _ => false
def fvEq (a b : Fv) : Bool :=
  match a, b with
  | .nan, _ => false
  | _, .nan => false
  | _, _ => !fvLt a b && !fvLt b a
def fvMin (a b : Fv) : Fv := if a.isNan || b.isNan then .nan else if fvLtTotal b a then b else a
def fvMax (a b : Fv) : Fv := if a.isNan || b.isNan then .nan else if fvLtTotal a b then b else a
def f32min (a b : BitVec 32) : BitVec 32 := toF32 (fvMin (ofF32 a) (ofF32 b))
def f32max (a b : BitVec 32) : BitVec 32 := toF32 (fvMax (ofF32 a) (ofF32 b))
/-- |x| and −x: a NaN gives the canonical NaN (R112). -/
def f32abs (a : BitVec 32) : BitVec 32 := toF32 (ofF32 a).abs
def f32neg (a : BitVec 32) : BitVec 32 := toF32 (ofF32 a).neg
def f32isNan (a : BitVec 32) : Bool := (ofF32 a).isNan
def f32finite (a : BitVec 32) : Bool := (ofF32 a).finite

/-- Saturate an integer into INT32; true when it saturated. -/
def satI32 (x : Int) : BitVec 32 × Bool :=
  if x < -2147483648 then (BitVec.ofNat 32 0x80000000, true)
  else if 2147483647 < x then (BitVec.ofNat 32 0x7FFFFFFF, true)
  else (BitVec.ofInt 32 x, false)

end Sys2Proof.Machine
end

