-- ==== Sys2Proof/Machine/Memory.lean ====
section
/-! DEFINITION. Pad, loam, horizon map, pad image, cache and stash codecs (R184-R207). -/

namespace Sys2Proof.Machine

/-- Partition types and codecs (R192, R204). -/
def partStash : Nat := 1
def partEval : Nat := 2
def partPinned : Nat := 3
def partResidual : Nat := 4

/-- R206: the size in bytes of the code of a 1 KiB block. -/
def losslessSize (srcFmt : Nat) (bs : List Byte) : Nat :=
  let w := elemBits srcFmt
  let x := if srcFmt = 1 then 5 else 8
  let m := if srcFmt = 0 then 23 else if srcFmt = 1 then 10 else 7
  let fields := (chunks (w / 8) bs).map fun e => bitsOf (leNat e) m x
  let nz := fields.filter (· ≠ 0)
  let base := nz.foldl min 255
  let k := if nz.isEmpty then 0 else
    ((List.range x).find? fun j => nz.all fun f => decide (f - base < 2 ^ (j + 1) - 1)).elim x (· + 1)
  if srcFmt = 0 then 772 + 32 * k else if srcFmt = 1 then 708 + 64 * k else 516 + 64 * k

/-- R205: a run of source elements as the E5M2 codec keeps them, and how many saturated. -/
def e5m2Keep (srcFmt : Nat) (bs : List Byte) : List Byte × Nat :=
  let w := elemBits srcFmt / 8
  let rs := (chunks w bs).map fun e =>
    let c := encodeF fE5M2 .rne (elemValue srcFmt (leNat e))
    (leBytes w (convElem srcFmt .rne (decodeF fE5M2 c.bits)).bits, c.sat)
  ((rs.map (·.1)).flatten, (rs.filter (·.2)).length)

namespace State

def plot (s : State) (lid : Nat) : PlotSt := SMap.get PlotSt.zero s.plots lid
def modMem (s : State) (f : MemSt → MemSt) : State := { s with mem := f s.mem }
def setPlot (s : State) (lid : Nat) (x : PlotSt) : State := { s with plots := SMap.set PlotSt.zero s.plots lid x }
/-- Every core stops (R342, R343). -/
def haltedPlots (s : State) : SMap PlotSt :=
  (s.plots.map fun (x : Nat × PlotSt) => (x.1, x.2.halt)).filter fun x => decide (x.2 ≠ PlotSt.zero)
def modPlot (s : State) (lid : Nat) (f : PlotSt → PlotSt) : State := s.setPlot lid (f (s.plot lid))

/-! ### Pad (R184-R188) -/

/-- Banks of a plot's pad. -/
def padBanks (s : State) (lid : Nat) : Nat := if s.isV lid then 6 else 8
/-- Mode of a bank (R185): 0 off, 1 pad, 2 cache; banks 6 and 7 of a V-plot do not exist. -/
def bankMode (s : State) (lid b : Nat) : Nat :=
  if b < s.padBanks lid then bitsOf (s.getF (F.PAD_CFG.MODE lid)) (2 * b) 2 else 0
/-- Bank b is carried (R189). -/
def bankCarried (s : State) (lid b : Nat) : Bool := bitOf (s.getF (F.PAD_CFG.CARRY lid)) b
def padKey (lid a : Nat) : Nat := lid * 2 ^ 23 + a
/-- A scheduled access lies within one pad-mode bank (R184, R179); an access of no bytes touches none. -/
def padOk (s : State) (lid a n : Nat) : Bool :=
  decide (n = 0) || (decide (a / 2 ^ 20 = (a + n - 1) / 2 ^ 20) && s.bankMode lid (a / 2 ^ 20) == 1)
/-- Pad bytes as they stand. -/
def padGet (s : State) (lid a n : Nat) : List Byte := SMap.getAll 0 s.mem.pad (padKey lid a) n
def padPut (s : State) (lid a : Nat) (bs : List Byte) : State :=
  if !s.padOk lid a bs.length then s else
  { s with mem := { s.mem with pad := SMap.setAll 0 s.mem.pad (padKey lid a) bs } }
/-- Completion step of a transfer (R174). -/
def xferDone (t : Transfer) : Nat := if t.len = 0 then t.p0 else t.p0 + ceilDiv t.len t.rate - 1 + t.lat
/-- A byte with the bits that `mask` names taken from `new`. -/
def mergeByte (old new mask : Byte) : Byte := (old &&& ~~~mask) ||| (new &&& mask)
/-- Byte `a` of a space as a read at a step sees it: where a mover transfer or a loose store to it has not completed,
the old contents or the new, freely (R174, R143). -/
def raced (s : State) (lid dsp step a : Nat) (old : Byte) : Byte :=
  let new : List (Nat × List Byte × List Byte) :=
    ((s.plot lid).moves.filter fun t => t.dsp == dsp).map (fun t =>
      (t.dst, (t.got.map fun c => leBytes 16 c.val.toNat).flatten, List.replicate (16 * t.got.length) 255)) ++
    (if dsp = 1 then ((s.plot lid).stores.map (·.bytes)).flatten else [])
  (new.filter fun t => decide (t.1 ≤ a) && decide (a < t.1 + t.2.1.length)).foldl
    (fun b t => if Config.moverRace lid (a / 16) step then mergeByte b (t.2.1.getD (a - t.1) 0) (t.2.2.getD (a - t.1) 0) else b) old
/-- A scheduled read of the pad at an array step (R187, R188). -/
def padRead (s : State) (lid step a n : Nat) : List Byte :=
  if 2 ^ 23 < a + n then zeroBytes n
  else if (s.plot lid).moves.isEmpty then s.padGet lid a n
  else (List.zipIdx (s.padGet lid a n)).map fun p => s.raced lid 0 step (a + p.2) p.1

/-! ### Bank ports (R186) -/

/-- List an access at the step in which it uses its bank port. -/
def usePort (s : State) (lid step : Nat) (a : PadAccess) : State :=
  s.modPlot lid fun x => { x with ports := SMap.modify [] x.ports step (· ++ [a]) }
/-- The bank of an access: the one bank that holds every span, in pad mode (R184, R185). -/
def accessBank (s : State) (lid : Nat) (a : PadAccess) : Option Nat :=
  match a.spans.filter fun p => decide (p.2 ≠ 0) with
  | [] => none
  | p :: ps =>
    if (p :: ps).all fun q => s.padOk lid q.1 q.2 && decide (q.1 / 2 ^ 20 = p.1 / 2 ^ 20) then some (p.1 / 2 ^ 20) else none
/-- An access that no bank can take (R184): it crosses banks, leaves the pad, or names a bank not in pad mode. -/
def accessBad (s : State) (lid : Nat) (a : PadAccess) : Bool :=
  a.spans.any (fun p => decide (p.2 ≠ 0)) && (s.accessBank lid a).isNone
/-- The 64-byte lines a span touches. -/
def linesOf (p : Nat × Nat) : List Nat :=
  if p.2 = 0 then [] else (List.range ((p.1 + p.2 - 1) / 64 - p.1 / 64 + 1)).map (· + p.1 / 64)
/-- A bank serves more than its ports allow in one step, or takes two writes to one line (R186). -/
def bankOver (s : State) (lid b : Nat) (as : List PadAccess) : Bool :=
  let mine := as.filter fun a => s.accessBank lid a == some b
  let total (w : Bool) : Nat := ((mine.filter fun a => a.write == w).map fun a => (a.spans.map (·.2)).sum).sum
  let lines := ((mine.filter (·.write)).map fun a => (a.spans.map linesOf).flatten.eraseDups).flatten
  decide (1024 < total false) || decide (1024 < total true) || decide (lines.eraseDups.length ≠ lines.length)

/-! ### Loam partitions (R192) -/

def partType (s : State) (i : Nat) : Nat := s.getF (F.LOAM_PART_ATTR.TYPE i)
def partCodec (s : State) (i : Nat) : Nat := s.getF (F.LOAM_PART_ATTR.CODEC i)
def partBase (s : State) (i : Nat) : Nat := s.getF (F.LOAM_PART_BASE.VALUE i)
def partSize (s : State) (i : Nat) : Nat := s.getF (F.LOAM_PART_SIZE.VALUE i)
/-- The partition is present (R208). -/
def partPresent (s : State) (i : Nat) : Bool := decide (s.partType i ≠ 0) && decide (s.partSize i ≠ 0)
/-- The partition that holds a whole range of logical offsets. -/
def partOf (s : State) (off n : Nat) : Option Nat :=
  (List.range 8).find? fun i =>
    s.partPresent i && decide (s.partBase i ≤ off) && decide (off + n ≤ s.partBase i + s.partSize i)
/-- Committed partitions: PINNED and RESIDUAL. -/
def partCommitted (s : State) (i : Nat) : Bool := decide (3 ≤ s.partType i)

def granKey (p off : Nat) : Nat := p * 2 ^ 24 + off / 256
def loamKey (p copy off : Nat) : Nat := (2 * p + copy) * 2 ^ 32 + off
def transKey (p off : Nat) : Nat := p * 2 ^ 32 + off
def blockKey (p off : Nat) : Nat := p * 2 ^ 24 + off / 1024

/-- The copy CUR names. -/
def curCopy (s : State) (p off : Nat) : Nat := b2n (NSet.mem s.mem.cur (granKey p off))
/-- The copy a read returns: CUR's, or the other if DIRTY is set (R194). -/
def readCopy (s : State) (p off : Nat) : Nat :=
  if NSet.mem s.mem.dirty (granKey p off) then 1 - s.curCopy p off else s.curCopy p off
/-- One byte of a site's loam by logical offset. -/
def loamByte (s : State) (p i off : Nat) : Byte :=
  if s.partCommitted i then SMap.get 0 s.mem.loam (loamKey p (s.readCopy p off) off)
  else if s.partCodec i = 1 then
    (if NSet.mem s.mem.blockWritten (blockKey p off) then SMap.get 0 s.mem.trans (transKey p off) else 0)
  else (SMap.find? s.mem.trans (transKey p off)).getD
    (Config.loamResidue p off (s.getF F.PLAN_STATUS.CONFIG_COUNT + 2 ^ 64 * s.mem.wipes))
/-- A read of a plot's loam: offsets in no partition read nothing (the caller has raised the conflict). -/
def loamGet (s : State) (p off n : Nat) : List Byte :=
  match s.partOf off n with
  | none => []
  | some i => (List.range n).map fun k => s.loamByte p i (off + k)
/-- The committed copy of a range (R283 COPY_OUT, R345). -/
def committedGet (s : State) (p off n : Nat) : List Byte :=
  (List.range n).map fun k =>
    let key := loamKey p (s.curCopy p (off + k)) (off + k)
    match if s.siteState p = 3 then some (2 ^ 64) else s.mem.garbled with
    | none => SMap.get 0 s.mem.loam key
    | some t => Config.duskResidue key t
/-- A scheduled loam read at an array step: a transfer or loose store not completed may show (R174). -/
def loamRead (s : State) (lid step off n : Nat) : List Byte :=
  let bs := s.loamGet (s.siteOf lid) off n
  if (s.plot lid).moves.isEmpty && (s.plot lid).stores.isEmpty then bs
  else (List.zipIdx bs).map fun p => s.raced lid 1 step (off + p.2) p.1

/-- R191: a write through the port invalidates the lines that a cache-mode bank holds. -/
def cacheInvalidate (s : State) (lid off n : Nat) : State :=
  (List.range 8).foldl (fun s b =>
    let base := s.getF (F.CACHE_WIN.BASE lid b)
    let size := s.getF (F.CACHE_WIN.SIZE lid b) * 65536
    if n = 0 ∨ s.bankMode lid b ≠ 2 ∨ off + n ≤ base ∨ base + size ≤ off then s
    else (List.range (n / 64 + 2)).foldl (fun s k =>
      let line := off / 64 + k
      if off + n ≤ line * 64 ∨ line * 64 < base then s else
        let key := (8 * lid + b) * 4096 + (line - base / 64) % 4096
        { s with mem := { s.mem with cache := SMap.modify [] s.mem.cache key fun ls => ls.filter (· ≠ line) } }) s) s

/-- Open one granule for writing in a step (R194): the first write takes the copy CUR does not name. -/
def openGranule (s : State) (p off : Nat) : State :=
  let g := granKey p off
  if NSet.mem s.mem.dirty g then s
  else
    let c := s.curCopy p off
    let base := off / 256 * 256
    let old := SMap.getAll 0 s.mem.loam (loamKey p c base) 256
    { s with mem := { s.mem with
        loam := SMap.setAll 0 s.mem.loam (loamKey p (1 - c) base) old, dirty := NSet.insert s.mem.dirty g } }

/-- Write bytes of a committed partition in a step. -/
def committedPut (s : State) (p off : Nat) (bs : List Byte) : State :=
  (List.zipIdx bs).foldl (fun s b =>
    let a := off + b.2
    let s := s.openGranule p a
    { s with mem := { s.mem with loam := SMap.set 0 s.mem.loam (loamKey p (1 - s.curCopy p a) a) b.1 } }) s

/-- List transient bytes as written. -/
def transPut (s : State) (p off : Nat) (bs : List Byte) : State :=
  { s with mem := { s.mem with
      trans := (List.zipIdx bs).foldl (fun m b => SMap.ins m (transKey p (off + b.2)) b.1) s.mem.trans } }

/-- R206: write one aligned 1 KiB block; true when no overflow chunk is left. -/
def losslessPut (s : State) (p i off : Nat) (bs : List Byte) : State × Bool :=
  let key := blockKey p off
  let fits := decide (losslessSize (s.getF (F.LOAM_PART_ATTR.SRC_FMT i)) bs ≤ 64 * s.getF (F.LOAM_PART_ATTR.SLOT_UNITS i))
  let written (s : State) : State :=
    (s.transPut p off bs).modMem fun m => { m with blockWritten := NSet.insert m.blockWritten key }
  if fits || (SMap.find? s.mem.chunk key).isSome then (written s, false)
  else
    let ck := p * 8 + i
    let n := SMap.get 0 s.mem.chunkNext ck
    if n < s.getF (F.LOAM_PART_ATTR.OVERFLOW_CHUNKS i) then
      (written (s.modMem fun m => { m with chunk := SMap.ins m.chunk key n, chunkNext := SMap.set 0 m.chunkNext ck (n + 1) }),
        false)
    else (s, true)

end State

/-- What a loam write met (R206). -/
inductive LoamOutcome | done | overflow
  deriving DecidableEq, Repr

namespace State

/-- Write a plot's loam through the port, within one partition, by its type and codec (R192, R194, R204-R206). -/
def loamPut (s : State) (p off : Nat) (bs : List Byte) : State × LoamOutcome :=
  match s.partOf off bs.length with
  | none => (s, .done)
  | some i =>
    if s.partCommitted i then (s.committedPut p off bs, .done)
    else if s.partCodec i = 2 then
      let r := e5m2Keep (s.getF (F.LOAM_PART_ATTR.SRC_FMT i)) bs
      ((s.transPut p off r.1).incF (F.STASH_SAT.COUNT p) r.2, .done)
    else if s.partCodec i = 1 then
      (List.zipIdx (chunks 1024 bs)).foldl (fun (r : State × LoamOutcome) b =>
        let w := r.1.losslessPut p i (off + 1024 * b.2) b.1
        (w.1, if w.2 then .overflow else r.2)) (s, .done)
    else (s.transPut p off bs, .done)

/-- A loam write range that a plot's mover or stream may not make: no partition, a committed partition in an
evaluation step, or a part of a lossless block (R192, R196, R204). -/
def loamWriteBad (s : State) (off n : Nat) : Bool :=
  match s.partOf off n with
  | none => true
  | some i => (s.partCommitted i && s.step.eval) ||
      (s.partCodec i == 1 && (decide (off % 1024 ≠ 0) || decide (n % 1024 ≠ 0)))

/-! ### Pad image, step start, close (R188, R189, R195) -/

def imageKey (p half a : Nat) : Nat := (2 * p + half) * 2 ^ 23 + a

/-- R188: at a step start every pad-mode bank that is not carried is cleared, every cache-mode bank invalidated;
a carried bank is rebuilt from the current image half when STALE is set (R189). -/
def startPads (s : State) (lid : Nat) : State :=
  let p := s.siteOf lid
  let half := s.getF (F.PAD_STATUS.IMAGE_HALF lid)
  let stale := s.getF (F.PAD_STATUS.STALE lid) == 1
  let s := (List.range (s.padBanks lid)).foldl (fun s b =>
    if s.bankCarried lid b then
      (if stale then
        let bs := (SMap.keysIn s.mem.image (imageKey p half (b * 2 ^ 20)) (2 ^ 20)).map fun k =>
          (padKey lid (k % 2 ^ 23), SMap.get 0 s.mem.image k)
        { s with mem := { s.mem with
            pad := bs.foldl (fun m kv => SMap.set 0 m kv.1 kv.2) (SMap.clearRange s.mem.pad (padKey lid (b * 2 ^ 20)) (2 ^ 20)) } }
      else s)
    else { s with mem := { s.mem with pad := SMap.clearRange s.mem.pad (padKey lid (b * 2 ^ 20)) (2 ^ 20) } }) s
  let s := { s with mem := { s.mem with cache := SMap.clearRange s.mem.cache (8 * lid * 4096) (8 * 4096) } }
  s.keepF (F.PAD_STATUS.STALE lid) 0

/-- Write the carried banks into the half that is not current, and flip (R189, R195). -/
def writeImage (s : State) (lid : Nat) : State :=
  let p := s.siteOf lid
  let carried := (List.range (s.padBanks lid)).filter (s.bankCarried lid)
  if carried.isEmpty then s
  else
    let half := 1 - s.getF (F.PAD_STATUS.IMAGE_HALF lid)
    let s := carried.foldl (fun s b =>
      let bs := (SMap.keysIn s.mem.pad (padKey lid (b * 2 ^ 20)) (2 ^ 20)).map fun k =>
        (imageKey p half (k % 2 ^ 23), SMap.get 0 s.mem.pad k)
      { s with mem := { s.mem with
          image := bs.foldl (fun m kv => SMap.set 0 m kv.1 kv.2) (SMap.clearRange s.mem.image (imageKey p half (b * 2 ^ 20)) (2 ^ 20)) } }) s
    s.keepF (F.PAD_STATUS.IMAGE_HALF lid) half

/-- R195: CUR becomes CUR XOR DIRTY everywhere, DIRTY clears. -/
def flipHorizonMap (s : State) : State :=
  { s with mem := { s.mem with
      cur := s.mem.dirty.foldl (fun m g => if NSet.mem m g.1 then NSet.erase m g.1 else NSet.insert m g.1) s.mem.cur,
      dirty := [] } }

/-- R195, R343: an abandonment clears every DIRTY bit. -/
def clearDirty (s : State) : State := { s with mem := { s.mem with dirty := [] } }

/-- Set STALE on every plot (R189). -/
def setStale (s : State) : State := s.plotList.foldl (fun s l => s.keepF (F.PAD_STATUS.STALE l) 1) s

/-- R200: the horizon is lost, found at site p. -/
def horizonLost (s : State) (p : Option Nat) : State :=
  let s := match p with
    | some p => s.keepF (F.LOAM_STATUS.HORIZON_LOST p) 1
    | none => s
  s.keepF F.MEM_STATUS.HORIZON_LOST 1

end State

/-- The canonical form of the addressed memories: window bytes and parcel flags, pads and their images, committed loam, loam bytes
written, the slot, constant and route memories, and the residual stores. Numbers rise strictly, and no entry of a store with a
default equals what an unlisted number reads as. -/
def Memory.wf (s : State) : Bool :=
  SMap.wf 0 s.win.bytes && SMap.wf 0 s.win.flags && SMap.wf 0 s.mem.pad && SMap.wf 0 s.mem.image && SMap.wf 0 s.mem.loam &&
    SMap.rising s.mem.trans && SMap.wf 0 s.mem.slots && SMap.wf 0 s.mem.consts && SMap.wf 0 s.mem.routes &&
    SMap.wf 0 s.hv.residual


end Sys2Proof.Machine
end

