-- ==== Sys2Proof/Machine/PowerBase.lean ====
section
/-! DEFINITION. Scheduled demand, sleep and wake of regions, and regions that go dark (R375-R381). -/

namespace Sys2Proof.Machine
namespace State

def isAwake (s : State) (n : Nat) : Bool := s.getF (F.REGION_PSTAT.AWAKE n) == 1
def sleepEnabled (s : State) (n : Nat) : Bool := s.getF (F.REGION_CFG.SLEEP_EN n) == 1
def regionCap (s : State) (n : Nat) : Nat := s.getF (F.REGION_PSTAT.CAP n)

/-- Runs of furrows in which a region has scheduled work, in the running program. -/
def busyRuns (s : State) (n : Nat) : List (Nat × Nat) := SMap.get [] s.plan.busy (256 * s.step.program + n)
/-- The region has scheduled work in a step furrow (R379). -/
def hasWork (s : State) (n k : Nat) : Bool := (s.busyRuns n).any fun r => decide (r.1 ≤ k) && decide (k < r.2)

/-- The gaps of a list of rising runs up to `len`. -/
def gaps (len : Nat) : Nat → List (Nat × Nat) → List (Nat × Nat)
  | a, [] => if a < len then [(a, len)] else []
  | a, r :: rs => if a < r.1 then (a, r.1) :: gaps len r.2 rs else gaps len r.2 rs

/-- A plot of the region has a carried bank (R379). -/
def regionCarries (s : State) (n : Nat) : Bool :=
  s.plotList.any fun l => s.regionOf l == n && s.getF (F.PAD_CFG.CARRY l) != 0

/-- Sleep intervals of a region in the running program: first furrow, and the end of the idle run (R379). -/
def sleepRuns (s : State) (n : Nat) : List (Nat × Nat) :=
  if s.sleepEnabled n && !s.regionCarries n then
    (gaps s.step.length 0 (s.busyRuns n)).filter fun r => decide (s.getF (F.REGION_CFG.SLEEP_MIN_FW n) ≤ r.2 - r.1)
  else []

/-- The WAKE term for step furrow k (R23, R380): regions with work in it whose wake is incomplete hold it. -/
def wakeHolders (s : State) (k : Nat) : List Nat := (List.range 256).filter fun n => !s.isAwake n && s.hasWork n k

/-- A core that slept wakes with nothing kept (R379). -/
def PlotSt.slept (x : PlotSt) : PlotSt := { x with
  tiles := [], masks := [], gregs := [], active := Plane.empty, shadow := Plane.empty, accp := AccPlane.empty }

/-- The cores of a region go to sleep: pads cleared, caches invalid, registers and planes empty. -/
def sleepRegion (s : State) (n : Nat) (between : Bool) : State :=
  let ls := s.plotList.filter fun l => s.regionOf l == n
  let s := (s.keepF (F.REGION_PSTAT.AWAKE n) 0).keepF (F.REGION_PSTAT.WAKING n) 0
  let s := { s with power := { s.power with wakes := SMap.ins s.power.wakes n ⟨0, 0, none, 0, false⟩ } }
  ls.foldl (fun s l =>
    let s := if between then s.keepF (F.PAD_STATUS.STALE l) 1 else s.modPlot l PlotSt.slept
    { s with mem := { s.mem with
        pad := SMap.clearRange s.mem.pad (padKey l 0) (2 ^ 23),
        cache := SMap.clearRange s.mem.cache (8 * l * 4096) (8 * 4096) } }) s

/-- Regions whose sleep interval begins with step furrow k (R379). -/
def sleepAt (s : State) (k : Nat) : State :=
  (List.range 256).foldl (fun s n =>
    if s.isAwake n && (s.sleepRuns n).any fun r => r.1 == k then s.sleepRegion n false else s) s

/-- With SLEEP_EN set a region sleeps from the step's end until the next step start, one that sleeps or wakes already too: its wake
is given up (R379, R380). -/
def sleepBetween (s : State) : State :=
  (List.range 256).foldl (fun s n =>
    if s.sleepEnabled n && s.getF (F.REGION_PSTAT.SWITCH n) == 1 then s.sleepRegion n true else s) s

/-- The wake of a sleeping region is due (R380): WAKE_LEAD_FW before its idle run ends, or at the step start. -/
def wakeDue (s : State) (n : Nat) : Bool :=
  s.inAttempt && !s.isAwake n && s.sleepEnabled n &&
    (let k := s.step.granted - 1
     match (s.sleepRuns n).find? fun r => decide (r.1 ≤ k) && decide (k < r.2) && decide (0 < s.step.granted) with
     | some r => decide (r.2 - s.getF (F.REGION_CFG.WAKE_LEAD_FW n) ≤ k)
     | none => true)

/-- Scheduled demand of a region in the present furrow, in 1/16 A (R376); a hold has none (R25). -/
def demandNow (s : State) (n : Nat) : Nat :=
  if s.isHole n || s.getF (F.REGION_PSTAT.SWITCH n) == 0 || !(s.running && decide (0 < s.step.granted)) || s.getF F.GRANT_STATUS.GRANTED == 0 then 0
  else
    let k := s.step.granted - 1
    (SMap.get [] s.plan.demand (256 * s.step.program + n)).foldl (fun d e => if e.1 ≤ k then e.2 else d) 0

/-- The highest demand of a program in a region from a step furrow on (R378). -/
def demandFrom (s : State) (j n k : Nat) : Nat :=
  let es := SMap.get [] s.plan.demand (256 * j + n)
  max (es.foldl (fun d e => if e.1 ≤ k then e.2 else d) 0) (es.foldl (fun d e => if k < e.1 then max d e.2 else d) 0)

/-- Regions that share an edge with region n (R380). -/
def adjacent (n : Nat) : List Nat :=
  let f := n / 4
  let q := n % 4
  (if q = 0 then (if 8 ≤ f then [4 * (f - 8) + 3] else []) else [n - 1]) ++
    (if q = 3 then (if f < 56 then [4 * (f + 8)] else []) else [n + 1]) ++
    (if f % 8 = 0 then [] else [4 * (f - 1) + q]) ++ (if f % 8 = 7 then [] else [4 * (f + 1) + q])

/-- A region's VFEED switch opens or closes: its shells, loam and cores with it (R44, R57, R374, R375). -/
def powerRegion (s : State) (n : Nat) (on : Bool) : State :=
  let s := s.keepF (F.REGION_PSTAT.SWITCH n) (b2n on)
  let s := s.keepF (F.REGION_PSTAT.AWAKE n) (b2n on)
  let s := { s with power := { s.power with wakes := SMap.drop s.power.wakes n } }
  let s := s.keepF (F.REGION_PSTAT.WAKING n) 0
  (List.range 20).foldl (fun s i => s.keepF (F.LOAM_STATUS.POWERED (20 * n + i)) (b2n on)) s

/-- The configured pacing ratio (R27). -/
def paceTarget (s : State) : Nat := if s.getF F.PACE_CFG.PACE_MODE = 1 then s.getF F.PACE_CFG.PACE_RATIO else 16
/-- Set the effective ratio (R27, R385). -/
def setPace (s : State) (e : Nat) : State :=
  let s := s.keepF F.PACE_STATUS.EFFECTIVE e
  s.keepF F.PACE_STATUS.AT_FLOOR (b2n (e == s.getF F.PACE_CFG.PACE_FLOOR))

/-- A region is dark: its switch opens, its latch is set where a fault darkens it, every site becomes DARK (R55, R378,
R381). Of the region's two rows the DEGRADED event names 2n (log entry 61). -/
def goDark (s : State) (n : Nat) : State :=
  let s := (s.powerRegion n false).keepF (F.REGION_PSTAT.DARK_LATCH n) 1
  let s := (List.range 20).foldl (fun s i => s.setSite (20 * n + i) 3) s
  s.degrade (2 * n)

/-- Regions that lost too many phases go dark at the horizon or the end of the abandonment (R378). -/
def darkenDoomed (s : State) : State :=
  let ns := s.power.doomed.toList
  let s := { s with power := { s.power with doomed := [] } }
  ns.foldl goDark s

end State
end Sys2Proof.Machine
end

