-- ==== Sys2Proof/Machine/Codecs.lean ====
section
/-! DEFINITION. The sowing codecs (R230-R232): plain, lossless and convert, and the decoded length of an entry (R226). -/

namespace Sys2Proof.Machine

/-- The bits of a byte string, bit 0 of each byte first (R110). -/
def bitsLow (bs : List Byte) : List Bool := (bs.map fun b => (List.range 8).map fun i => b.getLsbD i).flatten

/-- The number that `w` bits spell, the first bit lowest; the rest of the bits. -/
def takeBits (w : Nat) (bs : List Bool) : Nat × List Bool :=
  ((List.zipIdx (bs.take w)).foldl (fun a b => a + b2n b.1 * 2 ^ b.2) 0, bs.drop w)

/-- The 4-bit code lengths of a table of `n` values, low nibble first (R231). -/
def codeLengths (n : Nat) (bs : List Byte) : List Nat :=
  ((bs.take (n / 2)).map fun b => [b.toNat % 16, b.toNat / 16]).flatten

/-- The lengths form a complete prefix code, or are one length of 1 (R231). -/
def lengthsOk (ls : List Nat) : Bool :=
  let nz := ls.filter (· ≠ 0)
  nz == [1] || (nz.map fun l => 2 ^ (15 - l)).sum == 2 ^ 15

/-- Symbols in canonical order: by length, then by value (RFC 1951, 3.2.2). -/
def canonical (ls : List Nat) : List Nat :=
  ((List.range 15).map fun l => ((List.zipIdx ls).filter fun p => p.1 == l + 1).map (·.2)).flatten

/-- Read one canonical code, its first bit most significant: the symbol and the rest of the bits. -/
def readCode (ls syms : List Nat) : Nat → Nat → Nat → Nat → Nat → List Bool → Option (Nat × List Bool)
  | 0, _, _, _, _, _ => none
  | fuel + 1, len, code, first, index, bits =>
    match bits with
    | [] => none
    | b :: rest =>
      let code := 2 * code + b2n b
      let count := (ls.filter (· == len)).length
      if code < first + count then some (syms.getD (index + (code - first)) 0, rest)
      else readCode ls syms fuel (len + 1) code (2 * (first + count)) (index + count) rest

/-- Read `n` canonical codes. -/
def readCodes (ls syms : List Nat) : Nat → List Bool → Option (List Nat × List Bool)
  | 0, bits => some ([], bits)
  | n + 1, bits =>
    match readCode ls syms 15 1 0 0 0 bits with
    | none => none
    | some (x, rest) => (readCodes ls syms n rest).map fun r => (x :: r.1, r.2)

/-- Read `n` fields of `w` bits. -/
def readFields (w : Nat) : Nat → List Bool → List Nat × List Bool
  | 0, bits => ([], bits)
  | n + 1, bits =>
    let r := takeBits w bits
    let t := readFields w n r.2
    (r.1 :: t.1, t.2)

/-- Significand bits and exponent bits of a lossless source (R206, R231). -/
def losslessShape (src : Nat) : Nat × Nat := if src = 0 then (23, 8) else if src = 1 then (10, 5) else (7, 8)

/-- The body of a coded block of `n` elements: the elements as sent, or none where it is malformed. -/
def losslessBody (src n : Nat) (ls syms : List Nat) (body : List Byte) : Option (List Byte) :=
  let m := (losslessShape src).1
  let x := (losslessShape src).2
  let all := bitsLow body
  if all.length < (m + 1) * n then none
  else
    let f := readFields (m + 1) n all
    match readCodes ls syms n f.2 with
    | none => none
    | some (es, rest) =>
      if 8 ≤ rest.length ∨ rest.any id then none
      else some ((List.zipWith (fun s e => leBytes (elemBits src / 8) (s % 2 ^ m + e * 2 ^ m + s / 2 ^ m * 2 ^ (m + x))) f.1 es).flatten)

/-- The blocks of a lossless payload: `left` elements still to come. -/
def losslessBlocks (src : Nat) (ls syms : List Nat) : Nat → Nat → List Byte → Option (List Byte)
  | 0, left, bs => if left = 0 ∧ bs.isEmpty then some [] else none
  | fuel + 1, left, bs =>
    if left = 0 then (if bs.isEmpty then some [] else none)
    else
      let h := leNat (bs.take 4)
      let len := h % 2 ^ 16
      let n := min left (8192 / elemBits src)
      let body := (bs.drop 4).take len
      if bs.length < 4 + len ∨ 2 ≤ h / 2 ^ 16 then none
      else
        let block := if h / 2 ^ 16 = 1 then (if len = n * (elemBits src / 8) then some body else none)
          else losslessBody src n ls syms body
        match block with
        | none => none
        | some b => (losslessBlocks src ls syms fuel (left - n) (bs.drop (4 + len))).map (b ++ ·)

/-- Decode a lossless payload of `n` elements (R231). -/
def losslessDecode (src n : Nat) (bs : List Byte) : Option (List Byte) :=
  if n = 0 then (if bs.isEmpty then some [] else none)
  else
    let values := 2 ^ (losslessShape src).2
    let ls := codeLengths values bs
    if bs.length < values / 2 ∨ !lengthsOk ls then none
    else losslessBlocks src ls (canonical ls) (ceilDiv n (8192 / elemBits src)) n (bs.drop (values / 2))

/-- The largest lossless payload (R231). -/
def losslessBound (src n : Nat) : Nat :=
  if n = 0 then 0 else 2 ^ (losslessShape src).2 / 2 + 4 * ceilDiv n (8192 / elemBits src) + n * (elemBits src / 8)

/-- Convert one row of 128 elements into a format, with what the conversions count (R232). -/
def convertRow (src dst pitch : Nat) (bs : List Byte) : List Byte × List Conv :=
  let vs := (chunks (elemBits src / 8) bs).map fun e => elemValue src (leNat e)
  let r : List Byte × List Conv :=
    if isMx dst then
      let blocks := (chunks 32 vs).map fun b => mxEncode dst (List.replicate 32 .rne) b
      (((blocks.map fun b => packElems (mxBits dst) (b.2.map (·.bits))).flatten) ++ blocks.map fun b => BitVec.ofNat 8 b.1,
        (blocks.map (·.2)).flatten)
    else
      let cs := vs.map (convElem dst .rne)
      (packElems (elemBits dst) (cs.map (·.bits)), cs)
  (r.1 ++ zeroBytes (pitch - r.1.length), r.2)

/-- The rows of a convert payload. -/
def convertRows (src dst pitch : Nat) (bs : List Byte) : List (List Byte × List Conv) :=
  (chunks (128 * (elemBits src / 8)) bs).map (convertRow src dst pitch)

/-- R230: the codec fields of a segment agree with each other and with its payload. -/
def codecOk (codec src dst elements bytes pitch : Nat) (payload : List Byte) : Bool :=
  if codec = 0 then decide (src ≤ 0xE) && decide (dst = src) && decide (pitch = 0)
  else if codec = 1 then
    decide (src ≤ 2) && decide (dst = src) && decide (pitch = 0) && decide (bytes ≤ losslessBound src elements) &&
      (losslessDecode src elements payload).isSome
  else if codec = 2 then
    decide (src ≤ 2) && decide (3 ≤ dst) && decide (dst ≤ 0xA) && decide (elements % 128 = 0) &&
      decide (bytes = elements * (elemBits src / 8)) && decide (pitch % 16 = 0) && decide (rowBytes dst ≤ pitch)
  else false

/-- The bytes an entry dispatches (R226, R230-R232). -/
def decodedBytes (codec src dst elements pitch : Nat) (payload : List Byte) : List Byte :=
  if codec = 1 then (losslessDecode src elements payload).getD []
  else if codec = 2 then ((convertRows src dst pitch payload).map (·.1)).flatten
  else payload

/-- The decoded length G in grains (R226). -/
def decodedGrains (codec src elements bytes pitch : Nat) : Nat :=
  if codec = 1 then ceilDiv (elements * (elemBits src / 8)) 16
  else if codec = 2 then elements / 128 * pitch / 16
  else ceilDiv bytes 16

end Sys2Proof.Machine
end

