-- ==== Sys2Proof/Machine/Words.lean ====
section
/-! DEFINITION. The 64-bit words of the slot memory and the route memory as their tables lay them out (R65, R162-R168,
R170, R173, R176), and the walk through a plot program or a route program (R66, R163, R164). -/

namespace Sys2Proof

/-- Unit, slot and opcode above 48 operand bits (R166). -/
def Issue.raw (i : Issue) (kind op operands : Nat) : Nat :=
  operands + op * 2 ^ 48 + i.slot.toNat * 2 ^ 54 + kind * 2 ^ 60

/-- R168. -/
def ArrayWord.bits (o : ArrayWord) : Nat :=
  o.ra.toNat * 2 ^ 43 + o.rb.toNat * 2 ^ 38 + o.rd.toNat * 2 ^ 33 + o.rc.toNat * 2 ^ 28 + o.fmtA.toNat * 2 ^ 24 +
    o.fmtB.toNat * 2 ^ 20 + o.outFmt.toNat * 2 ^ 16 + o.acc.toNat * 2 ^ 15 + o.rnd.toNat * 2 ^ 14 +
    o.clr.toNat * 2 ^ 13 + o.csrc.toNat * 2 ^ 12 + o.cimm.toNat

/-- R170. -/
def VecWord.bits (o : VecWord) : Nat :=
  o.td.toNat * 2 ^ 43 + o.ta.toNat * 2 ^ 38 + o.tb.toNat * 2 ^ 33 + o.tc.toNat * 2 ^ 28 + o.msk.toNat * 2 ^ 25 +
    o.mz.toNat * 2 ^ 24 + o.ext.toNat

/-- R173. -/
def MoverWord.bits (o : MoverWord) : Nat :=
  o.gs.toNat * 2 ^ 43 + o.gd.toNat * 2 ^ 38 + o.gl.toNat * 2 ^ 33 + o.ssp.toNat * 2 ^ 31 + o.dsp.toNat * 2 ^ 29 +
    o.lsrc.toNat * 2 ^ 28 + o.len.toNat * 2 ^ 16 + o.aprev.toNat * 2 ^ 15

/-- The layouts of a control word (R176). -/
inductive CtlLayout
  | register
  | immediate
  | load
  | store
  | table
  | vote
  | vread
  deriving DecidableEq, Repr

/-- R176: the operand bits under a layout. -/
def CtlWord.bits (o : CtlWord) : CtlLayout → Nat
  | .register => o.rd.toNat * 2 ^ 43 + o.rs1.toNat * 2 ^ 38 + o.rs2.toNat * 2 ^ 33 + o.rs3.toNat * 2 ^ 28 + o.cond.toNat
  | .immediate => o.rd.toNat * 2 ^ 43 + o.rs1.toNat * 2 ^ 38 + o.cond.toNat * 2 ^ 35 + o.imm.toNat
  | .load => o.rd.toNat * 2 ^ 43 + o.rs1.toNat * 2 ^ 38 + o.imm.toNat
  | .store => o.rs1.toNat * 2 ^ 38 + o.rs2.toNat * 2 ^ 33 + o.imm.toNat
  | .table => o.rd.toNat * 2 ^ 43 + o.rs1.toNat * 2 ^ 38 + o.typ.toNat * 2 ^ 9 + o.index.toNat
  | .vote => o.rs1.toNat * 2 ^ 38 + o.chan.toNat
  | .vread => o.rd.toNat * 2 ^ 43 + o.chan.toNat

namespace Machine

/-- R161, R65: the kind of a slot memory or route memory word. -/
def wordKind (w : Nat) : Nat := bitsOf w 60 4

/-- Where a plot program stands in a furrow (R163, R164): the block header in force, the fork it lies in, and the fork
header whose fork furrow this is. -/
structure Place where
  header : Nat
  inFork : Option Nat
  deriving DecidableEq, Repr

/-- The address after `n` variants that start at `a` (R164). -/
def skipVariants (mem : Nat → Nat) : Nat → Nat → Nat
  | 0, a => a
  | n + 1, a => skipVariants mem n (a + 1 + bitsOf (mem a) 2 15)

/-- The block in force `rem` furrows on from header `a`, under the variants taken (R163, R164). -/
def walkProgram (mem : Nat → Nat) (taken : Nat → Nat) : Nat → Nat → Nat → Option Nat → Option Place
  | 0, _, _, _ => none
  | fuel + 1, a, rem, inFork =>
    let w := mem a
    if wordKind w = 7 then
      let n := bitsOf w 8 24
      if rem < n then some ⟨a, inFork⟩ else walkProgram mem taken fuel (a + 1 + bitsOf w 0 8) (rem - n) inFork
    else if wordKind w = 8 then
      let n := bitsOf w 8 16
      if rem < n then walkProgram mem taken fuel (skipVariants mem (taken (bitsOf w 24 8)) (a + 1) + 1) rem (some (bitsOf w 24 8))
      else walkProgram mem taken fuel (skipVariants mem (bitsOf w 5 3) (a + 1)) (rem - n) none
    else none

/-- The fork header whose fork furrow lies `rem` furrows on from header `a` (R149, R164). -/
def forkAhead (mem : Nat → Nat) : Nat → Nat → Nat → Option Nat
  | 0, _, _ => none
  | fuel + 1, a, rem =>
    let w := mem a
    if wordKind w = 7 then
      let n := bitsOf w 8 24
      if rem < n then none else forkAhead mem fuel (a + 1 + bitsOf w 0 8) (rem - n)
    else if wordKind w = 8 then
      let n := bitsOf w 8 16
      if rem = 0 then some w
      else if rem < n then none else forkAhead mem fuel (skipVariants mem (bitsOf w 5 3) (a + 1)) (rem - n)
    else none

/-- The group in force `rem` furrows on from group header `a` of a route program (R66). -/
def walkRoutes (mem : Nat → Nat) : Nat → Nat → Nat → Option Nat
  | 0, _, _ => none
  | fuel + 1, a, rem =>
    let w := mem a
    if wordKind w = 1 then
      let n := bitsOf w 8 24
      if rem < n then some a else walkRoutes mem fuel (a + 1 + bitsOf w 0 8) (rem - n)
    else none

end Machine
end Sys2Proof
end

