-- ==== Sys2Proof/Machine/Engine.lean ====
section
/-! DEFINITION. What the units of a plot share: registers and the generator, the check action, landings, pad ports, and
how an array step of a plot is carried out (R81, R103, R104, R126, R127, R136, R137, R144-R153, R167, R186). -/

namespace Sys2Proof.Machine

/-- A tile of zeros. -/
def zeroTile : Tile := List.replicate 256 0

/-- All 256 mask bits. -/
def fullMask : BitVec 256 := BitVec.allOnes 256

/-- Unit codes of a fault record's word 4 (R321). -/
def opNone : Nat := 0
def opArray : Nat := 1
def opVector : Nat := 2
def opMover : Nat := 3
def opControl : Nat := 4
def opSequencer : Nat := 5
def opRouter : Nat := 6
def opPad : Nat := 7
def opLoam : Nat := 8
def opGleaner : Nat := 9
def opHeadland : Nat := 10

/-- The broken rule a slot conflict's DETAIL names (R322). -/
def ruleArray : Nat := 1
def ruleIssue : Nat := 2
def ruleBank : Nat := 3
def ruleAlign : Nat := 4
def ruleRange : Nat := 5
def ruleFormat : Nat := 6

/-- A cell of a row that stands in the plane flips (R102). -/
def Plane.upset (x : Plane) (row bit : Nat) : Plane :=
  if row < x.rows.length then { x with upsets := x.upsets ++ [(row, bit)] } else x

/-- The rows as the lanes hold them: what was loaded, with the cells that have flipped since (R80, R102). -/
def Plane.held (x : Plane) : List (List Byte) :=
  x.upsets.foldl (fun rs u =>
    let bs := rs.getD u.1 []
    rs.set u.1 (bs.set (u.2 / 8) (bs.getD (u.2 / 8) 0 ^^^ BitVec.ofNat 8 (2 ^ (u.2 % 8))))) x.rows

/-- Elements whose bit in `mask` is set come from `new`; the others are kept, or zero. -/
def blendTile (mz : Bool) (mask : BitVec 256) (old new : Tile) : Tile :=
  (List.range 256).map fun i =>
    if mask.getLsbD i then new.getD i 0 else if mz then 0 else old.getD i 0

/-- The same for mask bits. -/
def blendMask (mz : Bool) (mask old new : BitVec 256) : BitVec 256 :=
  (new &&& mask) ||| (if mz then 0 else old &&& ~~~mask)

/-- Element bytes of a blocked or plain row as a tile load or store lays them out (R110, R114, R117, R172): for MX the
elements of one block and its scale byte, by offset from the MX row. -/
def tileSpans (fmt blk a pitch row : Nat) : List (Nat × Nat) :=
  if isMx fmt then
    let w := mxBits fmt
    [row / 2, row / 2 + 1].flatMap fun i => [(a + i * pitch + 4 * w * blk, 4 * w), (a + i * pitch + 16 * w + blk, 1)]
  else
    let n := if fmt = 14 then 16 else 2 * elemBits fmt
    (List.range 4).map fun i => (a + (row + i) * pitch, n)

namespace State

/-- Count an event in the plot's selected counters (R414, R415): with LIVE the count stays when a step is abandoned. -/
def perf (s : State) (lid ev n : Nat) : State :=
  if n = 0 then s
  else (List.range 32).foldl (fun s i =>
    if s.getF (F.PERF_CFG.EVENT lid i) = ev then
      (if s.getF (F.PERF_CFG.LIVE lid i) = 1 then
        s.nowF (F.PERF_COUNT.COUNT lid i) (s.getF (F.PERF_COUNT.COUNT lid i) + n)
      else s.incF (F.PERF_COUNT.COUNT lid i) n)
    else s) s

/-! ### Registers of the core (R134, R147, R148) -/

def gregAt (s : State) (lid i : Nat) : Word :=
  if i = 0 then 0 else
    match SMap.find? (s.plot lid).gregs i with
    | some v => v
    | none => if i = 1 then BitVec.ofNat 64 lid else if i = 2 then BitVec.ofNat 64 s.step.seed else 0
def tileAt (s : State) (lid i : Nat) : Tile := SMap.get zeroTile (s.plot lid).tiles i
def maskAt (s : State) (lid i : Nat) : BitVec 256 := if i = 0 then fullMask else SMap.get 0 (s.plot lid).masks i

/-! ### The generator of a plot (R126, R133) -/

def rngState (s : State) (lid : Nat) : Nat := (s.plot lid).rng.getD (rngInit s.step.seed lid)
/-- Take `n` words. -/
def draw (s : State) (lid n : Nat) : List Nat × State :=
  if n = 0 then ([], s)
  else
    let r := rngDraw n (s.rngState lid)
    (r.1, (s.modPlot lid fun x => { x with rng := some r.2, words := x.words + n }).perf lid 0x0F n)

/-- Count conversions (R121): saturated elements and non-finite inputs. -/
def countConv (s : State) (lid : Nat) (cs : List Conv) : State :=
  let a := (cs.filter (·.sat)).length
  let b := (cs.filter (·.nonfin)).length
  let s := if a = 0 then s else s.incF (F.CONV_SAT_COUNT.COUNT lid) a
  if b = 0 then s else s.incF (F.CONV_NONFINITE_COUNT.COUNT lid) b

/-! ### Programs (R160, R162-R165) -/

def slotMem (s : State) (lid a : Nat) : Nat := (SMap.get 0 s.mem.slots (lid * 2 ^ 15 + a)).toNat
def constMem (s : State) (lid i : Nat) : Word := SMap.get 0 s.mem.consts (lid * 2 ^ 9 + i)
/-- The running program is present on a plot (R162). -/
def hasProgram (s : State) (lid : Nat) : Bool := bitOf (s.slotMem lid s.step.program) 15
/-- Where the plot's program stands in the present furrow. -/
def place (s : State) (lid : Nat) : Option Place :=
  walkProgram (s.slotMem lid) (fun f => SMap.get 0 (s.plot lid).variants f) 32768
    (bitsOf (s.slotMem lid s.step.program) 0 15) (s.step.granted - 1) none
/-- The slot words of the present furrow, in program order. -/
def furrowWords (s : State) (lid : Nat) : List Nat :=
  match s.place lid with
  | none => []
  | some h => (List.range (bitsOf (s.slotMem lid h.header) 0 8)).map fun i => s.slotMem lid (h.header + 1 + i)

/-! ### Checks (R103, R104, R146) -/

/-- A check failure that follows CHECK_CFG.ACTION: fenced and abandoned, or recorded only, within RECORD_LIMIT. -/
def checkFail (s : State) (lid : Nat) (a : FaultArgs) : State :=
  let x := s.plot lid
  let limit := s.getF F.CHECK_CFG.RECORD_LIMIT
  let room := decide (x.records < limit)
  if s.getF F.CHECK_CFG.ACTION = 1 then
    if room then
      let s := s.modPlot lid fun x => { x with records := x.records + 1 }
      s.raise { a with
        srcType := srcPlot, srcId := lid, unit := some (unitCore, s.siteOf lid), abandons := false, recordedOnly := true }
    else s
  else if s.coreFenced lid then
    if room then
      let s := s.modPlot lid fun x => { x with records := x.records + 1 }
      s.raise { a with
        srcType := srcPlot, srcId := lid, unit := some (unitCore, s.siteOf lid) }
    else s
  else s.coreFault lid a

/-- An uncorrectable loam line at a logical offset of a plot, met in a step (R200). -/
def loamUncorrectable (s : State) (lid off unit op slot : Nat) : State :=
  let p := s.siteOf lid
  let s := s.incLive (F.UNCORR.COUNT p) 1
  let cur := match s.partOf off 1 with
    | some i => s.partCommitted i && !NSet.mem s.mem.dirty (granKey p off)
    | none => false
  let a : FaultArgs := {
    code := if cur then 0x0103 else 0x0102, srcType := srcSite, srcId := p, opUnit := unit, op := op,
    slot := slot, detail := off % 2 ^ 32, unit := some (unitShell, p) }
  if cur then (s.raise a).horizonLost (some p) else s.raise a

/-- An uncorrectable word of a shell's horizon map (R200). -/
def mapUncorrectable (s : State) (p word unit op slot : Nat) : State :=
  (s.raise {
    code := 0x0108, srcType := srcSite, srcId := p, opUnit := unit, op := op, slot := slot, detail := word,
    unit := some (unitShell, p) }).horizonLost (some p)

/-- A corrected loam line (R199). -/
def loamCorrected (s : State) (lid off : Nat) (symbol : Bool) (unit op slot : Nat) : State :=
  let p := s.siteOf lid
  let s := if symbol then s.incF (F.CORR_SYMBOL.COUNT p) 1 else s.incF (F.CORR_BIT.COUNT p) 1
  s.correct (unitShell, p) {
    code := 0x0002, srcType := srcSite, srcId := p, opUnit := unit, op := op, slot := slot,
    detail := off }

/-- What the codes and checkers met under a slot word (R146, R147, R152, R160, R187, R199, R200); `live` says which
elements are unmasked (R145). A residue mismatch is left to the vector engine. -/
def mishap (s : State) (lid unit op slot : Nat) (live : Nat → Bool) (m : Mishap) : State :=
  let p := s.siteOf lid
  let base : FaultArgs := { code := 0, srcType := srcPlot, srcId := lid, opUnit := unit, op := op, slot := slot }
  match m with
  | .memCorr _ w =>
    (s.incF (F.SLOT_MEM_CORR.COUNT lid) 1).correct (unitCore, p)
      { base with code := 0x0005, detail := w.toNat }
  | .memUncorr w =>
    (s.incLive (F.SLOT_MEM_UNCORR.COUNT lid) 1).coreFault lid { base with code := 0x0105, detail := w.toNat }
  | .parity k r e =>
    if (k = 0 ∨ k = 1) ∧ !live e.toNat then s
    else
      (s.incLive (F.REG_PARITY_ERR.COUNT lid) 1).coreFault lid
        { base with code := 0x0104, detail := r.toNat + (if k = 1 then 32 else if k = 2 then 64 else if k = 3 then 128 else 0) }
  | .residue _ _ => s
  | .watchdog k =>
    (s.incLive (F.WATCHDOG_FAIL.COUNT lid) 1).coreFault lid
      { base with code := 0x0204, detail := unit + match k with
          | .early => 8
          | .late => 16
          | .missing => 32
          | .unrequested => 64 } |>.queueLoopback p
  | .padCorr a =>
    ((s.incF (F.PAD_CORR.COUNT lid) 1).perf lid 0x0C 1).correct (unitCore, p)
      { base with code := 0x0001, detail := a.toNat }
  | .padUncorr a =>
    -- A line of a cache-mode bank is fetched again, and counts as corrected (R191).
    if s.bankMode lid (a.toNat / 2 ^ 20) = 2 then
      ((s.incF (F.PAD_CORR.COUNT lid) 1).perf lid 0x0C 1).correct (unitCore, p) { base with code := 0x0001, detail := a.toNat }
    else (s.incLive (F.PAD_UNCORR.COUNT lid) 1).coreFault lid { base with code := 0x0101, detail := a.toNat }
  | .loamCorrBit o => s.loamCorrected lid o.toNat false unit op slot
  | .loamCorrSymbol o => s.loamCorrected lid o.toNat true unit op slot
  | .loamUncorr o => s.loamUncorrectable lid o.toNat unit op slot
  | .mapUncorr w => s.mapUncorrectable p w.toNat unit op slot
  | .cell shadow row bit => s.modPlot lid fun x =>
      if shadow then { x with shadow := x.shadow.upset row.toNat bit.toNat }
      else { x with active := x.active.upset row.toNat bit.toNat }

def mishaps (s : State) (lid unit op slot : Nat) (live : Nat → Bool) (ms : List Mishap) : State :=
  ms.foldl (fun s m => s.mishap lid unit op slot live m) s

/-! ### Landings (R127, R137, R140, R187) -/

/-- Convert and write four tile rows, unmasked elements only; a masked-off element still takes its word (R125,
R144). -/
def storeRows (s : State) (lid fmt : Nat) (rnd : Bool) (blk a pitch row : Nat) (v : Tile) (mask : BitVec 256) : State :=
  let sr := rnd && !(fmt == 0 || fmt == 13)
  let d := s.draw lid (if sr then 64 else 0)
  let rs : List Round := if sr then d.1.map Round.sr else List.replicate 64 .rne
  let s := d.2
  let elem (i : Nat) : BitVec 32 := v.getD (16 * row + i) 0
  let live (i : Nat) : Bool := mask.getLsbD (16 * row + i)
  let toInt := fmt == 11 || fmt == 12 || fmt == 13
  let val (i : Nat) : Fv := if toInt then .ofInt (elem i).toInt else ofF32 (elem i)
  let rnds (i n : Nat) : List Round := (rs.drop i).take n
  if isMx fmt then
    let w := mxBits fmt
    [0, 1].foldl (fun s b =>
      let is := (List.range 32).map (· + 32 * b)
      let e := mxEncode fmt (rnds (32 * b) 32) (is.map val)
      let at0 := a + (row / 2 + b) * pitch
      let addr := at0 + 4 * w * blk
      let pairs := (List.zip is e.2).filter fun p => live p.1
      if pairs.isEmpty then s
      else
        let old := leNat (s.padGet lid addr (4 * w))
        let new := pairs.foldl (fun x p => setBits x (w * (p.1 - 32 * b)) w p.2.bits) old
        let s := (s.padPut lid addr (leBytes (4 * w) new)).padPut lid (at0 + 16 * w + blk) [BitVec.ofNat 8 e.1]
        s.countConv lid (pairs.map (·.2))) s
  else if fmt = 14 then
    (List.range 4).foldl (fun s r =>
      let is := (List.range 16).map (· + 16 * r)
      let e := b16Encode (rnds (16 * r) 16) (is.map val)
      let addr := a + (row + r) * pitch
      let pairs := (List.zip is e.2).filter fun p => live p.1
      if pairs.isEmpty then s
      else
        let old := leNat (s.padGet lid addr 16)
        let new := pairs.foldl (fun x p =>
          let q := 7 * (p.1 - 16 * r) + 8
          setBits x q 7 (bitsOf e.1 q 7)) (setBits (setBits old 0 8 (e.1 % 256)) 120 8 (bitsOf e.1 120 8))
        (s.padPut lid addr (leBytes 16 new)).countConv lid (pairs.map (·.2))) s
  else
    let w := elemBits fmt
    (List.range 4).foldl (fun s r =>
      let is := (List.range 16).map (· + 16 * r)
      let addr := a + (row + r) * pitch
      let pairs := (List.zipWith (fun i rd => (i, convElem fmt rd (val i))) is (rnds (16 * r) 16)).filter fun p => live p.1
      if pairs.isEmpty then s
      else
        let old := leNat (s.padGet lid addr (2 * w))
        let new := pairs.foldl (fun x p => setBits x (w * (p.1 - 16 * r)) w p.2.bits) old
        (s.padPut lid addr (leBytes (2 * w) new)).countConv lid (pairs.map (·.2))) s

/-- One landing takes effect. -/
def land1 (s : State) (lid : Nat) (l : Landing) : State :=
  match l with
  | .greg i v => if i = 0 then s else s.modPlot lid fun x => { x with gregs := SMap.ins x.gregs i v }
  | .tile i v mask mz => s.modPlot lid fun x =>
      { x with tiles := SMap.set zeroTile x.tiles i (blendTile mz mask (SMap.get zeroTile x.tiles i) v) }
  | .mask i v mask mz => if i = 0 then s else s.modPlot lid fun x =>
      { x with masks := SMap.set 0 x.masks i (blendMask mz mask (SMap.get 0 x.masks i) v) }
  | .pad a bs => s.padPut lid a bs
  | .store fmt rnd blk a pitch row _ v mask => s.storeRows lid fmt rnd blk a pitch row v mask

/-- Add a landing. -/
def landLater (s : State) (lid due : Nat) (l : Landing) : State :=
  s.modPlot lid fun x => { x with land := x.land ++ [(due, l)] }

/-- Split a loam range at the 64 KiB borders that partitions keep to (R192). -/
def loamPieces (off n : Nat) : List (Nat × Nat) :=
  if n = 0 then [] else
    (List.range ((off + n - 1) / 65536 - off / 65536 + 1)).map fun k =>
      let lo := max off ((off / 65536 + k) * 65536)
      let hi := min (off + n) ((off / 65536 + k + 1) * 65536)
      (lo, hi - lo)

/-- A loam range leaves the partitions (R192). -/
def loamOutside (s : State) (off n : Nat) : Bool := (loamPieces off n).any fun p => (s.partOf p.1 p.2).isNone

/-- Write a loam range of a plot through its port: the cached lines go, codecs apply, an overflow of the lossless stash is
a fault of class check (R191, R204-R206). -/
def loamStore (s : State) (lid off : Nat) (bs : List Byte) (invalidate : Bool) (unit op slot : Nat) : State :=
  let p := s.siteOf lid
  (loamPieces off bs.length).foldl (fun s q =>
    let s := if invalidate then s.cacheInvalidate lid q.1 q.2 else s
    let r := s.loamPut p q.1 ((bs.drop (q.1 - off)).take q.2)
    match r.2 with
    | .done => r.1
    | .overflow =>
      (r.1.incLive (F.STASH_OVERFLOW.COUNT p) 1).coreFault lid {
        code := 0x020B, srcType := srcPlot, srcId := lid, opUnit := unit, op := op, slot := slot, detail := q.1 % 2 ^ 32 }) s

/-- A piece of a loose store reaches loam: the bits it writes, over what loam holds then (R144, R191). -/
def looseLand (s : State) (lid off : Nat) (bs mask : List Byte) : State :=
  let old := s.loamGet (s.siteOf lid) off bs.length
  s.loamStore lid off (List.zipWith (fun o w => mergeByte o w.1 w.2) old (List.zip bs mask)) false opVector 0 0

/-- Send page of a plot in a furrow: write grains from a grain offset, each marked written (R63, R69, R175). -/
def sendPut (s : State) (lid furrow g : Nat) (cs : List Cell) : State :=
  let k := 2 * s.siteOf lid + furrow % 2
  let page := SMap.get FPage.zero s.fab.send k
  let page : FPage := if page.tag = furrow then page else { tag := furrow, complete := false, grains := [] }
  let grains := (List.zipIdx cs).foldl (fun m c => SMap.ins m (g + c.2) c.1) page.grains
  { s with fab := { s.fab with send := SMap.ins s.fab.send k { page with grains := grains } } }.perf lid 0x0D cs.length

/-- A mover transfer completes (R174): everything it read is in its destination. -/
def finishMove (s : State) (lid : Nat) (t : Transfer) : State :=
  let bytes := (t.got.map fun c => leBytes 16 c.val.toNat).flatten
  if t.dsp = 0 then
    (chunks 512 bytes).zipIdx.foldl (fun s b => s.padPut lid (t.dst + 512 * b.2) b.1) s
  else if t.dsp = 1 then s.loamStore lid t.dst bytes true opMover 1 t.slot
  else s.sendPut lid t.pageOut (t.dst / 16) t.got

/-- The check vectors of a loaded plane (R99): exact sums rounded once to binary32, or 64-bit integers. -/
def buildPlane (x : Plane) : Plane :=
  if fmtClass x.fmt = some 0 then
    let w := x.rows.map (rowInts x.fmt)
    let col (f : Int → Int) := (List.range 128).map fun j => (w.map fun r => f (r.getD j 0)).sum
    { x with
      state := 2, ir := w.map List.sum, is := w.map fun r => (r.map fun v => (v.natAbs : Int)).sum,
      ir' := col id, is' := col fun v => (v.natAbs : Int) }
  else
    let w := x.rows.map (rowValues x.fmt)
    let col (f : Fv → Fv) := (List.range 128).map fun j => toF32 (sumFv (w.map fun r => f (r.getD j .nan)))
    { x with
      state := 2, fr := w.map fun r => toF32 (sumFv r), fs := w.map fun r => toF32 (sumFv (r.map Fv.abs)),
      fr' := col id, fs' := col Fv.abs }

/-- What lands at an array step, before the slot words of that step read anything (R167): results, tile and register
writes, completed moves and loose stores, the READY of the shadow plane. -/
def landAt (s : State) (lid p : Nat) : State :=
  let x := s.plot lid
  let due := x.land.filter fun l => decide (l.1 ≤ p)
  let s := s.modPlot lid fun x => { x with land := x.land.filter fun l => decide (p < l.1) }
  let s := due.foldl (fun s l => s.land1 lid l.2) s
  let moved := x.moves.filter fun t => decide (xferDone t ≤ p)
  let s := s.modPlot lid fun x => { x with moves := x.moves.filter fun t => decide (p < xferDone t) }
  let s := moved.foldl (fun s t => s.finishMove lid t) s
  let stored := x.stores.filter fun t => decide (t.due ≤ p)
  let s := s.modPlot lid fun x => { x with
    stores := x.stores.filter fun t => decide (p < t.due),
    loosePend := x.loosePend.filter fun l => decide (p < l.1 + 48) }
  let s := stored.foldl (fun s t => t.bytes.foldl (fun s b => s.looseLand lid b.1 b.2.1 b.2.2) s) s
  if x.shadow.state = 1 ∧ x.readyAt ≤ p then s.modPlot lid fun x => { x with shadow := buildPlane x.shadow } else s

/-! ### Pad ports and mover groups at one step (R174, R186) -/

/-- Check the bank ports of one step, and forget them. -/
def portsAt (s : State) (lid p : Nat) : State :=
  let as := SMap.get [] (s.plot lid).ports p
  if as.isEmpty then s
  else
    let s := s.modPlot lid fun x => { x with ports := SMap.drop x.ports p }
    let s := as.foldl (fun s a =>
      if s.accessBad lid a then
        s.slotConflict lid a.unit a.op a.slot
          (if a.spans.all fun q => decide ((q.1 + q.2 - 1) / 2 ^ 20 = q.1 / 2 ^ 20) && decide (q.1 / 2 ^ 20 < s.padBanks lid)
           then ruleBank else ruleRange)
      else s) s
    match as with
    | [] => s
    | a :: _ =>
      (List.range 8).foldl (fun s b =>
        if s.bankOver lid b as then
          (s.incLive (F.BANK_CONFLICTS.COUNT lid) 1).slotConflict lid a.unit a.op a.slot ruleBank
        else s) s

/-- Grain `g` of the arrival page of a furrow, as a mover reads it (R63). -/
def arrivalGrain (s : State) (lid furrow g : Nat) : Cell :=
  let page := SMap.get FPage.zero s.fab.arrive (2 * s.siteOf lid + furrow % 2)
  let none : Cell := ⟨Config.arrivalResidue lid furrow g, false⟩
  if page.tag = furrow then (SMap.find? page.grains g).getD none else none

/-- A mover reads its next group at a step (R174, R186). -/
def moverGroup (s : State) (lid p : Nat) (t : Transfer) : State :=
  let k := p - t.p0
  let first := k * t.rate
  if p < t.p0 ∨ t.len ≤ first then s
  else
    let n := min t.rate (t.len - first)
    let a := t.src + 16 * first
    let cells : List Cell :=
      if t.ssp = 0 then (chunks 16 (s.padRead lid p a (16 * n))).map fun b => ⟨BitVec.ofNat 128 (leNat b), false⟩
      else if t.ssp = 1 then
        ((List.range n).map fun g => s.loamRead lid p (a + 16 * g) 16).map fun b => ⟨BitVec.ofNat 128 (leNat b), false⟩
      else if t.ssp = 2 then (List.range n).map fun g => s.arrivalGrain lid t.pageIn (t.src / 16 + first + g)
      else List.replicate n ⟨BitVec.ofNat 128 (t.fill.toNat * 2 ^ 64 + t.fill.toNat), false⟩
    let s := if t.ssp = 0 then s.usePort lid p ⟨[(a, 16 * n)], false, opMover, 1, t.slot⟩ else s
    let s := if t.dsp = 0 then
        s.usePort lid (p + t.lat - 6) ⟨[(t.dst + 16 * first, 16 * n)], true, opMover, if t.ssp = 3 then 2 else 1, t.slot⟩
      else s
    let site := s.siteOf lid
    let s := if t.ssp = 1 ∨ t.dsp = 1 then
        s.modMem fun m => { m with portGrains := SMap.modify 0 m.portGrains site (· + n) }
      else s
    let s := (s.perf lid 0x07 n).perf lid 0x08 (if t.ssp = 1 ∨ t.dsp = 1 then n else 0)
    let s := s.perf lid 0x0E (if t.ssp = 2 then n else 0)
    s.modPlot lid fun x => { x with moves := x.moves.map fun u => if u.p0 = t.p0 then { u with got := u.got ++ cells } else u }

/-- Tile loads read four rows in each of four steps (R140, R186), and land ten steps after their issue. -/
def loadRows (s : State) (lid p : Nat) (l : LoadRun) : State :=
  if p < l.p0 ∨ l.p0 + 4 ≤ p then s
  else
    let spans := tileSpans l.fmt l.blk l.addr l.pitch (4 * (p - l.p0))
    let bs := spans.map fun q => s.padRead lid p q.1 q.2
    let s := s.usePort lid p ⟨spans, false, opVector, 0x3A, l.slot⟩
    s.modPlot lid fun x => { x with loads := x.loads.map fun u => if u.p0 = l.p0 then { u with got := u.got ++ bs } else u }

end State

/-- The sixty-four or more elements of a tile from the pieces a load read (R140). -/
def loadedTile (fmt : Nat) (got : List (List Byte)) : List Fv :=
  if isMx fmt then
    let w := mxBits fmt
    ((List.range 8).map fun i =>
      let e := got.getD (2 * i) []
      let sc := ((got.getD (2 * i + 1) []).headD 0).toNat
      (List.range 32).map fun j => mxValue fmt (packedElem w e j) sc).flatten
  else if fmt = 14 then (got.map fun b => b16Decode (leNat b)).flatten
  else (got.map fun b => (List.range 16).map fun j => elemValue fmt (packedElem (elemBits fmt) b j)).flatten

/-- The words a load writes, with what its conversions count (R121, R140). -/
def loadedWords (fmt : Nat) (got : List (List Byte)) : List Conv :=
  (loadedTile fmt got).map fun v =>
    if fmt = 11 ∨ fmt = 12 ∨ fmt = 13 then encodeInt 32 .rne v else encodeF fBinary32 .rne v

namespace State

/-- A tile load whose rows are all read becomes a landing. -/
def loadsDone (s : State) (lid p : Nat) : State :=
  let x := s.plot lid
  let fin := x.loads.filter fun l => decide (l.p0 + 3 ≤ p)
  if fin.isEmpty then s
  else
    let s := s.modPlot lid fun x => { x with loads := x.loads.filter fun l => decide (p < l.p0 + 3) }
    fin.foldl (fun s l =>
      let cs := loadedWords l.fmt l.got
      let s := s.countConv lid (((List.zipIdx cs).filter fun c => l.mask.getLsbD c.2).map (·.1))
      s.landLater lid (l.p0 + 10) (.tile l.td (cs.map fun c => BitVec.ofNat 32 c.bits) l.mask l.mz)) s

end State

end Sys2Proof.Machine
end

