-- ==== Sys2Proof/Machine/ArrayEngine.lean ====
section
/-! DEFINITION. The matrix array: rows entering, products and aligned sums, the product check, conversion and the write
of result rows, and the array step of a plot (R80-R106). -/

namespace Sys2Proof.Machine

/-- Mode numbers (R108). -/
def mRows : Nat := 1
def mTrows : Nat := 2
def mOacc : Nat := 3
def mOdrain : Nat := 4
def mEdiag : Nat := 5
def mWload : Nat := 6
def mSwap : Nat := 7

/-- Step, counted from the issue, at which row `i` enters (R92), for twice the steps a row takes. -/
def entryStep (half i : Nat) : Nat := if half = 1 then i / 2 else i * (half / 2)

/-- Steps a feed of `n` rows occupies beyond its first (R93). -/
def feedLength (half n : Nat) : Nat := if n = 0 then 0 else ceilDiv (n * half) 2 - 1

/-- Twice the steps a row of a feed takes (R84, R90, R82). -/
def Feed.half (f : Feed) (planeFmt : Nat) : Nat :=
  if f.mode = 4 ∨ f.mode = 6 then 2
  else if f.mode = 1 ∨ f.mode = 2 then pairHalfSteps f.fmtA planeFmt
  else pairHalfSteps f.fmtA f.fmtB

/-- Columns of a square list. -/
def columns {α : Type} (d : α) (w : List (List α)) : List (List α) :=
  (List.range 128).map fun j => w.map fun r => r.getD j d

/-- One row against a weight matrix whose line `n` belongs to output `n`: results, check value, absolute value
(R87, R88, R95, R99). -/
def floatRow (cls : Nat) (both32 : Bool) (xs : List Fv) (lines : List (List Fv)) (r s : List (BitVec 32)) :
    List (BitVec 32) × BitVec 32 × BitVec 32 :=
  let g := groupSize cls
  (lines.map fun w => alignedSum g (List.zipWith (arrayProduct both32) xs w),
   alignedSum g (List.zipWith (fun x v => x.mul (ofF32 v)) xs r),
   alignedSum g (List.zipWith (fun x v => x.abs.mul (ofF32 v)) xs s))

/-- The same for the integer class: exact (R97). -/
def intRow (xs : List Int) (lines : List (List Int)) (r : List Int) : List (BitVec 32) × Int :=
  (lines.map fun w => BitVec.ofInt 32 (List.zipWith (· * ·) xs w).sum, (List.zipWith (· * ·) xs r).sum)

/-- A row flight with nothing in it yet. -/
def RowFlight.start (f : Feed) (due row cls : Nat) : RowFlight := {
  due := due, mode := f.mode, slot := f.slot, row := row, cls := cls, vals := [], cF := 0, aF := 0, cI := 0,
  empty := false, nonfin := false, sat := false, m := 1, write := true, old := [],
  dst := f.dst + row * f.dstStride, outFmt := f.outFmt, acc := f.acc, rnd := f.rnd }

/-- The flight of a ROWS or TROWS row (R87, R88, R99, R100). -/
def streamFlight (f : Feed) (x : Plane) (due row : Nat) (bs : List Byte) : RowFlight :=
  let cls := (pairClass f.fmtA x.fmt).getD 1
  let fl := RowFlight.start f due row cls
  if cls = 0 then
    let w := x.held.map (rowInts x.fmt)
    let y := if f.mode = 1 then intRow (rowInts f.fmtA bs) (columns 0 w) x.ir else intRow (rowInts f.fmtA bs) w x.ir'
    { fl with vals := y.1, cI := y.2 }
  else
    let w := x.held.map (rowValues x.fmt)
    let xs := rowValues f.fmtA bs
    let both := f.fmtA == 0 && x.fmt == 0
    let y := if f.mode = 1 then floatRow cls both xs (columns .nan w) x.fr x.fs else floatRow cls both xs w x.fr' x.fs'
    { fl with
      vals := y.1, cF := y.2.1, aF := y.2.2,
      nonfin := xs.any (fun v => !v.finite) || w.any fun r => r.any fun v => !v.finite }

/-- The flight of an EDIAG row (R91, R99). A zero product keeps its own sign: it is not added to a cleared accumulator (log entry
63). -/
def diagFlight (f : Feed) (due row : Nat) (as bs : List Byte) : RowFlight :=
  let cls := (pairClass f.fmtA f.fmtB).getD 1
  let fl := RowFlight.start f due row cls
  if cls = 0 then
    let ps := List.zipWith (· * ·) (rowInts f.fmtA as) (rowInts f.fmtB bs)
    { fl with vals := ps.map (BitVec.ofInt 32), cI := ps.sum }
  else
    let xa := rowValues f.fmtA as
    let xb := rowValues f.fmtB bs
    let g := groupSize cls
    { fl with
      vals := List.zipWith (fun a b => toF32 (a.mul b)) xa xb,
      cF := alignedSum g (List.zipWith Fv.mul xa xb),
      aF := alignedSum g (List.zipWith (fun a b => a.abs.mul b.abs) xa xb),
      nonfin := xa.any (fun v => !v.finite) || xb.any fun v => !v.finite }

/-! ### The accumulator plane (R89, R95, R97, R99) -/

/-- A zeroed accumulator plane of a class. -/
def AccPlane.start (cls : Nat) : AccPlane := {
  valid := true, cls := cls, t := 0, acc := List.replicate 128 (List.replicate 128 0), group := [],
  cF := List.replicate 128 0, aF := List.replicate 128 0, cI := List.replicate 128 0, aI := List.replicate 128 0,
  nonfin := List.replicate 128 false, sat := List.replicate 128 false }

/-- Add the rows of the open group to every accumulator and check accumulator (R95). -/
def AccPlane.flush (x : AccPlane) : AccPlane :=
  if x.group.isEmpty then x
  else
    let rows := x.group.map fun g => (rowValues g.2.1 g.1, rowValues g.2.2.2 g.2.2.1, g.2.1 == 0 && g.2.2.2 == 0)
    let rho := rows.map fun r => ofF32 (toF32 (sumFv r.2.1))
    let sigma := rows.map fun r => ofF32 (toF32 (sumFv (r.2.1.map Fv.abs)))
    let xk (k : Nat) : List Fv := rows.map fun r => r.1.getD k .nan
    { x with
      group := [],
      acc := (List.zipIdx x.acc).map fun row => (List.zipIdx row.1).map fun c =>
        accGroup c.1 (rows.map fun r => arrayProduct r.2.2 (r.1.getD row.2 .nan) (r.2.1.getD c.2 .nan)),
      cF := (List.zipIdx x.cF).map fun c => accGroup c.1 (List.zipWith Fv.mul (xk c.2) rho),
      aF := (List.zipIdx x.aF).map fun c => accGroup c.1 (List.zipWith (fun a b => a.abs.mul b) (xk c.2) sigma) }

/-- Add one row pair (R89): integers at once with saturation, floats when their group is full. Also the number of
accumulators that saturated. -/
def AccPlane.addRow (x : AccPlane) (fa : Nat) (as : List Byte) (fb : Nat) (bs : List Byte) : AccPlane × Nat :=
  let t := min (x.t + 1) (2 ^ 32 - 1)
  if x.cls = 0 then
    let xs := rowInts fa as
    let ds := rowInts fb bs
    let rho := ds.sum
    let sums := List.zipWith (fun row xk => List.zipWith (fun (c : BitVec 32) d => satI32 (c.toInt + xk * d)) row ds) x.acc xs
    ({ x with
       t := t, acc := sums.map fun r => r.map (·.1),
       sat := List.zipWith (fun f r => f || r.any (·.2)) x.sat sums,
       cI := List.zipWith (fun c xk => c + xk * rho) x.cI xs },
     (sums.map fun r => (r.filter (·.2)).length).sum)
  else
    let xs := rowValues fa as
    let dBad := (rowValues fb bs).any fun v => !v.finite
    let y : AccPlane := { x with
      t := t, group := x.group ++ [(as, fa, bs, fb)],
      nonfin := List.zipWith (fun f xk => f || dBad || !xk.finite) x.nonfin xs }
    (if groupSize x.cls ≤ y.group.length then y.flush else y, 0)

/-- Row k drained (R90): its flight, and the plane after it. -/
def AccPlane.drain (x : AccPlane) (f : Feed) (due k : Nat) : RowFlight × AccPlane :=
  let x := x.flush
  let fl := RowFlight.start f due k x.cls
  let fl := { fl with
    vals := x.acc.getD k [], cF := x.cF.getD k 0, aF := x.aF.getD k 0, cI := x.cI.getD k 0, empty := x.t == 0,
    nonfin := x.nonfin.getD k false, sat := x.sat.getD k false, m := ceilDiv x.t 128 }
  if f.clr then
    (fl, { x with
      acc := x.acc.set k (List.replicate 128 0), cF := x.cF.set k 0, aF := x.aF.set k 0, cI := x.cI.set k 0,
      nonfin := x.nonfin.set k false, sat := x.sat.set k false, t := if k = 127 then 0 else x.t })
  else (fl, x)

/-! ### The product check (R100-R103) -/

/-- Exponent of τ for a floating class (R101): τ = 2^−tauExp. -/
def tauExp (cls : Nat) : Nat := if cls = 1 then 20 else if cls = 2 then 19 else 18

/-- The outcome of a row and the ratio of R103, which is 0 where a is infinite, and the spec's own no NaN where a is one (log entry
63): 0 PASS, 1 EMPTY, 2 FAIL, 3 NONFINITE, 4 SATURATED. -/
def rowOutcome (fl : RowFlight) (vals : List (BitVec 32)) (shift : Nat) (disagree : Bool) : Nat × BitVec 32 :=
  let inf : BitVec 32 := BitVec.ofNat 32 0x7F800000
  let sum := sumFv (vals.map ofF32)
  let c := ofF32 fl.cF
  let a := ofF32 fl.aF
  let bound := (Dy.mk ((2 ^ shift * fl.m : Nat) : Int) (-(tauExp fl.cls : Int))).mul (Dy.max a.dy ⟨1, -100⟩)
  let diff := (sum.dy.sub c.dy).abs
  let fin := sum.finite && c.finite
  let pass := if fl.cls = 0 then decide ((vals.map BitVec.toInt).sum = fl.cI) else fin && diff.le bound
  let verdict :=
    if fl.empty then 1
    else if fl.nonfin || (fl.cls != 0 && !a.finite) then 3
    else if fl.sat then 4
    else if pass then 0 else 2
  let e := min diff.e bound.e
  let ratio :=
    if fl.cls = 0 ∨ !fin then inf
    else if a.finite then ratF32 (diff.atExp e).natAbs (bound.atExp e).natAbs
    else if a.isNan then (let r := Config.checkRatio fl.cF fl.aF; if (ofF32 r).isNan then 0 else r)
    else 0
  (if disagree then 2 else verdict, ratio)

namespace State

/-- CHECK_CFG's shift of a class (R101). -/
def checkShift (s : State) (cls : Nat) : Nat :=
  if cls = 1 then s.getF F.CHECK_CFG.SHIFT_C8 else if cls = 2 then s.getF F.CHECK_CFG.SHIFT_C16
  else s.getF F.CHECK_CFG.SHIFT_C32

/-- Count an outcome (R100, R107, R108). -/
def countOutcome (s : State) (lid o : Nat) : State :=
  ((s.incF (F.CHK_COUNT.COUNT lid o) 1).incF (F.CHK_SUM.COUNT o) 1).perf lid 0x04 1

/-- Convert a result row and write it (R98): the ACC addition, the output conversion, the pad write. -/
def writeRow (s : State) (lid : Nat) (fl : RowFlight) (vals : List (BitVec 32)) : State :=
  if fl.outFmt = 13 then
    let old (i : Nat) : Int := signedOf 32 (packedElem 32 fl.old i)
    let sums := (List.zipIdx vals).map fun v => if fl.acc then satI32 (v.1.toInt + old v.2) else (v.1, false)
    let n := (sums.filter (·.2)).length
    let s := if n = 0 then s else s.incF (F.SAT_COUNT.COUNT lid) n
    s.padPut lid fl.dst (packElems 32 (sums.map fun v => v.1.toNat))
  else if fl.outFmt = 0 then
    let out := (List.zipIdx vals).map fun v =>
      if fl.acc then f32add (BitVec.ofNat 32 (packedElem 32 fl.old v.2)) v.1 else v.1
    s.padPut lid fl.dst (packElems 32 (out.map BitVec.toNat))
  else
    let d := s.draw lid (if fl.rnd then vals.length else 0)
    let rs : List Round := if fl.rnd then d.1.map Round.sr else vals.map fun _ => Round.rne
    let cs := List.zipWith (fun r v => convElem fl.outFmt r (ofF32 v)) rs vals
    (d.2.countConv lid cs).padPut lid fl.dst (packElems (elemBits fl.outFmt) (cs.map (·.bits)))

/-- A result row lands: its check, its outcome, its write (R92, R100, R103). `flips` are result bits a fault of the row's
lanes changed before the checker, lanes 128 and 129 being those of the check values c and a, `disagree` a rail pair that disagreed. -/
def rowDue (s : State) (lid : Nat) (fl : RowFlight) (flips : List (Nat × BitVec 32)) (disagree : Bool) : State :=
  let vals := flips.foldl (fun (v : List (BitVec 32)) f => v.set f.1 (v.getD f.1 0 ^^^ f.2)) fl.vals
  let fl := flips.foldl (fun (fl : RowFlight) f =>
    if f.1 = 128 then { fl with cF := fl.cF ^^^ f.2, cI := (BitVec.ofInt 64 fl.cI ^^^ f.2.setWidth 64).toInt }
    else if f.1 = 129 then { fl with aF := fl.aF ^^^ f.2 }
    else fl) fl
  let o := rowOutcome fl vals (s.checkShift fl.cls) disagree
  let s := s.modPlot lid fun x => { x with flight := x.flight.filter fun y => !(y.due == fl.due && y.row == fl.row && y.slot == fl.slot) }
  let s := (s.writeRow lid fl vals).countOutcome lid o.1
  if o.1 = 2 then
    let s := s.keepF (F.LAST_FAIL.FURROW lid) s.furrow
    let s := s.keepF (F.LAST_FAIL.SLOT lid) fl.slot
    let s := s.keepF (F.LAST_FAIL_DETAIL.ROW lid) fl.row
    let s := s.keepF (F.LAST_FAIL_DETAIL.MODE lid) fl.mode
    let s := s.keepF (F.LAST_FAIL_DETAIL.RATIO lid) o.2.toNat
    s.checkFail lid {
      code := 0x0201, srcType := srcPlot, srcId := lid, opUnit := opArray, op := fl.mode, slot := fl.slot,
      detail := fl.row % 2 ^ 24 + fl.mode * 2 ^ 24 + o.2.toNat * 2 ^ 32 }
  else s

/-- The rows due at a step, in row order. -/
def outcomesAt (s : State) (lid p : Nat) : State :=
  ((s.plot lid).flight.filter fun fl => decide (fl.due ≤ p)).foldl (fun s fl => s.rowDue lid fl [] false) s

/-- Replace a feed by its next state, or take it out when its rows are all fed. -/
def putFeed (s : State) (lid : Nat) (f g : Feed) : State :=
  s.modPlot lid fun x => { x with
    feeds := (x.feeds.map fun h => if h.p0 = f.p0 ∧ h.mode = f.mode then g else h).filter fun h => decide (h.next < h.count) }

/-- Count a row fed, in ROWS, TROWS, OACC and EDIAG (R108, R415): ODRAIN and WLOAD feed no row that streams (log entry 63). -/
def countRow (s : State) (lid : Nat) : State := (s.incF (F.ROWS_STREAMED.COUNT lid) 1).perf lid 0x03 1

/-- One row enters the array with its operand bytes (R86-R91); `at0` is its entry step. An accumulator that saturates counts in
SAT_COUNT once for each row pair that saturates it (log entry 63). -/
def enterRow (s : State) (lid at0 : Nat) (f : Feed) (i : Nat) (as bs : List Byte) : State :=
  let x := s.plot lid
  if f.mode = 6 then
    s.modPlot lid fun x => { x with shadow := { x.shadow with rows := x.shadow.rows ++ [as] } }
  else if f.mode = 3 then
    let r := x.accp.addRow f.fmtA as f.fmtB bs
    let s := (s.modPlot lid fun x => { x with accp := r.1 }).countRow lid
    if r.2 = 0 then s else s.incF (F.SAT_COUNT.COUNT lid) r.2
  else if f.mode = 4 then
    let r := x.accp.drain f (at0 + 150) i
    s.modPlot lid fun x => { x with accp := r.2, flight := x.flight ++ [r.1] }
  else
    let fl := if f.mode = 5 then diagFlight f (at0 + 150) i as bs else streamFlight f x.active (at0 + 150) i as
    (s.modPlot lid fun x => { x with flight := x.flight ++ [fl] }).countRow lid

/-- List the destination accesses of the rows that entered together (R186). -/
def destPorts (s : State) (lid at0 : Nat) (f : Feed) (rows : List Nat) : State :=
  if f.mode = 3 ∨ f.mode = 6 then s
  else
    let spans := rows.map fun i => (f.dst + i * f.dstStride, rowBytes f.outFmt)
    let s := if f.acc then s.usePort lid (at0 + 138) ⟨spans, false, opArray, f.mode, f.slot⟩ else s
    s.usePort lid (at0 + 144) ⟨spans, true, opArray, f.mode, f.slot⟩

/-- A feed at an array step: the rows that enter, or the second half of a wide row (R84, R92, R186). -/
def feedAt (s : State) (lid p : Nat) (f : Feed) : State :=
  let half := f.half (s.plot lid).active.fmt
  let e (i : Nat) := f.p0 + entryStep half i
  let rows := [f.next, f.next + 1].filter fun i => decide (i < f.count) && decide (e i = p)
  let la := if f.mode = 4 then 0 else rowBytes f.fmtA
  let useB := f.mode == 3 || f.mode == 5
  let portA (s : State) (p : Nat) (spans : List (Nat × Nat)) : State :=
    if f.mode = 4 then s else s.usePort lid p ⟨spans, false, opArray, f.mode, f.slot⟩
  if f.mode ≠ 6 ∧ 256 < la then
    if rows.isEmpty then
      (if !f.gotA.isEmpty && decide (e f.next + 1 = p) then
        let a := f.srcA + f.next * f.strideA
        let s := portA s p [(a + 256, la - 256)]
        let as := f.gotA ++ s.padRead lid p (a + 256) (la - 256)
        let s := s.enterRow lid (p - 1) f f.next as f.gotB
        let s := s.destPorts lid (p - 1) f [f.next]
        s.putFeed lid f { f with next := f.next + 1, gotA := [], gotB := [] }
      else s)
    else
      let a := f.srcA + f.next * f.strideA
      let s := portA s p [(a, 256)]
      let bspan := (f.srcB + f.next * f.strideB, rowBytes f.fmtB)
      let s := if useB then s.usePort lid p ⟨[bspan], false, opArray, f.mode, f.slot⟩ else s
      s.putFeed lid f { f with
        gotA := s.padRead lid p a 256, gotB := if useB then s.padRead lid p bspan.1 bspan.2 else [] }
  else if rows.isEmpty then s
  else
    let s := portA s p (rows.map fun i => (f.srcA + i * f.strideA, la))
    let s := if useB then
        s.usePort lid p ⟨rows.map fun i => (f.srcB + i * f.strideB, rowBytes f.fmtB), false, opArray, f.mode, f.slot⟩
      else s
    let s := rows.foldl (fun s i =>
      s.enterRow lid p f i (s.padRead lid p (f.srcA + i * f.strideA) la)
        (if useB then s.padRead lid p (f.srcB + i * f.strideB) (rowBytes f.fmtB) else [])) s
    let s := s.destPorts lid p f rows
    s.putFeed lid f { f with next := f.next + rows.length }

/-- The ACC read of result rows, twelve steps before they are written (R186). -/
def accReads (s : State) (lid p : Nat) : State :=
  s.modPlot lid fun x => { x with
    flight := x.flight.map fun fl =>
      if fl.acc ∧ fl.due = p + 12 then { fl with old := s.padRead lid p fl.dst (rowBytes fl.outFmt) } else fl }

/-- The work of one array step after its landings and outcomes and its slot words (R81, R186). -/
def workAt (s : State) (lid p : Nat) : State :=
  let s := (s.plot lid).feeds.foldl (fun s f => s.feedAt lid p f) s
  let s := s.accReads lid p
  let s := ((s.plot lid).loads.foldl (fun s l => s.loadRows lid p l) s).loadsDone lid p
  let s := (s.plot lid).moves.foldl (fun s t => s.moverGroup lid p t) s
  s.portsAt lid p

/-- Nothing is under way in the plot. -/
def quiet (x : PlotSt) : Bool :=
  x.feeds.isEmpty && x.flight.isEmpty && x.land.isEmpty && x.loads.isEmpty && x.moves.isEmpty && x.stores.isEmpty &&
    x.ports.isEmpty && x.loosePend.isEmpty && x.shadow.state != 1

/-- What a step begins with: row outcomes, then landings, as the array takes its generator words before the vector engine does
(R127); a core fenced before the step takes none (R51, R106). -/
def openStep (s : State) (lid p : Nat) : State :=
  if s.coreFenced lid then s else (s.outcomesAt lid p).landAt lid p

/-- A fenced core takes the outcomes of the array step in which it was fenced, and none of a later one (R106). -/
def closeFenced (s : State) (lid : Nat) : State :=
  (s.outcomesAt lid (s.plot lid).now).modPlot lid fun x => { x with flight := [] }

/-- Carry out `n` whole array steps of a plot. -/
def stepsFrom (s : State) (lid : Nat) : Nat → State
  | 0 => s
  | n + 1 =>
    let x := s.plot lid
    if quiet x then s.modPlot lid fun x => { x with now := x.now + (n + 1) }
    else if s.coreFenced lid then (s.closeFenced lid).modPlot lid fun x => { x with now := x.now + (n + 1) }
    else
      let s := (s.openStep lid x.now).workAt lid x.now
      stepsFrom (s.modPlot lid fun y => { y with now := x.now + 1 }) lid n

/-- Carry out every array step below `p`. -/
def advance (s : State) (lid p : Nat) : State := s.stepsFrom lid (p - (s.plot lid).now)

/-- Carry out every array step below `p`, and the landings and outcomes of `p` itself. -/
def advanceTo (s : State) (lid p : Nat) : State := (s.advance lid p).openStep lid p

/-! ### Issue of slot words (R51, R153, R160, R166, R167) -/

/-- Array step of an issue in the present furrow. -/
def issueStep (s : State) (i : Issue) : Nat := 48 * (s.step.granted - 1) + i.slot.toNat

/-- A slot word can issue: a step runs and no boundary holds it, the plot runs its program, its core is in service, and no later slot
has issued (R25, R51, R162, R166). -/
def canIssue (s : State) (i : Issue) : Bool :=
  let lid := i.lid.toNat
  s.running && decide (0 < s.step.granted) && !s.step.judged && s.present lid && s.hasProgram lid && !s.coreFenced lid &&
    decide ((s.plot lid).now ≤ s.issueStep i)

/-- A slot word is fetched at its array step: the plot's work up to that step, the signature, the count, and what the checkers
met (R146, R153, R160, R167). `live` says which elements the word leaves unmasked. A core that is fenced takes no word. -/
def fetched (s : State) (i : Issue) (kind op operands : Nat) (live : State → Nat → Bool) : State :=
  let lid := i.lid.toNat
  let p := s.issueStep i
  let s := s.advanceTo lid p
  if s.coreFenced lid then s
  else
    let s := s.modPlot lid fun x => { x with
      now := p, crc := crcRun 0x82F63B78 (leBytes 8 (i.raw kind op operands)) x.crc, fetched := x.fetched + 1 }
    let s := (s.incF (F.WORDS_ISSUED.COUNT lid) 1).perf lid 0x02 1
    s.mishaps lid kind op i.slot.toNat (live s) i.mis

/-- Fetch and issue a slot word, then carry out its operation at its array step. -/
def issueWord (s : State) (i : Issue) (kind op operands : Nat) (live : State → Nat → Bool)
    (body : State → Nat → Nat → State) : State :=
  if s.canIssue i then
    let u := s.fetched i kind op operands live
    if u.coreFenced i.lid.toNat then u else body u i.lid.toNat (s.issueStep i)
  else s

/-! ### Array words (R86-R94, R168, R169) -/

/-- Step of the last result, outcome, passage or READY of an array word, counted from its issue (R94). -/
def arrayEnd (mode half n : Nat) : Nat :=
  if mode = 6 then 136 else if mode = 7 then 0 else if mode = 4 then 277 else if n = 0 then 0 else entryStep half (n - 1) + 150

/-- The rule an array word breaks at its issue, if any (R84, R89, R93, R94, R98, R169, R179). A SWAP is refused in every step of an
open feed, a drain's among them (log entry 63). -/
def arrayRefusal (s : State) (lid p mode : Nat) (o : ArrayWord) : Option Nat :=
  let x := s.plot lid
  let n := if o.csrc then o.cimm.toNat else (s.gregAt lid o.rc.toNat).toNat
  let fa := o.fmtA.toNat
  let fb := o.fmtB.toNat
  let out := o.outFmt.toNat
  let stream := mode == 1 || mode == 2
  let counted := stream || mode == 3 || mode == 5
  let cls : Option Nat :=
    if stream then pairClass fa x.active.fmt else if mode = 4 then some x.accp.cls
    else if mode = 6 then fmtClass fa else if mode = 7 then some 1 else pairClass fa fb
  let half := if stream then pairHalfSteps fa x.active.fmt else if mode = 3 ∨ mode = 5 then pairHalfSteps fa fb else 2
  let writes := stream || mode == 4 || mode == 5
  let outOk : Bool := match cls with
    | some 0 => out == 13
    | some _ => decide (out ≤ 4) && (!o.acc || out == 0)
    | none => false
  let bad (r : BitVec 5) : Bool :=
    let v := (s.gregAt lid r.toNat).toNat
    decide (v % 64 ≠ 0) || decide (v / 2 ^ 32 % 64 ≠ 0)
  let unaligned := ((counted || mode == 6) && bad o.ra) || ((mode == 3 || mode == 5) && bad o.rb) || (writes && bad o.rd)
  let feedBusy : Bool := match x.feedEnd with
    | none => false
    | some (f, m) => if mode = m then decide (p < f + 1) else decide (p < f + 9)
  let feeding : Bool := match x.feedEnd with
    | none => false
    | some (f, _) => decide (p ≤ f)
  let portTaken : Bool := match x.feedEnd with
    | none => false
    | some (f, m) => (m == 3 || m == 5) && decide (p ≤ f)
  if stream && x.active.state == 0 then some ruleArray
  else if mode = 7 ∧ (x.shadow.state ≠ 2 ∨ feeding) then some ruleArray
  else if mode = 4 ∧ !x.accp.valid then some ruleArray
  else if cls.isNone then some ruleFormat
  else if writes && !outOk then some ruleFormat
  else if counted && decide (16777215 < n) then some ruleRange
  else if unaligned then some ruleAlign
  else if mode ≠ 6 ∧ mode ≠ 7 ∧ feedBusy then some ruleArray
  else if (mode = 3 ∨ mode = 5) ∧ p < x.loadFree then some ruleArray
  else if mode = 6 ∧ (p < x.loadFree ∨ portTaken) then some ruleArray
  else if mode = 3 ∧ !o.clr ∧ !(x.accp.valid && cls == some x.accp.cls) then some ruleArray
  else if 48 * s.step.length ≤ p + arrayEnd mode half n then some ruleRange
  else none

/-- Issue an array operation at its step (R86-R94, R105). -/
def arrayOp (mode slot : Nat) (o : ArrayWord) (s : State) (lid p : Nat) : State :=
  match s.arrayRefusal lid p mode o with
  | some rule => s.slotConflict lid opArray mode slot rule
  | none =>
    let x := s.plot lid
    let n := if mode = 4 ∨ mode = 6 then 128 else if o.csrc then o.cimm.toNat else (s.gregAt lid o.rc.toNat).toNat
    let reg (r : BitVec 5) : Nat := (s.gregAt lid r.toNat).toNat
    let f : Feed := {
      mode := mode, p0 := p, slot := slot, count := n, next := 0, gotA := [], gotB := [],
      srcA := reg o.ra % 2 ^ 32, strideA := reg o.ra / 2 ^ 32, srcB := reg o.rb % 2 ^ 32, strideB := reg o.rb / 2 ^ 32,
      fmtA := o.fmtA.toNat, fmtB := o.fmtB.toNat, dst := reg o.rd % 2 ^ 32, dstStride := reg o.rd / 2 ^ 32,
      outFmt := o.outFmt.toNat, acc := o.acc, rnd := o.rnd, clr := o.clr }
    let s := s.modPlot lid fun x => { x with mode := mode }
    if mode = 7 then s.modPlot lid fun x => { x with active := x.shadow, shadow := x.active }
    else if mode = 6 then
      s.modPlot lid fun x => { x with
        shadow := { Plane.empty with state := 1, fmt := f.fmtA }, readyAt := p + 136, loadFree := p + 128,
        feeds := x.feeds ++ [f] }
    else
      let half := f.half x.active.fmt
      let s := s.modPlot lid fun x => { x with
        feedEnd := some (p + feedLength half n, mode),
        feeds := if n = 0 then x.feeds else x.feeds ++ [f],
        accp := if mode = 3 ∧ o.clr then AccPlane.start ((pairClass f.fmtA f.fmtB).getD 1) else x.accp }
      let s := s.perf lid 0x10 (feedLength half n + 1)
      if n = 0 then s.countOutcome lid 1 else s

/-- An array slot word (R168): array words exist on M-plots only. -/
def arrayWord (s : State) (i : Issue) (mode : Nat) (o : ArrayWord) : State :=
  if s.isV i.lid.toNat then s
  else s.issueWord i opArray mode o.bits (fun _ _ => true) (arrayOp mode i.slot.toNat o)

end State
end Sys2Proof.Machine
end

