-- ==== Sys2Proof/Machine/Fabric.lean ====
section
/-! DEFINITION. The scheduled fabric (R61-R77, R198): the route word, links between sites and to the headlands, the loam
streams, and what an abandonment clears. -/

namespace Sys2Proof.Machine

/-- The port a link arrives at: N and S face each other, E and W too. -/
def facing (d : Nat) : Nat := (d + 2) % 4

namespace State

/-- The logical plot that port `d` of a plot's router leads to (R45); none across the grid's outer edge. -/
def neighbour (s : State) (lid d : Nat) : Option Nat :=
  let x := lidX lid
  let y := lidY lid
  let at0 (x y : Nat) : Option Nat := if s.present (y * 4096 + x) then some (y * 4096 + x) else none
  if d = 0 then (if y = 0 then none else at0 x (y - 1))
  else if d = 1 then at0 (x + 1) y
  else if d = 2 then at0 x (y + 1)
  else if x = 0 then none else at0 (x - 1) y

/-- The edge link behind port `d` of a plot's router (R227): headland and LINK position. -/
def edgeLink (s : State) (lid d : Nat) : Option (Nat × Nat) :=
  let x := lidX lid
  let y := lidY lid
  if d = 0 ∧ y = 0 then some (0, x)
  else if d = 1 ∧ x + 1 = s.getF F.GRID_SHAPE.X_DIM then some (1, y)
  else if d = 2 ∧ y + 1 = s.getF F.GRID_SHAPE.Y_DIM then some (2, x)
  else if d = 3 ∧ x = 0 then some (3, y)
  else none

/-- The plot and port at an edge link (R227). -/
def edgePlot (s : State) (h link : Nat) : Nat × Nat :=
  if h = 0 then (link, 0)
  else if h = 1 then (link * 4096 + (s.getF F.GRID_SHAPE.X_DIM - 1), 1)
  else if h = 2 then ((s.getF F.GRID_SHAPE.Y_DIM - 1) * 4096 + link, 2)
  else (link * 4096, 3)

/-- Hop latency into port `d` of a plot's router (R36): 1 furrow within a region, else 2. -/
def hopLatency (s : State) (lid d : Nat) : Nat :=
  match s.neighbour lid d with
  | some q => if s.regionOf q = s.regionOf lid then 1 else 2
  | none => 2

/-- The furrow `n` before the present one (R21). -/
def furrowBefore (s : State) (n : Nat) : Nat := furrowAdd s.furrow (2 ^ 48 - n)

/-- A page with its tag as the present writer leaves it: a page of another furrow starts empty. -/
def pageFor (m : SMap FPage) (key tag : Nat) : FPage :=
  let p := SMap.get FPage.zero m key
  if p.tag = tag then p else { tag := tag, complete := false, grains := [] }

/-- List grains in a page from a grain offset; `done` when its furrow sends no more over the link (R37). -/
def pagePut (m : SMap FPage) (key tag g : Nat) (done : Bool) (cs : List Cell) : SMap FPage :=
  let p := pageFor m key tag
  SMap.ins m key { p with
    complete := done, grains := (List.zipIdx cs).foldl (fun gs c => SMap.ins gs (g + c.2) c.1) p.grains }

def inputKey (p d furrow : Nat) : Nat := (4 * p + d) * 4 + furrow % 4
def edgeKey (h link furrow : Nat) : Nat := (64 * h + link) * 4 + furrow % 4

/-! ### Route memory (R64-R66) -/

def routeMem (s : State) (lid a : Nat) : Nat := (SMap.get 0 s.mem.routes (lid * 2 ^ 13 + a)).toNat
/-- The shell has the program (R64). -/
def routePresent (s : State) (lid j : Nat) : Bool := bitOf (s.routeMem lid j) 13
/-- The group in force `rem` furrows after the step's first one. -/
def routeGroup (s : State) (lid rem : Nat) : Option Nat :=
  if s.routePresent lid s.step.program then
    walkRoutes (s.routeMem lid) 8192 (bitsOf (s.routeMem lid s.step.program) 0 13) rem
  else none
/-- The route words of a group. -/
def groupWords (mem : Nat → Nat) (a : Nat) : List Nat := (List.range (bitsOf (mem a) 0 8)).map fun i => mem (a + 1 + i)

/-- The router of site `p` has carried out every word of its group that sends on a port in the present furrow (R37). -/
def portDone (s : State) (lid p out : Nat) : Bool :=
  match s.routeGroup lid (s.step.granted - 1) with
  | none => true
  | some a => (List.zipIdx (groupWords (s.routeMem lid) a)).all fun w =>
      bitsOf w.1 0 3 != out || NSet.mem s.fab.sent (256 * p + w.2)

/-- The furrow in which what arrives at port `d` of site `p` with a tag is readable (R63). -/
def readableAt (s : State) (p d tag : Nat) : Nat :=
  furrowAdd tag ((s.lidOfSite p).elim 2 fun lid => s.hopLatency lid d)

/-- The furrow under way ends: its input pages and queue entries are free, and grains that no route read go (R37, R63). -/
def endCrossings (s : State) : State :=
  { s with fab := { s.fab with
      inputs := s.fab.inputs.filter fun x => furrowLater (s.readableAt (x.1 / 16) (x.1 / 4 % 4) x.2.tag) s.furrow
      edge := s.fab.edge.filter fun x => furrowLater (furrowAdd x.2.tag 2) s.furrow } }

/-! ### Loam streams (R198) -/

/-- Loam offset of output grain g in step furrow k of a stream. -/
def streamOffset (s : State) (lid d k g : Nat) : Nat :=
  let size := s.getF (F.LOAM_STREAM.SIZE lid d) * 65536
  s.getF (F.LOAM_STREAM.BASE lid d) + 16 * ((192 * k + g) % max 1 (size / 16))

/-- The pieces of loam that the router's IN = LOAM words of step furrow k read: offset and bytes of each grain. -/
def streamReads (s : State) (lid k : Nat) : List (Nat × List Byte) :=
  match s.routeGroup lid k with
  | none => []
  | some a =>
    (((groupWords (s.routeMem lid) a).filter fun w => bitsOf w 3 3 == 5).map fun w =>
      (List.range (bitsOf w 26 10)).map fun i =>
        let off := s.streamOffset lid 0 k (bitsOf w 16 10 + i)
        (off, s.loamGet (s.siteOf lid) off 16)).flatten

/-- What the fetch of furrow k gave: for each byte, what loam held when the fetch began or when it ended (R198). -/
def blendFetch (lid k : Nat) (early : List (Nat × List Byte)) (late : List (Nat × List Byte)) : List (Nat × List Byte) :=
  late.map fun q =>
    match early.find? fun e => e.1 == q.1 with
    | none => q
    | some e => (q.1, (List.zipIdx (List.zip e.2 q.2)).map fun b =>
        if Config.streamFetch lid k (q.1 + b.2) then b.1.2 else b.1.1)

/-- Plots whose shells have the running program. -/
def routedPlots (s : State) : List Nat :=
  if s.mem.routes.isEmpty then [] else s.plotList.filter fun l => s.routePresent l s.step.program

/-- Fetch the streams ahead of the furrow that begins now, step furrow k, and begin the fetch of the one after. -/
def fetchStreams (s : State) (k : Nat) : State :=
  let ls := s.routedPlots
  let now := ls.map fun l => (l, blendFetch l k (SMap.get [] s.fab.loamNext l) (s.streamReads l k))
  let next := ls.map fun l => (l, s.streamReads l (k + 1))
  let list (xs : List (Nat × List (Nat × List Byte))) : SMap (List (Nat × List Byte)) :=
    (xs.filter fun x => !x.2.isEmpty).foldl (fun m x => SMap.ins m x.1 x.2) []
  let s := { s with fab := { s.fab with loamIn := list now, loamNext := list next } }
  { s with mem := { s.mem with portGrains := next.foldl (fun m x =>
      if x.2.isEmpty then m else SMap.modify 0 m (s.siteOf x.1) (· + x.2.length)) s.mem.portGrains } }

/-- Join pieces that follow one another. -/
def joinRuns : List (Nat × List Byte) → List (Nat × List Byte)
  | [] => []
  | q :: rest =>
    match joinRuns rest with
    | [] => [q]
    | r :: rs => if q.1 + q.2.length = r.1 then (q.1, q.2 ++ r.2) :: rs else q :: r :: rs

/-- Stream writes of earlier furrows than the one before `n` reach loam (R198): whole runs, under the rules of the partition
they lie in (R196, R204). -/
def landStreams (s : State) (n : Nat) : State :=
  let isDue (w : Nat × Nat × Nat × List Byte) : Bool := furrowLater n (furrowAdd w.2.1 1)
  let due := s.fab.loamOut.filter isDue
  let s := { s with fab := { s.fab with loamOut := s.fab.loamOut.filter fun w => !isDue w } }
  ((due.map (·.1)).eraseDups).foldl (fun s lid =>
    let mine : SMap (List Byte) := (due.filter fun w => w.1 == lid).foldl (fun m w => SMap.ins m w.2.2.1 w.2.2.2) []
    (joinRuns mine).foldl (fun s r =>
      if (loamPieces r.1 r.2.length).any fun q => s.loamWriteBad q.1 q.2 then s.slotConflict lid opRouter 0 0 ruleAlign
      else s.loamStore lid r.1 r.2 true opRouter 0 0) s) s

/-- Stream writes that land during the furrow that begins count at the port in it (R197, R198). -/
def countStreams (s : State) : State :=
  { s with mem := { s.mem with portGrains := s.fab.loamOut.foldl (fun m w =>
      SMap.modify 0 m (s.siteOf w.1) (· + ceilDiv w.2.2.2.length 16)) s.mem.portGrains } }

/-! ### The route word (R62, R63, R66, R69-R72, R74) -/

/-- The input grains of a route word: cells, or the fault that stops it. -/
def routeInput (s : State) (lid p inp g n : Nat) : List Cell × Option FaultArgs :=
  let m1 := s.furrowBefore 1
  if inp = 4 then
    let page := SMap.get FPage.zero s.fab.send (2 * p + m1 % 2)
    let at0 (i : Nat) : Option Cell := if page.tag = m1 then SMap.find? page.grains (g + i) else none
    if s.coreFenced lid then
      ((List.range n).map fun i => ⟨((at0 i).map (·.val)).getD (Config.arrivalResidue lid s.furrow (g + i)), true⟩, none)
    else
      match (List.range n).find? fun i => (at0 i).isNone with
      | some i => ([], some { code := 0x0403, srcType := srcPlot, srcId := lid, opUnit := opRouter, detail := g + i })
      | none => ((List.range n).filterMap at0, none)
  else
    let tag := s.furrowBefore (s.hopLatency lid inp)
    let page := SMap.get FPage.zero s.fab.inputs (inputKey p inp tag)
    let at0 (i : Nat) : Option Cell := if page.tag = tag then SMap.find? page.grains (g + i) else none
    if n ≠ 0 ∧ !page.complete ∨ (List.range n).any fun i => (at0 i).isNone then
      ([], some { code := 0x0402, srcType := srcSite, srcId := p, opUnit := opRouter, detail := inp + page.tag * 4,
                  unit := some (unitLink, 4 * p + inp) })
    else ((List.range n).filterMap at0, none)

/-- The grains a stream read gives (R198). -/
def streamInput (s : State) (lid g n : Nat) : List Cell :=
  (List.range n).map fun i =>
    let off := s.streamOffset lid 0 (s.step.granted - 1) (g + i)
    let bs := ((SMap.get [] s.fab.loamIn lid).find? fun q => q.1 == off).elim [] (·.2)
    ⟨BitVec.ofNat 128 (leNat bs), false⟩

/-- Link word `w` received on port `d` of a site was corrected, or could not be (R70, R73, R74). -/
def linkReceive (s : State) (q d w : Nat) (backKey : Nat) (poisoned bad : Bool) : State :=
  let a : FaultArgs := {
    code := 0x0003, srcType := srcSite, srcId := q, opUnit := opRouter, detail := w }
  if bad then
    if poisoned then s
    else
      let s := (s.incF (F.UNCORRECTED.COUNT q d) 1).raise { a with code := 0x0401, detail := d, unit := some (unitLink, 4 * q + d) }
      { s with grid := { s.grid with loopbacks := NSet.insert (NSet.insert s.grid.loopbacks (4 * q + d)) backKey } }
  else (s.incF (F.CORRECTED.COUNT q d) 1).correct (unitLink, 4 * q + d) a

/-- The same at the headland end of an edge link. -/
def edgeReceive (s : State) (h link w siteKey : Nat) (poisoned bad : Bool) : State :=
  if bad then
    if poisoned then s
    else
      let s := s.raise {
        code := 0x0401, srcType := srcHeadland, srcId := h, opUnit := opHeadland, detail := (h + 2) % 4, unit := some (unitHeadland, h) }
      { s with grid := { s.grid with
          loopbacks := NSet.insert (NSet.insert s.grid.loopbacks siteKey) (2 ^ 20 + 64 * h + link) } }
  else s.correct (unitHeadland, h) { code := 0x0003, srcType := srcHeadland, srcId := h, opUnit := opHeadland, detail := w }

/-- Send grains on port `out` of a plot's router (R61, R63, R74, R198). -/
def routeOutput (s : State) (lid p out g : Nat) (cs : List Cell) (obs : List RouteMishap) : State :=
  let m := s.furrow
  if out = 4 then
    if s.coreFenced lid then s
    else { s with fab := { s.fab with arrive := pagePut s.fab.arrive (2 * p + m % 2) m g false cs } }
  else if out = 5 then
    let ws := (List.zipIdx cs).map fun c =>
      (lid, m, s.streamOffset lid 1 (s.step.granted - 1) (g + c.2), leBytes 16 c.1.val.toNat)
    { s with fab := { s.fab with loamOut := s.fab.loamOut ++ ws } }
  else
    let s := s.incF (F.GRAINS_SENT.COUNT p out) cs.length
    let done := s.portDone lid p out
    let poisoned (w : Nat) : Bool := if w / 2 < g then false else ((cs[w / 2 - g]?).map (·.poison)).getD false
    match s.edgeLink lid out with
    | some (h, link) =>
      let s := { s with fab := { s.fab with edge := pagePut s.fab.edge (edgeKey h link m) m g done cs } }
      obs.foldl (fun s o => match o with
        | .linkCorr w => s.edgeReceive h link w.toNat (4 * p + out) (poisoned w.toNat) false
        | .linkUncorr w => s.edgeReceive h link w.toNat (4 * p + out) (poisoned w.toNat) true
        | _ => s) s
    | none =>
      match s.neighbour lid out with
      | none => s
      | some q =>
        let qs := s.siteOf q
        let d := facing out
        let s := { s with fab := { s.fab with inputs := pagePut s.fab.inputs (inputKey qs d m) m g done cs } }
        obs.foldl (fun s o => match o with
          | .linkCorr w => s.linkReceive qs d w.toNat (4 * p + out) (poisoned w.toNat) false
          | .linkUncorr w => s.linkReceive qs d w.toNat (4 * p + out) (poisoned w.toNat) true
          | _ => s) s

/-- What a shell's own codes and checkers met (R55, R72, R199, R200). The spec gives a loam port or core switch that fails no cause of
its own: cause 0x0409 with port 0 (log entry 61). -/
def routerMishap (s : State) (p : Nat) (o : RouteMishap) : State :=
  let a : FaultArgs := {
    code := 0, srcType := srcSite, srcId := p, opUnit := opRouter, unit := some (unitShell, p), fenced := true, degraded := true }
  match o with
  | .memCorr w => (s.incF (F.ROUTE_MEM_CORR.COUNT p) 1).correct (unitShell, p)
      { a with code := 0x0004, detail := w.toNat, unit := none, fenced := false, degraded := false }
  | .memUncorr w => (s.raise { a with code := 0x0109, detail := w.toNat }).shellFail p
  | .crossbar d => (s.raise { a with code := 0x040A, detail := d.toNat }).shellFail p
  | .loamPort => (s.raise { a with code := 0x0409 }).shellFail p
  | .coreSwitch => (s.raise { a with code := 0x0409 }).shellFail p
  | .mapUncorr w => s.mapUncorrectable p w.toNat opRouter 0 0
  | .loamCorrBit o => (s.lidOfSite p).elim s fun lid => s.loamCorrected lid o.toNat false opRouter 0 0
  | .loamCorrSymbol o => (s.lidOfSite p).elim s fun lid => s.loamCorrected lid o.toNat true opRouter 0 0
  | .loamUncorr o => (s.lidOfSite p).elim s fun lid => s.loamUncorrectable lid o.toNat opRouter 0 0
  | .linkCorr _ => s
  | .linkUncorr _ => s

/-- Word `w` of the plot's route program, number `j` of its group, is carried out (R62, R63, R66, R69-R71, R74). -/
def carryRoute (s : State) (lid p j w : Nat) (obs : List RouteMishap) : State :=
  let s := { s with fab := { s.fab with sent := NSet.insert s.fab.sent (256 * p + j) } }
  let n := bitsOf w 26 10
  let inp := bitsOf w 3 3
  let out := bitsOf w 0 3
  let r := if inp = 5 then (s.streamInput lid (bitsOf w 16 10) n, none) else s.routeInput lid p inp (bitsOf w 6 10) n
  match r.2 with
  | some f => if f.srcType = srcPlot then s.coreFault lid f else s.raise f
  | none =>
    let bad := (r.1.filter (·.poison)).length
    let s := if inp = 4 ∨ inp = 5 ∨ bad = 0 then s else s.incF (F.POISON_COUNT.COUNT p) bad
    if n = 0 ∧ 4 ≤ out then s else s.routeOutput lid p out (bitsOf w 16 10) r.1 obs

/-- The word that the router of site `p` carries out as number `j` of its group in the present furrow, with the plot it backs: each
one once, between a granted boundary and the next (R66). -/
def routeDue (s : State) (p j : Nat) : Option (Nat × Nat) :=
  (s.lidOfSite p).bind fun lid => (s.routeGroup lid (s.step.granted - 1)).bind fun a =>
    if bitsOf (s.routeMem lid a) 0 8 ≤ j ∨ s.step.judged ∨ NSet.mem s.fab.sent (256 * p + j) then none
    else some (lid, s.routeMem lid (a + 1 + j))

/-- ROUTE_WORD: what the shell of site `p` met, be it a router that only passes grains through, and then word `j`, if it is due and
the shell lives (R66, R72, R77). -/
def routeWord (s : State) (p j : Nat) (obs : List RouteMishap) : State :=
  if s.running && decide (0 < s.step.granted) && decide (s.siteState p ≠ 3) then
    let due := s.routeDue p j
    let s := obs.foldl (fun s o => s.routerMishap p o) s
    match due with
    | none => s
    | some x => if s.siteState p = 3 then s else s.carryRoute x.1 p j x.2 obs
  else s

/-- R77: what an abandonment clears in the fabric; a step start finds the same. -/
def clearFabric (s : State) : State := { s with fab := FabricSt.zero }

end State

/-- ROUTE_WORD (R66): the router of site `p` carries out the word numbered `j` of its present group. -/
def execRouteWord (p : BitVec 13) (j : BitVec 8) (obs : List RouteMishap) (s : State) : Out :=
  s.answerIf (decide (p.toNat < 5120)) (s.routeWord p.toNat j.toNat obs)

end Sys2Proof.Machine
end

