-- ==== Sys2Proof/Machine/SowBase.lean ====
section
/-! DEFINITION. What sowing keeps: lanes, channels, credits, the epoch, presence and claims, the SOWN term, and what a
granted boundary discards and returns (R213, R218, R221-R225, R234, R38). -/

namespace Sys2Proof.Machine

/-! ### Header fields of a segment (R219) -/

namespace Seg
def kind (g : Seg) : Nat := wordField g.hdr 0 16 4
def codec (g : Seg) : Nat := wordField g.hdr 0 20 4
def src (g : Seg) : Nat := wordField g.hdr 0 24 4
def dst (g : Seg) : Nat := wordField g.hdr 0 28 4
def epoch (g : Seg) : Nat := wordField g.hdr 0 32 16
def layer (g : Seg) : Nat := wordField g.hdr 0 48 16
def tile (g : Seg) : Nat := wordField g.hdr 1 0 32
def sseq (g : Seg) : Nat := wordField g.hdr 1 32 32
def due (g : Seg) : Nat := wordField g.hdr 2 0 48
def elements (g : Seg) : Nat := wordField g.hdr 3 0 32
def bytes (g : Seg) : Nat := wordField g.hdr 3 32 32
def pitch (g : Seg) : Nat := wordField g.hdr 4 0 16
def crc (g : Seg) : Nat := wordField g.hdr 6 0 64
/-- Credit blocks of a weight segment (R221). -/
def blocks (g : Seg) : Nat := ceilDiv (64 + g.bytes) 4096
/-- R234. -/
def digest (g : Seg) : List Byte := sha512 (g.hdr ++ g.payload)
end Seg

/-- MAGIC and HCRC of a header (R220 check 1). -/
def headerOk (hdr : List Byte) : Bool :=
  wordField hdr 0 0 16 == 0x50D5 && wordField hdr 7 32 32 == crc32c (hdr.take 60)

namespace State

def chan (s : State) (c : Nat) : ChanSt := SMap.get ChanSt.zero s.sow.chans c
def setChan (s : State) (c : Nat) (x : ChanSt) : State :=
  { s with sow := { s.sow with chans := SMap.set ChanSt.zero s.sow.chans c x } }
def lane (s : State) (l : Nat) : LaneSt := SMap.get LaneSt.zero s.sow.lanes l
def setLane (s : State) (l : Nat) (x : LaneSt) : State :=
  { s with sow := { s.sow with lanes := SMap.set LaneSt.zero s.sow.lanes l x } }
def epoch (s : State) : Nat := s.getF F.SOW_STATUS.EPOCH
def chanEnabled (s : State) (c : Nat) : Bool := s.getF (F.SOW_CHAN_CFG.ENABLE c) == 1
/-- CREDIT_LIMIT of a channel (R221). -/
def creditLimit (s : State) (c : Nat) : Nat :=
  if s.chanEnabled c then s.getF (F.HL_PART.SOW_UNITS (c / 8)) * 2048 else 0

/-! ### Lanes (R218) -/

def laneLocked (s : State) (l : Nat) : Bool := s.getF (F.LANE_STATUS.LOCKED l) == 1
/-- All sixteen lanes of a channel are locked. -/
def chanUp (s : State) (c : Nat) : Bool := (List.range 16).all fun k => s.laneLocked (16 * c + k)
/-- Keep CHAN_UP with the lanes. -/
def showChan (s : State) (c : Nat) : State :=
  s.nowF F.SOW_STATUS.CHAN_UP (setBits (s.getF F.SOW_STATUS.CHAN_UP) c 1 (b2n (s.chanUp c)))
/-- A lane that unlocks while phase 7 measures it fails the gate (R403, R409). -/
def leaveGate (s : State) (l : Nat) : State :=
  if NSet.mem s.boot.gate l then
    { s with boot := { s.boot with gate := NSet.erase s.boot.gate l, fallen := NSet.insert s.boot.fallen l } }
  else s
/-- A lane loses lock and starts a retrain. -/
def loseLane (s : State) (l : Nat) : State :=
  if s.laneLocked l then
    let s := s.leaveGate l
    let s := s.nowF (F.LANE_STATUS.LOCKED l) 0
    let s := s.incLive (F.LANE_STATUS.RETRAINS l) 1
    (s.setLane l { s.lane l with misses := 0, good := 0 }).showChan (l / 16)
  else s
/-- A lane regains lock. -/
def gainLane (s : State) (l : Nat) : State :=
  if s.laneLocked l then s
  else ((s.nowF (F.LANE_STATUS.LOCKED l) 1).setLane l { s.lane l with misses := 0, good := 0 }).showChan (l / 16)
/-- Lane l (512 and up: twin lanes) is excluded. -/
def laneExcluded (s : State) (l : Nat) : Bool := bitOf (s.getF (F.LANE_EXCLUDED.MASK (l / 64))) (l % 64)
def setExcluded (s : State) (l : Nat) (on : Bool) : State :=
  let f := F.LANE_EXCLUDED.MASK (l / 64)
  s.nowF f (setBits (s.getF f) (l % 64) 1 (b2n on))
/-- Every excluded lane. -/
def excludedLanes (s : State) : List Nat := (List.range 528).filter s.laneExcluded

/-- Keep LINK_UP with the twin lanes: it reads 1 while all sixteen are locked and none is excluded (R366, R403). With the link down
twin lock breaks (R365). -/
def showTwinLink (s : State) : State :=
  let up := s.twin.down.isEmpty && s.excludedLanes.all (· < 512)
  let s := s.nowF F.TWIN_STATUS.LINK_UP (b2n up)
  if up then s else s.nowF F.TWIN_LOCK_STATUS.LOCKED 0
/-- Twin lanes lose lock. -/
def loseTwinLanes (s : State) (ks : List Nat) : State :=
  let s := ks.foldl (fun s k => s.leaveGate (512 + k)) s
  ({ s with twin := { s.twin with down := ks.foldl NSet.insert s.twin.down } }).showTwinLink
/-- Twin lanes regain lock. -/
def gainTwinLanes (s : State) (ks : List Nat) : State :=
  ({ s with twin := { s.twin with down := s.twin.down.filter fun x => !ks.contains x.1 } }).showTwinLink
/-- R237: every lane loses its reference clock with the meridian, the twin lanes too (R359). -/
def loseLanes (s : State) : State := ((List.range 512).foldl loseLane s).loseTwinLanes (List.range 16)

/-! ### The epoch (R222) -/

/-- The sowing epoch increases by one. -/
def advanceEpoch (s : State) : State :=
  let s := s.keepF F.SOW_STATUS.EPOCH (s.epoch + 1)
  let s := s.incLive F.SOW_STATUS.EPOCH_CHANGES 1
  let s := (List.range 32).foldl (fun s c =>
    let s := s.setChan c { s.chan c with returned := 0, buffer := [] }
    (s.keepF (F.CHAN_STATUS.EXPECT_SSEQ c) 0).keepF (F.CHAN_STATUS.HELD_BLOCKS c) 0) s
  s.event 0x0008 srcModule 0 s.epoch

/-- Return the blocks of a buffered segment and forget it (R221). -/
def freeSeg (s : State) (c : Nat) (g : Seg) : State :=
  let x := s.chan c
  let s := s.setChan c { x with
    returned := (x.returned + g.blocks) % 2 ^ 32, buffer := x.buffer.filter fun b => b.seg.sseq != g.sseq }
  s.keepF (F.CHAN_STATUS.HELD_BLOCKS c) (s.getF (F.CHAN_STATUS.HELD_BLOCKS c) - g.blocks)

/-- Change one buffered segment. -/
def modSeg (s : State) (c sseq : Nat) (f : Buffered → Buffered) : State :=
  let x := s.chan c
  s.setChan c { x with buffer := x.buffer.map fun b => if b.seg.sseq = sseq then f b else b }

/-! ### Presence and claims (R224, R225, R38) -/

/-- The sowing entries of the step's program; an evaluation or training step alike. -/
def sowEntries (s : State) : List SowEntry := SMap.get [] s.plan.sowTab s.step.program

/-- The entry's due furrow in the step (R224). -/
def entryDue (s : State) (e : SowEntry) : Nat := furrowAdd s.step.stepS e.dueRel

/-- Every field of the segment equals the entry's. -/
def entryMatches (g : Seg) (e : SowEntry) : Bool :=
  g.kind == e.kind && g.codec == e.codec && g.src == e.src && g.dst == e.dst && g.elements == e.elements &&
    g.pitch == e.pitch && (e.codec != 0 || g.bytes == e.bytes)

/-- The segment that an entry has claimed. -/
def claimedBy (s : State) (c i : Nat) : Option Buffered := (s.chan c).buffer.find? fun b => b.entry == some i

/-- Hold one buffered segment against the entries of the step (R224). -/
def tryClaim (s : State) (c : Nat) (b : Buffered) : State :=
  let g := b.seg
  match (List.zipIdx s.sowEntries).find? fun e =>
      e.1.chan == c && s.entryDue e.1 == g.due && e.1.layer == g.layer && e.1.tile == g.tile with
  | none => s
  | some (e, i) =>
    if b.entry.isSome || b.mismatch then s
    else if entryMatches g e then
      if (s.claimedBy c i).isSome then (s.incLive (F.MISMATCH.COUNT c) 1).freeSeg c g
      else
        let s := s.modSeg c g.sseq fun b => { b with entry := some i }
        { s with sow := { s.sow with digests := SMap.ins s.sow.digests i g.digest } }
    else ((s.modSeg c g.sseq fun b => { b with mismatch := true }).incLive (F.MISMATCH.COUNT c) 1).event 0x000A srcChannel c g.sseq

/-- Hold every buffered segment against the entries, as a step starts. -/
def claimAll (s : State) : State :=
  if s.sowEntries.isEmpty then s
  else (List.range 32).foldl (fun s c => (s.chan c).buffer.foldl (fun s b => s.tryClaim c b) s) s

/-- An entry has a present segment at a meridian count (R224, R225). -/
def entryHeld (s : State) (m : Nat) (e : SowEntry) (i : Nat) : Bool :=
  match s.claimedBy e.chan i with
  | some b => decide (b.seg.doneAt ≤ m)
  | none => false

/-- Entries due in step furrow k. -/
def entriesDue (s : State) (k : Nat) : List (SowEntry × Nat) := (List.zipIdx s.sowEntries).filter fun e => e.1.dueRel == k

def lockGroup (s : State) (c : Nat) : Nat := s.getF (F.SOW_CHAN_CFG.LOCK_GROUP c)

/-- The SOWN term for step furrow k at a meridian count (R23, R38): every due entry is held, and with it every due entry
on the channels of its lock group. -/
def sownTerm (s : State) (m k : Nat) : Bool :=
  let due := s.entriesDue k
  due.all fun e => s.entryHeld m e.1 e.2 &&
    (s.lockGroup e.1.chan == 0 || due.all fun f => s.lockGroup f.1.chan != s.lockGroup e.1.chan || s.entryHeld m f.1 f.2)

/-- R225: measure the margins of the entries due in step furrow k against the sampling point that grants it. -/
def measureLate (s : State) (m k : Nat) : State :=
  (s.entriesDue k).foldl (fun s e =>
    match s.claimedBy e.1.chan e.2 with
    | none => s
    | some b =>
      let c := e.1.chan
      let margin := m - b.seg.doneAt
      if margin < s.getF (F.SOW_CHAN_CFG.LEAD_FW c) * s.getF F.FURROW_CFG.FURROW_MT then
        (s.incLive (F.LATE.COUNT c) 1).event 0x0009 srcChannel c (b.seg.sseq + margin % 2 ^ 32 * 2 ^ 32)
      else s) s

/-- R223: discard the unclaimed segments due by furrow n. -/
def discardStale (s : State) (n : Nat) : State :=
  (List.range 32).foldl (fun s c =>
    ((s.chan c).buffer.filter fun b => b.entry.isNone && !furrowLater b.seg.due n).foldl (fun s b =>
      (s.incLive (F.STALE.COUNT c) 1).freeSeg c b.seg) s) s

/-- The segment's blocks wait for another segment of its lock group that is due in the same furrow (R38). -/
def groupWaits (s : State) (c : Nat) (b : Buffered) : Bool :=
  let g := s.lockGroup c
  g != 0 && (List.range 32).any fun d =>
    s.lockGroup d == g && (s.chan d).buffer.any fun o => o.entry.isSome && o.seg.due == b.seg.due && o.spent.isNone

/-- Return the blocks of the segments whose last grain has gone, group by group (R221, R38). -/
def returnSpent (s : State) : State :=
  let free := ((List.range 32).map fun c =>
    ((s.chan c).buffer.filter fun b => b.spent.isSome && !s.groupWaits c b).map fun b => (c, b.seg)).flatten
  free.foldl (fun s f => s.freeSeg f.1 f.2) s

/-- At a step's end the segments it claimed have served (R221). -/
def endClaims (s : State) : State :=
  let s := (List.range 32).foldl (fun s c =>
    ((s.chan c).buffer.filter fun b => b.entry.isSome).foldl (fun s b => s.freeSeg c b.seg) s) s
  { s with sow := { s.sow with digests := [] } }

/-- The claims of an abandoned step end with it: what is still buffered waits for the entries of a later one (R224). -/
def dropClaims (s : State) : State :=
  (List.range 32).foldl (fun s c =>
    s.setChan c { s.chan c with buffer := (s.chan c).buffer.map fun b => { b with entry := none, spent := none } }) s

/-- The sowing digest of the step (R234): the segment digests of its entries, in table order. -/
def sowDigest (s : State) : List Byte :=
  sha512 (((List.range s.sowEntries.length).map fun i => SMap.get [] s.sow.digests i).flatten)

/-- R235: an uncorrectable line of a sowing buffer in headland segment h. -/
def sowLineLost (s : State) (h off : Nat) : State :=
  let s := s.raise {
    code := 0x0107, srcType := srcHeadland, srcId := h, opUnit := opHeadland, detail := off % 2 ^ 36, unit := some (unitHeadland, h) }
  if s.inAttempt then
    if s.step.epochDone then s else ({ s with step := { s.step with epochDone := true } }).advanceEpoch
  else s.advanceEpoch

end State
end Sys2Proof.Machine
end

