-- ==== Sys2Proof/Machine/HarvestBase.lean ====
section
/-! DEFINITION. Gleaners, codecs, the residual store, harvest segments and the transmit area, the global norm and the harvest
digest (R242-R261). -/

namespace Sys2Proof.Machine

/-- A group header and its place in a program: REPEAT and the address of its first word. -/
structure GroupAt where
  start : Nat
  words : Nat
  times : Nat
  deriving DecidableEq, Repr

/-- The groups of a program of route structure, in order (R65, R66). -/
def groupsOf (mem : Nat → Nat) : Nat → Nat → List GroupAt
  | 0, _ => []
  | fuel + 1, a =>
    let w := mem a
    if wordKind w = 1 then ⟨a + 1, bitsOf w 0 8, bitsOf w 8 24⟩ :: groupsOf mem fuel (a + 1 + bitsOf w 0 8) else []

/-- Payload format of an entry (R248). -/
def HvEntry.fmt (e : HvEntry) : Nat :=
  if e.codec = 0 then 0 else if e.codec = 1 then 2 else if e.codec = 4 then e.passFmt else 0xE

/-- The header of a harvest segment (R253). -/
def HvSeg.header (g : HvSeg) : List Byte :=
  let w (xs : List Nat) : List Byte := wordsBytes xs
  let head := w [
    0x4A5E + g.kind * 2 ^ 16 + g.codec * 2 ^ 20 + g.fmt * 2 ^ 24 + g.bin * 2 ^ 28 + g.layer * 2 ^ 32,
    g.tile + g.hseq.getD 0 * 2 ^ 32, g.stepS + g.gleaner * 2 ^ 48, g.elements + g.payload.length * 2 ^ 32,
    g.sat + g.nonfin * 2 ^ 32, 0, crc64 g.payload] ++ leBytes 4 0
  head ++ leBytes 4 (crc32c head)

/-- The stream grains of a header and payload (R253). -/
def segGrains (header payload : List Byte) : List Grain :=
  (chunks 16 (padTo 16 (header ++ payload))).map fun b => BitVec.ofNat 128 (leNat b)

/-- Bytes a segment takes in the transmit area. -/
def HvSeg.size (g : HvSeg) : Nat := 64 + 16 * ceilDiv g.payload.length 16

/-- R260. -/
def HvSeg.digest (g : HvSeg) : List Byte := sha512 (g.header ++ g.payload)

namespace State

/-! ### Programs of the headlands (R227, R243) -/

def dispatchMem (s : State) (h a : Nat) : Nat := (SMap.get 0 s.plan.dispatch (h * 2 ^ 32 + a)).toNat
def gleanMem (s : State) (h a : Nat) : Nat := (SMap.get 0 s.plan.gleaner (h * 2 ^ 32 + a)).toNat
/-- The group in force in the present furrow of a headland's program. -/
def headGroup (s : State) (mem : Nat → Nat) (size : Nat) : Option Nat :=
  let e := mem s.step.program
  if bitOf e 32 then walkRoutes mem (size + 1) (bitsOf e 0 32) (s.step.granted - 1) else none
/-- Word `j` of the group in force. -/
def headWord (s : State) (mem : Nat → Nat) (size j : Nat) : Option Nat :=
  match s.headGroup mem size with
  | none => none
  | some a => if j < bitsOf (mem a) 0 8 then some (mem (a + 1 + j)) else none
def gleanWord (s : State) (h j : Nat) : Option Nat := s.headWord (s.gleanMem h) s.plan.gleaner.length j
def dispatchWord (s : State) (h j : Nat) : Option Nat := s.headWord (s.dispatchMem h) s.plan.dispatch.length j

def hvTable (s : State) : HvTable := SMap.get HvTable.zero s.plan.hvTab s.step.program
def hvEntry (s : State) (i : Nat) : Option HvEntry := s.hvTable.entries[i]?

/-! ### The transmit area (R256) -/

/-- Transmit area of headland h in bytes. -/
def txArea (s : State) (h : Nat) : Nat :=
  (s.getF (F.HL_PART.HARVEST_UNITS h) - 2 * s.getF (F.HV_SEG_CFG.RES_UNITS h)) * 2 ^ 26
/-- Bytes kept in it. -/
def txUsed (s : State) (h : Nat) : Nat := ((s.hv.kept.filter fun g => g.chan / 8 == h).map (·.size)).sum
/-- Segments of committed steps are kept. -/
def keepsSegs (s : State) : Bool := s.hv.kept.any (·.committed)
/-- Keep TX_FREE and KEPT_STEPS with the kept segments; beyond 255 steps the count stays at its end (log entry 66). -/
def showTx (s : State) : State :=
  let s := (List.range 4).foldl (fun s h => s.keepF (F.HV_SEG_STATUS.TX_FREE h) ((s.txArea h - s.txUsed h) / 4096)) s
  s.keepF F.HV_STATUS.KEPT_STEPS (min 255 (((s.hv.kept.filter (·.committed)).map (·.stepS)).eraseDups).length)
def setKept (s : State) (gs : List HvSeg) : State := ({ s with hv := { s.hv with kept := gs } }).showTx
/-- Queue a segment behind the others (R254). -/
def queueSeg (s : State) (g : HvSeg) : State := s.setKept (s.hv.kept ++ [g])
/-- Lowest enabled sowing channel (R258). -/
def normChannel (s : State) : Option Nat := (List.range 32).find? s.chanEnabled

/-! ### The residual store (R252) -/

def resKey (h copy off : Nat) : Nat := (2 * h + copy) * 2 ^ 40 + off
def resGran (h off : Nat) : Nat := h * 2 ^ 32 + off / 256
def resCurCopy (s : State) (h off : Nat) : Nat := b2n (NSet.mem s.hv.resCur (resGran h off))
/-- Bytes of the store as the step reads them (R194). -/
def resGet (s : State) (h off n : Nat) : List Byte :=
  (List.range n).map fun i =>
    let a := off + i
    let c := s.resCurCopy h a
    SMap.get 0 s.hv.residual (resKey h (if NSet.mem s.hv.resDirty (resGran h a) then 1 - c else c) a)
/-- The committed copy (R283 RES_OUT, R345). -/
def resCommitted (s : State) (h off n : Nat) : List Byte :=
  (List.range n).map fun i => SMap.get 0 s.hv.residual (resKey h (s.resCurCopy h (off + i)) (off + i))
/-- Write bytes of the store in a step (R194). -/
def resPut (s : State) (h off : Nat) (bs : List Byte) : State :=
  (List.zipIdx bs).foldl (fun s b =>
    let a := off + b.2
    let g := resGran h a
    let c := s.resCurCopy h a
    let s := if NSet.mem s.hv.resDirty g then s else
      let base := a / 256 * 256
      { s with hv := { s.hv with
          residual := SMap.setAll 0 s.hv.residual (resKey h (1 - c) base) (SMap.getAll 0 s.hv.residual (resKey h c base) 256),
          resDirty := NSet.insert s.hv.resDirty g } }
    { s with hv := { s.hv with residual := SMap.set 0 s.hv.residual (resKey h (1 - c) a) b.1 } }) s
/-- R252: the first half of the horizon close flips the map; an abandonment clears DIRTY. -/
def flipResidual (s : State) : State :=
  { s with hv := { s.hv with
      resCur := s.hv.resDirty.foldl (fun m g => if NSet.mem m g.1 then NSet.erase m g.1 else NSet.insert m g.1) s.hv.resCur,
      resDirty := [] } }
/-- Bytes of a gleaner's share (R252). -/
def resShare (s : State) (h : Nat) : Nat := s.getF (F.HV_SEG_CFG.RES_UNITS h) * 2 ^ 21

/-! ### Checks of the gleaners (R261) -/

/-- A gleaner check failure under CHECK_CFG.ACTION, its records limited per gleaner and step (R104, R261). -/
def gleanCheck (s : State) (g : Nat) (a : FaultArgs) : State :=
  let s := ({ s with step := { s.step with gleanFails := s.step.gleanFails + 1 } }).incLive (F.CHK_FAIL.COUNT g) 1
  let n := SMap.get 0 s.hv.records g
  let room := decide (n < s.getF F.CHECK_CFG.RECORD_LIMIT)
  let counted (s : State) : State := { s with hv := { s.hv with records := SMap.modify 0 s.hv.records g (· + 1) } }
  let a := { a with srcType := srcGleaner, srcId := g, opUnit := opGleaner, unit := some (unitGleaner, g) }
  if s.getF F.CHECK_CFG.ACTION = 1 then
    if room then (counted s).raise { a with abandons := false, recordedOnly := true } else s
  else
    -- Numbers from 2^16 on say that the abandoning failure has been recorded.
    let m := n % 2 ^ 16
    if n < 2 ^ 16 then
      ({ s with hv := { s.hv with records := SMap.ins s.hv.records g (2 ^ 16 + m) } }).raise a
    else if m < s.getF F.CHECK_CFG.RECORD_LIMIT then (counted s).raise a else s

/-- What only the residual path of a codec 3 entry can meet (R250, R251, R261). -/
def ofResidual : GleanMishap → Bool
  | .identity => true
  | .residualDirty _ => true
  | .residualCur _ => true
  | .residualMap _ => true
  | .benchCorr _ => false
  | .benchUncorr _ => false
  | .residue _ => false

/-- What a gleaner met (R251, R261). -/
def gleanMishap (s : State) (h g entry : Nat) (o : GleanMishap) : State :=
  let a : FaultArgs := { code := 0, srcType := srcGleaner, srcId := g, opUnit := opGleaner, unit := some (unitGleaner, g) }
  let hl : FaultArgs := { code := 0x0107, srcType := srcHeadland, srcId := h, opUnit := opHeadland, unit := some (unitHeadland, h) }
  match o with
  | .benchCorr b => (s.incF (F.BENCH_CORR.COUNT g) 1).correct (unitGleaner, g) { a with code := 0x0006, detail := b.toNat, unit := none }
  | .benchUncorr b => (s.incLive (F.BENCH_UNCORR.COUNT g) 1).raise { a with code := 0x0106, detail := b.toNat }
  | .residue b => s.gleanCheck g { a with code := 0x0208, detail := b.toNat }
  | .identity => s.gleanCheck g { a with code := 0x0209, detail := entry }
  | .residualDirty off => s.raise { hl with detail := off.toNat }
  | .residualCur off => (s.raise { hl with detail := off.toNat + 2 ^ 36 }).horizonLost none
  | .residualMap w => (s.raise { hl with code := 0x0108, detail := w.toNat + 2 ^ 17 }).horizonLost none

/-! ### Gathers (R244) -/

def benchAt (s : State) (g b : Nat) : Cell :=
  (SMap.find? s.hv.bench (g * 2 ^ 16 + b % 2 ^ 16)).getD ⟨Config.benchResidue g (b % 2 ^ 16), false⟩
def benchPut (s : State) (g b : Nat) (c : Cell) : State :=
  { s with hv := { s.hv with bench := SMap.ins s.hv.bench (g * 2 ^ 16 + b % 2 ^ 16) c } }

/-- Add the four binary32 elements of two grains (R139). -/
def addGrains (a b : Grain) : Grain :=
  (List.range 4).foldl (fun x i =>
    x ||| ((f32add (BitVec.ofNat 32 (a.toNat >>> (32 * i))) (BitVec.ofNat 32 (b.toNat >>> (32 * i)))).setWidth 128 <<< (32 * i))) 0

/-- It is the turn of word `j` of headland `h`'s group: between a granted boundary and the next the words of a group run once each,
in program order, and a gleaner does nothing in a held or withheld furrow (R243, R263). -/
def gleanTurn (s : State) (h j : Nat) : Bool :=
  s.running && decide (0 < s.step.granted) && !s.step.judged && SMap.get 0 s.hv.pos h == j
/-- Its turn is over. -/
def gleanPast (s : State) (h j : Nat) : State := { s with hv := { s.hv with pos := SMap.set 0 s.hv.pos h (j + 1) } }

/-- A gather word of headland `h` with operation `op` (0 START, 1 ADD, 2 PASS). -/
def gather (s : State) (h j op : Nat) (obs : List GleanMishap) : State :=
  if s.gleanTurn h j then
    match s.gleanWord h j with
    | none => s
    | some w =>
      if wordKind w ≠ 2 ∨ bitsOf w 23 2 ≠ op then s
      else
        let s := s.gleanPast h j
        let link := bitsOf w 0 6
        let n := bitsOf w 12 6
        let g := 32 * h + bitsOf w 18 5
        let bench := bitsOf w 25 16
        let tag := s.furrowBefore 2
        let page := SMap.get FPage.zero s.fab.edge (edgeKey h link tag)
        let at0 (i : Nat) : Option Cell := if page.tag = tag ∧ page.complete then SMap.find? page.grains (bitsOf w 6 6 + i) else none
        if (List.range n).any fun i => (at0 i).isNone then
          s.raise { code := 0x0402, srcType := srcHeadland, srcId := h, opUnit := opGleaner, detail := h + page.tag * 4,
                    unit := some (unitHeadland, h) }
        else
          let cs := (List.range n).filterMap at0
          let bad := (cs.filter (·.poison)).length
          let s := (s.incF (F.GRAINS_GATHERED.COUNT g) n).incLive (F.POISON.COUNT g) bad
          let s := (List.zipIdx cs).foldl (fun s c =>
            let b := bench + c.2
            if op = 1 then
              let old := s.benchAt g b
              s.benchPut g b ⟨addGrains old.val c.1.val, old.poison || c.1.poison⟩
            else s.benchPut g b c.1) s
          (obs.filter fun o => !ofResidual o).foldl (fun s o => s.gleanMishap h g 0 o) s
  else s

/-! ### The norm (R258) -/

/-- Add s² of an element to a gleaner's accumulator for a bin: units of 2^−298, and the counts. -/
def normAdd (s : State) (bin g : Nat) (x : BitVec 32) : State :=
  if bin = 0 then s
  else
    let k := 128 * bin + g
    let a := SMap.get (0, 0, 0, false, false) s.hv.norm k
    let v := match ofF32 x with
      | .fin _ m e => (a.1 + m * m * 2 ^ (2 * e + 298).toNat, a.2.1 + 1, a.2.2.1, a.2.2.2.1, a.2.2.2.2)
      | .inf _ => (a.1, a.2.1 + 1, a.2.2.1 + 1, a.2.2.2.1, true)
      | .nan => (a.1, a.2.1 + 1, a.2.2.1 + 1, true, a.2.2.2.2)
    { s with hv := { s.hv with norm := SMap.ins s.hv.norm k v } }

/-- A bin of the step: the sum rounded once to binary64, elements, non-finite elements. -/
def normBin (s : State) (b : Nat) : Nat × Nat × Nat :=
  let gs := (List.range 128).map fun g => SMap.get (0, 0, 0, false, false) s.hv.norm (128 * b + g)
  let v : Fv := if gs.any (·.2.2.2.1) then .nan else if gs.any (·.2.2.2.2) then .inf false
    else .fin false (gs.map (·.1)).sum (-298)
  ((encodeF fBinary64 .rne v).bits, (gs.map (·.2.1)).sum, (gs.map (·.2.2.1)).sum)

/-- R258: in furrow NORM_REL the module forms the norm segment, ahead of the step's unsent gradient segments. -/
def formNorm (s : State) : State :=
  if s.hvTable.normRel = some (s.step.granted - 1) then
    match s.normChannel with
    | none => s
    | some c =>
      let bins := (List.range 15).map fun b => s.normBin (b + 1)
      let g : HvSeg := {
        chan := c, stepS := s.step.stepS, kind := 2, codec := 0, fmt := 0, bin := 0, layer := 0, tile := 0, gleaner := 0,
        elements := 0, sat := 0, nonfin := 0, payload := wordsBytes ((bins.map fun b => [b.1, b.2.1, b.2.2]).flatten),
        hseq := none, committed := false }
      let mine (x : HvSeg) : Bool := x.chan == c && x.stepS == s.step.stepS && x.hseq.isNone
      let s := { s with step := { s.step with norm := some bins } }
      s.setKept (s.hv.kept.takeWhile (fun x => !mine x) ++ g :: s.hv.kept.dropWhile fun x => !mine x)
  else s

/-! ### Emit words (R245, R248, R249) -/

/-- The generator of a gleaner (R242). -/
def gleanRng (s : State) (g : Nat) : Nat := (SMap.find? s.hv.rng g).getD (rngInit s.step.seed (0x1000000 + g))
def gleanDraw (s : State) (g n : Nat) : List Nat × State :=
  let r := rngDraw n (s.gleanRng g)
  (r.1, { s with hv := { s.hv with rng := SMap.ins s.hv.rng g r.2 } })
/-- One word for each of `n` elements under stochastic rounding, none under round-to-nearest-even (R125). -/
def gleanWords (s : State) (g n : Nat) (rnd : Bool) : List (Option Nat) × State :=
  if rnd then
    let r := s.gleanDraw g n
    (r.1.map some, r.2)
  else (List.replicate n none, s)
def roundOf (w : Option Nat) : Round := w.elim .rne .sr

/-- The four elements of a bench grain: a poisoned grain reads as canonical NaNs (R261). -/
def grainElems (c : Cell) : List (BitVec 32) :=
  (List.range 4).map fun i => if c.poison then 0x7FC00000 else BitVec.ofNat 32 (c.val.toNat >>> (32 * i))

/-- The bytes of a passed grain (R261). -/
def passBytes (fmt : Nat) (c : Cell) : List Byte :=
  let nan (w x : Nat) : List Byte := packElems w (List.replicate (128 / w) x)
  if !c.poison then leBytes 16 c.val.toNat
  else if fmt = 0 then nan 32 0x7FC00000
  else if fmt = 1 then nan 16 0x7E00
  else if fmt = 2 then nan 16 0x7FC0
  else if fmt = 3 then nan 8 0x7F
  else if fmt = 4 then nan 8 0x7E
  else if fmt = 0xE then leBytes 16 (b16Encode (List.replicate 16 .rne) (List.replicate 16 .nan)).1
  else leBytes 16 c.val.toNat

/-- The residual of an element after its block (R249): q and X of the block, v and the old residual. -/
def residualAfter (block : Nat) (i : Nat) (v old : BitVec 32) : BitVec 32 :=
  let x := block % 256
  let q := signedOf 7 (bitsOf block (7 * i + 8) 7)
  if x = 255 then (if f32finite v then v else old)
  else toF32 ((ofF32 v).add (.fin (decide (0 < q)) q.natAbs ((x : Int) - 133)))

/-- Encode one B16 block of an entry, with its residuals where the codec has them: the block's bytes, whether it saturated,
its non-finite elements. `first` is the index of its first element; each element brings the word it took. -/
def emitBlock (s : State) (h : Nat) (e : HvEntry) (first : Nat) (els : List (BitVec 32 × Option Nat)) :
    (List Byte × Nat × Nat) × State :=
  let xs := els.map (·.1)
  let off := e.gleaner * s.resShare h + e.resOffset + 4 * first
  let rs := (List.range 16).map fun i => BitVec.ofNat 32 (leNat (s.resGet h (off + 4 * i) 4))
  let vs := if e.codec = 3 then List.zipWith f32add xs rs else xs
  let b := b16Encode (els.map fun x => roundOf x.2) (vs.map ofF32)
  let s := if e.codec = 3 then
      s.resPut h off (((List.zipIdx (List.zip vs rs)).map fun p =>
        leBytes 4 (residualAfter b.1 p.2 p.1.1 p.1.2).toNat).flatten)
    else s
  ((leBytes 16 b.1, b2n (Nat.testBit b.1 120), (b.2.filter (·.nonfin)).length), s)

/-- Encode elements into an open segment. -/
def emitElems (s : State) (h g : Nat) (e : HvEntry) (x : OpenSeg) (els : List (BitVec 32)) : OpenSeg × State :=
  let s := els.foldl (fun s v => s.normAdd e.bin g v) s
  if e.codec = 0 then
    ({ x with payload := x.payload ++ (els.map fun v => leBytes 4 (toF32 (ofF32 v)).toNat).flatten,
              nonfin := x.nonfin + (els.filter fun v => !f32finite v).length }, s)
  else if e.codec = 1 then
    let d := s.gleanWords g els.length e.rnd
    let cs := List.zipWith (fun r v => (convElem 2 (roundOf r) (ofF32 v)).bits) d.1 els
    ({ x with payload := x.payload ++ (cs.map (leBytes 2)).flatten,
              nonfin := x.nonfin + (cs.filter fun c => !(decodeF fBf16 c).finite).length }, d.2)
  else
    let d := s.gleanWords g els.length e.rnd
    let all := x.pend ++ List.zip els d.1
    let whole := (chunks 16 all).filter fun b => b.length == 16
    whole.foldl (fun (r : OpenSeg × State) b =>
      let o := r.2.emitBlock h e r.1.payload.length b
      ({ r.1 with payload := r.1.payload ++ o.1.1, sat := r.1.sat + o.1.2.1, nonfin := r.1.nonfin + o.1.2.2 }, o.2))
      ({ x with pend := all.drop (16 * whole.length) }, d.2)

/-- Saturated B16 blocks and non-finite elements in the bytes of a passed grain (R253). Of a scaled or integer format neither is counted:
its grains do not say where the scales stand (log entry 66). -/
def passCounts (fmt : Nat) (bs : List Byte) : Nat × Nat :=
  if fmt = 0xE then
    let x := leNat bs
    (b2n (Nat.testBit x 120), ((b16Decode x).filter fun v => !v.finite).length)
  else if fmt < 5 then
    let w := elemBits fmt
    (0, ((List.range (128 / w)).filter fun i => !(elemValue fmt (packedElem w bs i)).finite).length)
  else (0, 0)

/-- Pass one grain into an open segment. -/
def passGrain (fmt : Nat) (x : OpenSeg) (c : Cell) : OpenSeg :=
  let bs := passBytes fmt c
  let n := passCounts fmt bs
  { x with payload := x.payload ++ bs, sat := x.sat + n.1, nonfin := x.nonfin + n.2 }

def openSeg (s : State) (i : Nat) : OpenSeg := SMap.get ⟨0, [], 0, 0, 0, 0, []⟩ s.hv.segs i

/-- An emit word of headland `h`. -/
def emitWord (s : State) (h j : Nat) (obs : List GleanMishap) : State :=
  if s.gleanTurn h j then
    match s.gleanWord h j with
    | none => s
    | some w =>
      match s.hvEntry (bitsOf w 0 18) with
      | none => s
      | some e =>
        if wordKind w ≠ 5 then s
        else
          let s := s.gleanPast h j
          let i := bitsOf w 0 18
          let g := 32 * h + bitsOf w 18 5
          let n := bitsOf w 39 9
          let cs := (List.range n).map fun k => s.benchAt g (bitsOf w 23 16 + k)
          let x := s.openSeg i
          let x := { x with head := h, grains := x.grains + n, words := x.words + 1 }
          let r := if e.codec = 4 then (cs.foldl (passGrain e.passFmt) x, s)
            else s.emitElems h g e x (cs.map grainElems).flatten
          let count := if e.codec = 4 then n * (if e.passFmt = 0xE then 16 else 128 / elemBits e.passFmt) else 4 * n
          let s := { r.2 with hv := { r.2.hv with segs := SMap.ins r.2.hv.segs i r.1 } }
          let s := s.incF (F.ELEMENTS_EMITTED.COUNT g) count
          let s := s.incF (F.B16_SAT.COUNT g) (r.1.sat - x.sat)
          let s := s.incF (F.NONFINITE.COUNT g) (r.1.nonfin - x.nonfin)
          (obs.filter fun o => e.codec == 3 || !ofResidual o).foldl (fun s o => s.gleanMishap h g i o) s
  else s

/-- Emit words that name an entry, over the whole program of headland `h` (R245). -/
def emitCount (s : State) (h i : Nat) : Nat :=
  let mem := s.gleanMem h
  ((groupsOf mem (s.plan.gleaner.length + 1) (bitsOf (mem s.step.program) 0 32)).map fun g =>
    g.times * (((List.range g.words).map fun k => mem (g.start + k)).filter fun w =>
      wordKind w == 5 && bitsOf w 0 18 == i).length).sum

/-- At the end of a furrow the segments whose last emit word it held are complete, and the gleaners queue them in ascending
order of gleaner and then entry index (R245, R254). -/
def completeSegs (s : State) : State :=
  let done := s.hv.segs.filter fun x => decide (x.2.words = s.emitCount x.2.head x.1)
  let order : SMap (Nat × OpenSeg) := done.foldl (fun m x =>
    let k := (s.hvEntry x.1).elim 0 (·.gleaner)
    SMap.ins m ((32 * x.2.head + k) * 2 ^ 18 + x.1) x) []
  let s := { s with hv := { s.hv with segs := s.hv.segs.filter fun x => !(done.any fun d => d.1 == x.1) } }
  order.foldl (fun s o =>
    let x := o.2.2
    let g := o.1 / 2 ^ 18
    match s.hvEntry o.2.1 with
    | none => s
    | some e => s.queueSeg {
        chan := g / 4, stepS := s.step.stepS, kind := 1, codec := e.codec, fmt := e.fmt, bin := e.bin, layer := e.layer,
        tile := e.tile, gleaner := g, elements := e.elements, sat := x.sat, nonfin := x.nonfin, payload := x.payload,
        hseq := none, committed := false }) s

/-! ### Step start, horizon, abandonment (R242, R256-R260) -/

/-- What a step start clears in the gleaners (R242). -/
def startGleaners (s : State) : State :=
  { s with hv := { s.hv with bench := [], segs := [], norm := [], rng := [], records := [], pos := [] } }

/-- GL_STATUS.ACTIVE of the gleaners whose headland has the program. -/
def showGleaners (s : State) (on : Bool) : State :=
  (List.range 4).foldl (fun s h =>
    if bitOf (s.gleanMem h s.step.program) 32 then
      (List.range 32).foldl (fun s k => s.keepF (F.GL_STATUS.ACTIVE (32 * h + k)) (b2n on)) s
    else s) s

/-- Number the step's segments of a channel that have not begun, in the order in which they will (R254, R260). -/
def numberSegs (stepS c : Nat) : Nat → List HvSeg → List HvSeg
  | _, [] => []
  | n, g :: gs =>
    if g.chan = c ∧ g.stepS = stepS ∧ g.hseq.isNone then { g with hseq := some n } :: numberSegs stepS c (n + 1) gs
    else g :: numberSegs stepS c n gs

/-- Segments of a step that have begun on a channel. -/
def begunCount (s : State) (stepS c : Nat) : Nat :=
  (s.hv.kept.filter fun g => g.chan == c && g.stepS == stepS && g.hseq.isSome).length

/-- The harvest digest of a step (R260): the digests of its gradient and norm segments, by channel and HSEQ. -/
def hvDigest (s : State) (stepS : Nat) : List Byte :=
  let per (c : Nat) : List Byte :=
    let gs := numberSegs stepS c (s.begunCount stepS c) s.hv.kept
    let mine : SMap HvSeg := (gs.filter fun g => g.chan == c && g.stepS == stepS && (g.kind == 1 || g.kind == 2)).foldl
      (fun m g => SMap.ins m (g.hseq.getD 0) g) []
    (mine.map fun x => x.2.digest).flatten
  sha512 ((List.range 32).map per).flatten

/-- R257: mark the step's segments committed and queue a trailer on every enabled channel. -/
def queueTrailers (s : State) (digest : List Byte) : State :=
  let st := s.step.stepS
  let s := (List.range 32).foldl (fun s c =>
    if s.chanEnabled c then
      s.queueSeg {
        chan := c, stepS := st, kind := 3, codec := 0, fmt := 0, bin := 0, layer := 0, tile := 0, gleaner := 0, elements := 0,
        sat := 0, nonfin := 0, payload := digest, hseq := none, committed := false }
    else s) s
  s.setKept (s.hv.kept.map fun g => if g.stepS = st then { g with committed := true } else g)

/-- R257, R263: an abandonment drops the step's segments; one already on the lanes completes. -/
def dropSegs (s : State) : State :=
  let st := s.step.stepS
  let s := { s with hv := { s.hv with
      segs := [], resDirty := [], abandonedS := st,
      tx := (s.hv.tx.map fun (t : Nat × TxSt) =>
        (t.1, { t.2 with resend := t.2.resend.filter fun r => r.1 != st })).filter fun t => decide (t.2 ≠ TxSt.zero) } }
  s.setKept (s.hv.kept.filter fun g => g.stepS != st)

/-- HV_RELEASE (R256): forget every committed step at or before a STEP_S. -/
def releaseSteps (s : State) (st : Nat) : State :=
  let s := s.setKept (s.hv.kept.filter fun g => !(g.committed && !furrowLater g.stepS st))
  { s with hv := { s.hv with
      tx := (s.hv.tx.map fun (t : Nat × TxSt) =>
        (t.1, { t.2 with resend := t.2.resend.filter fun r => s.hv.kept.any fun g => g.stepS == r.1 })).filter fun t =>
          decide (t.2 ≠ TxSt.zero) } }

def tx (s : State) (c : Nat) : TxSt := SMap.get TxSt.zero s.hv.tx c
def setTx (s : State) (c : Nat) (x : TxSt) : State := { s with hv := { s.hv with tx := SMap.set TxSt.zero s.hv.tx c x } }

/-- HV_RESEND (R256). -/
def resendSegs (s : State) (c hseq : Nat) : State :=
  let st := s.getF F.HV_RESEND_STEP.STEP_S
  if s.hv.kept.any fun g => g.stepS == st then
    let again := (s.hv.kept.filter fun g => g.stepS == st && g.chan == c && (match g.hseq with
      | some n => decide (hseq ≤ n)
      | none => false)).map fun g => (st, g.hseq.getD 0)
    let x := s.tx c
    s.setTx c { x with resend := x.resend ++ again }
  else s.event 0x000D srcChannel c st

/-- R256: a step of program j would queue more than a headland's transmit area has free. An evaluation queues nothing, and is refused
with the others where the area has size 0 (R262). -/
def txTooSmall (s : State) (j : Nat) (eval : Bool) : Bool :=
  (List.range 4).any fun h =>
    let need := SMap.get 0 s.plan.txMax (4 * j + h)
    if eval then decide (s.txArea h = 0) && decide (need ≠ 0) else decide (s.getF (F.HV_SEG_STATUS.TX_FREE h) * 4096 < need)

end State
end Sys2Proof.Machine
end

