-- ==== Sys2Proof/Machine/Rs.lean ====
section
/-! DEFINITION. The Reed–Solomon code RS(255, 240) of the lanes (R214): field polynomial x^8 + x^4 + x^3 + x^2 + 1, roots
α^0 to α^14, α = 2. The first byte of a codeword is the coefficient of x^254 (log entry 31). A bounded-distance decoder
corrects up to seven symbols. -/

namespace Sys2Proof.Machine

/-- Multiplication by α. -/
def gfX (a : Nat) : Nat := if 128 ≤ a then (2 * a) ^^^ 0x11D else 2 * a
def gfMulLoop : Nat → Nat → Nat → Nat → Nat
  | 0, _, _, acc => acc
  | n + 1, a, b, acc => gfMulLoop n (gfX a) (b / 2) (if b % 2 = 1 then acc ^^^ a else acc)
/-- Product in GF(2^8). -/
def gfMul (a b : Nat) : Nat := gfMulLoop 8 a b 0
def gfPow (a : Nat) : Nat → Nat
  | 0 => 1
  | n + 1 => gfMul a (gfPow a n)
/-- Inverse: a^254. -/
def gfInv (a : Nat) : Nat :=
  let a2 := gfMul a a
  let a4 := gfMul a2 a2
  let a8 := gfMul a4 a4
  let a16 := gfMul a8 a8
  let a32 := gfMul a16 a16
  let a64 := gfMul a32 a32
  let a128 := gfMul a64 a64
  gfMul a128 (gfMul a64 (gfMul a32 (gfMul a16 (gfMul a8 (gfMul a4 a2)))))

/-- Value of a polynomial, highest coefficient first. -/
def gfHorner (x : Nat) (cs : List Nat) : Nat := cs.foldl (fun a c => gfMul a x ^^^ c) 0
/-- Value of a polynomial, lowest coefficient first. -/
def gfEval (x : Nat) (p : List Nat) : Nat := gfHorner x p.reverse
/-- Sum of two polynomials, lowest coefficient first. -/
def gfAdd : List Nat → List Nat → List Nat
  | [], q => q
  | p, [] => p
  | a :: p, b :: q => (a ^^^ b) :: gfAdd p q
def gfScale (k : Nat) (p : List Nat) : List Nat := p.map (gfMul k)
/-- α^i for i = 0 to 254, from α^start. -/
def gfPowers : Nat → Nat → List Nat
  | 0, _ => []
  | n + 1, x => x :: gfPowers n (gfX x)

/-- Berlekamp–Massey over the syndromes: locator, with the length it claims. -/
def bmLoop (syn : List Nat) : Nat → Nat → List Nat → List Nat → Nat → Nat → Nat → List Nat × Nat
  | 0, _, c, _, l, _, _ => (c, l)
  | fuel + 1, n, c, b, l, m, bb =>
    let d := (List.range (l + 1)).foldl (fun a i => a ^^^ gfMul (c.getD i 0) (if i ≤ n then syn.getD (n - i) 0 else 0)) 0
    if d = 0 then bmLoop syn fuel (n + 1) c b l (m + 1) bb
    else
      let t := gfAdd c (List.replicate m 0 ++ gfScale (gfMul d (gfInv bb)) b)
      if 2 * l ≤ n then bmLoop syn fuel (n + 1) t c (n + 1 - l) 1 d
      else bmLoop syn fuel (n + 1) t b l (m + 1) bb

/-- Decode one codeword of 255 bytes: the 240 payload bytes and the number of corrected symbols, or none. -/
def rsDecode (cw : List Byte) : Option (List Byte × Nat) :=
  let r := cw.map BitVec.toNat
  let syn := (gfPowers 15 1).map fun x => gfHorner x r
  if syn.all (· == 0) then some (cw.take 240, 0)
  else
    let s := bmLoop syn 15 0 [1] [1] 0 1 1
    let loc := s.1
    if 7 < s.2 then none
    else
      let pows := gfPowers 255 1
      -- position j (exponent of x) is in error when α^(−j) is a root of the locator
      let errs := (List.range 255).filter fun j => gfEval (pows.getD ((255 - j) % 255) 1) loc == 0
      if errs.length ≠ s.2 then none
      else
        let omega := (List.range 15).map fun k =>
          (List.range (k + 1)).foldl (fun a i => a ^^^ gfMul (loc.getD i 0) (syn.getD (k - i) 0)) 0
        let deriv := (List.range loc.length).filterMap fun i =>
          if i = 0 then none else some (if i % 2 = 1 then loc.getD i 0 else 0)
        let fixed := errs.foldl (fun (r : List Nat) j =>
          let xi := pows.getD ((255 - j) % 255) 1
          let xj := pows.getD j 1
          let e := gfMul xj (gfMul (gfEval xi omega) (gfInv (gfEval xi deriv)))
          r.set (254 - j) (r.getD (254 - j) 0 ^^^ e)) r
        let syn' := (gfPowers 15 1).map fun x => gfHorner x fixed
        if syn'.all (· == 0) then some ((fixed.take 240).map (BitVec.ofNat 8), s.2) else none

/-- Product of (x − α^i) for i below n, lowest coefficient first. -/
def rsGen : Nat → Nat → List Nat
  | 0, _ => [1]
  | n + 1, x => let p := rsGen n (gfX x); gfAdd (0 :: p) (gfScale x p)
/-- The codeword of 240 payload bytes: payload, then the fifteen check bytes. -/
def rsEncode (msg : List Byte) : List Byte :=
  let g := ((rsGen 15 1).reverse).drop 1
  let rem := msg.foldl (fun (reg : List Nat) b =>
    let k := b.toNat ^^^ reg.headD 0
    gfAdd (reg.drop 1 ++ [0]) (gfScale k g)) (List.replicate 15 0)
  msg ++ rem.map (BitVec.ofNat 8)

end Sys2Proof.Machine
end

