-- ==== Sys2Proof/Machine/TwinBase.lean ====
section
/-! DEFINITION. The key list, leases and who is in charge, the module's role, and the twin messages that wait (R355-R360,
R419). -/

namespace Sys2Proof.Machine

/-! ### Leases as bytes (R355) -/

def Lease.ofBytes (raw : List Byte) : Lease := {
  role := (raw.getD 6 0).toNat, seq := wordField raw 2 0 64, issue := wordField raw 3 0 64, expiry := wordField raw 4 0 64,
  twinSerial := wordField raw 5 0 64, twinKey := (raw.drop 48).take 32, raw := raw }

def Lease.serial (l : Lease) : Nat := wordField l.raw 1 0 64
def Lease.key (l : Lease) : List Byte := (l.raw.drop 96).take 32
/-- MAGIC, VERSION and the reserved bytes of R355. -/
def Lease.formOk (l : Lease) : Bool :=
  l.raw.length == 192 && wordField l.raw 0 0 32 == 0x7E45A5E1 && wordField l.raw 0 32 16 == 1 && l.raw.getD 7 0 == 0 &&
    (l.raw.drop 80).take 16 == zeroBytes 16
/-- The signature of bytes 0 to 127 verifies with LEASE_KEY. -/
def Lease.signed (l : Lease) : Bool := Ed25519.verify l.key (l.raw.take 128) (l.raw.drop 128)

namespace State

/-! ### The key list in force (R419) -/

def keySeq (s : State) : Nat := wordField s.obs.keys 2 0 64
def planKeyCount (s : State) : Nat := wordField s.obs.keys 3 0 8
def leaseKeyCount (s : State) : Nat := wordField s.obs.keys 3 8 8
/-- The owner key; none while the slot is empty. -/
def ownerKey (s : State) : Option (List Byte) :=
  let k := (s.obs.keys.drop 32).take 32
  if k.length = 32 ∧ k ≠ zeroBytes 32 then some k else none
def planKeys (s : State) : List (List Byte) :=
  (List.range s.planKeyCount).map fun i => (s.obs.keys.drop (64 + 32 * i)).take 32
def leaseKeys (s : State) : List (List Byte) :=
  (List.range s.leaseKeyCount).map fun i => (s.obs.keys.drop (576 + 32 * i)).take 32

/-! ### Validity and charge (R356, R357) -/

def isPaired (s : State) : Bool := s.getF F.MODE_CFG.PAIRED == 1
def roleAgrees (s : State) (role : Nat) : Bool := if s.isPaired then role == 1 || role == 2 else role == 0

/-- A lease fits now: its key is enrolled, its role agrees with PAIRED, lock is held and the time fits (R356). -/
def leaseFits (s : State) (l : Lease) : Bool :=
  s.leaseKeys.contains l.key && s.roleAgrees l.role && s.locked && decide (l.issue ≤ s.meridian) && decide (s.meridian < l.expiry)
/-- Its LEASE_SEQ passes every accepted one, or it is the newest accepted (R356). -/
def leaseNewest (s : State) (l : Lease) : Bool :=
  s.twin.newest.all fun n => decide (n.seq < l.seq) || (n.seq == l.seq && n.raw == l.raw)
/-- A lease held is valid now (R356). -/
def leaseValid (s : State) (l : Lease) : Bool := s.leaseFits l && s.leaseNewest l

def validOf (s : State) (l : Option Lease) : Option Lease := l.filter s.leaseValid

/-- The newest valid lease that a controller holds; north's when both hold the same. -/
def heldLease (s : State) : Option Lease :=
  match s.validOf s.twin.north, s.validOf s.twin.south with
  | some a, some b => if a.seq < b.seq then some b else some a
  | some a, none => some a
  | none, b => b

/-- The newest lease held, valid or not: what the status registers name (R366). -/
def newestHeld (s : State) : Option Lease :=
  match s.twin.north, s.twin.south with
  | some a, some b => if a.seq < b.seq then some b else some a
  | some a, none => some a
  | none, b => b

def hasLease (s : State) : Bool := s.heldLease.isSome

/-- The controller in charge: 0 north, 1 south. A lost controller is not in charge (R393). -/
def inCharge (s : State) : Nat :=
  if s.controllerLost 0 then 1
  else if s.controllerLost 1 then 0
  else match s.validOf s.twin.north, s.validOf s.twin.south with
    | some a, some b => if a.seq < b.seq then 1 else 0
    | none, some _ => 1
    | _, none => 0

/-- The module's role: 0 solo, 1 lead, 2 standby, 3 none. -/
def role (s : State) : Nat := s.heldLease.elim 3 (·.role)

/-- A standby follows its lead's furrows: TWIN_LOCK is set and the held lease names a standby (R39). -/
def followsTwin (s : State) : Bool := s.getF F.FURROW_CFG.TWIN_LOCK == 1 && s.role == 2

/-- R358: the twin holds a newer lead lease. -/
def superseded (s : State) : Bool :=
  match s.twin.twinLease, s.heldLease with
  | some t, some l => decide (l.seq < t.seq)
  | some _, none => true
  | none, _ => false

/-- The twin role forbids a step command (R358, R360). -/
def roleForbids (s : State) : Bool := s.role == 2 || s.superseded || s.twin.equalLead

/-- R356: why a lease is refused, if it is: the reasons of 0x0703. -/
def leaseRefusal (s : State) (l : Lease) : Option Nat :=
  if !l.formOk || !l.signed then some 1
  else if !s.leaseKeys.contains l.key then some 2
  else if l.serial ≠ s.man.serial then some 3
  else if !s.roleAgrees l.role then some 4
  else if !(s.locked && decide (l.issue ≤ s.meridian) && decide (s.meridian < l.expiry)) then some 5
  else match s.twin.newest with
    | none => none
    | some n => if l.seq < n.seq ∨ (l.seq = n.seq ∧ l.raw ≠ n.raw) then some 6 else none

/-- A lease record (R358): not classifiable. -/
def leaseRecord (s : State) (code detail : Nat) (abandons : Bool := false) : State :=
  s.raise { code := code, srcType := srcModule, srcId := 0, detail := detail, abandons := abandons, classifiable := false }

/-- 0x0703 with its reason and LEASE_SEQ. -/
def leaseBad (s : State) (reason seq : Nat) (abandons : Bool := false) : State :=
  s.leaseRecord 0x0703 (reason + seq % 2 ^ 48 * 2 ^ 16) abandons

/-! ### Twin messages (R359) -/

end State

/-- Message type. -/
def TwinBody.type : TwinBody → Nat
  | .notice _ _ _ _ => 1
  | .ackLedger _ => 2
  | .ackParcel _ => 2
  | .lease _ => 3
  | .parcel _ _ => 4
  | .manifest _ => 5
  | .ledger _ => 6
  | .heartbeat _ => 7
  | .horizon _ _ => 8

/-- The fields and the bytes that a message carries. -/
def TwinBody.fields : TwinBody → List Nat
  | .notice i b mt phase => [i, b, mt, phase]
  | .ackLedger stepS => [0, stepS]
  | .ackParcel key => [1, key]
  | .lease _ => []
  | .parcel key _ => [key]
  | .manifest _ => []
  | .ledger _ => []
  | .heartbeat acks => acks
  | .horizon stepS committed => [stepS, if committed then 1 else 0]
def TwinBody.content : TwinBody → List Byte
  | .parcel _ d => d
  | .manifest b => b
  | .ledger b => b
  | .lease b => b
  | _ => []

/-- The payload of a message: its layout is open (log entry 29). -/
def TwinBody.payload (b : TwinBody) : List Byte := Config.twinPayload b.type b.fields b.content

/-- A message's 64-byte header: MAGIC, TYPE, LENGTH, sequence, payload CRC-64, and CRC-32C over bytes 0 to 59 (R359). -/
def TwinBody.header (b : TwinBody) (seq : Nat) : List Byte :=
  let head := wordsBytes [0x7A11 + b.type * 2 ^ 16 + b.payload.length * 2 ^ 32, seq, 0, 0, 0, 0, crc64 b.payload] ++ leBytes 4 0
  head ++ leBytes 4 (crc32c head)

/-- The grains of a message: its header and its payload, padded to a grain. -/
def TwinBody.bytes (b : TwinBody) (seq : Nat) : List Byte := b.header seq ++ padTo 16 b.payload
def TwinBody.grains (b : TwinBody) : Nat := 4 + ceilDiv b.payload.length 16

/-- Lane k's block of a superblock of 240 grains: its marker and one codeword over the grains that travel on it, q on lane q mod 16
(R214, R215, R359). -/
def twinBlock (grains : List (List Byte)) (k : Nat) : List Byte :=
  BitVec.ofNat 8 (0xB0 + k) ::
    rsEncode (((List.range 15).map fun i => grains.getD (16 * i + k) (zeroBytes 16)).flatten)

/-- R359: the order in which a superblock serves the types. -/
def twinOrder : List Nat := [1, 2, 8, 3, 7, 6, 5, 4]

namespace State

/-- Queue a message for the twin; without one nothing is sent. -/
def twinSend (s : State) (b : TwinBody) : State :=
  if s.isPaired then
    { s with twin := { s.twin with
        queue := s.twin.queue ++ [⟨b, s.twin.nextSeq, b.grains, none⟩], nextSeq := (s.twin.nextSeq + 1) % 2 ^ 64 } }
  else s

end State
end Sys2Proof.Machine
end

