-- ==== Sys2Proof/Machine/Ckpt.lean ====
section
/-! DEFINITION. Kept parcels, the checkpoint snapshot, exposure, the drain, the manifest and the ledger area (R344-R352). -/

namespace Sys2Proof.Machine

/-- The key of a parcel: its place in the order of R348, by TILE, LAYER and ELEMENTS, with the residual store behind every
plot. -/
def parcelKey (layer tile elements : Nat) : Nat :=
  ((if layer = 9 then 2 ^ 24 + tile else tile) * 16 + layer) * 2 ^ 32 + elements

/-- LAYER, TILE and ELEMENTS of a key. -/
def keyLayer (k : Nat) : Nat := k / 2 ^ 32 % 16
def keyTile (k : Nat) : Nat := k / 2 ^ 36 % 2 ^ 24
def keyElements (k : Nat) : Nat := k % 2 ^ 32

/-- R348: the leaf of a parcel. -/
def leafOf (k : Nat) (data : List Byte) : List Byte :=
  sha512 ((0 : Byte) :: (leBytes 4 (keyLayer k) ++ leBytes 4 (keyTile k) ++ leBytes 8 (keyElements k)) ++ data)

/-- One level of the tree: pairs joined, a node without a partner moved up. -/
def rootLevel : List (List Byte) → List (List Byte)
  | a :: b :: rest => sha512 ((1 : Byte) :: a ++ b) :: rootLevel rest
  | xs => xs

/-- The root of a list of leaves; of no leaves, SHA-512 of the empty string (R348, R364). -/
def rootOf : Nat → List (List Byte) → List Byte
  | _, [] => sha512 []
  | _, [x] => x
  | 0, x :: _ => x
  | fuel + 1, xs => rootOf fuel (rootLevel xs)

namespace State

def parcelBytes : Nat := 65536

/-! ### Kept regions (R345) -/

def partKept (s : State) (i : Nat) : Bool :=
  s.partPresent i && s.partCommitted i && s.getF (F.LOAM_PART_ATTR.KEEP i) == 1

/-- Parcels of a kept region of a plot: code 0 to 7 a partition, 8 the carried banks; of code 9, those of gleaner `tile`. -/
def regionParcels (s : State) (layer tile : Nat) : List Nat :=
  if layer < 8 then
    (if s.partKept layer then List.range (ceilDiv (s.partSize layer) parcelBytes) else [])
  else if layer = 8 then
    ((List.range (s.padBanks tile)).filter (s.bankCarried tile)).foldl (fun ps b => ps ++ (List.range 16).map (16 * b + ·)) []
  else if layer = 9 then List.range (s.resShare (tile / 32) / parcelBytes)
  else []

/-- Every kept parcel, in the order of its key. -/
def keptKeys (s : State) : List Nat :=
  ((s.plotList.map fun l => ((List.range 9).map fun y => (s.regionParcels y l).map (parcelKey y l)).flatten).flatten) ++
    ((List.range 128).map fun g => (s.regionParcels 9 g).map (parcelKey 9 g)).flatten

/-! ### Copies (R194, R345, R350) -/

/-- A granule of a kept parcel: bytes of the copy or half named. -/
def copyBytes (s : State) (k : Nat) (copyOf : Nat → Nat) : List Byte :=
  let y := keyLayer k
  let t := keyTile k
  let e := keyElements k
  if y < 8 then
    let p := s.siteOf t
    (List.range parcelBytes).map fun i =>
      let off := s.partBase y + e * parcelBytes + i
      SMap.get 0 s.mem.loam (loamKey p (copyOf (granKey p off)) off)
  else if y = 8 then
    let p := s.siteOf t
    (List.range parcelBytes).map fun i => SMap.get 0 s.mem.image (imageKey p (copyOf (16 * t + e / 16)) (e * parcelBytes + i))
  else
    let h := t / 32
    (List.range parcelBytes).map fun i =>
      let off := t % 32 * s.resShare h + e * parcelBytes + i
      SMap.get 0 s.hv.residual (resKey h (copyOf (resGran h off)) off)

/-- The checkpoint copy of a parcel (R345). -/
def ckptBytes (s : State) (k : Nat) : List Byte :=
  let y := keyLayer k
  let m := if y < 8 then s.ckpt.map else if y = 8 then s.ckpt.half else s.ckpt.resMap
  (SMap.find? s.ckpt.held k).getD (s.copyBytes k fun g => b2n (NSet.mem m g))

/-- Carried banks whose current half is half 1, by 16·lid + bank. -/
def halfMap (s : State) : NSet :=
  s.plotList.foldl (fun m l =>
    if s.getF (F.PAD_STATUS.IMAGE_HALF l) = 1 then
      ((List.range (s.padBanks l)).filter (s.bankCarried l)).foldl (fun m b => NSet.insert m (16 * l + b)) m
    else m) []

/-! ### Drain state (R346, R347) -/

def parcel (s : State) (k : Nat) : Option ParcelSt := SMap.find? s.ckpt.parcels k
def modCkpt (s : State) (f : CkptSt → CkptSt) : State := { s with ckpt := f s.ckpt }
def modParcel (s : State) (k : Nat) (f : ParcelSt → ParcelSt) : State :=
  match s.parcel k with
  | none => s
  | some x => s.modCkpt fun c => { c with parcels := SMap.ins c.parcels k (f x) }
def undrained (s : State) : List (Nat × ParcelSt) := s.ckpt.parcels.filter fun x => !x.2.drained
def draining (s : State) : Bool := s.getF F.CKPT_STATUS.DRAINING == 1
/-- Keep CKPT_REMAIN with the parcels. -/
def showRemain (s : State) : State := s.nowF F.CKPT_REMAIN.COUNT s.undrained.length

/-- Parcels exposed and not DRAINED. -/
def exposedLeft (s : State) : Bool := s.ckpt.parcels.any fun x => x.2.exposed && !x.2.drained

/-- Mark a parcel exposed. -/
def expose (s : State) (k : Nat) : State := s.modParcel k fun x => { x with exposed := true }

/-- R346: the parcels whose granules the step left DIRTY become exposed, before the close flips the maps. -/
def exposeDirty (s : State) : State :=
  let s := s.mem.dirty.foldl (fun s g =>
    match s.lidOfSite (g.1 / 2 ^ 24) with
    | none => s
    | some l =>
      let off := g.1 % 2 ^ 24 * 256
      match s.partOf off 1 with
      | none => s
      | some i => s.expose (parcelKey i l ((off - s.partBase i) / parcelBytes))) s
  s.hv.resDirty.foldl (fun s g =>
    let h := g.1 / 2 ^ 32
    let off := g.1 % 2 ^ 32 * 256
    let share := max 1 (s.resShare h)
    s.expose (parcelKey 9 (32 * h + off / share) (off % share / parcelBytes))) s

/-- R346: a close would write a carried bank's image into a half that still holds undrained checkpoint data. -/
def imageBlocked (s : State) : Bool :=
  s.ckpt.parcels.any fun x =>
    keyLayer x.1 == 8 && !x.2.drained &&
      (let t := keyTile x.1
       let b := keyElements x.1 / 16
       s.bankCarried t b && b2n (NSet.mem s.ckpt.half (16 * t + b)) == 1 - s.getF (F.PAD_STATUS.IMAGE_HALF t))

/-- Training steps since the last checkpoint horizon make this one a checkpoint horizon, if the drain has ended (R344). -/
def ckptDue (s : State) : Bool :=
  s.getF F.MODE_CFG.CKPT_MODE == 1 && s.plan.ckpt.isSome &&
    ((s.getF F.MODE_CFG.CKPT_EVERY != 0 && decide (s.getF F.MODE_CFG.CKPT_EVERY ≤ s.getF F.CKPT_STATUS.STEPS_SINCE)) ||
      s.getF F.CKPT_STATUS.NOW_PENDING == 1)

def ckptChannels (s : State) : Nat := s.plan.ckpt.elim 0 (·.channels)
def ckptSeq (s : State) : Nat := s.getF F.CKPT_STATUS.CKPT_SEQ

/-- Queue a segment of KIND 4 for the lanes; with no drain channel it goes to the standby alone (R364). -/
def drainSeg (s : State) (layer tile elements stepS : Nat) (payload : List Byte) : State :=
  if s.ckptChannels = 0 then s
  else s.modCkpt fun c => { c with
    out := c.out ++ [⟨layer, tile, elements, stepS, if layer = 14 then s.ckptSeq else c.seq, payload⟩] }

/-! ### The ledger area (R352) -/

/-- Bytes of the module's ledger area. -/
def ledgerArea (s : State) : Nat := 4 * s.plan.ckpt.elim 0 (·.ledgerUnits) * 2 ^ 26
def ledgerUsed (s : State) : Nat := (s.ckpt.ledger.map (·.2.length)).sum
def showLedger (s : State) : State := s.nowF F.TWIN_STATUS.LEDGER_STEPS s.ckpt.ledger.length
/-- Put a record into the area, if it fits. -/
def ledgerPut (s : State) (stepS : Nat) (rec : List Byte) : State × Bool :=
  if s.ledgerUsed + rec.length ≤ s.ledgerArea then
    ((s.modCkpt fun c => { c with ledger := c.ledger ++ [(stepS, rec)] }).showLedger, true)
  else (s.nowF F.TWIN_STATUS.LEDGER_INCOMPLETE 1, false)
/-- Release every record at or before a checkpoint's step. -/
def ledgerRelease (s : State) (stepS : Nat) : State :=
  (s.modCkpt fun c => { c with ledger := c.ledger.filter fun r => furrowLater r.1 stepS }).showLedger
/-- Drop the record of one step. -/
def ledgerDrop (s : State) (stepS : Nat) : State :=
  (s.modCkpt fun c => { c with ledger := c.ledger.filter fun r => r.1 != stepS }).showLedger

/-! ### The manifest (R348) -/

/-- LOAM_PART_ATTR[i] as a register word. -/
def partAttr (s : State) (i : Nat) : Nat :=
  s.getF (F.LOAM_PART_ATTR.TYPE i) + s.getF (F.LOAM_PART_ATTR.CODEC i) * 2 ^ 4 + s.getF (F.LOAM_PART_ATTR.KEEP i) * 2 ^ 6 +
    s.getF (F.LOAM_PART_ATTR.SRC_FMT i) * 2 ^ 8 + s.getF (F.LOAM_PART_ATTR.SLOT_UNITS i) * 2 ^ 12 +
    s.getF (F.LOAM_PART_ATTR.OVERFLOW_CHUNKS i) * 2 ^ 32

/-- The layout of the kept regions (R345, R365): partitions with KEEP, the plots' carried banks, the residual store. -/
def keptLayout (s : State) : List Nat :=
  ((List.range 8).map fun i => if s.partKept i then [1, s.partAttr i, s.partBase i, s.partSize i] else [0]).flatten ++
    (s.plotList.map fun l => [l, s.getF (F.PAD_CFG.CARRY l)]).flatten ++
    (List.range 4).map fun h => s.getF (F.HV_SEG_CFG.RES_UNITS h)

/-- R348: the LAYOUT digest. -/
def layoutDigest (s : State) : List Byte :=
  sha512 (
    wordsBytes ((List.range 8).map s.partAttr) ++ wordsBytes ((List.range 8).map s.partBase) ++
    wordsBytes ((List.range 8).map s.partSize) ++
    (s.plotList.map fun l => BitVec.ofNat 8 (s.getF (F.PAD_CFG.CARRY l))) ++
    wordsBytes ((List.range 4).map fun h => s.getF (F.HV_SEG_CFG.RES_UNITS h)))

/-- GRID_SHAPE as a register word. -/
def gridShape (s : State) : Nat :=
  s.getF F.GRID_SHAPE.PRODUCT_GRADE + s.getF F.GRID_SHAPE.CONFIG_GRADE * 4 + s.getF F.GRID_SHAPE.SEAM_MODE * 16 +
    s.getF F.GRID_SHAPE.X_DIM * 2 ^ 16 + s.getF F.GRID_SHAPE.Y_DIM * 2 ^ 28 + s.getF F.GRID_SHAPE.HOLE_COUNT * 2 ^ 40

def planDigest (s : State) : List Byte := wordsBytes ((List.range 8).map fun i => s.getF (F.PLAN_DIGEST.DIGEST i))

/-- The manifest of the snapshot, with its root. -/
def manifestOf (s : State) (root : List Byte) : List Byte :=
  let head := wordsBytes [
      0xC4E70A11 + 1 * 2 ^ 32, s.man.serial, s.ckpt.stepS, s.ckpt.commitMeridian, s.gridShape, s.ckpt.parcels.length,
      s.ckpt.seq, 0] ++ root ++ s.planDigest ++ s.layoutDigest
  head ++ Ed25519.sign s.man.secret head

/-- A parcel has reached the shared store, and the standby if there is one (R347). -/
def parcelGone (s : State) (x : ParcelSt) : Bool := x.drained && x.sent && (x.acked || !s.isPaired)

/-- When every parcel is DRAINED and sent, the manifest goes out and the ledger records up to the checkpoint are released (R348,
R352). -/
def emitManifest (s : State) : State :=
  let root := rootOf 64 ((s.ckpt.leaves).map (·.2))
  let m := s.manifestOf root
  let s := s.modCkpt fun c => { c with
    told := true, manifests := (c.manifests ++ [(c.seq, m)]).drop ((c.manifests.length + 1) - 4) }
  let s := (List.range 8).foldl (fun s i => s.keepF (F.CKPT_ROOT.ROOT i) (wordField root i 0 64)) s
  ((s.drainSeg 15 0 0 s.ckpt.stepS m).twinSend (.manifest m)).ledgerRelease s.ckpt.stepS

/-- What has gone needs no staging; the manifest follows the last parcel sent, and the drain ends with the last acknowledgement that
a standby owes (R347, R348). A checkpoint that lost a parcel never completes (R365). -/
def checkDrain (s : State) : State :=
  if s.draining then
    let gone := (s.ckpt.parcels.filter fun x => s.parcelGone x.2).map (·.1)
    let s := s.modCkpt fun c => { c with stage := c.stage.filter fun x => !gone.contains x.1 }
    let s := if !s.ckpt.told && !s.ckpt.broken && s.ckpt.parcels.all fun x => x.2.drained && x.2.sent then s.emitManifest else s
    if s.ckpt.told && s.ckpt.parcels.all fun x => s.parcelGone x.2 then s.nowF F.CKPT_STATUS.DRAINING 0 else s
  else s

def parcelSent (s : State) (k : Nat) : State := (s.modParcel k fun x => { x with sent := true }).checkDrain
def parcelAcked (s : State) (k : Nat) : State := (s.modParcel k fun x => { x with acked := true }).checkDrain

/-! ### The snapshot (R345) -/

/-- The checkpoint snapshot, inside the close of a checkpoint horizon and after the maps have flipped. -/
def snapshot (s : State) : State :=
  let keys := s.keptKeys
  let s := s.modCkpt fun c => { c with
    parcels := keys.foldl (fun m k => SMap.ins m k ⟨false, false, false, false, false⟩) [],
    map := s.mem.cur, half := s.halfMap, resMap := s.hv.resCur, leaves := [], stage := [], broken := false,
    commitMeridian := s.meridian, stepS := s.step.stepS, seq := s.ckptSeq + 1, told := false, held := [], hseq := [] }
  let s := s.nowF F.CKPT_STATUS.CKPT_SEQ (s.ckptSeq + 1)
  let s := s.nowF F.CKPT_STEP.STEP_S s.step.stepS
  let s := s.nowF F.CKPT_STATUS.STEPS_SINCE 0
  let s := s.nowF F.CKPT_STATUS.NOW_PENDING 0
  let s := s.nowF F.CKPT_STATUS.DEFERRED 0
  ((s.nowF F.CKPT_STATUS.DRAINING 1).showRemain).checkDrain

/-! ### The fabric leg (R347) -/

/-- Bytes of staging left for parcels: the staging area less the ledger area. -/
def stagingArea (s : State) : Nat :=
  ((List.range 4).map fun h => s.getF (F.HL_PART.STAGE_UNITS h)).sum * 2 ^ 26 - s.ledgerArea
def stagingFull (s : State) : Bool := decide (s.stagingArea < (s.ckpt.stage.length + 1) * parcelBytes)

/-- R347: the next parcel in the order of the drain. -/
def nextParcel (s : State) : Option Nat :=
  let left (k : Nat) : Bool := match s.parcel k with
    | some x => !x.drained && !x.failed
    | none => false
  let exposed := (List.find? (fun x => x.2.exposed && !x.2.drained && !x.2.failed) s.ckpt.parcels).map (·.1)
  let listed : Option Nat := ((s.plan.ckpt.elim [] (·.order)).foldl (fun (r : Option Nat) o =>
    match r with
    | some k => some k
    | none =>
      let tiles := if o.1 = 9 then List.range 128 else s.plotList
      ((tiles.map fun t => (List.range o.2.2).map fun i => parcelKey o.1 t (o.2.1 + i)).flatten).find? left) none)
  let inOrder (y : Nat) : Option Nat := (List.find? (fun x => keyLayer x.1 == y && left x.1) s.ckpt.parcels).map (·.1)
  exposed <|> listed <|> ((List.range 10).findSome? inOrder)

/-- The fabric leg can run: the fabric holds no step data (R347). -/
def fabricFree (s : State) : Bool :=
  s.step.phase == .idle || s.step.phase == .substituting ||
    (s.step.phase == .running && decide (s.step.granted = 0) && s.step.copyHeld) ||
    (s.step.phase == .closing && s.imageBlocked)

/-- PARCEL_DRAINED: the fabric leg of the next parcel ends; `readable` is false where its checkpoint copy cannot be read
(R365). -/
def parcelDrained (s : State) (readable : Bool) : State :=
  if s.draining && s.fabricFree && !s.stagingFull then
    match s.nextParcel with
    | none => s
    | some k =>
      if !readable then
        (s.modParcel k fun x => { x with failed := true }).modCkpt fun c => { c with broken := true }
      else
        let bs := s.ckptBytes k
        let noLane := s.ckptChannels == 0
        let noTwin := !s.isPaired
        let s := s.modParcel k fun x => { x with drained := true, sent := noLane, acked := noTwin }
        let s := s.modCkpt fun c => { c with leaves := SMap.ins c.leaves k (leafOf k bs), stage := SMap.ins c.stage k bs }
        let s := if s.inAttempt then { s with step := { s.step with drained := s.step.drained + parcelBytes } } else s
        let s := s.drainSeg (keyLayer k) (keyTile k) (keyElements k) s.ckpt.stepS bs
        let s := s.twinSend (.parcel k bs)
        s.showRemain.checkDrain
  else s

/-- The COPY term at a step's first furrow (R346). -/
def copyTerm (s : State) : Bool :=
  s.step.eval || decide (0 < s.step.granted) || (!s.exposedLeft && decide (s.step.slice ≤ s.step.drained))

end State

/-- PARCEL_DRAINED (R347, R348, R365). -/
def execParcelDrained (readable : Bool) (s : State) : Out := s.answer (s.parcelDrained readable)

end Sys2Proof.Machine
end

