-- ==== Sys2Proof/Machine/Restore.lean ====
section
/-! DEFINITION. Finished queue entries, a running RESTORE and its commit (R282, R350, R361). -/

namespace Sys2Proof.Machine
namespace State

/-- An entry of a queue has been processed: it returns at the next publication point (R282). -/
def finish (s : State) (q idx status result : Nat) : State :=
  let x := s.queue q
  s.setQueue q { x with fin := x.fin ++ [{ idx := idx, status := status, result := result }] }

/-- An entry of queue 0 returns SKIPPED, whatever stands before it (R285). -/
def finishEarly (s : State) (idx : Nat) : State :=
  let x := s.queue 0
  s.setQueue 0 { x with fin := x.fin ++ [{ idx := idx, status := 0x000D, result := 0, early := true }] }

/-- The step command's entry returns, unless it was lost with its ring (R290). -/
def finishStep (s : State) (status : Nat) : State :=
  match s.step.q0idx with
  | some i => s.finish 0 i status s.step.stepS
  | none => s

/-- At a publication point the registers read as they stand (R6, R278). -/
def refreshPub (s : State) : State := { s with pub := s.regs }

/-- Write 64 KiB into the copies that CUR does not name, or the image half that is not current, and flip (R350). -/
def restoreParcel (s : State) (k : Nat) (data : List Byte) : State :=
  let y := keyLayer k
  let t := keyTile k
  let e := keyElements k
  let flip (m : NSet) (g : Nat) : NSet := if NSet.mem m g then NSet.erase m g else NSet.insert m g
  if y < 8 then
    let p := s.siteOf t
    let base := s.partBase y + e * parcelBytes
    (List.range 256).foldl (fun s i =>
      let off := base + 256 * i
      let c := 1 - s.curCopy p off
      { s with mem := { s.mem with
          loam := SMap.setAll 0 s.mem.loam (loamKey p c off) ((data.drop (256 * i)).take 256),
          cur := flip s.mem.cur (granKey p off) } }) s
  else if y = 8 then
    let p := s.siteOf t
    let half := 1 - s.getF (F.PAD_STATUS.IMAGE_HALF t)
    { s with mem := { s.mem with image := SMap.setAll 0 s.mem.image (imageKey p half (e * parcelBytes)) data } }
  else
    let h := t / 32
    let base := t % 32 * s.resShare h + e * parcelBytes
    (List.range 256).foldl (fun s i =>
      let off := base + 256 * i
      let c := 1 - s.resCurCopy h off
      { s with hv := { s.hv with
          residual := SMap.setAll 0 s.hv.residual (resKey h c off) ((data.drop (256 * i)).take 256),
          resCur := flip s.hv.resCur (resGran h off) } }) s

/-- Every carried plot's image half flips with its restored banks. -/
def flipImages (s : State) : State :=
  s.plotList.foldl (fun s l =>
    if (List.range (s.padBanks l)).any (s.bankCarried l) then
      s.keepF (F.PAD_STATUS.IMAGE_HALF l) (1 - s.getF (F.PAD_STATUS.IMAGE_HALF l))
    else s) s

/-- R350: committed partitions without KEEP are zeroed. -/
def zeroUnkept (s : State) : State :=
  (List.range 8).foldl (fun s i =>
    if s.partPresent i && s.partCommitted i && !s.partKept i then
      s.plotList.foldl (fun s l =>
        let p := s.siteOf l
        let clear (m : SMap Byte) (c : Nat) : SMap Byte := SMap.clearRange m (loamKey p c (s.partBase i)) (s.partSize i)
        { s with mem := { s.mem with loam := clear (clear s.mem.loam 0) 1 } }) s
    else s) s

/-- The restored or received data becomes the committed state, and counts as a drained checkpoint (R350, R360). A RESTORE that runs
while a standby commits goes on (log entry 41). -/
def commitCopies (s : State) (data : SMap (List Byte)) : State :=
  let s := data.foldl (fun s d => s.restoreParcel d.1 d.2) s
  let s := (s.flipImages.zeroUnkept).setStale
  let s := s.modCkpt fun c => { c with
    parcels := data.foldl (fun m d => SMap.ins m d.1 ⟨true, false, true, true, false⟩) [],
    map := s.mem.cur, half := s.halfMap, resMap := s.hv.resCur, leaves := [], stage := [], broken := false, told := true, held := [],
    out := c.out.filter fun d => decide (10 ≤ d.layer) }
  let s := { s with mem := { s.mem with garbled := none } }
  let s := s.nowF F.CKPT_STATUS.STEPS_SINCE 0
  let s := s.nowF F.CKPT_STATUS.DRAINING 0
  let s := s.nowF F.CKPT_STATUS.DEFERRED 0
  let s := s.nowF F.MEM_STATUS.HORIZON_LOST 0
  ((s.showRemain).advanceEpoch).refreshPub

/-- The parcels of a manifest all stand in `data`, and its root is theirs (R348, R350). -/
def rootMatches (s : State) (manifest : List Byte) (data : SMap (List Byte)) : Bool :=
  let keys := s.keptKeys
  wordField manifest 5 0 64 == keys.length && keys.all (fun k => (SMap.find? data k).isSome) &&
    (manifest.drop 64).take 64 == rootOf 64 (data.map fun d => leafOf d.1 d.2)

/-- Outcomes of the checkpoint engine (R363). -/
def outDone : Nat := 0
def outOff : Nat := 1
def outSignature : Nat := 2
def outShape : Nat := 3
def outDigest : Nat := 4
def outIncomplete : Nat := 5
def outNotHeld : Nat := 6

/-- End a RESTORE with an outcome: the restored copies are forgotten. -/
def endRestore (s : State) (outcome : Nat) : State :=
  match s.ckpt.restore with
  | none => s
  | some r => (s.modCkpt fun c => { c with restore := none }).finish r.queue r.idx 0 outcome

/-- When every parcel has arrived, the root decides (R350). -/
def restoreArrived (s : State) : State :=
  match s.ckpt.restore with
  | none => s
  | some r =>
    if s.keptKeys.all fun k => (SMap.find? r.data k).isSome then
      (if s.rootMatches r.manifest r.data then (s.commitCopies r.data).endRestore outDone
       else s.endRestore outDigest)
    else s

/-- RESTORE_LIMIT_EXPIRED: the arrival limit runs out (R350). -/
def restoreExpired (s : State) : State :=
  match s.ckpt.restore with
  | none => s
  | some r => if r.limit ≤ s.meridian - r.started then s.endRestore outIncomplete else s

/-- A restore segment (KIND 2) of a running restore (R219, R350). -/
def restoreSegOk (s : State) (g : Seg) : Bool :=
  s.ckpt.restore.isSome && g.codec == 0 && g.src == 0 && g.dst == 0 && g.due == 0 && g.pitch == 0 && g.bytes == parcelBytes &&
    s.keptKeys.contains (parcelKey g.layer g.tile g.elements) && decide (g.layer < 10)

/-- It writes its parcel, if it arrives within the limit (R350, R364). -/
def restoreTake (s : State) (g : Seg) : State :=
  match s.ckpt.restore with
  | none => s
  | some r =>
    if r.limit ≤ s.meridian - r.started then s.endRestore outIncomplete
    else (s.modCkpt fun c => { c with
      restore := some { r with data := SMap.ins r.data (parcelKey g.layer g.tile g.elements) g.payload } }).restoreArrived

end State

/-- RESTORE_LIMIT_EXPIRED (R350). -/
def execRestoreLimitExpired (s : State) : Out := s.answer s.restoreExpired

end Sys2Proof.Machine
end

