-- ==== Sys2Proof/Machine/Witness.lean ====
section
/-! DEFINITION. The step witness and the trace of horizons (R416, R422-R424). -/

namespace Sys2Proof.Machine
namespace State

/-- What a counter has gained since the step start. -/
def gained (s : State) (f : Fld) : Nat := s.getF f - fldGet (s.base.getD []) f

/-- Bytes 0 to 575 of the witness of the step that commits (R423). -/
def witnessBody (s : State) (ckpt : Bool) : List Byte :=
  let t := s.step
  let flags :=
    t.stepS + b2n t.eval * 2 ^ 48 + s.getF F.PLAN_STATUS.HOST_VALUES * 2 ^ 49 + b2n ckpt * 2 ^ 50 +
      s.getF F.CHECK_CFG.ACTION * 2 ^ 51 + b2n t.norm.isSome * 2 ^ 52 + t.program * 2 ^ 56
  let sums := match t.norm with
    | some bins => wordsBytes (bins.map (·.1))
    | none => zeroBytes 120
  wordsBytes [
    0x5717E55E + 1 * 2 ^ 32, s.man.serial, flags, s.meridian, t.length, t.seed, s.ckptSeq + t.clip * 2 ^ 32, 0] ++
    s.planDigest ++ s.sowDigest ++ (if t.eval then sha512 [] else s.hvDigest t.stepS) ++
    (if s.obs.lastW.isEmpty then zeroBytes 64 else s.obs.lastW) ++ sums ++
    wordsBytes [0] ++ wordsBytes ((List.range 5).map fun i => s.gained (F.CHK_SUM.COUNT i)) ++
    wordsBytes [t.vecFails % 2 ^ 32 + t.gleanFails % 2 ^ 32 * 2 ^ 32] ++
    ((List.range 8).map fun c => leBytes 4 (SMap.get 0 t.faultCount c)).flatten ++ wordsBytes [t.corrections % 2 ^ 48] ++
    zeroBytes 40

/-- Form the witness of the step that commits (R422, R424). -/
def formWitness (s : State) (ckpt : Bool) : State :=
  let body := s.witnessBody ckpt
  let w := sha512 body
  let whole := body ++ Ed25519.sign s.man.secret w
  let held := (s.obs.witnesses ++ [(s.step.stepS, whole)]).drop ((s.obs.witnesses.length + 1) - 1024)
  let s := { s with obs := { s.obs with witnesses := held, lastW := w } }
  (s.nowF F.WITNESS_STATUS.LAST_S s.step.stepS).nowF F.WITNESS_STATUS.HELD held.length

/-- A trace record goes to the watch connector, and to QUEUE where TO_QUEUE is set (R416). -/
def trace (s : State) (code d4 d5 d6 d7 srcType srcId : Nat) : State :=
  let r : PRec := {
    kind := 3, code := code, furrow := s.furrow, meridian := s.meridian, srcType := srcType, srcId := srcId, phys := 0,
    d4 := d4, d5 := d5, d6 := d6, unit := none, ep := none, attempt := 0, classifiable := false, fenced := false,
    abandoned := false, recordedOnly := false, degraded := false, dusk := false, d7 := d7 }
  let n := s.obs.watchSeq
  let s := { s with obs := { s.obs with watchSeq := (n + 1) % 2 ^ 32 } }
  let s := s.watchOut (s.recBytes r n 0)
  if s.getF F.TRACE_CFG.TO_QUEUE = 1 then { s with recs := s.recs ++ [r] } else s

/-- The HORIZON record of a commit or an abandonment. -/
def traceHorizon (s : State) (committed : Bool) : State :=
  if s.getF F.TRACE_CFG.HORIZON = 1 then
    s.trace 1 s.step.stepS s.step.granted s.step.held (b2n committed) srcModule 0
  else s

/-! ### Attestation (R421) -/

def idPart (s : State) : Nat :=
  s.getF F.ID_PART.PART + s.getF F.ID_PART.GENERATION * 2 ^ 4 + s.getF F.ID_PART.STEPPING * 2 ^ 12
def fwVersion (s : State) : Nat :=
  s.getF F.FW_VERSION.MAJOR + s.getF F.FW_VERSION.MINOR * 2 ^ 16 + s.getF F.FW_VERSION.SECURITY * 2 ^ 32 +
    s.getF F.FW_VERSION.NORTH_COPY * 2 ^ 48 + s.getF F.FW_VERSION.SOUTH_COPY * 2 ^ 49
/-- The identity public key (R418). -/
def idKey (s : State) : List Byte := Ed25519.publicKey s.man.secret

/-- The 320-byte report over a nonce. -/
def attestReport (s : State) (nonce : List Byte) : List Byte :=
  let flags :=
    s.getF F.PLAN_STATUS.CONFIGURED + s.getF F.PLAN_STATUS.HOST_VALUES * 2 + s.getF F.REPAIR_STATUS.DEGRADED * 4 +
      s.getF F.MEM_STATUS.HORIZON_LOST * 8 + s.getF F.BOOT_STATUS.PATH * 16 + s.role * 32
  let keys := if s.obs.keys.isEmpty then zeroBytes 64 else sha512 (s.obs.keys.take 832)
  let body := wordsBytes [
      0xA7E57A11 + 1 * 2 ^ 32, s.man.serial, s.idPart, s.fwVersion, s.meridian, s.furrow, s.getF F.HV_STATUS.COMMITTED_S, flags] ++
    nonce ++ s.planDigest ++ keys ++ s.idKey
  body ++ Ed25519.sign s.man.secret (sha512 body)

/-- At a publication point a requested report is written into bytes 64 to 383 of its parcel. -/
def attestPoint (s : State) : State :=
  match s.obs.attest with
  | none => s
  | some p =>
    let s := s.winPut (p * 65536 + 64) (s.attestReport (s.winGet (p * 65536) 32))
    ({ s with obs := { s.obs with attest := none } }).keepF F.OBS_STATUS.ATTEST_DONE 1

end State
end Sys2Proof.Machine
end

