-- ==== Sys2Proof/Machine/Abandon.lean ====
section
/-! DEFINITION. The abandonment of a step (R7, R18, R22, R285, R343). -/

namespace Sys2Proof.Machine
namespace State

/-- The furrow index advances by one as an attempt without a granted furrow ends (R22). -/
def endUngranted (s : State) : State :=
  if s.step.granted = 0 then s.keepF F.FURROW_INDEX.INDEX (furrowAdd s.furrow 1) else s

/-- Operation code of entry i of queue 0. -/
def opAt (s : State) (q i : Nat) : Nat := bitsOf (s.winWord (s.entryAddr q i)) 8 8

/-- Queue 0 entries given and not processed that start a step (R285). -/
def stepsGiven (s : State) : List Nat :=
  let x := s.queue 0
  if s.qEntries 0 = 0 then [] else
    ((List.range ((s.qGive 0 + 2 ^ 32 - x.next) % 2 ^ 32)).map fun k => (x.next + k) % 2 ^ 32).filter fun i =>
      (s.opAt 0 i == 2 || s.opAt 0 i == 3) && !s.step.skip.contains i

/-- Pass the entries at the front of queue 0 that have returned SKIPPED: DONE advances over them (R282, R285). -/
def skipFront (s : State) : Nat → State
  | 0 => s
  | n + 1 =>
    let i := (s.queue 0).next
    if s.hasNext 0 && s.step.skip.contains i then
      let s := s.setQueue 0 { s.queue 0 with next := (i + 1) % 2 ^ 32 }
      let s := s.nowF (F.QUEUE_STATE.DONE 0) ((s.qDone 0 + 1) % 2 ^ 32)
      skipFront { s with step := { s.step with skip := s.step.skip.filter (· != i) } } n
    else s

/-- COPY_IN entries that the step consumed stay given and run again (R283). -/
def unstage (s : State) : State :=
  s.step.staged.reverse.foldl (fun s e => s.setQueue e.1 { s.queue e.1 with next := e.2.1 }) s

/-- The present registers return to what they were at the step start, what an abandonment leaves apart (R7, R341). -/
def undoRegs (s : State) : State := { s with regs := s.base.getD s.regs, base := none }

/-- R343: the abandonment as a whole. `cls` is the class of the first fault. -/
def abandon (s : State) : State :=
  let st := s.step
  let cls := st.fault.getD 0
  -- Order 1: everything stops, the fabric is cleared.
  let s := s.clearFabric
  -- Order 2.
  let s := (((s.undoRegs).clearDirty).dropSegs).setStale
  let s := (if st.epochDone then s else s.advanceEpoch).dropClaims
  let s := if st.phase = .closing then s else s.endUngranted
  let s := if st.ledgered then s.ledgerDrop st.stepS else s
  -- Order 3.
  let s := { s with plots := s.haltedPlots, sow := { s.sow with digests := [] } }
  let s := { s with mem := { s.mem with blockWritten := [], chunk := [], chunkNext := [], portGrains := [] } }
  let s := s.darkenDoomed.revealSites
  -- Order 4: the publication point.
  let s := (s.traceHorizon false).showGleaners false
  let s := s.event 0x0002 srcModule 0 st.stepS cls
  let s := s.unstage.finishStep 0x000C
  let given := s.stepsGiven
  let s := given.foldl finishEarly s
  let s := { s with step := { s.step with
      phase := .idle, fault := none, staged := [], holdRun := [], copyHeld := false, judged := true, skip := s.step.skip ++ given } }
  let s := s.skipFront s.step.skip.length
  let s := if st.asLead then s.twinSend (.horizon st.stepS false) else s
  s.sleepBetween.attestPoint

/-- A fault that ends the attempt at once: in the staging pass, in a substitution, or where no boundary will come
(R18, R290). -/
def abandonAtOnce (s : State) : State :=
  if s.inAttempt && s.step.fault.isSome then s.abandon else s

/-- Meridian loss (R18, R19, R237, R365): trigger 0 no edge, 1 multiplier, 2 CRC, 3 index. -/
def meridianLoss (s : State) (trigger : Nat) : State :=
  if s.locked then
    let s := s.keepF F.MERIDIAN_STATUS.LOCKED 0
    let s := s.incLive F.MERIDIAN_STATUS.LOSS_COUNT 1
    let s := { s with time := { s.time with loss := true, lossAt := s.meridian, refused := false, badFrames := 0, firstFrame := none } }
    let s := s.raise {
      code := 0x0405, srcType := srcModule, srcId := 0, detail := trigger, unit := some (unitHeadland, 0), classifiable := false }
    let s := s.loseLanes.endRestore outIncomplete
    s.abandonAtOnce
  else s

end State
end Sys2Proof.Machine
end

