-- ==== Sys2Proof/Machine/Sow.lean ====
section
/-! DEFINITION. Sowing: superblocks, the parser, the segment checks, lanes, and the dispatch word (R213-R236). -/

namespace Sys2Proof.Machine

/-- The superblock of a channel as its lanes deliver it: 16 lane blocks of 1,024 bytes, with the corrected payload of each
codeword (R214, R215). -/
structure SbRead where
  synced : Bool
  ctl : List Byte
  /-- The stream grains in order: none where a codeword was lost. -/
  grains : List (Option Grain)
  deriving DecidableEq, Repr

/-- The four codewords of a lane block, decoded: payload and corrected symbols, or none. -/
def laneWords (b : List Byte) : List (Option (List Byte × Nat)) :=
  (List.range 4).map fun i => rsDecode ((b.drop (256 * i + 1)).take 255)

/-- Lane payload grain `j` of decoded codewords. -/
def laneGrain (ws : List (Option (List Byte × Nat))) (j : Nat) : Option Grain :=
  match ws[j / 15]? with
  | some (some w) => some (BitVec.ofNat 128 (leNat ((w.1.drop (16 * (j % 15))).take 16)))
  | _ => none

/-- Read a superblock (R215). -/
def readSb (blocks : List (List Byte)) : SbRead :=
  let ws := blocks.map laneWords
  let lanes := ws.map fun w => (List.range 60).map (laneGrain w)
  { synced := (List.zipIdx blocks).all fun b => b.1.getD 0 0 == BitVec.ofNat 8 (0xA0 + b.2)
    ctl := (blocks.map fun b => [b.getD 256 0, b.getD 512 0, b.getD 768 0]).flatten
    grains := (List.range 960).map fun q => (lanes.getD (q % 16) []).getD (q / 16) none }

/-- The parser has failed and discards grains to the end of the superblock (R218). -/
structure Parse where
  chan : ChanSt
  dead : Bool
  deriving DecidableEq, Repr

/-- Resynchronise: discard to the end of the superblock. -/
def Parse.fail (p : Parse) : Parse := ⟨{ p.chan with resync := true, hdr := [], want := 0, body := [] }, true⟩

/-- A whole segment has arrived at a meridian count; it counts as complete 8 mt on (R225). -/
def ChanSt.complete (x : ChanSt) (m : Nat) : ChanSt :=
  let hdr := (x.hdr.map fun g => leBytes 16 g.toNat).flatten
  let body := x.body.reverse
  let bytes := ((body.map fun g => leBytes 16 (g.elim 0 BitVec.toNat)).flatten).take (wordField hdr 3 32 32)
  { x with hdr := [], want := 0, body := [],
           arrived := x.arrived ++ [{ hdr := hdr, payload := bytes, lost := body.any (·.isNone), doneAt := m + 8 }] }

/-- One grain of the stream (R218). -/
def Parse.grain (m : Nat) (p : Parse) (g : Option Grain) : Parse :=
  let x := p.chan
  if p.dead then p
  else if x.want ≠ 0 then
    let y := { x with want := x.want - 1, body := g :: x.body }
    ⟨if y.want = 0 then y.complete m else y, false⟩
  else match g with
    | none => p.fail
    | some v =>
      if x.hdr.isEmpty && v == 0 then p
      else if x.hdr.isEmpty && v.toNat % 2 ^ 16 != 0x50D5 then p.fail
      else
        let y := { x with hdr := x.hdr ++ [v] }
        if y.hdr.length < 4 then ⟨y, false⟩
        else
          let hdr := (y.hdr.map fun g => leBytes 16 g.toNat).flatten
          if headerOk hdr then
            let n := ceilDiv (wordField hdr 3 32 32) 16
            ⟨if n = 0 then y.complete m else { y with want := n }, false⟩
          else p.fail

/-- The grains of a superblock reach the parser; `first` is FIRST_HDR, none for a superblock that is lost. -/
def ChanSt.feed (x : ChanSt) (m : Nat) (first : Option Nat) (gs : List (Option Grain)) : ChanSt :=
  if x.resync then
    match first with
    | none => x
    | some f => if 960 ≤ f then x else ((gs.drop f).foldl (Parse.grain m) ⟨{ x with resync := false }, false⟩).chan
  else (gs.foldl (Parse.grain m) ⟨x, false⟩).chan

namespace State

/-- The meridian counter moves on while the reference runs (R17). -/
def elapse (s : State) (n : Nat) : State :=
  if s.time.refRunning then s.keepF F.MERIDIAN_COUNT.COUNT (s.meridian + n) else s

/-- Count a lane's block: missing sync bytes, corrections, lost codewords (R214, R218, R322 0x0007). -/
def laneBlock (s : State) (l k : Nat) (b : List Byte) : State :=
  let ws := laneWords b
  let fixed := (ws.map fun w => w.elim 0 (·.2)).sum
  let lost := (ws.filter (·.isNone)).length
  let s := (s.incLive (F.CORR_SYMBOLS.COUNT l) fixed).incLive (F.UNCORR_CW.COUNT l) lost
  let s := s.countCorrections fixed
  let x := s.lane l
  let second := s.meridian / secondMt
  let before := if x.second = second then x.symbols else 0
  let now := before + fixed
  let misses := if b.getD 0 0 = BitVec.ofNat 8 (0xA0 + k) then 0 else x.misses + 1
  let s := s.setLane l { x with second := second, symbols := now, misses := misses }
  let s := if decide (before ≤ Config.laneRateLimit l) && decide (Config.laneRateLimit l < now) then
      s.correct (unitLane, l) { code := 0x0007, srcType := srcLane, srcId := l, detail := now }
    else s
  if 4 ≤ misses then s.loseLane l else s

/-- Count the good sync bytes of an unlocked lane (R218). -/
def trainBlock (s : State) (l k : Nat) (b : List Byte) : State :=
  let x := s.lane l
  s.setLane l { x with good := if b.getD 0 0 = BitVec.ofNat 8 (0xA0 + k) then x.good + 1 else 0 }

/-- SUPERBLOCK_RECEIVE: `n` mt later the superblock of channel `c` is complete (R215-R218). -/
def superblock (s : State) (c n : Nat) (blocks : List (List Byte)) : State :=
  let s := s.elapse n
  let up := s.chanUp c
  let r := readSb blocks
  let s := (List.zipIdx blocks).foldl (fun s b =>
    if s.laneLocked (16 * c + b.2) then s.laneBlock (16 * c + b.2) b.2 b.1 else s.trainBlock (16 * c + b.2) b.2 b.1) s
  let x := s.chan c
  let crcOk := leNat ((r.ctl.drop 44).take 4) == crc32c (r.ctl.take 44)
  let seq := wordField r.ctl 0 0 32
  let follows : Bool := match x.lastSb with
    | none => true
    | some n => seq == (n + 1) % 2 ^ 32
  let good := up && r.synced && crcOk && follows
  let last := if crcOk && up then some seq else x.lastSb.map fun n => (n + 1) % 2 ^ 32
  let x := { x with lastSb := last }
  if good then s.setChan c (x.feed s.meridian (some (wordField r.ctl 0 48 10)) r.grains)
  else (s.incLive (F.SB_LOST.COUNT c) 1).setChan c (x.feed s.meridian none (List.replicate 960 none))

/-! ### The segment checks (R220, R221) -/

/-- Credit blocks that the channel has free. -/
def creditFree (s : State) (c : Nat) : Nat := s.creditLimit c - s.getF (F.CHAN_STATUS.HELD_BLOCKS c)

/-- Check 6 of R220. -/
def segOk (s : State) (g : Seg) : Bool :=
  if g.kind = 2 then s.restoreSegOk g
  else g.kind == 1 && codecOk g.codec g.src g.dst g.elements g.bytes g.pitch g.payload

/-- The channel takes the next SSEQ. -/
def advanceSseq (s : State) (c : Nat) : State :=
  s.keepF (F.CHAN_STATUS.EXPECT_SSEQ c) ((s.getF (F.CHAN_STATUS.EXPECT_SSEQ c) + 1) % 2 ^ 32)

/-- Checks 2 to 7 of R220, in their order. -/
def checkSeg (s : State) (c : Nat) (g : Seg) : State :=
  if g.epoch ≠ s.epoch ∨ g.sseq ≠ s.getF (F.CHAN_STATUS.EXPECT_SSEQ c) then s.incLive (F.SEQ_DISCARD.COUNT c) 1
  else if g.lost || g.crc != crc64 g.payload then s.incLive (F.SEG_LOST.COUNT c) 1
  else if g.kind ≠ 2 ∧ s.creditFree c < g.blocks then
    (s.incLive (F.CREDIT_VIOL.COUNT c) 1).event 0x000C srcChannel c g.sseq
  else if !s.segOk g then
    ((s.incLive (F.MALFORMED.COUNT c) 1).event 0x000B srcChannel c g.sseq).advanceSseq c
  else if g.kind = 2 then ((s.incLive (F.SEG_ACCEPTED.COUNT c) 1).advanceSseq c).restoreTake g
  else if !furrowLater g.due s.furrow then (s.incLive (F.STALE.COUNT c) 1).advanceSseq c
  else
    let s := (s.incLive (F.SEG_ACCEPTED.COUNT c) 1).advanceSseq c
    let s := s.keepF (F.CHAN_STATUS.HELD_BLOCKS c) (s.getF (F.CHAN_STATUS.HELD_BLOCKS c) + g.blocks)
    let b : Buffered := { seg := g, entry := none, mismatch := false, spent := none }
    let x := s.chan c
    let s := s.setChan c { x with buffer := x.buffer ++ [b] }
    if s.inAttempt then s.tryClaim c b else s

/-- SEGMENT_RECEIVE: the oldest segment of channel `c` whose last grain has arrived is checked (R220). -/
def segmentReceive (s : State) (c : Nat) : State :=
  let x := s.chan c
  match x.arrived with
  | [] => s
  | g :: rest => (s.setChan c { x with arrived := rest }).checkSeg c g

/-! ### The dispatch word (R227, R228, R232, R235) -/

/-- Count what the conversion of the rows did whose first grain lies in the word (R232). -/
def countConverted (s : State) (c : Nat) (g : Seg) (first n : Nat) : State :=
  if g.codec ≠ 2 ∨ g.pitch = 0 then s
  else
    let rows := convertRows g.src g.dst g.pitch g.payload
    let mine := (List.zipIdx rows).filter fun r =>
      let at0 := r.2 * g.pitch / 16
      decide (first ≤ at0) && decide (at0 < first + n)
    let cs := (mine.map (·.1.2)).flatten
    (s.incLive (F.CONV_SAT.COUNT c) (cs.filter (·.sat)).length).incLive (F.CONV_NONFINITE.COUNT c) (cs.filter (·.nonfin)).length

/-- What the codes met on the way out of headland `h` (R235, R74). -/
def dispatchMishap (s : State) (h q d backKey : Nat) (o : DispatchMishap) : State :=
  match o with
  | .linkCorr w => s.linkReceive q d w.toNat backKey false false
  | .linkUncorr w => s.linkReceive q d w.toNat backKey false true
  | .lineUncorr off => s.sowLineLost h off.toNat

/-- The words of headland `h`'s group that name an edge link have all been carried out in the present furrow (R37). -/
def dispatchDone (s : State) (h link : Nat) : Bool :=
  (List.range 255).all fun j => match s.dispatchWord h j with
    | some w => bitsOf w 0 6 != link || NSet.mem s.sow.sent (256 * h + j)
    | none => true

/-- Word `j` of headland `h`'s dispatch group in the present furrow: each one once, between a granted boundary and the next (R228). -/
def dispatch (s : State) (h j : Nat) (obs : List DispatchMishap) : State :=
  if s.running && decide (0 < s.step.granted) && !s.step.judged && !NSet.mem s.sow.sent (256 * h + j) then
    match s.dispatchWord h j with
    | none => s
    | some w =>
      let i := bitsOf w 18 18
      match s.sowEntries[i]? with
      | none => s
      | some e =>
        match s.claimedBy e.chan i with
        | none => s
        | some b =>
          if wordKind w ≠ 2 ∨ e.chan / 8 ≠ h then s
          else
            let s := { s with sow := { s.sow with sent := NSet.insert s.sow.sent (256 * h + j) } }
            let g := b.seg
            let link := bitsOf w 0 6
            let n := bitsOf w 12 6
            let first := bitsOf w 36 24
            let data := decodedBytes g.codec g.src g.dst g.elements g.pitch g.payload
            let total := decodedGrains g.codec g.src g.elements g.bytes g.pitch
            let cs : List Cell := (List.range n).map fun k =>
              ⟨BitVec.ofNat 128 (leNat ((data.drop (16 * (first + k))).take 16)), false⟩
            let port := s.edgePlot h link
            let q := s.siteOf port.1
            let m := s.furrow
            let s := { s with fab := { s.fab with
              inputs := pagePut s.fab.inputs (inputKey q port.2 m) m (bitsOf w 6 6) (s.dispatchDone h link) cs } }
            let s := s.countConverted e.chan g first n
            let s := if total ≤ first + n then s.modSeg e.chan g.sseq fun b => { b with spent := some m } else s
            obs.foldl (fun s o => s.dispatchMishap h q port.2 (2 ^ 20 + 64 * h + link) o) s
  else s

end State

/-- SUPERBLOCK_RECEIVE (R215). -/
def execSuperblockReceive (c : BitVec 5) (elapsed : BitVec 32) (blocks : List (List Byte)) (s : State) : Out :=
  s.answerIf (decide (blocks.length = 16) && blocks.all fun b => decide (b.length = 1024))
    (s.superblock c.toNat elapsed.toNat blocks)

/-- LANE_LOCK_LOSS (R218): a lane loses lock and retrains; 512 and up are the twin lanes (R359). -/
def execLaneLockLoss (l : BitVec 10) (s : State) : Out :=
  s.answerIf (decide (l.toNat < 528)) (if l.toNat < 512 then s.loseLane l.toNat else s.loseTwinLanes [l.toNat - 512])

/-- LANE_LOCK_REGAIN (R218): a lane regains lock once its last eight blocks had their sync byte; it needs the meridian's reference
(R213, R237). The blocks of a twin lane reach no command: the command itself says that eight came. -/
def execLaneLockRegain (l : BitVec 10) (s : State) : Out :=
  s.answerIf (decide (l.toNat < 528))
    (if !s.locked then s
    else if 512 ≤ l.toNat then s.gainTwinLanes [l.toNat - 512]
    else if 8 ≤ (s.lane l.toNat).good then s.gainLane l.toNat else s)

/-- SEGMENT_RECEIVE (R220). -/
def execSegmentReceive (c : BitVec 5) (s : State) : Out := s.answer (s.segmentReceive c.toNat)

/-- DISPATCH_WORD (R228). -/
def execDispatchWord (h : BitVec 2) (j : BitVec 8) (obs : List DispatchMishap) (s : State) : Out :=
  s.answer (s.dispatch h.toNat j.toNat obs)

end Sys2Proof.Machine
end

