-- ==== Sys2Proof/Machine/Votes.lean ====
section
/-! DEFINITION. Furrow votes (R75, R76, R151). -/

namespace Sys2Proof.Machine
namespace State

/-- The channel's operation is AND (R75). -/
def voteIsAnd (s : State) (c : Nat) : Bool := bitOf (s.getF F.VOTE_CFG.OP) c
def voteEnabled (s : State) (c : Nat) : Bool := bitOf (s.getF F.VOTE_CFG.ENABLE) c
/-- The plan names the plot a participant of the channel. -/
def isVoter (s : State) (c lid : Nat) : Bool := NSet.mem s.plan.voters (c * 2 ^ 24 + lid)

/-- A plot's bit on a channel in the present furrow; a plot that does not participate contributes the neutral
value. -/
def castVote (s : State) (c lid : Nat) (b : Bool) : State :=
  let neutral := s.voteIsAnd c
  let bit := if s.isVoter c lid then b else neutral
  let combine (x : Bool) : Bool := if s.voteIsAnd c then x && bit else x || bit
  let n := s.furrow
  let vs := s.fab.votes
  let vs := if vs.any fun v => v.chan == c && v.furrow == n then
      vs.map fun v => if v.chan = c ∧ v.furrow = n then { v with acc := combine v.acc } else v
    else vs ++ [⟨c, n, combine neutral, false⟩]
  { s with fab := { s.fab with votes := vs } }

/-- A participant of the channel is fenced: its contribution is poisoned (R76). -/
def votePoisoned (s : State) (c : Nat) : Bool :=
  (s.plan.voters.filter fun v => decide (v.1 / 2 ^ 24 = c)).any fun v => s.coreFenced (v.1 % 2 ^ 24)

/-- The votes of a channel that are readable by now, six furrows after they were cast, become its result (R75, R78). -/
def deliverVotes (s : State) (c : Nat) : State :=
  let due (v : VoteSt) : Bool := v.chan == c && (furrowAdd v.furrow 6 == s.furrow || furrowLater s.furrow (furrowAdd v.furrow 6))
  let s := (s.fab.votes.filter due).foldl (fun s v =>
    let p := s.votePoisoned c
    let at0 := furrowAdd v.furrow 6
    let s := { s with fab := { s.fab with readable := SMap.ins s.fab.readable c (v.acc, p, at0) } }
    let s := s.setF (F.VOTE_RESULT.VALUE c) (b2n v.acc)
    let s := s.setF (F.VOTE_RESULT.POISONED c) (b2n p)
    s.setF (F.VOTE_RESULT.FURROW c) at0) s
  { s with fab := { s.fab with votes := s.fab.votes.filter fun v => !due v } }

end State
end Sys2Proof.Machine
end

