-- ==== Sys2Proof/Machine/Time.lean ====
section
/-! DEFINITION. The meridian, the grant, furrow boundaries, holds, pacing, stretch and slack (R16-R40). -/

namespace Sys2Proof.Machine

/-! ### Index frames (R16) -/

/-- A frame's fields. A wrong SYNC is counted and treated as a failed CRC: the spec gives the field's value and no outcome of another
(log entry 58). -/
structure Frame where
  index : Nat
  holdover : Bool
  /-- SYNC is right and the CRC over bits [95:16] passes. -/
  ok : Bool
  deriving DecidableEq, Repr

def Frame.read (w : BitVec 128) : Frame :=
  let bs := leBytes 16 w.toNat
  { index := bitsOf w.toNat 16 64, holdover := bitOf w.toNat 80,
    ok := bitsOf w.toNat 0 16 == 0xE5A3 && bitsOf w.toNat 96 32 == crc32 ((bs.drop 2).take 10) }

namespace State

/-- The meridian counter loads and lock is held (R17, R19). -/
def relock (s : State) (index : Nat) : State :=
  let s := s.keepF F.MERIDIAN_COUNT.COUNT index
  let s := s.keepF F.MERIDIAN_STATUS.LOCKED 1
  { s with time := { s.time with loss := false, refused := false, badFrames := 0, firstFrame := none } }

/-- The last value the local counter reached before the present epoch edge, which is the value it leaves there (R19; log entry 59). -/
def lastLocal (s : State) : Int := (s.meridian : Int) - 1

/-- A frame that may be the first of a pair: within a loss its epoch edge lies strictly after the declaration, and its INDEX passes
the last local value (R19). -/
def frameFirst (s : State) (f : Frame) : State :=
  if s.time.loss && decide (s.meridian ≤ s.time.lossAt) then s
  else if s.time.loss && decide ((f.index : Int) ≤ s.lastLocal) then
    let s := { s with time := { s.time with firstFrame := none } }
    if s.time.refused then s
    else ({ s with time := { s.time with refused := true } }).event 0x0006 srcModule 0 f.index
  else { s with time := { s.time with firstFrame := some f.index } }

/-- A frame received whole; its epoch edge lies `n` mt on (R16-R19). -/
def frame (s : State) (n : Nat) (w : BitVec 128) : State :=
  let s := { s with time := { s.time with refRunning := true } }
  let s := s.elapse n
  let f := Frame.read w
  let s := if f.ok && f.holdover then
      { (s.keepF F.MERIDIAN_STATUS.HOLDOVER_SEEN 1) with time := { s.time with holdoverFrames := s.time.holdoverFrames + 1 } }
    else s
  if !f.ok then
    let s := s.incLive F.MERIDIAN_STATUS.CRC_ERR_COUNT 1
    if s.locked then
      let bad := s.time.badFrames + 1
      let s := { s with time := { s.time with badFrames := bad } }
      if 2 ≤ bad then s.meridianLoss 2 else s
    else { s with time := { s.time with firstFrame := none } }
  else if s.locked then
    let s := { s with time := { s.time with badFrames := 0 } }
    if f.index = s.meridian then s else s.meridianLoss 3
  else
    match s.time.firstFrame with
    | some a => if f.index = a + 4096 then s.relock f.index else s.frameFirst f
    | none => s.frameFirst f

/-! ### Boundaries and the grant terms (R20, R23, R24, R27) -/

def furrowMt (s : State) : Nat := max 1 (s.getF F.FURROW_CFG.FURROW_MT)
def furrowPhase (s : State) : Nat := s.getF F.FURROW_CFG.FURROW_PHASE
/-- The first boundary after a meridian count (R20). -/
def boundaryAfter (s : State) (m : Nat) : Nat :=
  s.furrowPhase + (m + s.furrowMt - s.furrowPhase) / s.furrowMt * s.furrowMt
/-- The coming boundary. -/
def nextBoundary (s : State) : Nat := s.boundaryAfter s.meridian

/-- R27: the pattern of ratio p permits the boundary at meridian count m. -/
def pacePermits (s : State) (p m : Nat) : Bool :=
  let k := (m - s.furrowPhase) / s.furrowMt % 16
  decide (k * p / 16 < (k + 1) * p / 16)

/-- The furrow that would begin next belongs to the running step. -/
def stepTerm (s : State) : Bool := s.running && decide (s.step.granted < s.step.length)

/-- The TWIN term for step furrow k (R23, R352). -/
def twinTerm (s : State) (k : Nat) : Bool :=
  !s.step.asLead || s.step.eval || !s.step.ledgered || s.step.ledgerAcked ||
    (match s.plan.ckpt.bind fun c => SMap.find? c.ack s.step.program with
     | some rel => decide (k < rel)
     | none => true)

/-- The eight terms for the boundary at count b, sampled at the present moment (R23). -/
def terms (s : State) (b : Nat) : Nat :=
  let on := s.stepTerm
  let k := s.step.granted
  b2n on + b2n (!on || s.sownTerm s.meridian k) * 2 + b2n (!on || s.twinTerm k) * 4 + b2n (!on || s.copyTerm) * 8 +
    b2n (!on || (s.wakeHolders k).isEmpty) * 16 + b2n (s.pacePermits (s.getF F.PACE_STATUS.EFFECTIVE) b) * 32 +
    b2n s.locked * 64 + 128

/-- A lead with TWIN_LOCK announces a granted boundary (R39). -/
def announce (s : State) (b : Nat) : State :=
  if s.getF F.FURROW_CFG.TWIN_LOCK = 1 ∧ s.role = 1 then
    s.twinSend (.notice (furrowAdd s.furrow 1) b s.furrowMt s.furrowPhase)
  else s

/-- Sample and latch the grant terms (R24). A standby with TWIN_LOCK set evaluates none (R39, R316). -/
def sampleTerms (s : State) : State :=
  if s.followsTwin && !s.running then { s with time := { s.time with sampled := true } } else
  let b := s.nextBoundary
  let on := s.stepTerm
  let k := s.step.granted
  let t := s.terms b
  let s := s.keepF F.GRANT_STATUS.TERMS t
  let s := { s with
    time := { s.time with sampled := true },
    step := { s.step with
      copyHeld := on && !bitOf t 3, wakeHeld := if on then s.wakeHolders k else [] } }
  if t = 255 then (s.measureLate s.meridian k).announce b else s

/-- GRANT_SAMPLE: the counter reaches the sampling point of the coming boundary (R24). -/
def grantSample (s : State) : State :=
  if s.time.refRunning && !s.time.sampled then
    let at0 := s.nextBoundary - s.getF F.FURROW_CFG.GRANT_EVAL_MT
    (if s.meridian < at0 then s.keepF F.MERIDIAN_COUNT.COUNT at0 else s).sampleTerms
  else s

/-! ### The end of a furrow (R32, R34, R245, R221) -/

/-- Slack of a plot's furrow before its stretch and slip, in 1/8 periods (R31, R32). -/
def slackBase (s : State) : Int :=
  let rate : Nat := if s.getF F.FURROW_CFG.CLOCK_POLICY = 1 then 9728 else 10880
  (rate * s.furrowMt / 1000 : Nat) - (384 : Int)

/-- Remaining slack of a plot in the furrow that ends. -/
def slackOf (s : State) (lid : Nat) : Int :=
  s.slackBase - (SMap.get 0 s.step.stretch (s.regionOf lid) : Nat) - (8 * SMap.get 0 s.step.slip lid : Nat)

/-- Plots that have the program, and those of them whose cores are in service. -/
def programPlots (s : State) : List Nat :=
  if s.mem.slots.isEmpty then [] else s.plotList.filter s.hasProgram
def runningPlots (s : State) : List Nat := s.programPlots.filter fun l => !s.coreFenced l

/-- Judge one plot's furrow: overrun, slack event, lowest slack (R32, R34). Of a core fenced within the furrow only an overrun is
recorded (R156, log entry 65). -/
def judgePlot (s : State) (lid : Nat) : State :=
  let k := s.slackOf lid
  let n := s.regionOf lid
  if k < 0 then
    (s.incF (F.OVERRUN_COUNT.COUNT n) 1).coreFault lid {
      code := 0x0301, srcType := srcPlot, srcId := lid, opUnit := opSequencer, detail := k.natAbs % 2 ^ 16 }
  else if s.coreFenced lid then s
  else
    let least := min k.toNat ((SMap.find? s.step.slackMin n).getD (2 ^ 16 - 1))
    let s := { s with step := { s.step with slackMin := SMap.ins s.step.slackMin n least } }
    if k < (s.getF (F.CLK_CFG.SLACK_WARN n) : Int) then
      ({ s with time := { s.time with slackEvents := s.time.slackEvents + 1 } }).event 0x0005 srcPlot lid k.toNat
    else s

/-- What the boundary after a granted furrow's slots brings, once, be it granted, held or withheld (R32, R34, R40): every plot has
issued its slots, and its furrow is judged against FURROW_MT. -/
def endSlots (s : State) : State :=
  if s.running && decide (0 < s.step.granted) && !s.step.judged then
    let p := 48 * s.step.granted
    let s := (s.plots.map (·.1)).foldl (fun s l => s.advance l p) s
    let fresh := s.plots.map fun (x : Nat × PlotSt) => (x.1, { x.2 with crc := 0xFFFFFFFF, fetched := 0 })
    let s := { s with plots := fresh.filter fun x => decide (x.2 ≠ PlotSt.zero) }
    let s := s.programPlots.foldl judgePlot s
    let s := s.mem.portGrains.foldl (fun s (g : Nat × Nat) =>
      s.setF (F.PORT_PEAK.COUNT g.1) (max g.2 (s.getF (F.PORT_PEAK.COUNT g.1)))) s
    { s with mem := { s.mem with portGrains := [] }, step := { s.step with judged := true } }
  else s

/-- The furrow under way ends, at the next granted boundary or the horizon (R22): its segments are complete, blocks return, and the
crossing queues free what it read (R37, R221, R245). -/
def endFurrow (s : State) : State :=
  if s.running && decide (0 < s.step.granted) then s.completeSegs.returnSpent.endCrossings else s

/-! ### The boundary (R21-R26, R40, R342) -/

/-- A granted boundary begins step furrow `granted` (R21, R23). -/
def beginFurrow (s : State) : State :=
  let s := s.keepF F.FURROW_INDEX.INDEX (furrowAdd s.furrow 1)
  let k := s.step.granted
  let s := { s with
    step := { s.step with granted := k + 1, holdRun := [], judged := false, copyHeld := false, stretch := [], slip := [] },
    obs := { s.obs with sampled := s.obs.sampled + 1 }, fab := { s.fab with sent := [] }, sow := { s.sow with sent := [] }, hv := { s.hv with pos := [] } }
  let s := s.discardStale s.furrow
  let s := s.landStreams s.furrow
  let s := (List.range 16).foldl deliverVotes s
  let s := (s.fetchStreams k).countStreams
  let s := s.formNorm.sleepAt k
  s.runningPlots.foldl (fun s l => s.perf l 0x01 1) s

/-- A boundary of a running step at which a term is false (R25, R26, R346). -/
def notGranted (s : State) (t : Nat) : State :=
  let isFalse (i : Nat) : Bool := !bitOf t i
  let s : State := [1, 2, 3, 4, 5, 6].foldl (fun (s : State) i => if isFalse i then s.incF (F.HOLD_BY_TERM.COUNT i) 1 else s) s
  let held := isFalse 1 || isFalse 2 || isFalse 3 || isFalse 4 || isFalse 6
  let runs := [1, 2, 3, 4].foldl (fun (m : SMap Nat) i =>
    if isFalse i then SMap.set 0 m i (SMap.get 0 s.step.holdRun i + 1) else m) []
  let s : State := { s with step := { s.step with holdRun := runs, held := s.step.held + b2n held } }
  let s : State := if held then s.incF F.HOLD_COUNT.COUNT 1 else s
  let alone := isFalse 3 && !(isFalse 1 || isFalse 2 || isFalse 4 || isFalse 5 || isFalse 6)
  if alone && s.exposedLeft && decide (s.step.slice ≤ s.step.drained) then s.incLive F.CKPT_UNPLANNED.COUNT 1 else s

/-- The step takes its horizon: STEP becomes false and the close follows (R342, R180). -/
def takeHorizon (s : State) : State := ({ s with step := { s.step with phase := .closing } }).endUngranted

/-- A standby adopts an advance notice at its boundary, or late and forward only; its channels discard what is due by then (R39,
R223, R237). -/
def adoptOne (b : Nat) (s : State) (x : Nat × Nat) : State :=
  let s := if x.2 < b then s.incLive F.TWIN_LOCK_STATUS.LOCK_SLIPS 1 else s
  if furrowLater x.1 s.furrow then (s.keepF F.FURROW_INDEX.INDEX x.1).discardStale x.1 else s

/-- The notices whose boundary has come, in the order they arrived. -/
def adoptNotices (s : State) (b : Nat) : State :=
  let t := { s with time := { s.time with notices := s.time.notices.filter fun x => decide (b < x.2) } }
  (s.time.notices.filter fun x => decide (x.2 ≤ b)).foldl (adoptOne b) t

/-- The terms of kind hold, MERIDIAN apart, that have stayed false for more than HOLD_LIMIT boundaries (R26). -/
def pastLimit (s : State) : List Nat :=
  [1, 2, 3, 4].filter fun i => decide (s.getF F.HOLD_LIMIT.LIMIT < SMap.get 0 s.step.holdRun i)

/-- Their fault records (R26). -/
def raiseHolds (s : State) : State :=
  s.pastLimit.foldl (fun (s : State) i =>
    let held := SMap.get 0 s.step.holdRun i
    if i = 4 then
      let n := s.step.wakeHeld.headD 0
      s.raise { code := 0x0502, srcType := srcRegion, srcId := n, detail := held % 2 ^ 32, unit := some (unitRegion, n) }
    else s.raise { code := 0x0405 + i, srcType := srcModule, srcId := 0, detail := held % 2 ^ 32, classifiable := false }) s

/-- FURROW_BOUNDARY: the counter reaches the coming boundary, and the latched terms decide it (R21-R26, R40, R342, R343). A hold
limit reached at the boundary at which an attempt is abandoned for another fault has its record too (R40). -/
def furrowBoundary (s : State) : State :=
  if s.time.refRunning then
    let s := if s.time.sampled then s else s.grantSample
    let b := s.nextBoundary
    let s := s.keepF F.MERIDIAN_COUNT.COUNT b
    let t := s.getF F.GRANT_STATUS.TERMS
    let s := { s with time := { s.time with sampled := false } }
    let s := s.endSlots.adoptNotices b
    let granted := s.running && s.step.fault.isNone && decide (s.step.granted < s.step.length) && decide (t = 255)
    let s := s.keepF F.GRANT_STATUS.GRANTED (b2n granted)
    if s.inAttempt && s.step.fault.isSome then
      let s := if s.running && decide (s.step.granted < s.step.length) && bitOf t 0 then (s.notGranted t).raiseHolds else s
      s.abandon
    else if s.running then
      if s.step.granted = s.step.length then (s.endFurrow.incF (F.HOLD_BY_TERM.COUNT 0) 1).takeHorizon
      else if t = 255 then s.endFurrow.beginFurrow
      else if bitOf t 0 then s.notGranted t
      else s.incF (F.HOLD_BY_TERM.COUNT 0) 1
    else s.incF (F.HOLD_BY_TERM.COUNT 0) 1
  else s

/-- HOLD_LIMIT_FAULT: the terms that stayed false beyond HOLD_LIMIT boundaries end the step (R26). -/
def holdLimit (s : State) : State := if s.running && !s.pastLimit.isEmpty then s.raiseHolds.abandon else s

/-! ### Local clocks (R28-R30) -/

/-- The four monitor codes of a region, and the lowest. -/
def readMonitors (s : State) (n : Nat) (codes : BitVec 32) : State :=
  let low := (List.range 4).foldl (fun m i => min m (bitsOf codes.toNat (8 * i) 8)) 255
  let s := (s.keepF (F.MARGIN_NOW.CODES n) codes.toNat).keepF (F.MARGIN_NOW.LOWEST n) low
  let least := min low ((SMap.find? s.step.marginMin n).getD 255)
  { s with step := { s.step with marginMin := SMap.ins s.step.marginMin n least } }

/-- The codes that the generator has read raise a margin fault (R29): the lowest lies below MARGIN_FLOOR after a full stretch, or
under the fixed-derated policy. -/
def marginBad (s : State) (n : Nat) : Bool :=
  decide (s.getF (F.MARGIN_NOW.LOWEST n) < s.getF (F.CLK_CFG.MARGIN_FLOOR n)) &&
    (s.getF F.FURROW_CFG.CLOCK_POLICY == 1 || NSet.mem s.time.full n)

/-- Its record (R29): the lowest code and the first monitor that reads it. -/
def raiseMargin (s : State) (n : Nat) : State :=
  let low := s.getF (F.MARGIN_NOW.LOWEST n)
  let monitor := ((List.range 4).find? fun i => bitsOf (s.getF (F.MARGIN_NOW.CODES n)) (8 * i) 8 == low).getD 0
  s.raise { code := 0x0501, srcType := srcRegion, srcId := n, detail := low + monitor * 256, unit := some (unitRegion, n) }

/-- The generator stretches the period by 4/8 or 8/8 (R29). The stretch of a period outside a furrow's slots delays none (R32). -/
def stretchPeriod (s : State) (n : Nat) : State :=
  let low := s.getF (F.MARGIN_NOW.LOWEST n)
  let add : Nat := if low < s.getF (F.CLK_CFG.MARGIN_FLOOR n) then 8
    else if low < s.getF (F.CLK_CFG.STRETCH_THRESH n) then 4 else 0
  let s := { s with time := { s.time with full := if add = 8 then NSet.insert s.time.full n else NSet.erase s.time.full n } }
  if add = 0 then s
  else
    let s := s.incF (F.STRETCH_COUNT.COUNT n) 1
    if s.running && !s.step.judged then
      { s with step := { s.step with stretch := SMap.modify 0 s.step.stretch n (· + add) } }
    else s

/-- The generator of region n reads its monitors before a period: it raises a margin fault, and stretches the period unless the
fixed-derated policy is in force (R28, R29). -/
def beforePeriod (s : State) (n : Nat) (codes : BitVec 32) : State :=
  let s := s.readMonitors n codes
  let s := if s.marginBad n then s.raiseMargin n else s
  if s.getF F.FURROW_CFG.CLOCK_POLICY = 1 then s else s.stretchPeriod n

/-- MERIDIAN_REFERENCE_TIMEOUT: no reference edge for 64 periods (R18). -/
def referenceTimeout (s : State) : State := ({ s with time := { s.time with refRunning := false } }).meridianLoss 0

end State

/-- GRANT_SAMPLE (R24). -/
def execGrantSample (s : State) : Out := s.answer s.grantSample
/-- FURROW_BOUNDARY (R21). -/
def execFurrowBoundary (s : State) : Out := s.answer s.furrowBoundary
/-- HOLD_LIMIT_FAULT (R26). -/
def execHoldLimitFault (s : State) : Out := s.answer s.holdLimit
/-- MARGIN_FAULT (R29). -/
def execMarginFault (n : BitVec 8) (codes : BitVec 32) (s : State) : Out := s.answer (s.beforePeriod n.toNat codes)
/-- PERIOD_STRETCH (R29). -/
def execPeriodStretch (n : BitVec 8) (codes : BitVec 32) (s : State) : Out := s.answer (s.beforePeriod n.toNat codes)

end Sys2Proof.Machine
end

