-- ==== Sys2Proof/Machine/Horizon.lean ====
section
/-! DEFINITION. The horizon close, the commit, and the loopback tests after an abandonment (R73, R195, R342, R344, R354). -/

namespace Sys2Proof.Machine
namespace State

/-- Write eight 64-bit words of a digest. -/
def putDigest (s : State) (f : Nat → Fld) (d : List Byte) : State :=
  (List.range 8).foldl (fun s i => s.nowF (f i) (wordField d i 0 64)) s

/-- R34, R133, R159: what the last committed step leaves in the status registers. SLACK_MIN of a region in which no plot ran keeps
its value (log entry 60). -/
def recordStep (s : State) : State :=
  let words : SMap Nat := s.plots.foldl (fun m x => SMap.set 0 m x.1 x.2.words) []
  let loose : SMap Nat := s.plots.foldl (fun m x => SMap.set 0 m x.1 x.2.loose) []
  let s := { s with step := { s.step with lastWords := words, lastLoose := loose } }
  s.step.slackMin.foldl (fun s (x : Nat × Nat) => s.setF (F.SLACK_MIN.SLACK x.1) x.2) s

/-- The bins of the norm segment go to HV_NORM (R258). -/
def recordNorm (s : State) : State :=
  match s.step.norm with
  | some bins => (List.zipIdx bins).foldl (fun s b => s.setF (F.HV_NORM.SUMSQ (b.2 + 1)) b.1.1) s
  | none => (List.range 16).foldl (fun s b => s.setF (F.HV_NORM.SUMSQ b) 0) s

/-- The publication point of the commit: HORIZON posts, the step command and the staged entries return (R278, R342). -/
def publishCommit (s : State) : State :=
  let st := s.step
  let s := (s.traceHorizon true).showGleaners false
  let s := s.event 0x0001 srcModule 0 st.stepS
  let s := st.staged.foldl (fun s e => s.finish e.1 e.2.1 e.2.2 0) s
  let s := s.finishStep 0
  let s := { s with
    plots := s.haltedPlots, base := none,
    mem := { s.mem with blockWritten := [], chunk := [], chunkNext := [], portGrains := [] },
    step := { s.step with phase := .idle, fault := none, staged := [], holdRun := [], copyHeld := false, judged := true } }
  let s := if st.asLead && !st.eval then s.twinSend (.horizon st.stepS true) else s
  ((s.clearFabric.darkenDoomed.sleepBetween).attestPoint).refreshPub

/-- The close of a training step, its snapshot and its commit (R195, R342, R344). -/
def closeTraining (s : State) : State :=
  let s := s.exposeDirty
  let s := s.plotList.foldl writeImage s
  let s := (s.flipHorizonMap).flipResidual
  let s := s.nowF F.CKPT_STATUS.STEPS_SINCE (satAdd 16 (s.getF F.CKPT_STATUS.STEPS_SINCE) 1)
  let due := s.ckptDue
  let take := due && !s.draining
  let s := if take then s.snapshot else if due then s.nowF F.CKPT_STATUS.DEFERRED 1 else s
  let s := s.recordStep.recordNorm
  let hv := s.hvDigest s.step.stepS
  let s := (s.putDigest F.SOW_DIGEST.DIGEST s.sowDigest).putDigest F.HV_DIGEST.DIGEST hv
  let s := s.nowF F.HV_STATUS.COMMITTED_S s.step.stepS
  let s := (s.queueTrailers hv).formWitness take
  s.endClaims.publishCommit

/-- The close of an evaluation step flips nothing and sets STALE (R196, R354). -/
def closeEval (s : State) : State :=
  let s := s.setStale.recordStep
  let s := (s.putDigest F.SOW_DIGEST.DIGEST s.sowDigest).formWitness false
  ({ s with mem := { s.mem with dirty := [] } }).endClaims.publishCommit

/-- A line of site `p` that the close of a training step could not write (R195). -/
def closeWriteLost (s : State) (p off : Nat) : State :=
  (s.incLive (F.UNCORR.COUNT p) 1).raise {
    code := 0x0102, srcType := srcSite, srcId := p, opUnit := opLoam, detail := off, unit := some (unitShell, p) }

/-- HORIZON_CLOSE: the close runs and the step commits; a fault raised before the commit, an uncorrectable write of the close among
them, abandons it. The close waits for the drain of an image half that it would overwrite (R346). -/
def horizonClose (s : State) (ns : Nat) (bad : List (Nat × Nat)) : State :=
  if s.step.phase == .closing then
    let s := if s.step.eval then s else bad.foldl (fun s x => s.closeWriteLost x.1 x.2) s
    if s.step.fault.isSome then s.abandon
    else
      let t := s.nowF F.MEM_STATUS.CLOSE_NS ns
      if s.step.eval then t.closeEval else if s.imageBlocked then s else t.closeTraining
  else s

/-! ### Loopback tests (R73, R334) -/

/-- One port's loopback fails: keys 4p + d for a shell, 2^20 + 64h + LINK for a headland port. -/
def loopbackFailed (s : State) (key : Nat) : State :=
  if key < 2 ^ 20 then
    let p := key / 4
    let s := s.raise {
      code := 0x0409, srcType := srcSite, srcId := p, opUnit := opRouter, detail := key % 4, unit := some (unitShell, p), abandons := false, fenced := true, degraded := true }
    s.shellFail p
  else
    let h := (key - 2 ^ 20) / 64
    let link := (key - 2 ^ 20) % 64
    let s := s.raise {
      code := 0x0409, srcType := srcHeadland, srcId := h, opUnit := opHeadland, detail := (h + 2) % 4 + link * 4,
      unit := some (unitHeadland, h), abandons := false, degraded := true }
    let s := s.nowF (F.EDGE_LINK_FAIL.FAILED h) (setBits (s.getF (F.EDGE_LINK_FAIL.FAILED h)) link 1 1)
    s.degrade ((s.rowOf (s.edgePlot h link).1))

/-- LOOPBACK_TEST: the tests end, and those that failed take effect (R73). -/
def loopbackTest (s : State) (failed : List Nat) : State :=
  if s.inAttempt || s.grid.loopbacks.isEmpty then s
  else
    let keys := (s.grid.loopbacks.toList).filter failed.contains
    let s := { s with grid := { s.grid with loopbacks := [] } }
    keys.foldl loopbackFailed s

end State

/-- HORIZON_CLOSE (R195, R342), with what the close meets. -/
def execHorizonClose (o : CloseObs) (s : State) : Out :=
  s.answerIf (o.bad.all fun x => decide (x.1.toNat < 5120))
    (s.horizonClose o.ns.toNat (o.bad.map fun x => (x.1.toNat, x.2.toNat)))

/-- LOOPBACK_TEST (R73): the shell ports (site and port) and headland ports (headland and LINK) whose loopback failed. -/
def execLoopbackTest (shells : List (BitVec 13 × BitVec 2)) (heads : List (BitVec 2 × BitVec 6)) (s : State) : Out :=
  s.answer (s.loopbackTest (shells.map (fun x => 4 * x.1.toNat + x.2.toNat) ++
    heads.map fun x => 2 ^ 20 + 64 * x.1.toNat + x.2.toNat))

end Sys2Proof.Machine
end

