-- ==== Sys2Proof/Machine/Twin.lean ====
section
/-! DEFINITION. Leases between the controllers and between the modules, and the twin link's messages (R39, R352, R355-R361). -/

namespace Sys2Proof.Machine
namespace State

/-- The held lease changed: twins hear of it (R358). -/
def tellLease (s : State) : State :=
  match s.heldLease with
  | some l => s.twinSend (.lease l.raw)
  | none => s

/-- R361: a standby, its lease valid still or expired, that accepts a lead lease takes over. -/
def takeover (s : State) : State :=
  let s := s.nowF F.TWIN_LOCK_STATUS.LOCKED 0
  let s := { s with twin := { s.twin with parcels := [] }, time := { s.time with notices := [] } }
  s.advanceEpoch

/-- The module accepts a lease: the controller in charge holds it (R356, R357). -/
def acceptLease (s : State) (l : Lease) : State :=
  let was := s.newestHeld.elim 3 (·.role)
  let north := s.inCharge == 0
  let s := { s with twin := { s.twin with
      north := if north then some l else s.twin.north, south := if north then s.twin.south else some l,
      newest := some l, expiredPosted := false, equalLead := false } }
  let s := if was = 2 ∧ l.role = 1 then s.takeover else s
  let s := if l.role = 1 ∨ l.role = 2 then s else s.nowF F.TWIN_LOCK_STATUS.LOCKED 0
  s.tellLease

/-- CONTROLLER_LEASE_EXCHANGE: one controller passes its lease to the other; where both hold different valid ones each posts, and the
newer decides (R357). -/
def leaseExchange (s : State) (fromSouth : Bool) : State :=
  let mine := if fromSouth then s.twin.south else s.twin.north
  let theirs := if fromSouth then s.twin.north else s.twin.south
  let put (a b : Option Lease) : State :=
    { s with twin := { s.twin with north := if fromSouth then b else a, south := if fromSouth then a else b } }
  if s.controllerLost 0 || s.controllerLost 1 then s
  else
    match s.validOf mine, s.validOf theirs with
    | some l, none => put mine (some l)
    | some l, some o =>
      if l.raw = o.raw then s
      else
        let n := s.twin.north.elim 0 (·.seq)
        let d := s.twin.south.elim 0 (·.seq)
        let t := if o.seq < l.seq then put mine mine else put theirs theirs
        (t.leaseRecord 0x0702 (n % 2 ^ 32 + d % 2 ^ 32 * 2 ^ 32)).leaseRecord 0x0702 (n % 2 ^ 32 + d % 2 ^ 32 * 2 ^ 32)
    | none, _ => s

/-- LEASE_EXPIRY: the held lease expires (R357). -/
def leaseExpiry (s : State) : State :=
  match s.newestHeld with
  | none => s
  | some l =>
    if l.expiry ≤ s.meridian ∧ !s.twin.expiredPosted then
      ({ s with twin := { s.twin with expiredPosted := true } }).leaseRecord 0x0701 l.seq
    else s

/-! ### Messages received (R39, R352, R358-R360) -/

/-- NOTICE: index, boundary, the lead's FURROW_MT and FURROW_PHASE, and the one-way latency measured as lock is established; the two
modules' furrows must agree at every notice (R39). -/
def notice (s : State) (index boundary mt phase latency : Nat) : State :=
  if s.followsTwin then
    let held := s.getF F.TWIN_LOCK_STATUS.LOCKED == 1
    if mt = s.getF F.FURROW_CFG.FURROW_MT ∧ phase = s.furrowPhase ∧
        (held = true ∨ latency + 2 < s.getF F.FURROW_CFG.GRANT_EVAL_MT) then
      let s := if held then s else (s.nowF F.TWIN_LOCK_STATUS.LOCKED 1).keepF F.TWIN_LOCK_STATUS.LATENCY_MT latency
      { s with time := { s.time with notices := s.time.notices ++ [(index, boundary)] } }
    else (s.nowF F.TWIN_LOCK_STATUS.LOCKED 0).event 0x0007 srcModule 0 latency
  else s

/-- ACK of a ledger record: the TWIN term of its step is satisfied (R352). -/
def ackRecord (s : State) (stepS : Nat) : State :=
  if s.inAttempt && stepS == s.step.stepS then { s with step := { s.step with ledgerAcked := true } } else s

/-- A staging pass or a substitution has no furrow to end. -/
def abandonIfNoBoundary (s : State) : State := if s.running then s else s.abandonAtOnce

/-- A lease received from the twin: a newer lead lease ends a running step, though the module's own has expired (R358). -/
def twinLease (s : State) (raw : List Byte) : State :=
  let t := Lease.ofBytes raw
  let fits := t.formOk && t.signed && s.leaseFits t && decide (t.role = 1) &&
    (match s.heldLease with
     | some l => t.serial == l.twinSerial
     | none => true)
  if !s.isPaired || !fits then s
  else
    let newer : Bool := match s.twin.twinLease with
      | some o => decide (o.seq < t.seq)
      | none => true
    let s := if newer then { s with twin := { s.twin with twinLease := some t } } else s
    match s.heldLease, s.newestHeld with
    | none, none => s
    | none, some l => if l.role = 1 ∧ l.seq < t.seq ∧ newer then (s.leaseBad 7 t.seq true).abandonIfNoBoundary else s
    | some l, _ =>
      if l.role ≠ 1 then s
      else if l.seq < t.seq ∧ newer then (s.leaseBad 7 t.seq true).abandonIfNoBoundary
      else if l.seq = t.seq ∧ !s.twin.equalLead then
        ({ s with twin := { s.twin with equalLead := true } }).leaseBad 8 t.seq
      else s

/-- HEARTBEAT: sequence numbers acknowledged, and the standby's checkpoint (R359, R366). -/
def heartbeat (s : State) (acks : List Nat) (held : Nat) : State :=
  let s := { s with twin := { s.twin with unacked := s.twin.unacked.filter fun m => !acks.contains m.seq } }
  if s.role = 1 then s.nowF F.TWIN_STATUS.HELD_CKPT held else s

/-- Note the sequence number of a message of types 4 to 6 for the next HEARTBEAT. -/
def noteSeq (s : State) (seq : Nat) : State :=
  { s with twin := { s.twin with received := s.twin.received ++ [seq] } }

/-- LEDGER: the standby stores the record in its own area and acknowledges it (R352, R360). -/
def ledgerMsg (s : State) (seq : Nat) (rec : List Byte) : State :=
  if s.role = 2 then
    let stepS := wordField rec 1 0 48
    let s := s.noteSeq seq
    if s.ckpt.ledger.any fun r => r.1 == stepS then s.twinSend (.ackLedger stepS)
    else
      let r := s.ledgerPut stepS rec
      if r.2 then r.1.twinSend (.ackLedger stepS) else r.1
  else s

/-- PARCEL: the standby holds the parcel for the commit, and acknowledges it (R347, R360). -/
def parcelMsg (s : State) (seq key : Nat) (data : List Byte) : State :=
  if s.role = 2 ∧ s.keptKeys.contains key then
    let s := s.noteSeq seq
    ({ s with twin := { s.twin with parcels := SMap.ins s.twin.parcels key data } }).twinSend (.ackParcel key)
  else s

/-- A manifest's form, signature and shape against this configuration (R348, R350): the outcome of the first that fails. -/
def manifestFault (s : State) (m : List Byte) : Option Nat :=
  let key := s.heldLease.elim [] (·.twinKey)
  let body := m.take 256
  let sig := m.drop 256
  if m.length ≠ 320 ∨ wordField m 0 0 32 ≠ 0xC4E70A11 ∨ wordField m 0 32 16 ≠ 1 then some outSignature
  else if !(Ed25519.verify (Ed25519.publicKey s.man.secret) body sig || (key ≠ [] && key ≠ zeroBytes 32 && Ed25519.verify key body sig))
  then some outSignature
  else if wordField m 4 0 64 ≠ s.gridShape ∨ (m.drop 192).take 64 ≠ s.layoutDigest then some outShape
  else none

/-- MANIFEST: the standby commits the checkpoint that verifies (R360). -/
def manifestMsg (s : State) (seq : Nat) (m : List Byte) : State :=
  if s.role = 2 then
    let s := s.noteSeq seq
    let got := s.twin.parcels
    let s := { s with twin := { s.twin with parcels := [] } }
    if (s.manifestFault m).isNone && s.rootMatches m got then
      let n := wordField m 6 0 32
      ((s.commitCopies got).ledgerRelease (wordField m 2 0 48)).nowF F.TWIN_STATUS.HELD_CKPT n
    else s.event Config.twinVerifyEvent srcModule 0 (wordField m 6 0 64)
  else s

/-- TWIN_HORIZON: the standby drops the record of a step that the lead abandoned (R360). -/
def twinHorizon (s : State) (stepS : Nat) (committed : Bool) : State :=
  if s.role = 2 ∧ !committed then s.ledgerDrop stepS else s

/-! ### Messages sent (R358, R359) -/

/-- TWIN_PERIODIC_SEND: the heartbeat and the held lease, every 1 ms. -/
def twinPeriodic (s : State) : State :=
  if s.isPaired then
    let acks := s.twin.received
    (({ s with twin := { s.twin with received := [] } }).twinSend (.heartbeat acks)).tellLease
  else s

/-- TWIN_RESEND_TIMEOUT: messages of types 4 to 6 unacknowledged for 2 ms are sent again (R359). -/
def twinResend (s : State) : State :=
  let late (m : TwinMsg) : Bool := match m.sentAt with
    | some t => decide (t + 2 * milliMt ≤ s.meridian)
    | none => false
  let again := (s.twin.unacked.filter late).map fun m => { m with left := m.body.grains, sentAt := none }
  { s with twin := { s.twin with queue := s.twin.queue ++ again, unacked := s.twin.unacked.filter fun m => !late m } }

/-- The next `n` grains of a message. -/
def msgNext (m : TwinMsg) (n : Nat) : List (List Byte) :=
  (chunks 16 ((m.body.bytes m.seq).drop (16 * (m.body.grains - m.left)))).take n

/-- What a superblock takes from the queue: its grains, the messages not finished, those finished. -/
structure TwinFill where
  grains : List (List Byte)
  queue : List TwinMsg
  done : List TwinMsg

/-- Serve messages of one type with the grains left of 240, in their order. -/
def serveType (ty : Nat) (gs : List (List Byte)) : List TwinMsg → TwinFill
  | [] => ⟨gs, [], []⟩
  | m :: ms =>
    let room := 240 - gs.length
    if m.body.type = ty ∧ 0 < room then
      let r := serveType ty (gs ++ msgNext m (min room m.left)) ms
      if m.left ≤ room then { r with done := m :: r.done }
      else { r with queue := { m with left := m.left - room } :: r.queue }
    else
      let r := serveType ty gs ms
      { r with queue := m :: r.queue }

/-- TWIN_LINK_SUPERBLOCK: 240 grains serve the queued messages in the order of R359, and go out as sixteen lane blocks. -/
def twinSuperblock (s : State) : State :=
  if s.isPaired && s.getF F.TWIN_STATUS.LINK_UP == 1 then
    let r := twinOrder.foldl (fun (r : TwinFill) ty =>
      let q := serveType ty r.grains r.queue
      { q with done := r.done ++ q.done }) ⟨[], s.twin.queue, []⟩
    let keep := (r.done.filter fun m => decide (4 ≤ m.body.type) && decide (m.body.type ≤ 6)).map fun m =>
      { m with left := 0, sentAt := some s.meridian }
    { s with twin := { s.twin with
        queue := r.queue, sent := r.done.map fun m => (m.seq, m.body), unacked := s.twin.unacked ++ keep
        blocks := (List.range 16).map (twinBlock r.grains) } }
  else s

end State

/-- LEASE_EXPIRY (R357). -/
def execLeaseExpiry (s : State) : Out := s.answer s.leaseExpiry
/-- CONTROLLER_LEASE_EXCHANGE (R357). -/
def execControllerLeaseExchange (fromSouth : Bool) (s : State) : Out := s.answer (s.leaseExchange fromSouth)
/-- NOTICE (R39). -/
def execNotice (index : BitVec 48) (boundary : BitVec 64) (mt phase : BitVec 16) (latency : BitVec 8) (s : State) : Out :=
  s.answer (s.notice index.toNat boundary.toNat mt.toNat phase.toNat latency.toNat)
/-- ACK (R352): of a ledger record by its STEP_S, or of a parcel. -/
def execAck (what : TwinAck) (s : State) : Out :=
  s.answer ((match what with
    | .record stepS => s.ackRecord stepS.toNat
    | .parcel layer tile elements => s.parcelAcked (parcelKey layer.toNat tile.toNat elements.toNat)))
/-- TWIN_HORIZON (R360). -/
def execTwinHorizon (stepS : BitVec 48) (committed : Bool) (s : State) : Out := s.answer (s.twinHorizon stepS.toNat committed)
/-- TWIN_LEASE (R358). -/
def execTwinLease (raw : List Byte) (s : State) : Out := s.answerIf (decide (raw.length = 192)) (s.twinLease raw)
/-- HEARTBEAT (R359). -/
def execHeartbeat (acks : List (BitVec 64)) (held : BitVec 32) (s : State) : Out :=
  s.answer (s.heartbeat (acks.map BitVec.toNat) held.toNat)
/-- LEDGER (R360). -/
def execLedger (seq : BitVec 64) (rec : List Byte) (s : State) : Out :=
  s.answerIf (decide (64 ≤ rec.length)) (s.ledgerMsg seq.toNat rec)
/-- MANIFEST (R360). -/
def execManifest (seq : BitVec 64) (m : List Byte) (s : State) : Out :=
  s.answerIf (decide (m.length = 320)) (s.manifestMsg seq.toNat m)
/-- PARCEL (R360). -/
def execParcel (seq : BitVec 64) (layer : BitVec 4) (tile : BitVec 24) (elements : BitVec 32) (data : List Byte) (s : State) : Out :=
  s.answerIf (decide (data.length = 65536))
    (s.parcelMsg seq.toNat (parcelKey layer.toNat tile.toNat elements.toNat) data)
/-- TWIN_PERIODIC_SEND (R358). -/
def execTwinPeriodicSend (s : State) : Out := s.answer s.twinPeriodic
/-- TWIN_RESEND_TIMEOUT (R359). -/
def execTwinResendTimeout (s : State) : Out := s.answer s.twinResend
/-- TWIN_LINK_SUPERBLOCK (R359). -/
def execTwinLinkSuperblock (s : State) : Out := s.answer s.twinSuperblock

end Sys2Proof.Machine
end

