-- ==== Sys2Proof/Machine/Window.lean ====
section
/-! DEFINITION. The window, its parcels and rings, and how the module takes entries from them (R275-R283, R289). -/

namespace Sys2Proof.Machine
namespace State

/-! ### Uncorrectable window lines (R279) -/

/-- The enabled queue whose ring holds a parcel, if any. -/
def queueOfParcel (s : State) (p : Nat) : Option Nat :=
  (0 :: 1 :: s.enabledQueues).find? fun q => (s.ringParcels q).contains p

/-- Parcels of a ring return to HOST as the ring is disabled (R276). -/
def freeRing (s : State) (ps : List Nat) : State := ps.foldl (fun s p => s.setFlag p 0) s

/-- What of a queue's ring is still marked: its parcels, or those of a ring that a bad line has disabled (R276, R279). -/
def markedRing (s : State) (q : Nat) : List Nat :=
  (match SMap.find? s.win.stranded q with
   | some r => (List.range r.2).map (· + r.1)
   | none => s.ringParcels q).filter s.isRing

/-- A queue is disabled by an uncorrectable line of its ring, and its given entries are lost with their completions. The other parcels of
the ring stay as they are until a write or an apply disables it or gives it another (R276), and DONE stays too (R278). -/
def loseQueue (s : State) (q : Nat) : State :=
  let ring := (s.qBase q, ceilDiv (s.qEntries q) 1024)
  let s := (s.setQueue q QueueSt.zero).event 0x0010 srcQueue q q
  let s := { s with
    win := { s.win with stranded := SMap.ins s.win.stranded q ring },
    step := { s.step with staged := s.step.staged.filter fun e => e.1 != q } }
  if q = 0 then
    let dusk : Option DuskSt := s.dusk.map fun d => { d with lost := true }
    ({ s with step := { s.step with q0idx := none, skip := [] }, dusk := dusk }).nowF (F.MGMT_RING.ENTRIES 0) 0
  else if q = 1 then s.nowF (F.MGMT_RING.ENTRIES 1) 0
  else { s with win := { s.win with off := NSet.insert s.win.off q } }

/-- An uncorrectable line is found in a window parcel: WINDOW_LOST, and what R279 gives for the parcel's use. -/
def windowLost (s : State) (p : Nat) : State :=
  let s := s.event 0x000F srcModule 0 p
  if s.owner p = 0 ∨ s.owner p = 3 then s
  else
    let s := { s with win := { s.win with toVoid := NSet.insert s.win.toVoid p } }
    match s.queueOfParcel p with
    | some q => s.loseQueue q
    | none => s

/-- A known uncorrectable line of these bytes is met where it matters: WINDOW_LOST posts and the parcel turns VOID, unless it is on its
way there, is HOST or is VOID (R279). -/
def meetBadLines (s : State) (a len : Nat) : State :=
  let ps := (s.win.badLines.toList.filter fun l => decide (l * 64 < a + len) && decide (a < l * 64 + 64)).map (· / 1024)
  (ps.eraseDups.filter fun p => !NSet.mem s.win.toVoid p && s.owner p != 0 && s.owner p != 3).foldl windowLost s

/-! ### Entries (R281-R283) -/

/-- Entry word `i` of entry `idx`. -/
def entryWord (s : State) (q idx i : Nat) : Nat := s.winWord (s.entryAddr q idx + 8 * i)
def entryLength (s : State) (q idx : Nat) : Nat := s.entryWord q idx 1 % 2 ^ 48
def entryWindow (s : State) (q idx : Nat) : Nat := s.entryWord q idx 2 % 2 ^ 36

/-- The next entry to process on a queue, if one is given. -/
def nextEntry (s : State) (q : Nat) : Option Nat := if s.hasNext q then some (s.queue q).next else none

/-- Take the next entry of a queue off its front. -/
def takeEntry (s : State) (q : Nat) : State :=
  let x := s.queue q
  s.setQueue q { x with next := (x.next + 1) % 2 ^ 32, via := SMap.drop x.via x.next }

/-- Take the front entry and finish it. -/
def complete (s : State) (q status result : Nat) : State :=
  match s.nextEntry q with
  | some i => (s.takeEntry q).finish q i status result
  | none => s

/-- R283, R289: the status of an endpoint operation's window range: ALIGN, OWNER, MEDIA or OK. `readOnly`: the operation only
reads, so SHARED-RO parcels serve it too. A range of no bytes touches no parcel. -/
def rangeStatus (s : State) (a len : Nat) (readOnly : Bool) : Nat :=
  if a % 16 ≠ 0 ∨ len % 16 ≠ 0 ∨ 2 ^ 32 < len ∨ 2 ^ 36 < a + len then 0x0003
  else if !((parcelsOf a len).all fun p => s.owner p == 1 || (readOnly && s.owner p == 2)) then 0x0004
  else if s.hasBadLine a len then 0x000E
  else 0

/-- An entry that reads the window ends with the status of its range. -/
def refuseRead (s : State) (q status a len : Nat) : State :=
  let t := s.complete q status 0
  if status = 0x000E then t.meetBadLines a len else t

/-- A destination at WINDOW for `len` bytes in DEVICE parcels (R284, R348, R353). -/
def placeStatus (s : State) (a len : Nat) : Nat :=
  if 2 ^ 36 < a + len then 0x0003
  else if !((parcelsOf a len).all fun p => s.owner p == 1) then 0x0004
  else 0

/-! ### Parcel doorbells (R276, R277) -/

/-- The owner from which a change starts: GIVE, SHARE, VOID from HOST; CLAIM from VOID; RECLAIM from DEVICE; RECALL from
SHARED-RO with RING clear. A change that is pending is not requested again (R269, R290). -/
def eligible (s : State) (op p : Nat) : Bool :=
  if op ≤ 3 then s.owner p == 0
  else if op = 4 then s.owner p == 3
  else if op = 5 then s.owner p == 1 && !s.isPending p
  else s.owner p == 2 && !s.isRing p && !s.isPending p

/-- Apply a change to one parcel. -/
def changeParcel (op : Nat) (s : State) (p : Nat) : State :=
  if op = 1 then s.setFlag p 1
  else if op = 2 then s.setFlag p 2
  else if op = 3 then (s.zeroParcel p).setFlag p 3
  else if op = 4 then s.setFlag p 0
  else s.setFlag p (s.flag p ||| 4)

/-- A write to PARCEL_DOORBELL: its status and the state. One of no parcels changes none, whatever its OP (R289). -/
def parcelDoorbell (s : State) (v : Nat) : Nat × State :=
  let first := bitsOf v 0 20
  let count := bitsOf v 20 21
  let op := bitsOf v 41 3
  if count = 0 then (0, s)
  else if op = 0 ∨ 6 < op then (0x0001, s)
  else if 1048576 < first + count then (0x0003, s)
  else
    let ps := (List.range count).map (first + ·)
    if ps.all (s.eligible op) then (0, ps.foldl (changeParcel op) s) else (0x0004, s)

/-! ### Queue doorbells and the management rings (R280, R282, R291) -/

/-- A write to QUEUE_DOORBELL through port `p`: its status and the state. An entry whose line is known to be uncorrectable cannot be
read: the queue is lost (R279). -/
def queueDoorbell (s : State) (p q give : Nat) : Nat × State :=
  if s.qEntries q = 0 then (0x000F, s)
  else
    let old := s.qGive q
    let new := (give + 2 ^ 32 - s.qDone q) % 2 ^ 32
    let have' := (old + 2 ^ 32 - s.qDone q) % 2 ^ 32
    let is := (List.range (new - have')).map fun k => (old + k) % 2 ^ 32
    if s.qEntries q < new ∨ new < have' then (0x0004, s)
    else if is.any fun i => s.hasBadLine (s.entryAddr q i) 64 then
      (0x000F, is.foldl (fun t i => t.meetBadLines (s.entryAddr q i) 64) s)
    else if !(is.all fun i => s.winWord (s.entryAddr q i) % 4 == 0) then (0x0004, s)
    else
      let s := is.foldl (fun s i =>
        let a := s.entryAddr q i
        s.winPutWord a (setBits (s.winWord a) 0 2 1)) s
      let x := s.queue q
      let s := if q = 0 then s.setQueue 0 { x with via := is.foldl (fun m i => SMap.ins m i p) x.via } else s
      (0, s.nowF (F.QUEUE_STATE.GIVE q) give)

/-- Ring sizes: 0 or a power of two from 16 to 1,048,576 (R280). -/
def ringSizeOk (n : Nat) : Bool := n == 0 || (List.range 17).any fun k => n == 2 ^ (k + 4)

/-- Queue state as a ring is enabled or changed (R280). -/
def restartQueue (s : State) (q : Nat) : State :=
  let s := s.setQueue q QueueSt.zero
  let s := s.nowF (F.QUEUE_STATE.GIVE q) 0
  let s := s.nowF (F.QUEUE_STATE.DONE q) 0
  { s with win := { s.win with off := NSet.erase s.win.off q, stranded := SMap.drop s.win.stranded q } }

/-- Mark the parcels of a ring SHARED-RO with RING (R276). -/
def claimRing (s : State) (ps : List Nat) : State := ps.foldl (fun s p => s.setFlag p 10) s

/-- A write to MGMT_RING[i] (R276, R280, R290, R291). The ring's own present parcels count as HOST, since the same write frees
them. -/
def mgmtRing (s : State) (i base entries : Nat) : Nat × State :=
  let ps := (List.range (ceilDiv entries 1024)).map (base + ·)
  let mine := s.markedRing i
  if !ringSizeOk entries ∨ 1048576 < base + ceilDiv entries 1024 then (0x0003, s)
  else if !(s.unreturned i).isEmpty then (0x0004, s)
  else if !(ps.all fun p => s.owner p == 0 || mine.contains p) then (0x0004, s)
  else
    let s := s.freeRing mine
    let s := s.nowF (F.MGMT_RING.BASE_PARCEL i) base
    let s := s.nowF (F.MGMT_RING.ENTRIES i) entries
    (0, (s.restartQueue i).claimRing ps)

end State
end Sys2Proof.Machine
end

