-- ==== Sys2Proof/Machine/History.lean ====
section
/-! DEFINITION. The flash log and the history registers (R324-R328, R340). -/

namespace Sys2Proof.Machine

/-- Log entries of a half (R324, R325). -/
def logEntries : Nat := 16252928

/-- Where a log entry is kept: by half and index. -/
def logKey (half i : Nat) : Nat := half * 2 ^ 24 + i

namespace State

def logHead (s : State) (half : Nat) : Nat :=
  if half = 0 then s.getF F.HIST_STATUS.NORTH_HEAD else s.getF F.HIST_STATUS.SOUTH_HEAD

/-- A log entry with its CRC-32C (R325). -/
def logWord (entry : Nat) : Nat := entry % 2 ^ 512 + crc32c (leBytes 64 entry) * 2 ^ 512
/-- What a log entry reads as: zero where it fails its CRC. -/
def logRead (w : Nat) : Nat := if w / 2 ^ 512 = crc32c (leBytes 64 w) then w % 2 ^ 512 else 0

/-- Write one record, 64 bytes as a number, into a half's ring: the oldest entry is overwritten when the ring is full. -/
def logPut (s : State) (half entry : Nat) : State :=
  let i := s.logHead half
  let next := (i + 1) % logEntries
  let full := SMap.get 0 s.hist.ring (logKey half i) != 0
  let s := { s with hist := { s.hist with
      ring := SMap.set 0 s.hist.ring (logKey half i) (logWord entry),
      rate := SMap.set (0, 0) s.hist.rate half (s.meridian / secondMt, s.logRate half + 1) } }
  if half = 0 then
    let s := s.nowF F.HIST_STATUS.NORTH_HEAD next
    if full then s.nowF F.HIST_STATUS.NORTH_WRAPPED 1 else s
  else
    let s := s.nowF F.HIST_STATUS.SOUTH_HEAD next
    if full then s.nowF F.HIST_STATUS.SOUTH_WRAPPED 1 else s

/-- Take the oldest waiting record of a half off the queue of R325. -/
def takeWaiting (half : Nat) : List (Nat × Nat × Nat) → Option (Nat × Nat × Nat) × List (Nat × Nat × Nat)
  | [] => (none, [])
  | w :: ws => if w.1 = half then (some w, ws) else
      let r := takeWaiting half ws
      (r.1, w :: r.2)

/-- HISTORY_LOG_WRITE: the oldest record that waits for a half is written, within the half's 4,096 entries per second; a half whose
flash fails counts the failure, and the other half's controller writes the record, at its own rate (R324, R325, R339). -/
def historyWrite (s : State) (half : Nat) (flashError : Bool) : State :=
  if s.controllerLost half ∨ 4096 ≤ s.logRate half then s
  else
    match takeWaiting half s.hist.wait with
    | (none, _) => s
    | (some w, rest) =>
      if flashError then
        let s := s.nowF F.HIST_STATUS.FLASH_ERR (satAdd 8 (s.getF F.HIST_STATUS.FLASH_ERR) 1)
        if s.controllerLost (1 - half) then s
        else
          let s := { s with hist := { s.hist with wait := rest } }
          if s.logRate (1 - half) < 4096 then s.logPut (1 - half) w.2.2 else s.logWait (1 - half) w.2.1 w.2.2
      else ({ s with hist := { s.hist with wait := rest } }).logPut half w.2.2

/-- A controller that is lost writes no more: the other takes over the records that wait for it (R324, R393). -/
def takeOverLog (s : State) (half : Nat) : State :=
  if s.controllerLost (1 - half) then s
  else { s with hist := { s.hist with wait := s.hist.wait.map fun w => if w.1 = half then (1 - half, w.2) else w } }

/-- Write every waiting record (R372, R373): the final log write. -/
def finalLog (s : State) : State :=
  let ws := s.hist.wait
  ws.foldl (fun s w => s.logPut w.1 w.2.2) { s with hist := { s.hist with wait := [] } }

/-- Word i of the log entry at the cursor; zero where none is selected, none was written or its CRC fails (R325, R340). -/
def histEntry (s : State) (i : Nat) : Nat :=
  let idx := s.getF F.HIST_CURSOR.INDEX
  if logEntries ≤ idx then 0
  else bitsOf (logRead (SMap.get 0 s.hist.ring (logKey (s.getF F.HIST_CURSOR.HALF) idx))) (64 * i) 64

/-- Word i of the queried summary, from the half that writes it or else the other; zero where none is selected, or its CRC fails in
every copy (R325, R340). -/
def histSummary (s : State) (i : Nat) : Nat :=
  let u := (s.getF F.HIST_QUERY.UNIT_TYPE, s.getF F.HIST_QUERY.UNIT_ID)
  let half := s.writeHalf (some u)
  if u.2 < unitCount u.1 then
    ((s.hist.half? half (unitKey u)).or (s.hist.half? (1 - half) (unitKey u))).elim 0 fun x => summaryWord x i
  else 0

/-- At bring-up the module reads both halves and merges each unit's summaries (R324). -/
def mergeSummaries (s : State) : State :=
  let keys := (s.hist.flash.map fun c => c.1 % 2 ^ 28).eraseDups
  keys.foldl (fun s k => (s.hist.merged k).elim s fun x => s.setSummary (k / 2 ^ 24, k % 2 ^ 24) x)
    { s with hist := { s.hist with sum := [] } }

/-- Every history unit there is. -/
def unitTotal : Nat := 5120 + 5120 + 20480 + 256 + 128 + 512 + 4 + 2

/-- Units in a STATE (R340). -/
def classCount (s : State) (st : Nat) : Nat :=
  let at' (k : Nat) : Nat := (List.filter (fun (x : Nat × Summary) => x.2.state == k) s.hist.sum).length
  if st = 0 then unitTotal - (at' 1 + at' 2 + at' 3 + at' 4) else at' st

end State

/-- HISTORY_LOG_WRITE (R325). -/
def execHistoryLogWrite (half : BitVec 1) (flashError : Bool) (s : State) : Out :=
  s.answer (s.historyWrite half.toNat flashError)

end Sys2Proof.Machine
end

