-- ==== Sys2Proof/Machine/Observe.lean ====
section
/-! DEFINITION. The key list, attestation requests and counter samples (R416, R419-R421). -/

namespace Sys2Proof.Machine

/-- Results of a key load (R428). -/
def keyAccepted : Nat := 1
def keySignature : Nat := 2
def keySerial : Nat := 3
def keySequence : Nat := 4
def keyFormat : Nat := 5
def keyOwner : Nat := 6

/-- Slots `n` to `limit` of 32 bytes from byte `at0` are zero (R419). -/
def slotsZero (img : List Byte) (at0 n limit : Nat) : Bool :=
  ((img.drop (at0 + 32 * n)).take (32 * (limit - n))).all (· == 0)

namespace State

/-- R419: the form of a key list image. -/
def keyFormOk (img : List Byte) : Bool :=
  let plans := wordField img 3 0 8
  let leases := wordField img 3 8 8
  img.length == 896 && wordField img 0 0 32 == 0x6B3ED0A1 && wordField img 0 32 32 == 1 && decide (plans ≤ 16) &&
    decide (leases ≤ 8) && wordField img 3 16 48 == 0 && slotsZero img 64 plans 16 && slotsZero img 576 leases 8

/-- R419: what verifying a key list image gives. -/
def keyCheck (s : State) (img : List Byte) : Nat :=
  let owner := s.ownerKey.getD ((img.drop 32).take 32)
  if !keyFormOk img then keyFormat
  else if wordField img 1 0 64 ≠ s.man.serial then keySerial
  else if wordField img 2 0 64 ≤ s.keySeq then keySequence
  else if !Ed25519.verify owner (sha512 (img.take 832)) ((img.drop 832).take 64) then keySignature
  else keyAccepted

/-- The new list takes effect (R420). -/
def takeKeys (s : State) (img : List Byte) : State :=
  ({ s with obs := { s.obs with keys := img, keyPending := none } }).nowF F.OBS_STATUS.KEY_RESULT keyAccepted

/-- A write to KEY_LOAD (R420). -/
def keyLoad (s : State) (parcel : Nat) : State :=
  if s.owner parcel ≠ 1 then s.nowF F.OBS_STATUS.KEY_RESULT keyOwner
  else
    let img := s.winGet (parcel * 65536) 896
    let r := s.keyCheck img
    if r ≠ keyAccepted then s.nowF F.OBS_STATUS.KEY_RESULT r
    else if s.atPublication then s.takeKeys img
    else { s with obs := { s.obs with keyPending := some img } }

/-- KEY_LOAD_TAKE_EFFECT: a load that waits takes effect once nothing runs (R420). -/
def keyTakeEffect (s : State) : State :=
  match s.obs.keyPending with
  | some img => if s.atPublication then s.takeKeys img else s
  | none => s

/-- A write to ATTEST_REQ (R421): the report is written at the next publication point. -/
def attestReq (s : State) (parcel : Nat) : State :=
  if s.owner parcel ≠ 1 then s.keepF F.OBS_STATUS.ATTEST_OWNER 1
  else
    let s := { s with obs := { s.obs with attest := some parcel } }
    if s.atPublication then s.attestPoint else s

/-- TRACE_SAMPLE: PERIOD granted furrows have passed since the last sample (R416). -/
def traceSample (s : State) : State :=
  let period := s.getF F.TRACE_CFG.PERIOD
  if s.getF F.TRACE_CFG.SAMPLE = 1 ∧ period ≠ 0 ∧ period ≤ s.obs.sampled then
    let lid := s.getF F.TRACE_CFG.SAMPLE_ID
    let i := s.getF F.TRACE_CFG.SAMPLE_CTR
    ({ s with obs := { s.obs with sampled := s.obs.sampled - period } }).trace 2 (lid + i * 2 ^ 24)
      (s.getF (F.PERF_COUNT.COUNT lid i)) 0 0 srcModule 0
  else s

/-! ### Lane gates (R403, R404) -/

/-- GATE_SUMMARY counts the lanes excluded for failing and as untested, and the twin link follows its lanes. -/
def showGate (s : State) : State :=
  let ex := s.excludedLanes
  let un := ex.filter fun l => NSet.mem s.boot.untested l
  let s := s.nowF F.GATE_SUMMARY.FAILED (ex.length - un.length)
  (s.nowF F.GATE_SUMMARY.UNTESTED un.length).showTwinLink

/-- The lanes that a re-gate mask names: bit c channel c, bit 32 the twin lanes. -/
def regateNames (mask l : Nat) : Bool := if l < 512 then bitOf mask (l / 16) else bitOf mask 32

/-- A write to LANE_REGATE (R404, R410). -/
def laneRegate (s : State) (mask : Nat) : State :=
  if mask = 0 then s
  else match s.boot.regate with
    | some _ => { s with boot := { s.boot with regateNext := s.boot.regateNext ||| mask } }
    | none => ({ s with boot := { s.boot with regate := some mask } }).nowF F.GATE_SUMMARY.REGATE_RUNNING 1

/-- REGATE_DONE: the lanes that passed lose their exclusion, and a re-gate requested meanwhile begins (R404). -/
def regateDone (s : State) (passed : List Nat) : State :=
  match s.boot.regate with
  | none => s
  | some mask =>
    let named := s.excludedLanes.filter (regateNames mask)
    let won := named.filter passed.contains
    let s := won.foldl (fun s l => s.setExcluded l false) s
    let still : NSet := s.boot.untested.filter fun (x : Nat × Unit) =>
      !(won.contains x.1 || (named.contains x.1 && decide (x.1 < 512) && s.laneLocked x.1))
    let next := s.boot.regateNext
    let s := { s with boot := { s.boot with
        untested := still, regate := if next = 0 then none else some next, regateNext := 0 } }
    let s := s.showGate.nowF F.GATE_SUMMARY.REGATE_RUNNING (b2n (next != 0))
    s.event 0x0071 srcModule 0 (won.length + s.excludedLanes.length * 2 ^ 16)

end State

/-- KEY_LOAD_TAKE_EFFECT (R420). -/
def execKeyLoadTakeEffect (s : State) : Out := s.answer s.keyTakeEffect
/-- TRACE_SAMPLE (R416). -/
def execTraceSample (s : State) : Out := s.answer s.traceSample
/-- REGATE_DONE (R404): the named lanes that passed. -/
def execRegateDone (passed : List (BitVec 10)) (s : State) : Out := s.answer (s.regateDone (passed.map BitVec.toNat))

end Sys2Proof.Machine
end

