-- ==== Sys2Proof/Machine/Ports.lean ====
section
/-! DEFINITION. The two control ports: registers as they read and as they are written, the window, the flag array, the doorbells,
the capability exchange, and what a port that goes down leaves (R6, R11, R57, R266-R277, R282, R291-R293, R307). -/

namespace Sys2Proof.Machine
namespace State

/-! ### Registers as they read (R6, R11, R12) -/

/-- The logical plot whose register block holds an address. -/
def blockLid (addr : Nat) : Nat := (addr - 0x200000000000) / 2 ^ 20

/-- The reset value of the field at a key. The pad modes of a V-plot reset to six banks (R211). -/
def keyReset (s : State) (k : Nat) : Nat :=
  let lid := blockLid (k / 64)
  if k = (F.PAD_CFG.MODE lid).key ∧ s.isV lid then 0x555
  else (findReg (k / 64)).elim 0 fun r => (r.1.fields.find? fun f => f.lo == k % 64).elim 0 (·.reset)

/-- The value in effect of the field at a key. -/
def keyValue (s : State) (k : Nat) : Nat := (SMap.find? s.regs k).getD (s.keyReset k)

/-- Some shadow differs from its value in effect (R307, R319). -/
def shadowsDirty (s : State) : Bool := s.shadow.any fun x => s.keyValue x.1 != x.2

/-- Fields that no store holds: they read from the state of a plot's core. -/
def viewPlot (s : State) (lid : Nat) (f : Fld) : Option Nat :=
  let x := s.plot lid
  let v := s.isV lid
  if f = F.SEQ_STATUS.PROGRAM lid then some s.step.program
  else if f = F.SEQ_STATUS.PRESENT lid then some (b2n (s.hasProgram lid))
  else if f = F.SEQ_STATUS.RUNNING lid then some (b2n (s.running && decide (0 < s.step.granted) && s.hasProgram lid && !s.coreFenced lid))
  else if f = F.SEQ_STATUS.HEADER lid then some ((s.place lid).elim 0 (·.header))
  else if f = F.SEQ_STATUS.STEP_FURROW lid then some (s.step.granted % 2 ^ 40)
  else if f = F.VEC_STATUS.PIPES lid then some (if v then 4 else 1)
  else if f = F.VEC_STATUS.SFU lid then some (b2n v)
  else if f = F.VEC_STATUS.BUSY lid then some (b2n (decide (x.now < x.busyUntil)))
  else if f = F.ARRAY_STATUS.ACTIVE_VALID lid then some (b2n (x.active.state != 0))
  else if f = F.ARRAY_STATUS.SHADOW_STATE lid then some x.shadow.state
  else if f = F.ARRAY_STATUS.ACC_VALID lid then some (b2n x.accp.valid)
  else if f = F.ARRAY_STATUS.ACTIVE_FMT lid then some x.active.fmt
  else if f = F.ARRAY_STATUS.SHADOW_FMT lid then some x.shadow.fmt
  else if f = F.ARRAY_STATUS.MODE lid then some x.mode
  else if f = F.ARRAY_STATUS.T lid then some (min x.accp.t (2 ^ 32 - 1))
  else if f = F.RNG_INIT.STATE lid then some (if s.step.begun then rngInit s.step.seed lid else 1)
  else if f = F.RNG_STATE.STATE lid then some (if s.step.begun then s.rngState lid else 1)
  else if f = F.RNG_WORDS.COUNT lid then some (SMap.get 0 s.step.lastWords lid % 2 ^ 48)
  else if f = F.LOOSE_MAX.STEPS lid then some (SMap.get 0 s.step.lastLoose lid % 2 ^ 8)
  else if f = F.CTL_STATUS.IN_VARIANT lid then some (b2n (s.running && decide (0 < s.step.granted) && (s.place lid).elim false fun p => p.inFork.isSome))
  else if f = F.PAD_CFG.MODE lid then (if v then some (s.pubF f % 2 ^ 12) else none)
  else none

/-- The same for the module's own registers. -/
def viewModule (s : State) (f : Fld) : Option Nat :=
  if f = F.FABRIC_STATUS.PROGRAM then some s.step.program
  else if f = F.FABRIC_STATUS.RUNNING then some (b2n (s.running && !s.routedPlots.isEmpty))
  else if f.lo = 0 ∧ f.addr % 256 = 0 ∧ (F.ROUTER_STATUS.RUNNING 0).addr ≤ f.addr ∧ f.addr < (F.ROUTER_STATUS.RUNNING 5120).addr then
    some (b2n (s.running && (s.lidOfSite ((f.addr - (F.ROUTER_STATUS.RUNNING 0).addr) / 256)).elim false fun lid =>
      s.routePresent lid s.step.program))
  else if f = F.FABRIC_STATUS.STEP_FURROW then some (s.step.granted % 2 ^ 40)
  else if f = F.LEASE_STATUS.VALID then some (b2n s.hasLease)
  else if f = F.LEASE_STATUS.ROLE then some s.role
  else if f = F.LEASE_STATUS.IN_CHARGE then some s.inCharge
  else if f = F.LEASE_STATUS.DISAGREE then some (b2n (decide (s.twin.north ≠ s.twin.south)))
  else if f = F.LEASE_STATUS.SUPERSEDED then some (b2n s.superseded)
  else if f = F.LEASE_SEQ.VALUE then some (s.newestHeld.elim 0 (·.seq))
  else if f = F.LEASE_EXPIRY.VALUE then some (s.newestHeld.elim 0 (·.expiry))
  else if f = F.KEY_STATUS.PLAN_KEYS then some s.planKeyCount
  else if f = F.KEY_STATUS.LEASE_KEYS then some s.leaseKeyCount
  else if f = F.KEY_STATUS.OWNER_SET then some (b2n s.ownerKey.isSome)
  else if f = F.KEY_STATUS.PENDING then some (b2n s.obs.keyPending.isSome)
  else if f = F.KEY_STATUS.KEY_SEQ then some (s.keySeq % 2 ^ 46)
  else if f.lo = 2 ∧ f.addr % 256 = 0 ∧ (F.LOAM_STATUS.REFRESH_MULT 0).addr ≤ f.addr ∧ f.addr < (F.LOAM_STATUS.REFRESH_MULT 5120).addr then
    some (s.getF F.LOAM_CFG.REFRESH_MULT)
  else if f = F.PLAN_STATUS.SHADOWS_DIRTY then some (b2n s.shadowsDirty)
  else if f = F.ID_SERIAL.VALUE then some s.man.serial
  else if f.addr / 64 = (F.HIST_ENTRY.WORD 0).addr / 64 then some (s.histEntry ((f.addr - (F.HIST_ENTRY.WORD 0).addr) / 8))
  else if (F.HIST_SUMMARY.WORD 0).addr ≤ f.addr ∧ f.addr < (F.HIST_SUMMARY.WORD 4).addr then
    some (s.histSummary ((f.addr - (F.HIST_SUMMARY.WORD 0).addr) / 8))
  else if (F.CLASS_COUNT.COUNT 0).addr ≤ f.addr ∧ f.addr < (F.CLASS_COUNT.COUNT 5).addr then
    some (s.classCount ((f.addr - (F.CLASS_COUNT.COUNT 0).addr) / 8))
  else if (F.ID_KEY.VALUE 0).addr ≤ f.addr ∧ f.addr < (F.ID_KEY.VALUE 4).addr then
    some (wordField s.idKey ((f.addr - (F.ID_KEY.VALUE 0).addr) / 8) 0 64)
  else if (F.ID_CERT.VALUE 0).addr ≤ f.addr ∧ f.addr < (F.ID_CERT.VALUE 16).addr then
    some (wordField (wordsBytes [s.man.serial, s.idPart] ++ s.idKey ++ zeroBytes 16 ++ s.man.certSig)
      ((f.addr - (F.ID_CERT.VALUE 0).addr) / 8) 0 64)
  else none

/-- What a field reads back: present for a Live field, as of the last horizon for any other, zero for a write-only one. -/
def fieldRead (s : State) (r : FieldRow) (addr : Nat) : Nat :=
  let f := r.fld addr
  if r.access = .wo then 0
  else
    let view := if 0x200000000000 ≤ addr ∧ addr < 0x300000000000 then s.viewPlot ((addr - 0x200000000000) / 2 ^ 20) f
      else s.viewModule f
    view.getD (if r.live then s.getF f else s.pubF f)

/-- An address in the blocks that start at `base`, one for each site, of a site that ROW_MAP shows DARK. -/
def darkBlock (s : State) (base addr : Nat) : Bool :=
  let p := (addr - base) / 0x100
  decide (base ≤ addr) && decide (p < 5120) && bitsOf (s.getF (F.ROW_MAP.SITE_STATE (p / 10))) (2 * (p % 10)) 2 == 3

/-- A plot register block of an absent plot (R57), or the fabric or loam block of a DARK site (R79, R212). -/
def absentBlock (s : State) (addr : Nat) : Bool :=
  (decide (0x200000000000 ≤ addr) && decide (addr < 0x300000000000) && !s.present ((addr - 0x200000000000) / 2 ^ 20)) ||
    s.darkBlock 0x100000200000 addr || s.darkBlock 0x100000400000 addr

/-- QUEUE_CFG and QUEUE_EP of queues 0 and 1 (R292). -/
def deadQueueCfg (addr : Nat) : Bool := decide (0x100001000000 ≤ addr) && decide (addr < 0x100001000020)

/-- The 64-bit register at an address, or none where no chapter assigns one (R273). -/
def regRead (s : State) (addr : Nat) : Option Nat :=
  if addr = 0x300000100000 then some 0
  else (findReg addr).map fun r =>
    if s.absentBlock addr || deadQueueCfg addr then 0
    else r.1.fields.foldl (fun w f => w + s.fieldRead f addr % 2 ^ f.width * 2 ^ f.lo) 0

/-- Eight bytes of the flag array (R275). -/
def flagBytes (s : State) (addr : Nat) : List Byte :=
  let b := addr - 0x300000000000
  (List.range 8).map fun i => BitVec.ofNat 8 ((s.flag (2 * (b + i))).toNat + (s.flag (2 * (b + i) + 1)).toNat * 16)

/-! ### Reads and writes of the address space (R268, R273, R275, R282, R289) -/

def inFlags (addr : Nat) : Bool := decide (0x300000000000 ≤ addr) && decide (addr < 0x300000080000)

/-- Alignment and length rules of a request (R268). -/
def requestOk (addr len : Nat) : Bool :=
  addr % 8 == 0 && len % 8 == 0 && decide (len ≤ 4096) && decide (addr % 4096 + len ≤ 4096)

/-- One word outside the window. -/
def wordRead (s : State) (addr : Nat) : Option (List Byte) :=
  if inFlags addr then some (s.flagBytes addr) else (s.regRead addr).map (leBytes 8)

/-- The words of a read outside the window; none where any address is unassigned. -/
def wordsRead (s : State) (addr : Nat) : Nat → Option (List Byte)
  | 0 => some []
  | n + 1 =>
    match s.wordRead addr, wordsRead s (addr + 8) n with
    | some a, some b => some (a ++ b)
    | _, _ => none

/-- What R270 lets a port read before readiness and before its exchange: the identity and status block, and the coolant block of R443. -/
def statusBlock (addr len : Nat) : Bool :=
  let inside (base : Nat) : Bool := decide (base ≤ addr) && decide (addr + len ≤ base + 0x10000)
  inside 0x100000000000 || inside 0x100000120000

def port (s : State) (p : Nat) : PortSt := SMap.get PortSt.zero s.ports p
/-- Full service on a port: from readiness on, once its exchange has completed (R270, R271, R406). -/
def fullService (s : State) (p : Nat) : Bool := s.isReady && s.getF (F.PORT_STATUS.EXCHANGED p) == 1

/-- A READ of `len` bytes: its status and data. -/
def readAt (s : State) (p addr len : Nat) : Nat × List Byte :=
  if !s.fullService p && !statusBlock addr len then (0x0005, [])
  else if !requestOk addr len then (0x0003, [])
  else if len = 0 then (0, [])
  else if addr < 2 ^ 36 then
    let o := s.owner (addr / 65536)
    if o = 1 ∨ o = 3 then (0x0004, [])
    else if s.hasBadLine addr len then (0x000E, [])
    else (0, s.winGet addr len)
  else match s.wordsRead addr (len / 8) with
    | some bs => (0, bs)
    | none => (0x0002, [])

/-- The host may write these bytes of a ring parcel: entries of the ring whose OWNER is HOST (R282). -/
def ringWritable (s : State) (addr len : Nat) : Bool :=
  match s.queueOfParcel (addr / 65536) with
  | none => false
  | some q =>
    let base := s.qBase q * 65536
    (List.range ((addr + len - 1) / 64 - addr / 64 + 1)).all fun k =>
      let e := 64 * (addr / 64 + k)
      decide (e < base + 64 * s.qEntries q) && s.winWord e % 4 == 0

/-- Write host bytes into the window: a line written whole is no longer uncorrectable (R279). -/
def hostPut (s : State) (addr : Nat) (bs : List Byte) : State :=
  let s := s.winPut addr bs
  { s with win := { s.win with badLines := s.win.badLines.filter fun (l : Nat × Unit) =>
      !(decide (addr ≤ l.1 * 64) && decide (l.1 * 64 + 64 ≤ addr + bs.length)) } }

/-- A write of a window range: its status and the state. -/
def windowWrite (s : State) (addr : Nat) (bs : List Byte) : Nat × State :=
  let p := addr / 65536
  if s.owner p = 0 ∨ (s.owner p = 2 ∧ s.isRing p ∧ s.ringWritable addr bs.length) then (0, s.hostPut addr bs)
  else (0x0004, s)

/-- Write the fields of a register that is written directly: RW fields, and the bits of W1C fields (R11). -/
def directWrite (s : State) (r : RegRow) (addr v : Nat) : State :=
  r.fields.foldl (fun s f =>
    let g := f.fld addr
    if f.access = .rw then s.nowF g (bitsOf v f.lo f.width)
    else if f.access = .w1c then s.nowF g (s.getF g &&& (2 ^ f.width - 1 - bitsOf v f.lo f.width))
    else s) s

/-- Write the shadow of a configuration register (R11, R307); reserved bits are discarded (R13). -/
def shadowWrite (s : State) (r : RegRow) (addr v : Nat) : State :=
  { s with shadow := r.fields.foldl (fun m f => SMap.ins m (f.fld addr).key (bitsOf v f.lo f.width)) s.shadow }

/-- APPLY_CTL.DISCARD (R307). -/
def discardShadows (s : State) (v : Nat) : State := if v % 2 = 1 then { s with shadow := [] } else s

/-- A write of one register: its status and the state. -/
def regWrite (s : State) (p addr v : Nat) : Nat × State :=
  if addr = 0x300000100000 then s.parcelDoorbell v
  else match findReg addr with
    | none => (0x0002, s)
    | some (r, idx) =>
      if s.absentBlock addr || deadQueueCfg addr then (0, s)
      else if r.config then (0, s.shadowWrite r addr v)
      else if addr = F.HV_RELEASE.STEP_S.addr then (0, s.releaseSteps (v % 2 ^ 48))
      else if addr = F.HV_RESEND.CHANNEL.addr then (0, s.resendSegs (bitsOf v 0 5) (bitsOf v 32 32))
      else if addr = F.APPLY_CTL.DISCARD.addr then (0, s.discardShadows v)
      else if addr = F.LANE_REGATE.CHANNELS.addr then (0, s.laneRegate (v % 2 ^ 33))
      else if addr = F.KEY_LOAD.PARCEL.addr then (0, s.keyLoad (v % 2 ^ 20))
      else if addr = F.ATTEST_REQ.PARCEL.addr then (0, s.attestReq (v % 2 ^ 20))
      else if addr = (F.MGMT_RING.ENTRIES 0).addr then s.mgmtRing 0 (bitsOf v 0 20) (bitsOf v 20 21)
      else if addr = (F.MGMT_RING.ENTRIES 1).addr then s.mgmtRing 1 (bitsOf v 0 20) (bitsOf v 20 21)
      else if addr = (F.QUEUE_DOORBELL.GIVE (idx.headD 0)).addr then s.queueDoorbell p (idx.headD 0) (v % 2 ^ 32)
      else (0, s.directWrite r addr v)

/-- The registers of a write in ascending order, up to the first that does not complete with OK. -/
def regsWrite (p : Nat) : State → Nat → List (List Byte) → Nat × State
  | s, _, [] => (0, s)
  | s, addr, w :: ws =>
    let r := s.regWrite p addr (leNat w)
    if r.1 = 0 then regsWrite p r.2 (addr + 8) ws else r

/-- A WRITE: its status and the state. -/
def writeAt (s : State) (p addr : Nat) (bs : List Byte) : Nat × State :=
  if !s.fullService p then (0x0005, s)
  else if !requestOk addr bs.length then (0x0003, s)
  else if bs.isEmpty then (0, s)
  else if addr < 2 ^ 36 then s.windowWrite addr bs
  else if inFlags addr then (0x0004, s)
  else if !((List.range (bs.length / 8)).all fun i => decide (addr + 8 * i = 0x300000100000) || (findReg (addr + 8 * i)).isSome)
  then (0x0002, s)
  else regsWrite p s addr (chunks 8 bs)

/-! ### Packets (R267) -/

/-- A packet: its 32-byte header, its payload, and the CRC-32C over both. -/
def packetBytes (type tag length status addr : Nat) (payload : List Byte) : List Byte :=
  let bs := wordsBytes [type + tag * 2 ^ 16 + length * 2 ^ 32 + status * 2 ^ 48, addr, 0, 0] ++ payload
  bs ++ leBytes 4 (crc32c bs)

/-- The packet that carries a completion; it names no address (log entry 67). -/
def completionPacket (c : Completion) : List Byte := packetBytes c.type c.tag c.payload.length c.status 0 c.payload

/-- The command that a received packet brings: TYPE chooses it, and a refused TYPE is discarded and counted. A packet that fails its
check is replayed by the link layer and brings none (R266). -/
def packetCommand (p : BitVec 1) (bs : List Byte) : Option Instr :=
  let body := bs.take (bs.length - 4)
  let tag := BitVec.ofNat 8 (wordField body 0 16 8)
  let len := wordField body 0 32 13
  let addr := BitVec.ofNat 48 (wordField body 1 0 48)
  let payload := body.drop 32
  if leNat (bs.drop (bs.length - 4)) ≠ crc32c body then none
  else some (
    if wordField body 0 0 8 = 1 then .read p tag addr (BitVec.ofNat 13 len)
    else if wordField body 0 0 8 = 2 then .write p tag addr payload
    else if wordField body 0 0 8 = 5 then .hello p tag (BitVec.ofNat 128 (leNat payload))
    else .packetBadType p)

/-! ### Requests (R267, R268) -/

def setPort (s : State) (p : Nat) (x : PortSt) : State := { s with ports := SMap.set PortSt.zero s.ports p x }
def portUp (s : State) (p : Nat) : Bool := s.getF (F.PORT_STATUS.UP p) == 1
/-- The tag is outstanding: its completion has not gone. -/
def tagOut (s : State) (p tag : Nat) : Bool := (s.port p).out.any fun c => c.tag == tag

/-- Send a completion. -/
def reply (s : State) (p tag type status : Nat) (payload : List Byte) : State :=
  let x := s.port p
  s.setPort p { x with out := x.out ++ [⟨tag, type, status, payload⟩] }

/-- Serve a request on a port that is up, unless its tag is outstanding (R268). -/
def serve (s : State) (p tag : Nat) (act : State → State) : State :=
  if !s.portUp p then s
  else if s.tagOut p tag then s.nowF (F.PORT_STATUS.TAG_ERRORS p) (satAdd 16 (s.getF (F.PORT_STATUS.TAG_ERRORS p)) 1)
  else act s

/-- A READ request. One that meets an uncorrectable line of a shared parcel finds it for the module too (R279). -/
def portRead (s : State) (p tag addr len : Nat) : State :=
  s.serve p tag fun s =>
    let r := s.readAt p addr len
    (if r.1 = 0x000E then s.meetBadLines addr len else s).reply p tag 3 r.1 r.2

/-- A WRITE request. -/
def portWrite (s : State) (p tag addr : Nat) (bs : List Byte) : State :=
  s.serve p tag fun s =>
    let r := s.writeAt p addr bs
    r.2.reply p tag 4 r.1 []

/-- A WRITE of one 64-bit register. -/
def portWrite64 (s : State) (p tag addr v : Nat) : State := s.portWrite p tag addr (leBytes 8 v)

/-- A write of PARCEL_DOORBELL (R277). -/
def portParcels (s : State) (p tag op first count : Nat) : State :=
  s.portWrite64 p tag 0x300000100000 (first + count * 2 ^ 20 + op * 2 ^ 41)

/-! ### Capability exchange (R271, R272) -/

/-- The version chosen from two listed majors with their highest minors, against the module's 1.0. -/
def chooseVersion (a b : Nat × Nat) : Option (Nat × Nat) :=
  if a.1 = 1 then some (1, min a.2 0) else if b.1 = 1 then some (1, min b.2 0) else none

/-- A register of a CAPS payload: as of the last horizon, or its reset value during bring-up (R395). -/
def capsWord (s : State) (addr : Nat) : Nat :=
  if s.isReady then (s.regRead addr).getD 0
  else (findReg addr).elim 0 fun r => r.1.fields.foldl (fun w f => w + f.reset % 2 ^ f.width * 2 ^ f.lo) 0

/-- The 256-byte CAPS payload. -/
def capsPayload (s : State) (proto plan : Nat × Nat) : List Byte :=
  let body := leBytes 2 proto.1 ++ leBytes 2 proto.2 ++ leBytes 2 plan.1 ++ leBytes 2 plan.2 ++
    wordsBytes ([
      F.GRID_SHAPE.PRODUCT_GRADE.addr, (F.HOLE_MAP.DARK 0).addr, (F.HOLE_MAP.DARK 1).addr, (F.HOLE_MAP.DARK 2).addr,
      (F.HOLE_MAP.DARK 3).addr, 0x100000050000, 0x100000070000, 0x100000060000, 0x100000080000, 0x100000030000, 0x100000090000,
      0x1000000A0000, 0x100000040000, F.PORT_CAPS.PORTS.addr].map s.capsWord) ++
    leBytes 8 s.man.serial ++ s.idKey
  body ++ Ed25519.sign s.man.secret body ++ zeroBytes 32

/-- A HELLO request with its 16-byte payload. -/
def hello (s : State) (p tag : Nat) (payload : Nat) : State :=
  s.serve p tag fun s =>
    let h (i : Nat) : Nat := bitsOf payload (16 * i) 16
    let x := s.port p
    match chooseVersion (h 0, h 1) (h 2, h 3), chooseVersion (h 4, h 5) (h 6, h 7) with
    | some a, some b =>
      let s := (s.setPort p { x with proto := some a, plan := some b }).nowF (F.PORT_STATUS.EXCHANGED p) 1
      s.reply p tag 6 0 (s.capsPayload a b)
    | _, _ =>
      let s := (s.setPort p { x with proto := none, plan := none }).nowF (F.PORT_STATUS.EXCHANGED p) 0
      s.reply p tag 6 0x0011 []

/-! ### Ports down and up (R267, R269) -/

/-- A packet of refused TYPE is discarded and counted. -/
def badPacket (s : State) (p : Nat) : State :=
  if s.portUp p then s.nowF (F.PORT_STATUS.BAD_PACKETS p) (satAdd 16 (s.getF (F.PORT_STATUS.BAD_PACKETS p)) 1) else s

/-- A port goes down and drops what is outstanding on it. -/
def portDown (s : State) (p : Nat) : State :=
  if s.portUp p then
    let s := s.setPort p { s.port p with out := [] }
    let s := s.nowF (F.PORT_STATUS.UP p) 0
    let s := s.nowF (F.PORT_STATUS.DOWN_COUNT p) (satAdd 16 (s.getF (F.PORT_STATUS.DOWN_COUNT p)) 1)
    s.event 0x0012 srcPort p p
  else s

/-- A port that went down has retrained. A powered module's ports train with its bring-up. -/
def portBack (s : State) (p : Nat) : State :=
  if s.portUp p || s.boot.obs.isNone then s
  else (s.nowF (F.PORT_STATUS.UP p) 1).event 0x0013 srcPort p p

/-- The link takes the completions that wait on both ports, and the watch connector its records: what passes with a tick. -/
def drainLinks (s : State) : State :=
  { s with ports := (s.ports.map fun (x : Nat × PortSt) => (x.1, { x.2 with out := [] })).filter fun x => decide (x.2 ≠ PortSt.zero),
           obs := { s.obs with watch := [] } }

end State

/-- READ (R267, R268). -/
def execRead (p : BitVec 1) (tag : BitVec 8) (addr : BitVec 48) (len : BitVec 13) (s : State) : Out :=
  s.answer (s.portRead p.toNat tag.toNat addr.toNat len.toNat)
/-- WRITE (R267, R268). -/
def execWrite (p : BitVec 1) (tag : BitVec 8) (addr : BitVec 48) (data : List Byte) (s : State) : Out :=
  s.answerIf (decide (data.length < 8192)) (s.portWrite p.toNat tag.toNat addr.toNat data)
/-- HELLO (R271). -/
def execHello (p : BitVec 1) (tag : BitVec 8) (payload : BitVec 128) (s : State) : Out :=
  s.answer (s.hello p.toNat tag.toNat payload.toNat)
/-- PACKET_BAD_TYPE (R267). -/
def execPacketBadType (p : BitVec 1) (s : State) : Out := s.answer (s.badPacket p.toNat)
/-- PORT_DOWN (R269). -/
def execPortDown (p : BitVec 1) (s : State) : Out := s.answer (s.portDown p.toNat)
/-- PORT_UP (R269). -/
def execPortUp (p : BitVec 1) (s : State) : Out := s.answer (s.portBack p.toNat)
/-- GIVE (R276, R277). -/
def execGive (p : BitVec 1) (tag : BitVec 8) (first : BitVec 20) (count : BitVec 21) (s : State) : Out :=
  s.answer (s.portParcels p.toNat tag.toNat 1 first.toNat count.toNat)
/-- SHARE (R276, R277). -/
def execShare (p : BitVec 1) (tag : BitVec 8) (first : BitVec 20) (count : BitVec 21) (s : State) : Out :=
  s.answer (s.portParcels p.toNat tag.toNat 2 first.toNat count.toNat)
/-- VOID (R276, R277). -/
def execVoid (p : BitVec 1) (tag : BitVec 8) (first : BitVec 20) (count : BitVec 21) (s : State) : Out :=
  s.answer (s.portParcels p.toNat tag.toNat 3 first.toNat count.toNat)
/-- CLAIM (R276, R277). -/
def execClaim (p : BitVec 1) (tag : BitVec 8) (first : BitVec 20) (count : BitVec 21) (s : State) : Out :=
  s.answer (s.portParcels p.toNat tag.toNat 4 first.toNat count.toNat)
/-- RECLAIM (R276, R277). -/
def execReclaim (p : BitVec 1) (tag : BitVec 8) (first : BitVec 20) (count : BitVec 21) (s : State) : Out :=
  s.answer (s.portParcels p.toNat tag.toNat 5 first.toNat count.toNat)
/-- RECALL (R276, R277). -/
def execRecall (p : BitVec 1) (tag : BitVec 8) (first : BitVec 20) (count : BitVec 21) (s : State) : Out :=
  s.answer (s.portParcels p.toNat tag.toNat 6 first.toNat count.toNat)
/-- QUEUE_DOORBELL (R282). -/
def execQueueDoorbell (p : BitVec 1) (tag : BitVec 8) (q : BitVec 15) (give : BitVec 32) (s : State) : Out :=
  s.answer (s.portWrite64 p.toNat tag.toNat (F.QUEUE_DOORBELL.GIVE q.toNat).addr give.toNat)
/-- MGMT_RING (R291). -/
def execMgmtRing (p : BitVec 1) (tag : BitVec 8) (i : BitVec 1) (base : BitVec 20) (entries : BitVec 21) (s : State) : Out :=
  s.answer (s.portWrite64 p.toNat tag.toNat (F.MGMT_RING.ENTRIES i.toNat).addr (base.toNat + entries.toNat * 2 ^ 20))
/-- HV_RELEASE (R256). -/
def execHvRelease (p : BitVec 1) (tag : BitVec 8) (stepS : BitVec 48) (s : State) : Out :=
  s.answer (s.portWrite64 p.toNat tag.toNat F.HV_RELEASE.STEP_S.addr stepS.toNat)
/-- HV_RESEND (R256). -/
def execHvResend (p : BitVec 1) (tag : BitVec 8) (c : BitVec 5) (hseq : BitVec 32) (s : State) : Out :=
  s.answer (s.portWrite64 p.toNat tag.toNat F.HV_RESEND.CHANNEL.addr (c.toNat + hseq.toNat * 2 ^ 32))
/-- APPLY_DISCARD (R307). -/
def execApplyDiscard (p : BitVec 1) (tag : BitVec 8) (s : State) : Out :=
  s.answer (s.portWrite64 p.toNat tag.toNat F.APPLY_CTL.DISCARD.addr 1)
/-- LANE_REGATE (R404). -/
def execLaneRegate (p : BitVec 1) (tag : BitVec 8) (channels : BitVec 32) (twin : Bool) (s : State) : Out :=
  s.answer (s.portWrite64 p.toNat tag.toNat F.LANE_REGATE.CHANNELS.addr (channels.toNat + b2n twin * 2 ^ 32))
/-- KEY_LOAD (R420). -/
def execKeyLoad (p : BitVec 1) (tag : BitVec 8) (parcel : BitVec 20) (s : State) : Out :=
  s.answer (s.portWrite64 p.toNat tag.toNat F.KEY_LOAD.PARCEL.addr parcel.toNat)
/-- ATTEST_REQ (R421). -/
def execAttestReq (p : BitVec 1) (tag : BitVec 8) (parcel : BitVec 20) (s : State) : Out :=
  s.answer (s.portWrite64 p.toNat tag.toNat F.ATTEST_REQ.PARCEL.addr parcel.toNat)
/-- REGISTER_WRITE (R11, R307): a write of any register by its address. -/
def execRegisterWrite (p : BitVec 1) (tag : BitVec 8) (addr : BitVec 48) (value : BitVec 64) (s : State) : Out :=
  s.answer (s.portWrite64 p.toNat tag.toNat addr.toNat value.toNat)

end Sys2Proof.Machine
end

