-- ==== Sys2Proof/Machine/Subst.lean ====
section
/-! DEFINITION. The substitution of fenced sites, its migration, and what stops it (R51-R55, R59, R60). -/

namespace Sys2Proof.Machine

/-- Copy the entries of a range of numbers, `n` long, from `src` to `dst`; what stood at `dst` goes. -/
def SMap.copyRange {α : Type} (m : SMap α) (src dst n : Nat) : SMap α :=
  if src = dst then m
  else
    let copied := List.filter (fun (x : Nat × α) => decide (src ≤ x.1) && decide (x.1 < src + n)) m
    copied.foldl (fun m x => SMap.ins m (dst + (x.1 - src)) x.2) (SMap.clearRange m dst n)

namespace State

/-- R53: the loam stack of site `a` is copied to site `b`: both copies, the map, transient contents and the pad image. What the old site holds stays there until another copy takes its place. -/
def copyStack (s : State) (a b : Nat) : State :=
  let m := s.mem
  { s with
    mem := { m with
      loam := SMap.copyRange m.loam (2 * a * 2 ^ 32) (2 * b * 2 ^ 32) (2 ^ 33),
      trans := SMap.copyRange m.trans (a * 2 ^ 32) (b * 2 ^ 32) (2 ^ 32),
      image := SMap.copyRange m.image (2 * a * 2 ^ 23) (2 * b * 2 ^ 23) (2 ^ 24),
      cur := SMap.copyRange m.cur (a * 2 ^ 24) (b * 2 ^ 24) (2 ^ 24) },
    ckpt := { s.ckpt with map := SMap.copyRange s.ckpt.map (a * 2 ^ 24) (b * 2 ^ 24) (2 ^ 24) } }

/-! ### Orders 1 and 2: assignments and known-answer checks (R52) -/

/-- Rows with a site fenced since the last horizon. -/
def fencedRows (s : State) : List Nat :=
  (s.grid.fencedNow.toList.map (· / 10)).foldl (fun rs k => if rs.contains k then rs else rs ++ [k]) []

/-- The row change from the current map to a new site list. -/
def rowChange (s : State) (k : Nat) (sites : List Nat) : RowChange :=
  let moved := ((List.zipIdx (List.zip (s.rowSites k) sites)).filter fun x => x.1.1 != x.1.2).map fun x =>
    (x.2, 10 * k + x.1.1, 10 * k + x.1.2)
  ⟨k, sites, moved⟩

/-- One row: its new assignment, once every core that newly backs a position passes its known-answer check. Sites that fail are
fenced and the row computed again. None where no assignment is left. The spec does not say whether the cores of all rows are checked
before order 1 runs again: here the rows go one by one, and the first core that fails is fenced before its row is computed again
(log entry 61). -/
def planRow (kat : List Nat) (k : Nat) : Nat → State → State × Option RowChange
  | 0, s => (s, none)
  | fuel + 1, s =>
    match bestAssignment s.narrow (s.rowStates k) (s.rowSites k) with
    | none => (s, none)
    | some sites =>
      let now := s.rowSites k
      match (sites.filter fun x => !now.contains x).find? fun x => kat.contains (10 * k + x) with
      | none => (s, some (s.rowChange k sites))
      | some x =>
        let p := 10 * k + x
        let s := s.raise {
          code := 0x020C, srcType := srcSite, srcId := p, detail := (Config.katWorkload p).toNat,
          unit := some (unitCore, p),
          abandons := false, fenced := true }
        planRow kat k fuel (s.setSite p 2)

/-- Every affected row; the first row without an assignment, if any. -/
def planRows (kat : List Nat) : List Nat → State → List RowChange → State × List RowChange × Option Nat
  | [], s, cs => (s, cs, none)
  | k :: ks, s, cs =>
    match planRow kat k 11 s with
    | (s, none) => (s, cs, some k)
    | (s, some c) => planRows kat ks s (cs ++ [c])

/-! ### Order 3: migration stages (R53) -/

/-- The copies of a row that may start: their destination is a spare, or has been copied out. -/
def readyMoves (c : RowChange) : List (Nat × Nat × Nat) :=
  c.moves.filter fun m => !(c.moves.any fun o => o.2.1 == m.2.2)

/-- One stage: every ready copy of every row. -/
def migrateStage (s : State) : State :=
  let s := s.grid.changes.foldl (fun s c => (readyMoves c).foldl (fun s m => s.copyStack m.2.1 m.2.2) s) s
  { s with grid := { s.grid with
      changes := s.grid.changes.map fun c => { c with moves := c.moves.filter fun m => !(readyMoves c).contains m } } }

/-- Stages one after another; a row of eight positions needs at most eight. -/
def migrateAll : Nat → State → State
  | 0, s => s
  | n + 1, s => migrateAll n s.migrateStage

def migrated (s : State) : Bool := s.grid.changes.all fun c => c.moves.isEmpty

/-! ### Orders 4 and 5 (R52) -/

/-- A row's new map takes effect with its site states; its moved plots rebuild their pads (R53, R189). -/
def takeRow (s : State) (c : RowChange) : State :=
  let old := s.rowSites c.row
  let s := s.nowF (F.ROW_MAP.POS_SITE c.row) (mapWord c.sites)
  let s := s.writeStates c.row (statesWithMap (s.rowStates c.row) c.sites)
  if old = c.sites then s
  else
    let s := s.plotList.foldl (fun s l =>
      if s.rowOf l = c.row ∧ old.getD (s.posOf l) 0 ≠ c.sites.getD (s.posOf l) 0 then s.keepF (F.PAD_STATUS.STALE l) 1 else s) s
    let s := s.incLive F.REPAIR_STATUS.SUBST_COUNT 1
    let s := s.keepF F.REPAIR_STATUS.LAST_ROW c.row
    s.event 0x0004 srcModule 0 c.row

/-- The changes sorted by row, so that LAST_ROW ends at the highest changed row. -/
def insertRow (c : RowChange) : List RowChange → List RowChange
  | [] => [c]
  | d :: ds => if c.row ≤ d.row then c :: d :: ds else d :: insertRow c ds

/-- Order 5: the changed maps take effect together. -/
def endSubst (s : State) : State :=
  let cs := s.grid.changes.foldl (fun l c => insertRow c l) []
  let s := cs.foldl takeRow s
  let s := { s with
    grid := { s.grid with changes := [], fencedNow := [], hidden := [] },
    step := { s.step with phase := .idle } }
  s.nowF F.REPAIR_STATUS.SUBST_PENDING 0

/-- Orders 1 and 2 for every affected row. Without an assignment for some row DEGRADED is set and no map changes. -/
def beginSubst (s : State) (kat : List Nat) : State :=
  let s := { s with step := { s.step with phase := .substituting } }
  match planRows kat s.fencedRows s [] with
  | (s, _, some k) =>
    ({ s with step := { s.step with phase := .idle } }).revealSites.degrade k
  | (s, cs, none) => { s with grid := { s.grid with changes := cs } }

/-- Every stage at once, as an apply or a restore runs the substitution within its own time (R318, R335). -/
def substAtOnce (s : State) (kat : List Nat) : State :=
  if s.getF F.REPAIR_STATUS.SUBST_PENDING = 1 then
    let s := s.beginSubst kat
    if s.step.phase = .substituting then (migrateAll 8 s).endSubst else s
  else s

/-- R59, R209: a substitution stops; no map takes effect. The site states that it set show at the stop (log entry 61). -/
def stopSubst (s : State) : State :=
  if s.step.phase = .substituting then
    ({ s with grid := { s.grid with changes := [] }, step := { s.step with phase := .idle } }).revealSites
  else s

end State
end Sys2Proof.Machine
end

