-- ==== Sys2Proof/Machine/Queues.lean ====
section
/-! DEFINITION. What the queues carry: the step commands and the staging pass, leases and witnesses, copies to the window, and the
checkpoint engine (R22, R52, R283-R286, R289, R346, R348-R353, R363, R378, R422). -/

namespace Sys2Proof.Machine
namespace State

/-! ### Queue 0 (R284, R285) -/

/-- The entry of queue 0 whose turn it is: none while a step, a substitution or a dusk test has the queue. -/
def turn (s : State) : Option Nat :=
  if s.isReady && s.step.phase == .idle && s.dusk.isNone then s.nextEntry 0 else none

/-- The operation code of queue 0's front entry, once entries that R285 skips have gone. -/
def turnOp (s : State) : Option Nat := s.turn.map (s.opAt 0)

/-- Return the entries at the front that R285 skips. -/
def front (s : State) : State := if s.turn.isSome then s.skipFront s.step.skip.length else s

/-- NOP completes at once; an unassigned operation completes with UNASSIGNED. -/
def nopCommand (s : State) : State :=
  let s := s.front
  match s.turnOp with
  | some op => if op = 1 then s.complete 0 0 0 else if op = 0 ∨ 7 < op then s.complete 0 0x0001 0 else s
  | none => s

/-- Loopback tests and a running RESTORE keep a step command, an apply and a dusk test waiting (R73). -/
def mustWait (s : State) : Bool := !s.grid.loopbacks.isEmpty || s.ckpt.restore.isSome

/-! ### Step starts (R162, R284, R315, R378) -/

/-- A plot that runs program j. -/
def programPlot (s : State) (j : Nat) : Option Nat := s.plotList.find? fun l => bitOf (s.slotMem l j) 15

/-- R284, R315, R378: no plot has the program, it is of the other kind, or its demand passes a 6-phase region's cap. -/
def noProgram (s : State) (j : Nat) (eval : Bool) : Bool :=
  (s.programPlot j).isNone || bitOf (s.getF F.MODE_CFG.EVAL_PROGRAMS) j != eval ||
    (List.range 256).any fun n => s.getF (F.REGION_PSTAT.PHASES n) == 6 && decide (1760 < s.demandFrom j n 0)

/-- The status with which a step command is refused, in the order of R284. -/
def stepRefusal (s : State) (j : Nat) (eval : Bool) : Option Nat :=
  if !s.hasLease then some 0x0006
  else if s.roleForbids then some 0x0010
  else if s.getF F.REPAIR_STATUS.DEGRADED = 1 then some 0x0007
  else if s.getF F.MEM_STATUS.HORIZON_LOST = 1 then some 0x0008
  else if s.noProgram j eval then some 0x0009
  else if s.txTooSmall j eval then some 0x000A
  else none

/-- A step start is accepted: the attempt begins with its staging pass. -/
def beginStep (s : State) (i : Nat) (eval : Bool) : State :=
  let seed := s.entryWord 0 i 4
  let word := s.entryWord 0 i 5
  let j := word % 16
  let length := bitsOf (s.slotMem ((s.programPlot j).getD 0) j) 16 40
  let undrained := s.undrained.length * parcelBytes
  let t : StepSt := {
    StepSt.zero with
    phase := .staging, begun := true, eval := eval, attempt := s.step.attempt + 1, program := j, seed := seed, word := word,
    stepS := furrowAdd s.furrow 1, length := length, q0idx := some i, asLead := s.role == 1, clip := s.getF F.HV_CLIP.CLIP,
    slice := (if eval then 0 else min (s.plan.ckpt.elim 0 (·.slice)) undrained), skip := s.step.skip,
    lastWords := s.step.lastWords, lastLoose := s.step.lastLoose }
  let s := { s.takeEntry 0 with step := t, base := some s.regs, plots := [] }
  let s := (List.range 256).foldl (fun s n => s.keepF (F.REGION_DEMAND.MEAS_PEAK n) 0) s
  let s := s.clearFabric.startGleaners
  let s := s.plotList.foldl startPads s
  (s.showGleaners true).claimAll

/-- The front entry is a step command whose turn it is: it is refused, waits for its substitution, or begins. -/
def stepCommand (s : State) (eval : Bool) (kat : List Nat) : State :=
  let s := s.front
  match s.turn with
  | none => s
  | some i =>
    if s.opAt 0 i ≠ (if eval then 3 else 2) ∨ s.mustWait then s
    else
      let j := s.entryWord 0 i 5 % 16
      match s.stepRefusal j eval with
      | some status => s.complete 0 status 0
      | none =>
        if s.getF F.REPAIR_STATUS.SUBST_PENDING = 1 then
          let t := s.beginSubst kat
          if t.step.phase ≠ .substituting then t.complete 0 0x0007 0
          else if t.migrated then
            let t := t.endSubst
            match t.stepRefusal j eval with
            | some status => t.complete 0 status 0
            | none => t.beginStep i eval
          else t
        else s.beginStep i eval

/-- The step command that waited for a substitution goes on once the substitution has ended (R59). -/
def resumeCommand (s : State) : State :=
  match s.turn with
  | none => s
  | some i =>
    let eval := s.opAt 0 i == 3
    if s.opAt 0 i ≠ 2 ∧ !eval then s
    else match s.stepRefusal (s.entryWord 0 i 5 % 16) eval with
      | some status => s.complete 0 status 0
      | none => s.beginStep i eval

/-- MIGRATION_STAGE_DONE: the copies of a stage end. A copy that met an uncorrectable line, or a shell that failed meanwhile, ends
the substitution with DEGRADED, and the horizon state is no longer held (R55, R59). The spec gives a shell that fails in a migration
no cause of its own: cause 0x0409 with port 0 (log entry 61). -/
def stageDone (s : State) (badLine : Option Nat) (shells : List Nat) : State :=
  if s.step.phase = .substituting then
    match badLine, shells with
    | none, [] =>
      let s := s.migrateStage
      if s.migrated then s.endSubst.resumeCommand else s
    | bad, fs =>
      let row := s.grid.changes.head?.elim 0 (·.row)
      let s := s.stopSubst
      let s := match bad with
        | some p => (s.raise {
            code := 0x0102, srcType := srcSite, srcId := p, unit := some (unitShell, p),
            opUnit := opLoam, degraded := true }).horizonLost (some p)
        | none => s
      let s := (fs.foldl (fun (s : State) p => (s.raise {
          code := 0x0409, srcType := srcSite, srcId := p, opUnit := opRouter, unit := some (unitShell, p), degraded := true }).shellFail p) s).degrade row
      if s.turn.elim false (fun i => s.opAt 0 i == 2 || s.opAt 0 i == 3) then s.complete 0 0x0007 0 else s
  else s

/-! ### The staging pass (R283, R286, R351) -/

/-- Enabled plot work queues, in ascending number. -/
def plotQueues (s : State) : List Nat := s.enabledQueues.filter fun q => !s.qIsEvent q && s.qEpType q == 1

/-- One COPY_IN: its status, and the state with its data in the plot's loam. -/
def copyIn (s : State) (q i : Nat) : Nat × State :=
  let len := s.entryLength q i
  let a := s.entryWindow q i
  let off := s.entryWord q i 3
  if len = 0 then (0, s)
  else
    let st := s.rangeStatus a len true
    let plain : Bool := match s.partOf off len with
      | some k => s.partCodec k == 0 && !(s.partCommitted k && s.step.eval)
      | none => false
    if st ≠ 0 then (st, s)
    else if !plain then (0x0003, s)
    else (0, (s.loamPut (s.siteOf (s.qEpId q)) off (s.winGet a len)).1)

/-- Take the front entry of a plot queue, if it is a COPY_IN: it counts among those the step consumes. -/
def stageEntry (s : State) (q : Nat) : State :=
  match s.nextEntry q with
  | none => s
  | some i =>
    if s.opAt q i ≠ 1 then s
    else
      let r := s.copyIn q i
      let t := r.2.takeEntry q
      let t := { t with step := { t.step with staged := t.step.staged ++ [(q, i, r.1)] } }
      if r.1 = 0x000E then t.meetBadLines (s.entryWindow q i) (s.entryLength q i) else t

/-- Every COPY_IN at the front of a queue, one after another. -/
def stageQueue (s : State) (q : Nat) : Nat → State
  | 0 => s
  | n + 1 => stageQueue (s.stageEntry q) q n

/-- Every plot queue's COPY_IN entries, as many as its ring can hold given. -/
def stageAll (s : State) : State :=
  s.plotQueues.foldl (fun s q => s.stageQueue q ((s.qGive q + 2 ^ 32 - (s.queue q).next) % 2 ^ 32)) s

/-- A 64-byte ledger header: seven words, HCRC in bits [63:32] of the last (R351). -/
def ledgerHeader (ws : List Nat) : List Byte :=
  let b := wordsBytes ws ++ zeroBytes (60 - 8 * ws.length)
  b ++ leBytes 4 (crc32c b)

/-- R351: the ledger record of the step: its step record and an entry record for each LEDGER entry consumed; one that failed gave no
data, and its record says LENGTH 0 (log entry 46). -/
def ledgerRecord (s : State) : List Byte :=
  let es := (s.enabledQueues.filter s.qLedger).foldl (fun l q =>
    l ++ s.step.staged.filter fun e => e.1 == q) []
  let head := ledgerHeader [0x1ED6 + 1 * 2 ^ 16, s.step.stepS, s.step.seed, s.step.word, es.length]
  es.foldl (fun b e =>
    let len := if e.2.2 = 0 then s.entryLength e.1 e.2.1 else 0
    b ++ ledgerHeader [
        0x1ED6 + 2 * 2 ^ 16, s.step.stepS, 0, s.entryWord e.1 e.2.1 3,
        e.1 + bitsOf (s.entryWord e.1 e.2.1 0) 32 32 * 2 ^ 32, len] ++
      padTo 16 (s.winGet (s.entryWindow e.1 e.2.1) len)) head

/-- The step's record goes to the shared store, the standby and the ledger area (R352). -/
def formLedger (s : State) : State :=
  if s.step.eval || !(s.enabledQueues.any s.qLedger) then s
  else
    let rec' := s.ledgerRecord
    let s := (s.drainSeg 14 0 0 s.step.stepS rec').twinSend (.ledger rec')
    let s := (s.ledgerPut s.step.stepS rec').1
    { s with step := { s.step with ledgered := true } }

/-- STAGING_PASS: the pass ends, and STEP becomes true (R23, R283). -/
def stagingPass (s : State) : State :=
  if s.step.phase = .staging then
    let s := s.stageAll.formLedger
    { s with step := { s.step with phase := .running } }
  else s

/-- COPY_IN on one queue within the staging pass. -/
def copyInCommand (s : State) (q : Nat) : State :=
  if s.step.phase = .staging ∧ s.plotQueues.contains q then s.stageEntry q else s

/-! ### Copies to the window (R283) -/

/-- A work queue of an endpoint type whose front entry may run at a publication point with STEP false. -/
def engineEntry (s : State) (q epType : Nat) : Option Nat :=
  if s.isReady && s.atPublication && s.enabledQueues.contains q && !s.qIsEvent q && s.qEpType q == epType then s.nextEntry q else none

/-- Complete the front entry after writing `bs` at its WINDOW, if its range allows. -/
def copyOutTo (s : State) (q i : Nat) (bs : Option (List Byte)) : State :=
  let len := s.entryLength q i
  let a := s.entryWindow q i
  if len = 0 then s.complete q 0 0
  else
    let st := s.rangeStatus a len false
    if st ≠ 0 then s.complete q st 0
    else match bs with
      | none => s.complete q 0x0003 0
      | some bs => (s.winPut a bs).complete q 0 0

/-- COPY_OUT: the committed copy at TARGET. Unassigned operations of a plot queue, and of a queue with no endpoint, complete with
UNASSIGNED. -/
def copyOut (s : State) (q : Nat) : State :=
  match s.engineEntry q 0 with
  | some _ => s.complete q 0x0001 0
  | none =>
    match s.engineEntry q 1 with
    | none => s
    | some i =>
      if s.opAt q i = 1 then s
      else if s.opAt q i ≠ 2 then s.complete q 0x0001 0
      else
        let off := s.entryWord q i 3
        let len := s.entryLength q i
        s.copyOutTo q i ((s.partOf off len).bind fun k =>
          if s.partCommitted k then some (s.committedGet (s.siteOf (s.qEpId q)) off len) else none)

/-- RES_OUT: the gleaner's residual share from offset TARGET (R252). -/
def resOut (s : State) (q : Nat) : State :=
  match s.engineEntry q 2 with
  | none => s
  | some i =>
    if s.opAt q i ≠ 1 then s.complete q 0x0001 0
    else
      let g := s.qEpId q
      let off := s.entryWord q i 3
      let len := s.entryLength q i
      let share := s.resShare (g / 32)
      s.copyOutTo q i (if off + len ≤ share then some (s.resCommitted (g / 32) (g % 32 * share + off) len) else none)

/-! ### LEASE and WITNESS (R356, R422) -/

/-- LEASE: the signed lease at WINDOW is verified and accepted, or refused with LEASE and 0x0703. An entry of LENGTH 0 reads none
(R289). -/
def leaseCommand (s : State) : State :=
  let s := s.front
  match s.turn with
  | none => s
  | some i =>
    if s.opAt 0 i ≠ 5 then s
    else if s.entryLength 0 i = 0 then s.complete 0 0 0
    else
      let a := s.entryWindow 0 i
      let st := s.rangeStatus a 192 true
      if st ≠ 0 then s.refuseRead 0 st a 192
      else
        let l := Lease.ofBytes (s.winGet a 192)
        match s.leaseRefusal l with
        | some reason => (s.leaseBad reason l.seq).complete 0 0x0006 0
        | none => (s.acceptLease l).complete 0 0 l.expiry

/-- WITNESS: the held witness of OPERAND[0] goes to WINDOW. -/
def witnessCommand (s : State) : State :=
  let s := s.front
  match s.turn with
  | none => s
  | some i =>
    if s.opAt 0 i ≠ 7 then s
    else if !s.hasLease then s.complete 0 0x0006 0
    else match (s.obs.witnesses.find? fun w => w.1 == s.entryWord 0 i 4) with
      | none => s.complete 0 0 0
      | some w =>
        let a := s.entryWindow 0 i
        let st := s.rangeStatus a w.2.length false
        if s.entryLength 0 i = 0 then s.complete 0 0 0
        else if st ≠ 0 then s.complete 0 st 0 else (s.winPut a w.2).complete 0 0 w.2.length

/-! ### The checkpoint engine (R348, R350, R352, R363) -/

/-- The front entry of a checkpoint engine queue. CKPT_NOW, MANIFEST_OUT, LEDGER_OUT and DRAIN_WAIT do not wait for a step. -/
def ckptEntry (s : State) (q : Nat) : Option Nat :=
  if s.isReady && s.enabledQueues.contains q && !s.qIsEvent q && s.qEpType q == 3 &&
      (s.ckpt.restore.elim true fun r => r.queue != q) then s.nextEntry q else none

/-- CKPT_NOW. -/
def ckptNow (s : State) (q : Nat) : State :=
  match s.ckptEntry q with
  | none => s
  | some i =>
    if s.opAt q i ≠ 1 then s
    else if s.getF F.MODE_CFG.CKPT_MODE = 0 ∨ s.plan.ckpt.isNone then s.complete q 0 outOff
    else (s.nowF F.CKPT_STATUS.NOW_PENDING 1).complete q 0 outDone

/-- MANIFEST_OUT: one of the last four manifests. -/
def manifestOut (s : State) (q : Nat) : State :=
  match s.ckptEntry q with
  | none => s
  | some i =>
    if s.opAt q i ≠ 3 then s
    else match s.ckpt.manifests.reverse.find? fun m => m.1 == s.entryWord q i 4 with
      | none => s.complete q 0 outNotHeld
      | some m =>
        let a := s.entryWindow q i
        let st := s.rangeStatus a m.2.length false
        if s.entryLength q i = 0 then s.complete q 0 outDone
        else if st ≠ 0 then s.complete q st 0 else (s.winPut a m.2).complete q 0 (outDone + m.2.length * 2 ^ 32)

/-- Whole records from the first STEP_S on, as many as fit. -/
def ledgerFrom (first len : Nat) : List (Nat × List Byte) → List Byte
  | [] => []
  | r :: rs =>
    if furrowLater first r.1 then ledgerFrom first len rs
    else if r.2.length ≤ len then r.2 ++ ledgerFrom first (len - r.2.length) rs
    else []

/-- LEDGER_OUT: records of the ledger area, from OPERAND[0] on. -/
def ledgerOut (s : State) (q : Nat) : State :=
  match s.ckptEntry q with
  | none => s
  | some i =>
    if s.opAt q i ≠ 4 then s
    else
      let len := s.entryLength q i
      let a := s.entryWindow q i
      if len = 0 then s.complete q 0 outDone
      else
        let st := s.rangeStatus a len false
        if st ≠ 0 then s.complete q st 0
        else
          let bs := ledgerFrom (s.entryWord q i 4 % 2 ^ 48) len s.ckpt.ledger
          (s.winPut a bs).complete q 0 (outDone + bs.length * 2 ^ 32)

/-- The lane leg of the drain has ended: no segment of the current checkpoint waits. -/
def lanesDrained (s : State) : Bool := s.ckpt.out.all fun d => d.seq != s.ckpt.seq || d.layer == 14

/-- DRAIN_WAIT, and the operations that R363 does not assign. -/
def drainWait (s : State) (q : Nat) : State :=
  match s.ckptEntry q with
  | none => s
  | some i =>
    let op := s.opAt q i
    if op = 6 then (if !s.draining && s.lanesDrained then s.complete q 0 outDone else s)
    else if op = 0 ∨ op = 5 ∨ 7 ≤ op then s.complete q 0x0001 0
    else s

/-- RESTORE: the manifest is verified against the module's or the twin's key and the shape in effect; then the parcels are awaited.
A pending substitution runs first (R335). -/
def restoreCommand (s : State) (q : Nat) (kat : List Nat) : State :=
  match s.ckptEntry q with
  | none => s
  | some i =>
    if s.opAt q i ≠ 2 ∨ s.step.phase ≠ .idle ∨ s.dusk.isSome ∨ s.mustWait then s
    else if s.entryLength q i = 0 then s.complete q 0 outDone
    else
      let a := s.entryWindow q i
      let st := s.rangeStatus a 320 true
      if st ≠ 0 then s.refuseRead q st a 320
      else
        let m := s.winGet a 320
        match s.manifestFault m with
        | some outcome => s.complete q 0 outcome
        | none =>
          let s := s.substAtOnce kat
          let r : RestoreSt := ⟨i, q, m, s.entryWord q i 5 * milliMt, s.meridian, []⟩
          let s := (s.takeEntry q).modCkpt fun c => { c with restore := some r }
          if r.limit = 0 ∧ wordField m 5 0 64 ≠ 0 then s.endRestore outIncomplete else s.restoreArrived

end State

def bits13 (xs : List (BitVec 13)) : List Nat := xs.map BitVec.toNat

/-- NOP (R284). -/
def execNop (s : State) : Out := s.answer s.nopCommand
/-- STEP_START (R284): the sites whose known-answer check fails in a substitution. -/
def execStepStart (kat : List (BitVec 13)) (s : State) : Out := s.answer (s.stepCommand false (bits13 kat))
/-- EVAL_START (R284, R354). -/
def execEvalStart (kat : List (BitVec 13)) (s : State) : Out := s.answer (s.stepCommand true (bits13 kat))
/-- MIGRATION_STAGE_DONE (R53, R59). -/
def execMigrationStageDone (badLine : Option (BitVec 13)) (shells : List (BitVec 13)) (s : State) : Out :=
  s.answer (s.stageDone (badLine.map BitVec.toNat) (bits13 shells))
/-- LEASE (R356). -/
def execLease (s : State) : Out := s.answer s.leaseCommand
/-- WITNESS (R422). -/
def execWitness (s : State) : Out := s.answer s.witnessCommand
/-- STAGING_PASS (R283). -/
def execStagingPass (s : State) : Out := s.answer s.stagingPass
/-- COPY_IN (R283). -/
def execCopyIn (q : BitVec 15) (s : State) : Out := s.answer (s.copyInCommand q.toNat)
/-- COPY_OUT (R283). -/
def execCopyOut (q : BitVec 15) (s : State) : Out := s.answer (s.copyOut q.toNat)
/-- RES_OUT (R252, R283). -/
def execResOut (q : BitVec 15) (s : State) : Out := s.answer (s.resOut q.toNat)
/-- CKPT_NOW (R363). -/
def execCkptNow (q : BitVec 15) (s : State) : Out := s.answer (s.ckptNow q.toNat)
/-- RESTORE (R350). -/
def execRestore (q : BitVec 15) (kat : List (BitVec 13)) (s : State) : Out :=
  s.answer (s.restoreCommand q.toNat (bits13 kat))
/-- MANIFEST_OUT (R363). -/
def execManifestOut (q : BitVec 15) (s : State) : Out := s.answer (s.manifestOut q.toNat)
/-- LEDGER_OUT (R363). -/
def execLedgerOut (q : BitVec 15) (s : State) : Out := s.answer (s.ledgerOut q.toNat)
/-- DRAIN_WAIT (R363). -/
def execDrainWait (q : BitVec 15) (s : State) : Out := s.answer (s.drainWait q.toNat)

end Sys2Proof.Machine
end

