-- ==== Sys2Proof/Machine/PlanImage.lean ====
section
/-! DEFINITION. The plan image: its layout, its header, its sections and its trailer as they are laid out, and the reasons with which
an image is refused (R294-R306, R314). -/

namespace Sys2Proof.Machine

/-! ### Reasons (R314) -/

def whyFormat : Nat := 0x01
def whyVersion : Nat := 0x02
def whyLength : Nat := 0x03
def whySignature : Nat := 0x04
def whyKey : Nat := 0x05
def whySectionType : Nat := 0x06
def whyReservedBit : Nat := 0x07
def whyEncoding : Nat := 0x08
def whyRegister : Nat := 0x09
def whyPair : Nat := 0x0A
def whyShape : Nat := 0x0B
def whyFixed : Nat := 0x0C
def whyBase : Nat := 0x0D
def whyShadowDirty : Nat := 0x0E
def whyProgram : Nat := 0x0F
def whyRoute : Nat := 0x10
def whySowing : Nat := 0x11
def whyHarvest : Nat := 0x12
def whyQueue : Nat := 0x13
def whyKept : Nat := 0x14
def whySerial : Nat := 0x15
def whyLoadFailed : Nat := 0x16

/-- The section number of the header and the trailer (R314). -/
def headSection : Nat := 0xFFFF

/-- Why an image is refused: REASON, SECTION and DETAIL of the result word (R314). -/
structure Reject where
  reason : Nat
  sect : Nat
  detail : Nat
  deriving DecidableEq, Repr

/-- The result word. -/
def Reject.word (r : Reject) : Nat := r.reason % 2 ^ 16 + r.sect % 2 ^ 16 * 2 ^ 16 + r.detail % 2 ^ 32 * 2 ^ 32

/-- A check: refused, or something decoded. -/
abbrev Chk (α : Type) := Except Reject α

/-- Refuse unless a condition holds. -/
def must (ok : Bool) (reason sect detail : Nat) : Chk Unit := if ok then .ok () else .error ⟨reason, sect, detail⟩

/-- Refuse with the detail that a search found, if any. -/
def mustNone (bad : Option Nat) (reason sect : Nat) : Chk Unit :=
  match bad with
  | none => .ok ()
  | some d => .error ⟨reason, sect, d⟩

/-- Check every item of a list. -/
def checkAll {α : Type} (f : α → Chk Unit) : List α → Chk Unit
  | [] => .ok ()
  | x :: xs => match f x with
    | .error e => .error e
    | .ok () => checkAll f xs

/-- Decode every item of a list. -/
def decodeAll {α β : Type} (f : α → Chk β) : List α → Chk (List β)
  | [] => .ok []
  | x :: xs => match f x with
    | .error e => .error e
    | .ok y => match decodeAll f xs with
      | .error e => .error e
      | .ok ys => .ok (y :: ys)

/-! ### Bytes of the image -/

abbrev Img := Array Byte

/-- `n` bytes from an offset, as a little-endian number. -/
def Img.num (m : Img) (off n : Nat) : Nat := leNat ((List.range n).map fun i => m.getD (off + i) 0)
/-- The 64-bit word at a byte offset. -/
def Img.word (m : Img) (off : Nat) : Nat := Img.num m off 8
/-- Bytes of a range. -/
def Img.bytes (m : Img) (off n : Nat) : List Byte := (m.extract off (off + n)).toList
def Img.allZero (m : Img) (off n : Nat) : Bool := (Img.bytes m off n).all (· == 0)

/-! ### The header (R295) -/

structure PlanHdr where
  major : Nat
  minor : Nat
  sections : Nat
  newConfig : Bool
  hostShadows : Bool
  bindSerial : Bool
  grade : Nat
  seam : Nat
  xDim : Nat
  yDim : Nat
  holeCount : Nat
  /-- HOLE_MAP[0..3]. -/
  holes : List Nat
  queues : Nat
  serial : Nat
  base : List Byte
  planId : Nat
  deriving DecidableEq, Repr

def readHdr (m : Img) : PlanHdr :=
  let w (i : Nat) : Nat := Img.word m (8 * i)
  { major := bitsOf (w 0) 32 16, minor := bitsOf (w 0) 48 16, sections := bitsOf (w 1) 32 20, newConfig := bitOf (w 3) 0,
    hostShadows := bitOf (w 3) 1, bindSerial := bitOf (w 3) 2, grade := bitsOf (w 4) 0 2, seam := bitsOf (w 4) 2 1,
    xDim := bitsOf (w 4) 16 12, yDim := bitsOf (w 4) 28 12, holeCount := bitsOf (w 4) 40 8,
    holes := (List.range 4).map fun i => w (5 + i), queues := bitsOf (w 9) 0 20, serial := w 10, base := Img.bytes m 88 64,
    planId := w 19 }

/-- A region that the header declares a hole. -/
def PlanHdr.isHole (h : PlanHdr) (n : Nat) : Bool := bitOf (h.holes.getD (n / 64) 0) (n % 64)
def PlanHdr.holeBits (h : PlanHdr) : Nat := (h.holes.map (popCount 64)).sum
/-- Physical row and region of a position of the header's grid (R2). -/
def PlanHdr.rowAt (h : PlanHdr) (x y : Nat) : Nat := 8 * (8 * (y / 8) + x / (if h.grade = 1 then 7 else 8)) + y % 8
/-- The plot is present under the header's shape (R57). -/
def PlanHdr.present (h : PlanHdr) (lid : Nat) : Bool :=
  decide (lid % 4096 < h.xDim) && decide (lid / 4096 < h.yDim) && !h.isHole (h.rowAt (lid % 4096) (lid / 4096) / 2)

/-- R295, R304: header words with their defined bits; the first one with another bit set. -/
def reservedHdr (m : Img) : Option Nat :=
  let defined : List (Nat × Nat) :=
    [(1, 52), (3, 3), (9, 20)].map fun x => (x.1, 2 ^ x.2 - 1)
  let all := defined ++ [(4, 0xFFFFFFFF0007)] ++ ((List.range 11).map fun i => (21 + i, 0))
  (all.find? fun x => Img.word m (8 * x.1) &&& (2 ^ 64 - 1 - x.2) != 0).map fun x => 8 * x.1

/-! ### The section table (R294, R296, R297) -/

structure Section where
  idx : Nat
  type : Nat
  ver : Nat
  off : Nat
  len : Nat
  deriving DecidableEq, Repr

def readSection (m : Img) (i : Nat) : Section :=
  let o := 256 + 32 * i
  { idx := i, type := Img.num m o 2, ver := Img.num m (o + 2) 2, off := Img.word m (o + 8), len := Img.word m (o + 16) }

/-- Put a part into a list of parts in ascending order of offset. -/
def insertPart (p : Nat × Nat) : List (Nat × Nat) → List (Nat × Nat)
  | [] => [p]
  | q :: qs => if p.1 ≤ q.1 then p :: q :: qs else q :: insertPart p qs

/-- Parts in order do not overlap, and the bytes between them are zero. -/
def partsOk (m : Img) : Nat → List (Nat × Nat) → Bool
  | _, [] => true
  | pos, p :: ps => decide (pos ≤ p.1) && Img.allZero m pos (p.1 - pos) && partsOk m p.2 ps

/-- R294: the layout of an image of `len` bytes whose header reads. -/
def layoutOk (m : Img) (len : Nat) : Chk (List Section) :=
  let size := Img.word m 16
  let n := bitsOf (Img.word m 8) 32 20
  let tend := 256 + 32 * n
  if size ≠ len ∨ size % 64 ≠ 0 ∨ size < 384 ∨ 512 * 2 ^ 20 < size ∨ size - 128 < tend then .error ⟨whyLength, headSection, 0⟩
  else
    let secs := (List.range n).map (readSection m)
    let bad (x : Section) : Bool :=
      if x.len = 0 then x.off != 0 else x.off % 64 != 0 || decide (x.off < tend) || decide (size - 128 < x.off + x.len)
    match secs.find? bad with
    | some x => .error ⟨whyLength, x.idx, 0⟩
    | none =>
      let parts := (secs.filter fun x => x.len != 0).foldl (fun ps x => insertPart (x.off, x.off + x.len) ps)
        [(0, tend), (size - 128, size)]
      if partsOk m 0 parts then .ok secs else .error ⟨whyLength, headSection, 0⟩

/-- R297: types, versions and repeats of the table; R304: its reserved fields. -/
def tableOk (m : Img) (secs : List Section) : Chk Unit :=
  match secs.find? fun x =>
      x.type == 0 || (decide (9 ≤ x.type) && decide (x.type ≤ 0xEFFF)) || x.ver != 1 ||
        (decide (x.type < 9) && x.len != 0 && secs.any fun y => decide (y.idx < x.idx) && y.type == x.type && y.len != 0) with
  | some x => .error ⟨whySectionType, x.idx, 0⟩
  | none =>
    match secs.find? fun x => Img.num m (256 + 32 * x.idx + 4) 4 != 0 || Img.word m (256 + 32 * x.idx + 24) != 0 with
    | some x => .error ⟨whyReservedBit, x.idx, 0⟩
    | none => .ok ()

/-- The present section of a type (R296). -/
def sectionOf (secs : List Section) (t : Nat) : Option Section := secs.find? fun x => x.type == t && x.len != 0

/-! ### The sections -/

/-- REGISTERS records: both words (R298). -/
def readRecords (m : Img) (x : Section) : Chk (List (Nat × Nat)) :=
  if x.len % 16 ≠ 0 then .error ⟨whyEncoding, x.idx, x.len / 16 * 16⟩
  else decodeAll (fun i =>
    let a := Img.word m (x.off + 16 * i)
    if a / 2 ^ 51 ≠ 0 then .error ⟨whyReservedBit, x.idx, 16 * i⟩
    else if 4 < bitsOf a 48 3 then .error ⟨whyRegister, x.idx, i⟩
    else .ok (a, Img.word m (x.off + 16 * i + 8))) (List.range (x.len / 16))

/-- REPAIR_MAP: one word for each row; what stands in a hole and at position 7 in Narrow grade (R56, R297). -/
def readRepair (m : Img) (h : PlanHdr) (x : Section) : Chk (List Nat) :=
  if x.len ≠ 4096 then .error ⟨whyEncoding, x.idx, 0⟩
  else decodeAll (fun k =>
    let w := Img.word m (x.off + 8 * k)
    if w / 2 ^ 32 ≠ 0 then .error ⟨whyReservedBit, x.idx, 8 * k⟩
    else if h.isHole (k / 2) && w != 0xFFFFFFFF then .error ⟨whyEncoding, x.idx, 8 * k⟩
    else if !h.isHole (k / 2) && h.grade == 1 && bitsOf w 28 4 != 15 then .error ⟨whyEncoding, x.idx, 8 * k⟩
    else .ok w) (List.range 512)

/-- One image of PLOT_PROGRAMS or ROUTES: its offset in the section, its words and its constants. -/
structure ProgImage where
  off : Nat
  words : List Nat
  consts : List Nat
  deriving DecidableEq, Repr

/-- PLOT_PROGRAMS or ROUTES: the images, and the image of each plot that has one, in ascending logical id (R299). -/
structure ImageSec where
  idx : Nat
  images : List ProgImage
  plots : List (Nat × Nat)
  deriving DecidableEq, Repr

/-! ### Reserved fields of words and entries (R304) -/

/-- A reserved field of a route memory word is set (R65). -/
def reservedRoute (w : Nat) : Bool :=
  let k := wordKind w
  if k = 4 then bitsOf w 14 46 != 0 else if k = 1 then bitsOf w 32 28 != 0 else if k = 2 then bitsOf w 36 24 != 0 else false

/-- A reserved field of a dispatch or gleaner memory word is set (R227, R244, R245). -/
def reservedHead (harvest : Bool) (w : Nat) : Bool :=
  let k := wordKind w
  if k = 4 then bitsOf w 33 27 != 0
  else if k = 1 then bitsOf w 32 28 != 0
  else if harvest && k == 2 then bitsOf w 41 19 != 0
  else if harvest && k == 5 then bitsOf w 48 12 != 0
  else false

/-- A reserved field of a slot memory word is set (R162-R164, R172, R173). -/
def reservedSlot (w : Nat) : Bool :=
  let k := wordKind w
  if k = 6 then bitsOf w 56 4 != 0
  else if k = 7 ∨ k = 8 then bitsOf w 32 28 != 0
  else if k = 9 then bitsOf w 17 43 != 0
  else if k = 2 then decide (0x3A ≤ bitsOf w 48 6) && decide (bitsOf w 48 6 ≤ 0x3D) && bitsOf w 12 5 != 0
  else if k = 3 then bitsOf w 0 15 != 0
  else false

/-- The words of a slot memory that stand from `a` on to the end word: each header leads past its block's words (R163-R165). -/
def reachedFrom (mem : Nat → Nat) : Nat → Nat → List Nat
  | 0, _ => []
  | fuel + 1, a =>
    let k := wordKind (mem a)
    if k = 7 then ((List.range (bitsOf (mem a) 0 8 + 1)).map (a + ·)) ++ reachedFrom mem fuel (a + 1 + bitsOf (mem a) 0 8)
    else if k = 8 ∨ k = 9 then a :: reachedFrom mem fuel (a + 1)
    else [a]

/-- The words of a plot image that apply checks (R161): entry words, and what the present programs reach. -/
def checkedSlots (ws : List Nat) : List Nat :=
  let arr := ws.toArray
  let mem (a : Nat) : Nat := arr.getD a 0
  List.range 16 ++ (((List.range 16).filter fun j => bitOf (mem j) 15).map fun j =>
    reachedFrom mem (ws.length + 1) (bitsOf (mem j) 0 15)).flatten

/-- The first word of an image with a reserved field set. -/
def reservedIn (route : Bool) (ws : List Nat) : Option Nat :=
  if route then ws.findIdx? reservedRoute
  else
    let arr := ws.toArray
    (checkedSlots ws).find? fun a => reservedSlot (arr.getD a 0)

/-- The first word of an entry with a reserved field set (R226, R246). -/
def reservedEntry (harvest : Bool) (ws : List Nat) : Option Nat :=
  let w (i : Nat) : Nat := ws.getD i 0
  if harvest then
    (if bitsOf (w 0) 57 7 ≠ 0 then some 0 else if bitsOf (w 1) 37 27 ≠ 0 then some 1 else if bitsOf (w 3) 20 44 ≠ 0 then some 3 else none)
  else if bitsOf (w 0) 45 3 ≠ 0 then some 0
  else if bitsOf (w 1) 48 16 ≠ 0 then some 1
  else if bitsOf (w 3) 16 48 ≠ 0 then some 3
  else none

def readImages (m : Img) (h : PlanHdr) (x : Section) (route : Bool) : Chk ImageSec :=
  let w (o : Nat) : Nat := Img.word m (x.off + o)
  let n := bitsOf (w 0) 0 20
  let index := 16 + 16 * n
  let lo := index + 4 * h.xDim * h.yDim
  let absent := if route then whyRoute else whyProgram
  if x.len < 16 then .error ⟨whyEncoding, x.idx, 0⟩
  else if w 0 / 2 ^ 20 ≠ 0 then .error ⟨whyReservedBit, x.idx, 0⟩
  else if w 8 / 2 ^ 24 ≠ 0 then .error ⟨whyReservedBit, x.idx, 8⟩
  else if bitsOf (w 8) 0 12 ≠ h.xDim ∨ bitsOf (w 8) 12 12 ≠ h.yDim then .error ⟨whyEncoding, x.idx, 8⟩
  else if x.len < lo then .error ⟨whyEncoding, x.idx, 0⟩
  else do
    let images ← decodeAll (fun i =>
      let o := w (16 + 16 * i)
      let d := w (24 + 16 * i)
      let nw := bitsOf d 0 16
      let nc := if route then 0 else bitsOf d 16 10
      if d / 2 ^ 26 ≠ 0 ∨ (route ∧ d / 2 ^ 16 ≠ 0) then .error ⟨whyReservedBit, x.idx, 24 + 16 * i⟩
      else if o % 8 ≠ 0 ∨ o < lo ∨ x.len < o + 8 * (nw + nc) ∨ nw < 16 ∨ (if route then 8192 else 32768) < nw ∨ 512 < nc then
        .error ⟨whyEncoding, x.idx, 16 + 16 * i⟩
      else .ok (⟨o, (List.range nw).map fun k => w (o + 8 * k), (List.range nc).map fun k => w (o + 8 * (nw + k))⟩ : ProgImage))
      (List.range n)
    let plots ← decodeAll (fun i =>
      let lid := i / h.xDim * 4096 + i % h.xDim
      let v := Img.num m (x.off + index + 4 * i) 4
      if v = 0xFFFFFFFF then .ok (lid, v)
      else if n ≤ v then .error ⟨whyEncoding, x.idx, index + 4 * i⟩
      else if !h.present lid then .error ⟨absent, x.idx, index + 4 * i⟩
      else .ok (lid, v)) (List.range (h.xDim * h.yDim))
    mustNone (images.findSome? fun i => (reservedIn route i.words).map fun a => i.off + 8 * a) whyReservedBit x.idx
    .ok ⟨x.idx, images, plots.filter fun p => p.2 != 0xFFFFFFFF⟩

/-- One program's table of SOWING or HARVEST: its number, its offset, the four words of each entry, and NORM_REL where it forms a
norm segment. -/
structure TableAt where
  j : Nat
  off : Nat
  entries : List (List Nat)
  norm : Option Nat
  deriving DecidableEq, Repr

/-- SOWING or HARVEST: the offset and the words of each headland's memory image, and the tables (R300). -/
structure TableSec where
  idx : Nat
  heads : List (Nat × List Nat)
  tables : List TableAt
  deriving DecidableEq, Repr

def readTables (m : Img) (x : Section) (harvest : Bool) : Chk TableSec :=
  let w (o : Nat) : Nat := Img.word m (x.off + o)
  if x.len < 552 then .error ⟨whyEncoding, x.idx, 0⟩
  else if w 0 / 2 ^ 16 ≠ 0 then .error ⟨whyReservedBit, x.idx, 0⟩
  else do
    let heads ← decodeAll (fun h =>
      let o := bitsOf (w (8 + 8 * h)) 0 32
      let n := bitsOf (w (8 + 8 * h)) 32 32
      if (n = 0 ∧ o ≠ 0) ∨ (n ≠ 0 ∧ (o < 552 ∨ n < 16 ∨ x.len < o + 8 * n)) then .error ⟨whyEncoding, x.idx, 8 + 8 * h⟩
      else .ok (o, (List.range n).map fun k => w (o + 8 * k))) (List.range 4)
    let tables ← decodeAll (fun j =>
      let at0 := 40 + 32 * j
      let o := w at0
      let c := w (at0 + 8)
      let r := w (at0 + 16)
      if w (at0 + 24) ≠ 0 then .error ⟨whyReservedBit, x.idx, at0 + 24⟩
      else if !harvest ∧ r ≠ 0 then .error ⟨whyReservedBit, x.idx, at0 + 16⟩
      else if !bitOf (w 0) j then
        (if o = 0 ∧ c = 0 ∧ r = 0 then .ok (⟨j, 0, [], none⟩ : TableAt)
         else .error ⟨whyEncoding, x.idx, at0⟩)
      else if o / 2 ^ 32 ≠ 0 then .error ⟨whyReservedBit, x.idx, at0⟩
      else if c / 2 ^ 18 ≠ 0 then .error ⟨whyReservedBit, x.idx, at0 + 8⟩
      else if r / 2 ^ 41 ≠ 0 then .error ⟨whyReservedBit, x.idx, at0 + 16⟩
      else if (c ≠ 0 ∧ o < 552) ∨ x.len < o + 32 * c then .error ⟨whyEncoding, x.idx, at0⟩
      else .ok ⟨j, o, (List.range c).map fun i => (List.range 4).map fun k => w (o + 32 * i + 8 * k),
                if harvest && bitOf r 40 then some (bitsOf r 0 40) else none⟩) (List.range 16)
    mustNone (heads.findSome? fun y => (y.2.findIdx? (reservedHead harvest)).map fun a => y.1 + 8 * a) whyReservedBit x.idx
    mustNone (tables.findSome? fun t => (List.zipIdx t.entries).findSome? fun e =>
      (reservedEntry harvest e.1).map fun i => t.off + 32 * e.2 + 8 * i) whyReservedBit x.idx
    .ok ⟨x.idx, heads, tables.filter fun t => bitOf (w 0) t.j⟩

/-- VOTES: the participants as channel·2^24 + logical id (R297). Bits of absent plots and padding bits are zero. -/
def readVotes (m : Img) (h : PlanHdr) (x : Section) : Chk (List Nat) :=
  let n := h.xDim * h.yDim
  let stride := 8 * ceilDiv n 64
  if x.len ≠ 16 * stride then .error ⟨whyEncoding, x.idx, 0⟩
  else do
    let bits ← decodeAll (fun i =>
      let c := i / (8 * stride)
      let b := i % (8 * stride)
      let lid := b / h.xDim * 4096 + b % h.xDim
      if !bitOf (Img.num m (x.off + i / 8) 1) (i % 8) then .ok none
      else if n ≤ b ∨ !h.present lid then .error ⟨whyEncoding, x.idx, i / 8⟩
      else .ok (some (c * 2 ^ 24 + lid))) (List.range (16 * 8 * stride))
    .ok (bits.filterMap id)

/-- CHECKPOINT as laid out (R349): whether its regions are kept is checked against the shadows. -/
def readCkpt (m : Img) (x : Section) : Chk CkptPlan :=
  let w (i : Nat) : Nat := Img.word m (x.off + 8 * i)
  let n := bitsOf (w 0) 0 24
  let free : List (Nat × Nat) := [(0, 24), (1, 32), (2, 48)] ++ (List.range 16).map (fun j => (3 + j, 41)) ++
    (List.range 13).map fun i => (19 + i, 0)
  if x.len < 256 ∨ x.len ≠ 256 + 8 * n then .error ⟨whyEncoding, x.idx, 0⟩
  else
    match free.find? fun y => w y.1 / 2 ^ y.2 != 0 with
    | some y => .error ⟨whyReservedBit, x.idx, 8 * y.1⟩
    | none => do
      let order ← decodeAll (fun i =>
        let e := w (32 + i)
        if bitsOf e 4 4 ≠ 0 ∨ e / 2 ^ 56 ≠ 0 then .error ⟨whyReservedBit, x.idx, 256 + 8 * i⟩
        else if 9 < bitsOf e 0 4 then .error ⟨whyEncoding, x.idx, 256 + 8 * i⟩
        else .ok (bitsOf e 0 4, bitsOf e 8 24, bitsOf e 32 24)) (List.range n)
      .ok { order := order, channels := bitsOf (w 1) 0 32, slice := bitsOf (w 2) 0 32 * 2 ^ 20, ledgerUnits := bitsOf (w 2) 32 16,
            ack := (List.range 16).filterMap fun j => if bitOf (w (3 + j)) 40 then some (j, bitsOf (w (3 + j)) 0 40) else none }

/-- The whole image, decoded. -/
structure PlanDoc where
  hdr : PlanHdr
  secs : List Section
  digest : List Byte
  records : Option (Nat × List (Nat × Nat))
  repair : Option (Nat × List Nat)
  plots : Option ImageSec
  routes : Option ImageSec
  sowing : Option TableSec
  harvest : Option TableSec
  votes : Option (Nat × List Nat)
  ckpt : Option (Nat × CkptPlan)
  deriving DecidableEq, Repr

/-- Decode a section if it is present. -/
def ifPresent {α : Type} (secs : List Section) (t : Nat) (f : Section → Chk α) : Chk (Option α) :=
  match sectionOf secs t with
  | none => .ok none
  | some x => (f x).map some

/-- The dimensions of a grade (R303, R310 check 2). -/
def gradeX (grade : Nat) : Nat := if grade = 1 then 56 else 64

/-- Phase 3 of R308 up to the registers: section types, reserved fields and encodings of the header, the table, the trailer and
every section. -/
def decodePlan (m : Img) (secs : List Section) (digest : List Byte) : Chk PlanDoc := do
  let h := readHdr m
  tableOk m secs
  mustNone (reservedHdr m) whyReservedBit headSection
  must (Img.allZero m (m.size - 32) 32) whyReservedBit headSection (m.size - 32)
  must (decide (h.grade < 2)) whyEncoding headSection 32
  must (h.bindSerial || h.serial == 0) whyEncoding headSection 80
  must (h.xDim == gradeX h.grade && h.yDim == 64) whyShape headSection 32
  must (decide (h.holeCount ≤ 32) && h.holeCount == h.holeBits) whyShape headSection 32
  must (decide (h.queues ≤ 32768)) whyShape headSection 72
  let records ← ifPresent secs 1 fun x => (readRecords m x).map (x.idx, ·)
  let repair ← ifPresent secs 2 fun x => (readRepair m h x).map (x.idx, ·)
  let plots ← ifPresent secs 3 fun x => readImages m h x false
  let routes ← ifPresent secs 4 fun x => readImages m h x true
  let sowing ← ifPresent secs 5 fun x => readTables m x false
  let harvest ← ifPresent secs 6 fun x => readTables m x true
  let votes ← ifPresent secs 7 fun x => (readVotes m h x).map (x.idx, ·)
  let ckpt ← ifPresent secs 8 fun x => (readCkpt m x).map (x.idx, ·)
  .ok { hdr := h, secs := secs, digest := digest, records := records, repair := repair, plots := plots, routes := routes,
        sowing := sowing, harvest := harvest, votes := votes, ckpt := ckpt }

end Sys2Proof.Machine
end

