-- ==== Sys2Proof/Machine/PlanGrid.lean ====
section
/-! DEFINITION. The grid as a new configuration forms it: site states from the unit history, row maps, holes (R47-R50, R56, R57, R60,
R332, R333). -/

namespace Sys2Proof.Machine
namespace State

/-- State of a history unit (R331). -/
def histState (s : State) (t i : Nat) : Nat := (s.summary (t, i)).state

/-- R56, R333, R374: the site is DARK in a new configuration: a hole, a region whose dark latch keeps its switch open, a shell failure since the last bring-up, a shell classified PERMANENT
or MARGINAL, or a PERMANENT link that it receives on. -/
def siteGoesDark (s : State) (hole : Nat → Bool) (p : Nat) : Bool :=
  hole (p / 20) || s.getF (F.REGION_PSTAT.DARK_LATCH (p / 20)) == 1 || NSet.mem s.grid.shellFailed p || decide (3 ≤ s.histState unitShell p) ||
    (List.range 4).any fun d => s.histState unitLink (4 * p + d) == 4

/-- Site states of a row before its map, unfenced sites as SPARE; PENDING cores among `back` are taken back (R56, R332). -/
def freshStates (s : State) (hole : Nat → Bool) (k : Nat) (back : List Nat) : Nat :=
  (List.range 10).foldl (fun w x =>
    let p := 10 * k + x
    let h := s.histState unitCore p
    setBits w (2 * x) 2 (if s.siteGoesDark hole p then 3 else if 3 ≤ h ∨ (h = 1 ∧ !back.contains x) then 2 else 1)) 0

/-- PENDING cores of a row, in ascending site. -/
def pendingCores (s : State) (k : Nat) : List Nat := (List.range 10).filter fun x => s.histState unitCore (10 * k + x) == 1

/-- Take back the first `n`, `n + 1`, … PENDING cores until the row has an assignment (R332). -/
def takeBack (s : State) (hole : Nat → Bool) (narrow : Bool) (k : Nat) : Nat → Nat → Option (Nat × List Nat)
  | 0, _ => none
  | fuel + 1, n =>
    let st := s.freshStates hole k ((s.pendingCores k).take n)
    match bestAssignment narrow st (canonicalMap narrow) with
    | some sites => some (st, sites)
    | none => if (s.pendingCores k).length ≤ n then none else takeBack s hole narrow k fuel (n + 1)

/-- The states and the map of a row at the start of a configuration (R48, R332); none without an assignment. -/
def rowStart (s : State) (hole : Nat → Bool) (narrow : Bool) (k : Nat) : Option (Nat × List Nat) := s.takeBack hole narrow k 11 0

/-- A map that the plan carries is valid against the states (R47, R56). -/
def carriedOk (s : State) (hole : Nat → Bool) (narrow : Bool) (k w : Nat) : Bool :=
  let sites := (List.range (if narrow then 7 else 8)).map fun i => bitsOf w (4 * i) 4
  let valid (st : Nat) : Bool :=
    (assignments (fun x => decide (bitsOf st (2 * x) 2 < 2)) (fun x => decide (bitsOf st (2 * x) 2 ≠ 3)) (columnPattern narrow) 0).contains sites
  match s.rowStart hole narrow k with
  | some (st, _) => valid st
  | none => false

/-- The row's words in a new configuration: POS_SITE and SITE_STATE. -/
def rowWords (s : State) (hole : Nat → Bool) (narrow : Bool) (repair : Option (List Nat)) (k : Nat) : Nat × Nat :=
  if hole (k / 2) then (0xFFFFFFFF, 0xFFFFF)
  else
    match s.rowStart hole narrow k with
    | none => (mapWord (canonicalMap narrow), s.freshStates hole k (s.pendingCores k))
    | some (st, sites) =>
      let sites := match repair with
        | some ws => (List.range (if narrow then 7 else 8)).map fun i => bitsOf (ws.getD k 0) (4 * i) 4
        | none => sites
      (mapWord sites, statesWithMap st sites)

/-- The lowest row outside holes that a new configuration cannot map: none has an assignment, or the carried map is not valid. -/
def rowWithoutMap (s : State) (hole : Nat → Bool) (narrow : Bool) (repair : Option (List Nat)) : Option Nat :=
  (List.range 512).find? fun k =>
    !hole (k / 2) &&
      (match repair with
       | none => (s.rowStart hole narrow k).isNone
       | some ws => !s.carriedOk hole narrow k (ws.getD k 0))

/-- Put the grid of a new configuration into effect: shape, holes, maps and states (R49, R50, R57, R60). -/
def formGrid (s : State) (narrow : Bool) (seam : Nat) (holes : List Nat) (repair : Option (List Nat)) : State :=
  let hole (n : Nat) : Bool := bitOf (holes.getD (n / 64) 0) (n % 64)
  let rows := (List.range 512).map fun k => (k, s.rowWords hole narrow repair k)
  let s := s.keepF F.GRID_SHAPE.CONFIG_GRADE (b2n narrow)
  let s := s.keepF F.GRID_SHAPE.SEAM_MODE seam
  let s := s.keepF F.GRID_SHAPE.X_DIM (gradeX (b2n narrow))
  let s := s.keepF F.GRID_SHAPE.Y_DIM 64
  let s := s.keepF F.GRID_SHAPE.HOLE_COUNT (holes.map (popCount 64)).sum
  let s := (List.range 4).foldl (fun s i => s.keepF (F.HOLE_MAP.DARK i) (holes.getD i 0)) s
  let s := rows.foldl (fun s r =>
    let s := s.keepF (F.ROW_MAP.POS_SITE r.1) r.2.1
    let s := s.keepF (F.ROW_MAP.SITE_STATE r.1) r.2.2
    s.keepF (F.ROW_MAP.SPARE_COUNT r.1) (spareCount r.2.2)) s
  let s := { s with grid := { s.grid with hidden := [], changes := [], fencedNow := [] } }
  s.keepF F.REPAIR_STATUS.ROWS_NO_SPARE s.countNoSpare

/-- R333: gleaners fenced in a new configuration. -/
def fenceGleaners (s : State) : State :=
  (List.range 2).foldl (fun s i =>
    s.keepF (F.FENCED_GLEANERS.MASK i) ((List.range 64).foldl (fun w b =>
      if 3 ≤ s.histState unitGleaner (64 * i + b) then w + 2 ^ b else w) 0)) s

end State
end Sys2Proof.Machine
end

