-- ==== Sys2Proof/Machine/PlanProgram.lean ====
section
/-! DEFINITION. The apply checks of plot programs (R160-R178, R150, R151, R154) and what apply computes from them: busy furrows and
scheduled demand (R376, R379) and mover loam traffic (R197). Every check names the word address at which it fails. -/

namespace Sys2Proof

/-- The operands of an array word at its bits (R168). -/
def ArrayWord.ofBits (w : Nat) : ArrayWord := {
  ra := BitVec.ofNat 5 (w >>> 43), rb := BitVec.ofNat 5 (w >>> 38), rd := BitVec.ofNat 5 (w >>> 33), rc := BitVec.ofNat 5 (w >>> 28),
  fmtA := BitVec.ofNat 4 (w >>> 24), fmtB := BitVec.ofNat 4 (w >>> 20), outFmt := BitVec.ofNat 4 (w >>> 16), acc := w.testBit 15,
  rnd := w.testBit 14, clr := w.testBit 13, csrc := w.testBit 12, cimm := BitVec.ofNat 12 w }

/-- The operands of a vector word at its bits (R170). -/
def VecWord.ofBits (w : Nat) : VecWord := {
  td := BitVec.ofNat 5 (w >>> 43), ta := BitVec.ofNat 5 (w >>> 38), tb := BitVec.ofNat 5 (w >>> 33), tc := BitVec.ofNat 5 (w >>> 28),
  msk := BitVec.ofNat 3 (w >>> 25), mz := w.testBit 24, ext := BitVec.ofNat 24 w }

/-- The operands of a mover word at its bits (R173). -/
def MoverWord.ofBits (w : Nat) : MoverWord := {
  gs := BitVec.ofNat 5 (w >>> 43), gd := BitVec.ofNat 5 (w >>> 38), gl := BitVec.ofNat 5 (w >>> 33), ssp := BitVec.ofNat 2 (w >>> 31),
  dsp := BitVec.ofNat 2 (w >>> 29), lsrc := w.testBit 28, len := BitVec.ofNat 12 (w >>> 16), aprev := w.testBit 15 }

/-- The layout of a control opcode (R177). -/
def ctlLayout (op : Nat) : Option CtlLayout :=
  if 1 ≤ op ∧ op ≤ 11 then some .register
  else if 16 ≤ op ∧ op ≤ 25 then some .immediate
  else if op = 26 ∨ op = 44 then some .table
  else if op = 32 ∨ op = 34 then some .load
  else if op = 33 ∨ op = 35 then some .store
  else if op = 40 then some .vote
  else if op = 41 then some .vread
  else none

/-- The operands of a control word at its bits, under a layout (R176). -/
def CtlWord.ofBits (l : CtlLayout) (w : Nat) : CtlWord :=
  let z : CtlWord := ⟨0, 0, 0, 0, 0, 0, 0, false, 0⟩
  let rd := BitVec.ofNat 5 (w >>> 43)
  let rs1 := BitVec.ofNat 5 (w >>> 38)
  let rs2 := BitVec.ofNat 5 (w >>> 33)
  match l with
  | .register => { z with rd := rd, rs1 := rs1, rs2 := rs2, rs3 := BitVec.ofNat 5 (w >>> 28), cond := BitVec.ofNat 3 w }
  | .immediate => { z with rd := rd, rs1 := rs1, cond := BitVec.ofNat 3 (w >>> 35), imm := BitVec.ofNat 32 w }
  | .load => { z with rd := rd, rs1 := rs1, imm := BitVec.ofNat 32 w }
  | .store => { z with rs1 := rs1, rs2 := rs2, imm := BitVec.ofNat 32 w }
  | .table => { z with rd := rd, rs1 := rs1, typ := w.testBit 9, index := BitVec.ofNat 9 w }
  | .vote => { z with rs1 := rs1, chan := BitVec.ofNat 4 w }
  | .vread => { z with rd := rd, chan := BitVec.ofNat 4 w }

namespace Machine

def slotOf (w : Nat) : Nat := bitsOf w 54 6
def opOf (w : Nat) : Nat := bitsOf w 48 6

/-- Vector opcodes that are assigned (R171). -/
def vecAssigned (op : Nat) : Bool :=
  decide (1 ≤ op) && decide (op ≤ 62) && !(decide (0x15 ≤ op) && decide (op ≤ 0x17)) && op != 0x26 && op != 0x27 && op != 0x2E &&
    op != 0x2F

/-- Bounds of an EXPECT in the constant table (R154, R177). -/
def boundsOk (float : Bool) (lo hi : Word) : Bool :=
  if float then
    let l := ofF32 (lo.setWidth 32)
    let h := ofF32 (hi.setWidth 32)
    !l.isNan && !h.isNan && !fvLt h l
  else decide (lo.toInt ≤ hi.toInt)

/-- Constants that a control word names exist, and the bounds of an EXPECT are in order (R177). -/
def constsOk (op : Nat) (o : CtlWord) (consts : List Nat) : Bool :=
  let i := o.index.toNat
  if op = 26 then decide (i < consts.length)
  else if op = 44 then
    decide (i + 1 < consts.length) && boundsOk o.typ (BitVec.ofNat 64 (consts.getD i 0)) (BitVec.ofNat 64 (consts.getD (i + 1) 0))
  else true

/-- The encoding of a slot word (R161, R166-R168, R170-R173, R176, R177); `consts` where the image gives them. -/
def slotWordOk (v : Bool) (consts : Option (List Nat)) (w : Nat) : Bool :=
  let kind := wordKind w
  let op := opOf w
  let low := w % 2 ^ 48
  decide (slotOf w < 48) &&
  (if kind = 1 then
     let o := ArrayWord.ofBits low
     !v && decide (1 ≤ op) && decide (op ≤ 7) && o.bits == low && o.ok op
   else if kind = 2 then
     let o := VecWord.ofBits low
     vecAssigned op && !(op == 62 && !v) && o.bits == low && o.ok op
   else if kind = 3 then
     let o := MoverWord.ofBits low
     (op == 1 || op == 2) && o.bits == low && o.ok op
   else if kind = 4 then
     match ctlLayout op with
     | none => false
     | some l =>
       let o := CtlWord.ofBits l low
       o.bits l == low && o.ok op && consts.elim true (constsOk op o)
   else false)

/-! ### Program structure (R162-R166) -/

/-- A block: its header's address, REPEAT, and its words with their addresses. -/
structure Blk where
  times : Nat
  words : List (Nat × Nat)
  deriving DecidableEq, Repr

/-- A piece of a program: a block, or a fork with its header's address, LENGTH and variants. -/
inductive Piece
  | block (b : Blk)
  | fork (at0 length : Nat) (variants : List (List Blk))
  deriving DecidableEq, Repr

/-- Slot order, and unit order within a slot (R166). -/
def wordsInOrder : List (Nat × Nat) → Option Nat
  | a :: b :: rest =>
    if slotOf a.2 < slotOf b.2 ∨ (slotOf a.2 = slotOf b.2 ∧ wordKind a.2 < wordKind b.2) then wordsInOrder (b :: rest) else some b.1
  | _ => none

/-- The block at an address, and the address after it. -/
def parseBlock (mem : Nat → Nat) (v : Bool) (consts : Option (List Nat)) (a : Nat) : Except Nat (Blk × Nat) :=
  let w := mem a
  let n := bitsOf w 0 8
  if wordKind w ≠ 7 ∨ 192 < n ∨ bitsOf w 32 28 ≠ 0 then .error a
  else
    let ws := (List.range n).map fun i => (a + 1 + i, mem (a + 1 + i))
    match ws.find? fun x => !slotWordOk v consts x.2 with
    | some x => .error x.1
    | none => match wordsInOrder ws with
      | some b => .error b
      | none => .ok (⟨bitsOf w 8 24, ws⟩, a + 1 + n)

/-- The blocks of a variant, up to the address where it ends. -/
def parseBlocks (mem : Nat → Nat) (v : Bool) (consts : Option (List Nat)) (stop : Nat) : Nat → Nat → Except Nat (List Blk)
  | 0, a => .error a
  | fuel + 1, a =>
    if a = stop then .ok []
    else if stop < a then .error stop
    else match parseBlock mem v consts a with
      | .error e => .error e
      | .ok (b, next) => match parseBlocks mem v consts stop fuel next with
        | .error e => .error e
        | .ok bs => .ok (b :: bs)

def furrowsOf (bs : List Blk) : Nat := (bs.map (·.times)).sum

/-- The variants of a fork from variant `i` on (R164). -/
def parseVariants (mem : Nat → Nat) (v : Bool) (consts : Option (List Nat)) (length : Nat) :
    Nat → Nat → Nat → Except Nat (List (List Blk) × Nat)
  | 0, _, a => .ok ([], a)
  | n + 1, i, a =>
    let w := mem a
    let words := bitsOf w 2 15
    if wordKind w ≠ 9 ∨ bitsOf w 0 2 ≠ i ∨ bitsOf w 17 43 ≠ 0 ∨ words = 0 then .error a
    else match parseBlocks mem v consts (a + 1 + words) (words + 1) (a + 1) with
      | .error e => .error e
      | .ok bs =>
        if furrowsOf bs ≠ length then .error a
        else match parseVariants mem v consts length n (i + 1) (a + 1 + words) with
          | .error e => .error e
          | .ok (rest, next) => .ok (bs :: rest, next)

/-- The pieces of a program from an address to its end word, with the furrows and the fork numbers before them (R163-R165). -/
def parsePieces (mem : Nat → Nat) (v : Bool) (consts : Option (List Nat)) (length : Nat) :
    Nat → Nat → Nat → List Nat → Except Nat (List Piece)
  | 0, a, _, _ => .error a
  | fuel + 1, a, done, forks =>
    let w := mem a
    if wordKind w = 7 then
      match parseBlock mem v consts a with
      | .error e => .error e
      | .ok (b, next) => match parsePieces mem v consts length fuel next (done + b.times) forks with
        | .error e => .error e
        | .ok ps => .ok (.block b :: ps)
    else if wordKind w = 8 then
      let n := bitsOf w 5 3
      let len := bitsOf w 8 16
      let num := bitsOf w 24 8
      if bitsOf w 32 28 ≠ 0 ∨ n = 0 ∨ 4 < n ∨ len = 0 ∨ done = 0 ∨ forks.contains num then .error a
      else match parseVariants mem v consts len n 0 (a + 1) with
        | .error e => .error e
        | .ok (vs, next) => match parsePieces mem v consts length fuel next (done + len) (num :: forks) with
          | .error e => .error e
          | .ok ps => .ok (.fork a len vs :: ps)
    else if w = 10 * 2 ^ 60 then (if done = length then .ok [] else .error a)
    else .error a

/-! ### Registers and latencies (R137, R147, R168, R170, R177) -/

/-- Register numbers of the checks: general i, tile 32 + i, mask 64 + i. -/
def regTile (i : Nat) : Nat := 32 + i
def regMask (i : Nat) : Nat := 64 + i
/-- g0 and m0 are no registers of a check. -/
def realRegs (rs : List Nat) : List Nat := rs.filter fun r => r != 0 && r != 64

/-- The registers a slot word reads at its issue step (R167). -/
def readsOf (w : Nat) : List Nat :=
  let low := w % 2 ^ 48
  let op := opOf w
  if wordKind w = 1 then
    let o := ArrayWord.ofBits low
    realRegs [o.ra.toNat, o.rb.toNat, o.rd.toNat, o.rc.toNat]
  else if wordKind w = 2 then
    let o := VecWord.ofBits low
    let ta := o.ta.toNat
    let tb := o.tb.toNat
    let msk := regMask o.msk.toNat
    realRegs (msk ::
      (if op = 7 then [ta]
       else if op = 37 then [regMask ta]
       else if op = 35 ∨ op = 36 then [regMask ta, regMask tb]
       else if 55 ≤ op ∧ op ≤ 57 then [regMask ta]
       else if op = 58 ∨ op = 60 then [tb]
       else if op = 59 ∨ op = 61 then [regTile ta, tb]
       else if op = 20 ∨ op = 32 then [regTile ta, regTile tb, regTile o.tc.toNat]
       else if (8 ≤ op ∧ op ≤ 15) ∨ op = 19 ∨ (24 ≤ op ∧ op ≤ 28) ∨ op = 31 ∨ op = 6 then [regTile ta, regTile tb]
       else [regTile ta]))
  else if wordKind w = 3 then
    let o := MoverWord.ofBits low
    realRegs [o.gs.toNat, o.gd.toNat, o.gl.toNat]
  else
    match ctlLayout op with
    | none => []
    | some l =>
      let o := CtlWord.ofBits l low
      realRegs ([o.rs1.toNat, o.rs2.toNat, o.rs3.toNat] ++ if op = 25 then [o.rd.toNat] else [])

/-- Latency of a vector opcode (R137). -/
def vecLatency (op : Nat) : Nat :=
  if op = 19 ∨ op = 20 ∨ op = 31 ∨ op = 32 then 8
  else if 40 ≤ op ∧ op ≤ 45 then 10
  else if 48 ≤ op ∧ op ≤ 57 then 12
  else if op = 58 ∨ op = 59 then 10
  else if op = 60 ∨ op = 61 then 48
  else if op = 62 then 16
  else 6

/-- Latency of a control opcode (R147). -/
def ctlLatency (op : Nat) : Nat := if op = 11 then 3 else if op = 32 ∨ op = 33 then 6 else if op = 34 ∨ op = 35 then 48 else 1

/-- The register a vector or control word writes. -/
def writeOf (w : Nat) : Option Nat :=
  let low := w % 2 ^ 48
  let op := opOf w
  let r : Option Nat :=
    if wordKind w = 2 then
      let td := (VecWord.ofBits low).td.toNat
      if op = 59 ∨ op = 61 then none
      else if op = 12 ∨ op = 28 ∨ (35 ≤ op ∧ op ≤ 37) then some (regMask td)
      else if 48 ≤ op ∧ op ≤ 57 then some td
      else some (regTile td)
    else if wordKind w = 4 then
      (match ctlLayout op with
       | some .store => none
       | some .vote => none
       | some l => if op = 44 then none else some (CtlWord.ofBits l low).rd.toNat
       | none => none)
    else none
  r.bind fun x => if x = 0 ∨ x = 64 then none else some x

/-! ### One pass over a program (R93, R94, R136, R137, R150, R151, R174, R175, R197, R376, R379) -/

/-- What a pass knows after the furrows so far. Steps are counted from the step's first furrow. `none` stands for a time or a format
that a general register decides. -/
structure Dry where
  /-- Step of slot 0 of the furrow that comes next. -/
  base : Nat
  /-- Writes on their way: register and landing step. -/
  pend : List (Nat × Nat)
  /-- Landing steps that the last write of a register may have. -/
  last : SMap (List Nat)
  /-- Mode and feed end of the last array feed. -/
  feed : Option (Nat × Option Nat)
  /-- A feed whose COUNT is a register: issue step and current per step. -/
  openFeed : Option (Nat × Nat)
  loadFree : Nat
  /-- Formats of the active and shadow planes: 16 for EMPTY. -/
  act : Option Nat
  sh : Option Nat
  shReady : Nat
  /-- Class of the accumulator plane: 16 for EMPTY. -/
  acc : Option Nat
  pipeFree : Nat
  sfuFree : Nat
  /-- First step at which the mover is free. -/
  mover : Option Nat
  /-- A mover word whose LEN is a register: issue step, rate, and whether it counts at the loam port. -/
  openMove : Option (Nat × Nat × Bool)
  /-- Current of busy units by furrow, in 1/960 A. -/
  load : SMap Nat
  /-- Furrows with an issue or a landing. -/
  busy : NSet
  /-- Mover grains at the loam port by furrow. -/
  loam : SMap Nat
  votes : List (Nat × Nat)
  vreads : List (Nat × Nat × Nat)
  /-- Reads: furrow, landing step of a write that may be the last before, address. -/
  reads : List (Nat × Nat × Nat)
  /-- What variants must agree in (R150): place within the fork, what, how much. -/
  marks : List (Nat × Nat × Nat)
  deriving DecidableEq, Repr

def Dry.start : Dry := {
  base := 0, pend := [], last := [], feed := none, openFeed := none, loadFree := 0, act := some 16, sh := some 16, shReady := 0,
  acc := some 16, pipeFree := 0, sfuFree := 0, mover := some 0, openMove := none, load := [], busy := [], loam := [], votes := [],
  vreads := [], reads := [], marks := [] }

/-- Spread `u` per step over the steps from `a` to `b`, by furrow. -/
def spread (m : SMap Nat) (u a b : Nat) : SMap Nat :=
  if b < a then m
  else (List.range (b / 48 - a / 48 + 1)).foldl (fun m i =>
    let f := a / 48 + i
    let lo := max a (48 * f)
    let hi := min b (48 * f + 47)
    SMap.modify 0 m f (· + u * (hi + 1 - lo))) m

namespace Dry

def draw (d : Dry) (u a b : Nat) : Dry := { d with load := spread d.load u a b }
def touch (d : Dry) (p : Nat) : Dry := { d with busy := NSet.insert d.busy (p / 48) }
def mark (d : Dry) (fork p what n : Nat) : Dry := { d with marks := d.marks ++ [(p - fork, what, n)] }

/-- Busy furrows from `a` to `b`, by landing step. -/
def touchAll (d : Dry) (a b : Nat) : Dry := (List.range (b / 48 - a / 48 + 1)).foldl (fun d i => d.touch (48 * (a / 48 + i))) d

/-- A feed whose length was open has ended by step `p`: its rows may land at any step up to 150 after. -/
def closeFeed (d : Dry) (p : Nat) : Dry :=
  match d.openFeed with
  | none => d
  | some (p0, u) => { d.draw u p0 (p - 1) with openFeed := none }.touchAll p0 (p + 149)

/-- A transfer whose length was open has ended by step `p`, or with its 4,095th grain. -/
def closeMove (d : Dry) (p : Nat) : Dry :=
  match d.openMove with
  | none => d
  | some (p0, v, port) =>
    let hi := min (p - 1) (p0 + ceilDiv 4095 v - 1)
    let d := (d.draw 4 p0 hi).touchAll p0 (hi + if port then 40 else 12)
    { d with openMove := none, loam := if port then spread d.loam v p0 hi else d.loam }

/-- Reads of a slot word (R137). -/
def checkReads (p : Nat) (x : Nat × Nat) (d : Dry) : Except Nat Dry :=
  let rs := readsOf x.2
  let late (r : Nat) : Bool := ((SMap.get [] d.last r).any fun l => decide (p < l))
  if rs.any late then .error x.1
  else .ok { d with reads := d.reads ++ (rs.map fun r => (SMap.get [] d.last r).map fun l => (p / 48, l, x.1)).flatten }

/-- The write of a slot word (R137): two writes never land in one register in one step. -/
def checkWrite (limit p : Nat) (x : Nat × Nat) (d : Dry) : Except Nat Dry :=
  let lat := if wordKind x.2 = 2 then vecLatency (opOf x.2) else ctlLatency (opOf x.2)
  if limit ≤ p + lat then .error x.1
  else
    let d := (d.touch p).touch (p + lat)
    match writeOf x.2 with
    | none => .ok d
    | some r =>
      if d.pend.any fun q => q.1 == r && q.2 == p + lat then .error x.1
      else .ok { d with pend := d.pend ++ [(r, p + lat)], last := SMap.ins d.last r [p + lat] }

/-- Current per step of a busy feed (R376), in 1/960 A. -/
def feedUnits (op : Nat) (cls : Option Nat) : Nat :=
  if op = 5 then 30 else if op = 4 then 20 else match cls with
    | some 2 => 70
    | some 3 => 60
    | _ => 80

/-- An array word (R82, R83, R89, R93, R94, R105). -/
def arrayWord (limit fork p : Nat) (x : Nat × Nat) (d : Dry) : Except Nat Dry :=
  let o := ArrayWord.ofBits (x.2 % 2 ^ 48)
  let op := opOf x.2
  let feeding : Bool := match d.feed with
    | some (_, some e) => decide (p ≤ e)
    | _ => false
  let portMode : Bool := match d.feed with
    | some (m, _) => m == 3 || m == 5
    | none => false
  let d := d.touch p
  if op = 6 then
    if p < d.loadFree ∨ (feeding && portMode) ∨ limit ≤ p + 136 then .error x.1
    else .ok ({ d with loadFree := p + 128, sh := some o.fmtA.toNat, shReady := p + 136 }.draw 20 p (p + 127) |>.touch (p + 136))
  else if op = 7 then
    if feeding then .error x.1
    else if d.sh = some 16 ∨ d.sh = none ∨ p < d.shReady then .ok { d with act := none, sh := none }
    else .ok { d with act := d.sh, sh := d.act }
  else
    let blocked : Bool := match d.feed with
      | some (m, some e) => decide (p < (if m = op then e + 1 else e + 9))
      | _ => false
    if blocked ∨ ((op = 3 ∨ op = 5) ∧ p < d.loadFree) then .error x.1
    else
      let d := d.closeFeed p
      let plane : Option Nat := d.act.bind fun f => if f = 16 then none else some f
      let other : Option Nat := if op = 1 ∨ op = 2 then plane else some o.fmtB.toNat
      let cls : Option Nat := other.bind (pairClass o.fmtA.toNat)
      let count : Option Nat := if op = 4 then some 128 else if o.csrc then some o.cimm.toNat else if o.rc = 0 then some 0 else none
      let sr := o.rnd && decide (1 ≤ o.outFmt.toNat) && decide (o.outFmt.toNat ≤ 4) && op != 3
      let u := feedUnits op cls
      let acc : Option Nat :=
        if op = 3 then (if o.clr then cls else d.acc) else if op = 4 then d.acc else d.acc
      let d := { d with acc := acc }
      match count, (if op = 4 then some 2 else cls.bind fun _ => other.map (pairHalfSteps o.fmtA.toNat)) with
      | some n, some half =>
        let e := p + feedLength half n
        let endAt := p + (if op = 4 then 277 else if n = 0 then 0 else entryStep half (n - 1) + 150)
        if limit ≤ endAt then .error x.1
        else
          let d := { d.draw u p e with feed := some (op, some e) }
          let d := if n = 0 then d else d.touchAll (p + 150) endAt
          .ok (if sr then (List.range n).foldl (fun d i =>
            d.mark fork (p + 150 + (if op = 4 then i else entryStep half i)) 1 128) d else d)
      | _, _ =>
        -- The feed ends at its issue step or later: what breaks R93 with that end breaks it with every COUNT.
        let d := { d with feed := some (op, some p), openFeed := some (p, u) }
        let rate : Nat := match cls, other with
          | some _, some g => pairHalfSteps o.fmtA.toNat g
          | _, _ => 32 + o.fmtA.toNat
        .ok (if sr then d.mark fork p 2 (o.rc.toNat + 32 * rate) else d)

/-- A vector word (R136, R137). -/
def vecWord (limit fork : Nat) (v : Bool) (p : Nat) (x : Nat × Nat) (d : Dry) : Except Nat Dry :=
  let op := opOf x.2
  let o := VecWord.ofBits (x.2 % 2 ^ 48)
  let fmt := o.ext.toNat / 2 ^ 20
  let sr := (op == 59 || op == 61) && o.ext.getLsbD 17 && fmt != 0 && fmt != 13
  if p < d.pipeFree ∨ (op = 62 ∧ p < d.sfuFree) then .error x.1
  else
    let d := { d with pipeFree := p + (if v then 1 else 4) }.draw (if v then 14 else 10) p (p + 3)
    let d := if op = 62 then { d with sfuFree := p + 4 }.draw 16 p (p + 3) else d
    let d := if !sr then d
      else if op = 61 then d.mark fork p 1 256
      else (List.range 4).foldl (fun d k => d.mark fork (p + 7 + k) 1 64) d
    d.checkWrite limit p x

/-- A mover word (R174, R175). -/
def moverWord (limit fork p : Nat) (x : Nat × Nat) (d : Dry) : Except Nat Dry :=
  let o := MoverWord.ofBits (x.2 % 2 ^ 48)
  let op := opOf x.2
  let loamy := (op == 1 && o.ssp == 1) || o.dsp == 1
  let v := if loamy then 8 else 32
  let lat := if loamy then 40 else 12
  let f := p / 48
  let back := o.aprev.toNat
  let busy : Bool := match d.mover with
    | some m => decide (p < m)
    | none => false
  if busy ∨ f < back then .error x.1
  else
    let d := (d.touch p).closeMove p
    let len : Option Nat := if o.lsrc then some o.len.toNat else if o.gl = 0 then some 0 else none
    let d := if o.dsp = 2 then d.mark fork p 3 (if o.lsrc then 1 + 2 * o.len.toNat else 0) else d
    match len with
    | none => .ok { d with mover := none, openMove := some (p, v, loamy) }
    | some n =>
      let k := max 1 (ceilDiv n v)
      let done := if n = 0 then p else p + ceilDiv n v - 1 + lat
      if limit ≤ done ∨ (o.dsp = 2 ∧ 48 * f + 47 < done) ∨ (op = 1 ∧ o.ssp = 2 ∧ 48 * (f - back) + 95 < p + k - 1) then .error x.1
      else
        let d := { d.draw 4 p (p + k - 1) with mover := some (p + k) }.touch done
        .ok (if loamy then { d with loam := (List.range (ceilDiv n v)).foldl (fun m i =>
          SMap.modify 0 m ((p + i) / 48) (· + min v (n - v * i))) d.loam } else d)

/-- A control word (R151, R177). -/
def ctlWord (limit fork p : Nat) (x : Nat × Nat) (d : Dry) : Except Nat Dry :=
  let op := opOf x.2
  let c := bitsOf x.2 0 4
  if op = 40 then
    if d.votes.contains (p / 48, c) then .error x.1
    else .ok ({ d with votes := d.votes ++ [(p / 48, c)] }.mark fork (48 * (p / 48)) 4 c |>.touch p)
  else
    let d := if op = 41 then { d with vreads := d.vreads ++ [(p / 48, c, x.1)] } else d
    d.checkWrite limit p x

/-- The words of one slot: every read, then every effect (R167). -/
def slot (limit fork : Nat) (v : Bool) (p : Nat) (ws : List (Nat × Nat)) (d : Dry) : Except Nat Dry :=
  let reads := ws.foldl (fun (r : Except Nat Dry) x => match r with
    | .error e => .error e
    | .ok d => d.checkReads p x) (.ok d)
  ws.foldl (fun (r : Except Nat Dry) x => match r with
    | .error e => .error e
    | .ok d =>
      if wordKind x.2 = 1 then d.arrayWord limit fork p x
      else if wordKind x.2 = 2 then d.vecWord limit fork v p x
      else if wordKind x.2 = 3 then d.moverWord limit fork p x
      else d.ctlWord limit fork p x) reads

/-- One furrow of a block. -/
def furrow (limit fork : Nat) (v : Bool) (b : Blk) (d : Dry) : Except Nat Dry :=
  let r := (List.range 48).foldl (fun (r : Except Nat Dry) k => match r with
    | .error e => .error e
    | .ok d =>
      let ws := b.words.filter fun x => slotOf x.2 == k
      if ws.isEmpty then .ok d else d.slot limit fork v (d.base + k) ws) (.ok d)
  match r with
  | .error e => .error e
  | .ok d => .ok { d with base := d.base + 48, pend := d.pend.filter fun q => decide (d.base + 48 ≤ q.2) }

/-- A block, furrow by furrow (R163). -/
def block (limit fork : Nat) (v : Bool) (b : Blk) : Nat → Dry → Except Nat Dry
  | 0, d => .ok d
  | n + 1, d => match d.furrow limit fork v b with
    | .error e => .error e
    | .ok d => block limit fork v b n d

def blocks (limit fork : Nat) (v : Bool) : List Blk → Dry → Except Nat Dry
  | [], d => .ok d
  | b :: bs, d => match block limit fork v b b.times d with
    | .error e => .error e
    | .ok d => blocks limit fork v bs d

/-- What the common tail can see of a variant (R150): plane states, occupancy and pending writes at the rejoin. -/
def rejoin (d : Dry) : (SMap Nat × Option (Nat × Option Nat) × Bool × Option Nat × Bool) × List Nat × List (Option Nat) :=
  let rel (x : Nat) : Nat := x - d.base
  let feed : Option (Nat × Option Nat) := d.feed.bind fun f => match f.2 with
    | some e => if e + 9 ≤ d.base then (if d.openFeed.isSome then some (f.1, none) else none) else some (f.1, some e)
    | none => some f
  let writes : SMap Nat := d.pend.foldl (fun m q => SMap.ins m (q.1 * 2 ^ 48 + q.2) 0) []
  ((writes, feed, d.openFeed.isSome, d.mover.map rel, d.openMove.isSome),
    [rel d.loadFree, rel d.shReady, rel d.pipeFree, rel d.sfuFree], [d.act, d.sh, d.acc])

/-- Insert a mark in order. -/
def insertMark (x : Nat × Nat × Nat) : List (Nat × Nat × Nat) → List (Nat × Nat × Nat)
  | [] => [x]
  | y :: ys =>
    if x.1 < y.1 ∨ (x.1 = y.1 ∧ (x.2.1 < y.2.1 ∨ (x.2.1 = y.2.1 ∧ x.2.2 ≤ y.2.2))) then x :: y :: ys else y :: insertMark x ys
def sortMarks (ms : List (Nat × Nat × Nat)) : List (Nat × Nat × Nat) := ms.foldl (fun l x => insertMark x l) []

/-- The marks of a variant, with the generator words of one step added up. -/
def markSum (ms : List (Nat × Nat × Nat)) : List (Nat × Nat × Nat) × SMap Nat :=
  (sortMarks (ms.filter fun x => x.2.1 ≠ 1), (ms.filter fun x => x.2.1 = 1).foldl (fun m x => SMap.modify 0 m x.1 (· + x.2.2)) [])

/-- Join two furrow maps by their larger value. -/
def joinMax (a b : SMap Nat) : SMap Nat := b.foldl (fun m x => SMap.ins m x.1 (max x.2 (SMap.get 0 m x.1))) a

/-- Take what one more variant did into the first one's pass: the larger load, every busy furrow, every possible last write. -/
def join (d e : Dry) : Dry := { d with
  load := joinMax d.load e.load, loam := joinMax d.loam e.loam,
  busy := e.busy.foldl (fun m x => NSet.insert m x.1) d.busy,
  last := e.last.foldl (fun m x =>
    let old := SMap.get [] m x.1
    SMap.ins m x.1 (old ++ x.2.filter fun l => !old.contains l)) d.last,
  vreads := d.vreads ++ e.vreads.filter fun x => !d.vreads.contains x,
  reads := d.reads ++ e.reads.filter fun x => !d.reads.contains x }

/-- A fork: every variant from the same state; they must agree (R150). -/
def fork (limit : Nat) (v : Bool) (at0 : Nat) (vs : List (List Blk)) (d : Dry) : Except Nat Dry :=
  let start := { d with marks := [] }
  let runs := vs.map fun bs => blocks limit d.base v bs start
  match runs.findSome? fun r => match r with
    | .error e => some e
    | .ok _ => none with
  | some e => .error e
  | none =>
    match runs.filterMap fun r => r.toOption with
    | [] => .error at0
    | x :: rest =>
      if rest.all fun y => decide (markSum y.marks = markSum x.marks) && y.rejoin.1 == x.rejoin.1 && y.rejoin.2 == x.rejoin.2 then
        .ok (rest.foldl join x)
      else .error at0

/-- The pieces of a program. -/
def pieces (limit : Nat) (v : Bool) : List Piece → Dry → Except Nat Dry
  | [], d => .ok d
  | .block b :: ps, d => match block limit 0 v b b.times d with
    | .error e => .error e
    | .ok d => pieces limit v ps d
  | .fork a _ vs :: ps, d => match d.fork limit v a vs with
    | .error e => .error e
    | .ok d => pieces limit v ps d

end Dry

/-- What apply knows of one program of one image. -/
structure ProgInfo where
  length : Nat
  load : SMap Nat
  busy : NSet
  loam : SMap Nat
  votes : List (Nat × Nat)
  vreads : List (Nat × Nat × Nat)
  reads : List (Nat × Nat × Nat)
  deriving DecidableEq, Repr

/-- Program j of an image of `size` words; none where its entry word has PRESENT = 0 (R161, R162, R178). -/
def checkProgram (mem : Nat → Nat) (v : Bool) (consts : Option (List Nat)) (j : Nat) : Except Nat (Option ProgInfo) :=
  let w := mem j
  if wordKind w ≠ 6 ∨ bitsOf w 56 4 ≠ 0 then .error j
  else if !bitOf w 15 then .ok none
  else if bitsOf w 0 15 < 16 then .error j
  else
    let length := bitsOf w 16 40
    match parsePieces mem v consts length 32768 (bitsOf w 0 15) 0 [] with
    | .error e => .error e
    | .ok ps => match Dry.pieces (48 * length) v ps Dry.start with
      | .error e => .error e
      | .ok d =>
        let d := (d.closeFeed (48 * length)).closeMove (48 * length)
        .ok (some { length := length, load := d.load, busy := d.busy.filter fun f => decide (f.1 < length), loam := d.loam, votes := d.votes, vreads := d.vreads,
                    reads := d.reads })

/-- The sixteen programs of an image. -/
def checkImage (mem : Nat → Nat) (v : Bool) (consts : Option (List Nat)) : Except Nat (List (Option ProgInfo)) :=
  (List.range 16).foldr (fun j r => match checkProgram mem v consts j with
    | .error e => .error e
    | .ok i => match r with
      | .error e => .error e
      | .ok is => .ok (i :: is)) (.ok [])

end Machine
end Sys2Proof
end

