-- ==== Sys2Proof/Machine/PlanFabric.lean ====
section
/-! DEFINITION. The apply checks of route, dispatch and gleaner programs together (R57, R61, R63-R68, R198, R226-R229, R243-R247, R252,
R256, R258, R333). They run on the state as it would be with the plan in effect. -/

namespace Sys2Proof.Machine

/-! ### Programs of groups (R65-R67, R227, R243) -/

/-- The groups from an address to the end word; the address of the first word refused (R65, R68). -/
def parseGroups (mem : Nat → Nat) (ok : Nat → Bool) : Nat → Nat → Except Nat (List GroupAt)
  | 0, a => .error a
  | fuel + 1, a =>
    let w := mem a
    if wordKind w = 1 then
      let n := bitsOf w 0 8
      if bitsOf w 32 28 ≠ 0 then .error a
      else match (List.range n).find? fun i => !ok (mem (a + 1 + i)) with
        | some i => .error (a + 1 + i)
        | none => match parseGroups mem ok fuel (a + 1 + n) with
          | .error e => .error e
          | .ok gs => .ok (⟨a + 1, n, bitsOf w 8 24⟩ :: gs)
    else if w = 3 * 2 ^ 60 then .ok []
    else .error a

/-- Furrows of a program of groups. -/
def groupFurrows (gs : List GroupAt) : Nat := (gs.map (·.times)).sum

/-- The group of a furrow. -/
def groupIn : List GroupAt → Nat → Option GroupAt
  | [], _ => none
  | g :: gs, k => if k < g.times then some g else groupIn gs (k - g.times)

/-- A memory of groups with its parsed program: address and word of everything in a furrow. -/
structure GroupProg where
  mem : Nat → Nat
  groups : List GroupAt

/-- The words of groups that apply to no furrow, group by group: they are checked all the same (R67). -/
def GroupProg.still (p : GroupProg) : List (List (Nat × Nat)) :=
  (p.groups.filter fun g => g.times == 0).map fun g => (List.range g.words).map fun i => (g.start + i, p.mem (g.start + i))

/-- The words of a furrow, with their addresses. -/
def GroupProg.at (p : GroupProg) (k : Nat) : List (Nat × Nat) :=
  (groupIn p.groups k).elim [] fun g => (List.range g.words).map fun i => (g.start + i, p.mem (g.start + i))

/-- Grain ranges cover `n` grains from `g` on. -/
def covers (rs : List (Nat × Nat)) (g n : Nat) : Bool :=
  (List.range n).all fun i => rs.any fun r => decide (r.1 ≤ g + i) && decide (g + i < r.1 + r.2)

/-- Two ranges meet. -/
def rangesMeet (a b : Nat × Nat) : Bool := a.2 != 0 && b.2 != 0 && decide (a.1 < b.1 + b.2) && decide (b.1 < a.1 + a.2)

/-! ### Route words (R61, R65, R198) -/

structure RouteOp where
  out : Nat
  inp : Nat
  inG : Nat
  outG : Nat
  n : Nat
  deriving DecidableEq, Repr

def routeOp (w : Nat) : RouteOp := ⟨bitsOf w 0 3, bitsOf w 3 3, bitsOf w 6 10, bitsOf w 16 10, bitsOf w 26 10⟩

/-- The encoding of a route word (R65, R198). One of GRAINS = 0 passes whatever its ports and grains say (R67; log entry 62). -/
def routeWordOk (w : Nat) : Bool :=
  let r := routeOp w
  let inLimit := if r.inp = 4 then 768 else if r.inp = 5 then 1 else 192
  let outLimit := if r.out = 4 then 768 else 192
  wordKind w == 2 && bitsOf w 36 24 == 0 && (r.n == 0 ||
    (decide (r.out ≤ 5) && decide (r.inp ≤ 5) && decide (r.inG < inLimit) && decide (r.outG < outLimit) && decide (r.n ≤ 768) &&
      decide (r.inG + r.n ≤ (if r.inp = 4 then 768 else 192))))

/-- A word of a route memory beyond its entry words, be it in a program or not (R65, R68). -/
def routeMemOk (w : Nat) : Bool := wordKind w == 1 || routeWordOk w || w == 3 * 2 ^ 60
/-- A word of a dispatch or gleaner memory beyond its entry words: its KIND, and the end word's zeros (R65, R227, R243). -/
def headMemOk (harvest : Bool) (w : Nat) : Bool :=
  wordKind w == 1 || wordKind w == 2 || (harvest && wordKind w == 5) || w == 3 * 2 ^ 60

/-- The entry's order key: due furrow, channel, layer, tile (R226). -/
def SowEntry.key (e : SowEntry) : Nat := ((e.dueRel * 32 + e.chan) * 2 ^ 16 + e.layer) * 2 ^ 32 + e.tile
/-- Grains that the entry decodes to. -/
def SowEntry.grains (e : SowEntry) : Nat := decodedGrains e.codec e.src e.elements e.bytes e.pitch
/-- The most credit blocks that a segment for the entry takes (R221, R229, R231). -/
def SowEntry.blocks (e : SowEntry) : Nat :=
  ceilDiv (64 + (if e.codec = 0 then e.bytes else if e.codec = 1 then losslessBound e.src e.elements
    else e.elements * (elemBits e.src / 8))) 4096

/-- The entry's order key: gleaner, layer, tile (R246). -/
def HvEntry.key (e : HvEntry) : Nat := (e.gleaner * 2 ^ 16 + e.layer) * 2 ^ 32 + e.tile
/-- Bench grains of an entry (R245). -/
def HvEntry.grains (e : HvEntry) : Nat := if e.codec = 4 then e.passGrains else e.elements / 4
/-- Bytes that its segment takes in the transmit area. -/
def HvEntry.size (e : HvEntry) : Nat :=
  64 + 16 * ceilDiv (if e.codec = 0 then 4 * e.elements else if e.codec = 1 then 2 * e.elements
    else if e.codec = 4 then 16 * e.passGrains else e.elements) 16

namespace State

/-- Entry word j of a shell is well formed (R65). -/
def routeEntryOk (w : Nat) : Bool :=
  w == 0 || (wordKind w == 4 && bitsOf w 14 46 == 0 && (!bitOf w 13 || decide (16 ≤ bitsOf w 0 13)))

/-- Grains per furrow that output port `d` of a plot's router carries (R61). -/
def portCapacity (s : State) (lid d : Nat) : Nat :=
  if d = 4 then 768
  else if d = 5 then 192
  else if (s.edgeLink lid d).isSome then 48
  else match s.neighbour lid d with
    | none => 0
    | some q => if s.rowOf q / 8 ≠ s.rowOf lid / 8 ∨ s.getF F.GRID_SHAPE.SEAM_MODE = 1 then 48 else 192

/-- The east-west link at port `d` has a live shell wherever it passes through one (R46, R68). -/
def linkLive (s : State) (lid d : Nat) : Bool :=
  let k := s.rowOf lid
  let i := s.posOf lid
  let site (i : Nat) : Nat := bitsOf (s.getF (F.ROW_MAP.POS_SITE k)) (4 * i) 4 + 1
  let span : Nat × Nat :=
    if d = 1 then (site i, if i + 1 < s.rowLen then site (i + 1) else 11)
    else if d = 3 then (if i = 0 then 0 else site (i - 1), site i)
    else (0, 1)
  decide (span.2 - span.1 ≠ 3) || s.siteState (10 * k + span.1) != 3 || s.siteState (10 * k + span.1 + 1) != 3

/-- The route programs numbered j of every shell, parsed; the first plot and word refused. -/
def routeProgs (s : State) (j : Nat) : Except (Nat × Nat) (SMap GroupProg) :=
  (s.plotList.filter fun l => s.routePresent l j).foldr (fun l r =>
    match parseGroups (s.routeMem l) routeWordOk 8192 (bitsOf (s.routeMem l j) 0 13) with
    | .error a => .error (l, a)
    | .ok gs => match r with
      | .error e => .error e
      | .ok m => .ok ((l, ⟨s.routeMem l, gs⟩) :: m)) (.ok [])

/-- What a plot's router sends on a port in a furrow. -/
def sentOn (progs : SMap GroupProg) (lid out k : Nat) : List (Nat × Nat) :=
  (SMap.find? progs lid).elim [] fun p => ((p.at k).map fun x => routeOp x.2).filterMap fun r =>
    if r.out = out ∧ r.n ≠ 0 then some (r.outG, r.n) else none

/-- What the headlands send on an edge link in a furrow (R227). -/
def dispatchedOn (heads : List (Option GroupProg)) (h link k : Nat) : List (Nat × Nat) :=
  ((heads[h]?).join).elim [] fun p => (p.at k).filterMap fun x =>
    if bitsOf x.2 0 6 = link ∧ bitsOf x.2 12 6 ≠ 0 then some (bitsOf x.2 6 6, bitsOf x.2 12 6) else none

/-- R73: an edge link has failed its loopback since the last bring-up. -/
def edgeFailed (s : State) (h link : Nat) : Bool := bitOf (s.getF (F.EDGE_LINK_FAIL.FAILED h)) link

/-- A route word that moves grains breaks a check of R68 that asks for no furrow: `all` are the words of its group. -/
def routeStill (s : State) (lid : Nat) (x : Nat × Nat) (all : List (Nat × Nat)) : Bool :=
  let r := routeOp x.2
  let link (d : Nat) : Bool := (s.edgeLink lid d).isSome || (s.neighbour lid d).isSome
  let failed (d : Nat) : Bool := decide (d < 4) && (s.edgeLink lid d).elim false fun e => s.edgeFailed e.1 e.2
  r.n != 0 &&
  (failed r.inp || failed r.out || decide (s.portCapacity lid r.out < r.outG + r.n) ||
   (all.any fun y => y.1 != x.1 && (routeOp y.2).out == r.out && (routeOp y.2).n != 0 &&
      rangesMeet ((routeOp y.2).outG, (routeOp y.2).n) (r.outG, r.n)) ||
   (decide (r.inp < 4) && (!link r.inp || !s.linkLive lid r.inp)) || (decide (r.out < 4) && (!link r.out || !s.linkLive lid r.out)) ||
   (r.inp == 5 && s.getF (F.LOAM_STREAM.SIZE lid 0) == 0) || (r.out == 5 && s.getF (F.LOAM_STREAM.SIZE lid 1) == 0))

/-- A route word that moves grains in furrow `k` of a program of `len` furrows breaks a check of R68. -/
def routeBad (s : State) (progs : SMap GroupProg) (len lid k : Nat) (x : Nat × Nat) (all : List (Nat × Nat)) : Bool :=
  let r := routeOp x.2
  let lat (d : Nat) : Nat := s.hopLatency lid d
  s.routeStill lid x all || r.n != 0 &&
  ((decide (r.inp < 4) && (s.edgeLink lid r.inp).isNone &&
      (decide (k < lat r.inp) ||
        !(s.neighbour lid r.inp).elim false fun q => covers (sentOn progs q (facing r.inp) (k - lat r.inp)) r.inG r.n)) ||
   decide (len ≤ k + (if r.out < 4 then lat r.out else 1)))

/-- The route checks of one program (R68): the first plot and word that fails. -/
def routeFails (s : State) (progs : SMap GroupProg) (length : Option Nat) : Option (Nat × Nat) :=
  progs.findSome? fun p =>
    let total := groupFurrows p.2.groups
    if length.elim false (· != total) then some (p.1, 0)
    else ((List.range total).findSome? fun k =>
      let ws := p.2.at k
      (ws.find? fun x => s.routeBad progs total p.1 k x ws).map fun x => (p.1, x.1)) <|>
      p.2.still.findSome? fun ws => (ws.find? fun x => s.routeStill p.1 x ws).map fun x => (p.1, x.1)

/-- R229 Matching: a route word that reads an edge link in furrow `k` where the headland has not dispatched its grains. -/
def edgeReadBad (s : State) (heads : List (Option GroupProg)) (lid k : Nat) (w : Nat) : Bool :=
  let r := routeOp w
  r.n != 0 && decide (r.inp < 4) && match s.edgeLink lid r.inp with
    | some (h, l) => decide (k < 2) || !covers (dispatchedOn heads h l (k - 2)) r.inG r.n
    | none => false

/-- The first plot and route word whose edge read does not match the dispatch. -/
def edgeReadFails (s : State) (progs : SMap GroupProg) (heads : List (Option GroupProg)) : Option (Nat × Nat) :=
  progs.findSome? fun p => (List.range (groupFurrows p.2.groups)).findSome? fun k =>
    ((p.2.at k).find? fun x => s.edgeReadBad heads p.1 k x.2).map fun x => (p.1, x.1)

/-- Every entry word of every shell (R65): the first that is refused. -/
def routeEntryFails (s : State) : Option (Nat × Nat) :=
  s.plotList.findSome? fun l => ((List.range 16).find? fun j => !routeEntryOk (s.routeMem l j)).map (l, ·)

/-- Loam grains of a plot's router by furrow: reads one furrow ahead, writes one furrow behind (R197, R198). -/
def routerLoam (progs : SMap GroupProg) (lid k : Nat) : Nat :=
  let count (k : Nat) (f : RouteOp → Bool) : Nat := (SMap.find? progs lid).elim 0 fun p =>
    (((p.at k).map fun x => routeOp x.2).map fun r => if f r then r.n else 0).sum
  count (k + 1) (fun r => r.inp == 5) + (if k = 0 then 0 else count (k - 1) fun r => r.out == 5)

/-! ### Sowing (R226-R229) -/

/-- An entry word of a dispatch or gleaner memory (R227). -/
def headEntryOk (w : Nat) : Bool :=
  w == 0 || (wordKind w == 4 && bitsOf w 33 27 == 0 && (!bitOf w 32 || decide (16 ≤ bitsOf w 0 32)))

/-- Edge positions of a headland segment. -/
def edgeCount (s : State) (h : Nat) : Nat := if h = 0 ∨ h = 2 then s.getF F.GRID_SHAPE.X_DIM else s.getF F.GRID_SHAPE.Y_DIM

/-- The encoding of a dispatch word (R227, R229). -/
def dispatchWordOk (s : State) (h entries w : Nat) : Bool :=
  wordKind w == 2 && decide (bitsOf w 0 6 < s.edgeCount h) && decide (bitsOf w 6 6 < 48) && decide (bitsOf w 12 6 ≤ 48) &&
    decide (bitsOf w 6 6 + bitsOf w 12 6 ≤ 48) && decide (bitsOf w 18 18 < entries) && s.present (s.edgePlot h (bitsOf w 0 6)).1

/-- A headland's program j, parsed; the word refused. -/
def headProg (mem : Nat → Nat) (size j : Nat) (ok : Nat → Bool) : Except Nat (Option GroupProg) :=
  match (List.range 16).find? fun i => !headEntryOk (mem i) with
  | some i => .error i
  | none =>
    if !bitOf (mem j) 32 then .ok none
    else match parseGroups mem ok (size + 1) (bitsOf (mem j) 0 32) with
      | .error a => .error a
      | .ok gs => .ok (some ⟨mem, gs⟩)

/-- The four headlands' programs j; the headland and word refused. -/
def headProgs (mem : Nat → Nat → Nat) (size j : Nat) (ok : Nat → Nat → Bool) : Except (Nat × Nat) (List (Option GroupProg)) :=
  (List.range 4).foldr (fun h r => match headProg (mem h) size j (ok h) with
    | .error a => .error (h, a)
    | .ok p => match r with
      | .error e => .error e
      | .ok ps => .ok (p :: ps)) (.ok [])

/-- The entry that four words give, where they are well formed (R226, R229, R230). -/
def sowEntryOf (ws : List Nat) : Option SowEntry :=
  let w (i : Nat) : Nat := ws.getD i 0
  let e : SowEntry := {
    dueRel := bitsOf (w 0) 0 40, chan := bitsOf (w 0) 40 5, kind := bitsOf (w 0) 60 4, codec := bitsOf (w 0) 48 4,
    src := bitsOf (w 0) 52 4, dst := bitsOf (w 0) 56 4, layer := bitsOf (w 1) 0 16, tile := bitsOf (w 1) 16 32,
    elements := bitsOf (w 2) 0 32, bytes := bitsOf (w 2) 32 32, pitch := bitsOf (w 3) 0 16 }
  let ok : Bool :=
    bitsOf (w 0) 45 3 == 0 && bitsOf (w 1) 48 16 == 0 && bitsOf (w 3) 16 48 == 0 && e.kind == 1 &&
    (if e.codec = 0 then decide (e.src ≤ 14) && e.dst == e.src && e.pitch == 0
     else if e.codec = 1 then decide (e.src ≤ 2) && e.dst == e.src && e.bytes == 0 && e.pitch == 0
     else if e.codec = 2 then
       decide (e.src ≤ 2) && decide (3 ≤ e.dst) && decide (e.dst ≤ 10) && e.elements % 128 == 0 && e.bytes == 0 && e.pitch % 16 == 0 &&
         decide (rowBytes e.dst ≤ e.pitch)
     else false)
  if ok then some e else none

/-- Strictly ascending keys; the first place that breaks it. -/
def ascendFails : List Nat → Nat → Option Nat
  | a :: b :: rest, i => if a < b then ascendFails (b :: rest) (i + 1) else some (i + 1)
  | _, _ => none

/-- Everything that names an entry, in program order: furrow, first decoded grain, grains (R228). -/
def dispatchesOf (p : GroupProg) (entry : Nat) : List (Nat × Nat × Nat) :=
  ((List.range (groupFurrows p.groups)).map fun k =>
    ((p.at k).filter fun x => bitsOf x.2 18 18 == entry).map fun x => (k, bitsOf x.2 36 24, bitsOf x.2 12 6)).flatten

/-- The dispatches cover 0 to `g` − 1 once each, in ascending order. -/
def coversOnce : Nat → List (Nat × Nat × Nat) → Nat → Bool
  | from', [], g => from' == g
  | from', d :: ds, g => if d.2.2 = 0 then coversOnce from' ds g else d.2.1 == from' && coversOnce (from' + d.2.2) ds g

/-- An entry breaks a check of R229: its channel, the words that name it, its due furrow. -/
def entryFails (s : State) (heads : List (Option GroupProg)) (i : Nat) (e : SowEntry) : Bool :=
  let ds := ((heads[e.chan / 8]?).join).elim [] fun p => dispatchesOf p i
  !s.chanEnabled e.chan || s.getF (F.HL_PART.SOW_UNITS (e.chan / 8)) == 0 || !coversOnce 0 ds e.grains ||
    (ds.head?).elim true fun d => d.1 != e.dueRel

/-- A dispatch word breaks a check of R229 that asks for no furrow: ownership, overlap with the other words of its group. -/
def dispatchStill (s : State) (es : List SowEntry) (h : Nat) (x : Nat × Nat) (all : List (Nat × Nat)) : Bool :=
  let n := bitsOf x.2 12 6
  let owner := (es[bitsOf x.2 18 18]?).elim true fun e => e.chan / 8 != h
  owner || (n != 0 &&
    (s.edgeFailed h (bitsOf x.2 0 6) || (all.any fun y => y.1 != x.1 && bitsOf y.2 0 6 == bitsOf x.2 0 6 && bitsOf y.2 12 6 != 0 &&
      rangesMeet (bitsOf y.2 6 6, bitsOf y.2 12 6) (bitsOf x.2 6 6, n))))

/-- A dispatch word in a furrow breaks a check of R229: those, or it would be readable after the step's last furrow. -/
def dispatchFails (s : State) (es : List SowEntry) (h len k : Nat) (x : Nat × Nat) (all : List (Nat × Nat)) : Bool :=
  s.dispatchStill es h x all || (bitsOf x.2 12 6 != 0 && decide (len ≤ k + 2))

/-- R229 Buffers: the credit blocks due in LEAD_FW + 1 furrows from an entry's on pass the channel's limit. -/
def bufferFails (s : State) (es : List SowEntry) (e : SowEntry) : Bool :=
  let near := es.filter fun f => f.chan == e.chan && decide (e.dueRel ≤ f.dueRel) &&
    decide (f.dueRel ≤ e.dueRel + s.getF (F.SOW_CHAN_CFG.LEAD_FW e.chan))
  decide (s.creditLimit e.chan < (near.map (·.blocks)).sum)

/-- Where a sowing or harvest check failed: an entry, or a word of a headland's memory. -/
inductive HeadAt
  | entry (i : Nat)
  | word (h a : Nat)
  | norm
  deriving DecidableEq, Repr

/-- The sowing checks of one program. -/
def sowFails (s : State) (heads : List (Option GroupProg)) (es : List SowEntry) (length : Option Nat) : Option HeadAt :=
  let order := (ascendFails (es.map (·.key)) 0).map HeadAt.entry
  let words := (List.zipIdx heads).findSome? fun q => q.1.bind fun p =>
    let total := groupFurrows p.groups
    if length.elim false (· != total) then some (HeadAt.word q.2 0)
    else ((List.range total).findSome? fun k =>
      let ws := p.at k
      (ws.find? fun x => s.dispatchFails es q.2 total k x ws).map fun x => HeadAt.word q.2 x.1) <|>
      p.still.findSome? fun ws => (ws.find? fun x => s.dispatchStill es q.2 x ws).map fun x => HeadAt.word q.2 x.1
  let entries := ((List.zipIdx es).find? fun e => s.entryFails heads e.2 e.1 || s.bufferFails es e.1).map fun e => HeadAt.entry e.2
  order <|> words <|> entries

/-! ### Harvest (R244-R247, R256, R258) -/

/-- The entry that four words give, where they are well formed (R246-R248). -/
def hvEntryOf (ws : List Nat) : Option HvEntry :=
  let w (i : Nat) : Nat := ws.getD i 0
  let e : HvEntry := {
    layer := bitsOf (w 0) 0 16, tile := bitsOf (w 0) 16 32, codec := bitsOf (w 0) 48 4, bin := bitsOf (w 0) 52 4,
    rnd := bitOf (w 0) 56, elements := bitsOf (w 1) 0 32, gleaner := bitsOf (w 1) 32 5, resOffset := w 2,
    passFmt := bitsOf (w 3) 0 4, passGrains := bitsOf (w 3) 4 16 }
  let ok : Bool :=
    bitsOf (w 0) 57 7 == 0 && bitsOf (w 1) 37 27 == 0 && bitsOf (w 3) 20 44 == 0 && decide (e.codec ≤ 4) &&
    (e.codec == 4 || (e.elements % 16 == 0 && e.passFmt == 0 && e.passGrains == 0)) &&
    (if e.codec = 3 then e.resOffset % 256 == 0 else e.resOffset == 0) &&
    (e.codec != 4 || (decide (e.passFmt ≤ 14) && e.bin == 0))
  if ok then some e else none

/-- The encoding of a gather or emit word (R244, R245, R247). -/
def gleanWordOk (s : State) (h : Nat) (es : List HvEntry) (w : Nat) : Bool :=
  if wordKind w = 2 then
    decide (bitsOf w 0 6 < s.edgeCount h) && decide (bitsOf w 6 6 < 48) && decide (bitsOf w 12 6 ≤ 48) && decide (bitsOf w 23 2 ≤ 2) &&
      decide (bitsOf w 25 16 + bitsOf w 12 6 ≤ 65536) && bitsOf w 41 19 == 0 && s.present (s.edgePlot h (bitsOf w 0 6)).1
  else if wordKind w = 5 then
    decide (bitsOf w 39 9 ≤ 256) && decide (bitsOf w 23 16 + bitsOf w 39 9 ≤ 65536) && bitsOf w 48 12 == 0 &&
      (es[bitsOf w 0 18]?).elim false fun e => e.gleaner == bitsOf w 18 5
  else false

/-- A bench grain as the check follows it: the furrow it was last written in, whether by PASS, whether emitted since. -/
structure BenchAt where
  furrow : Nat
  pass : Bool
  emitted : Bool
  deriving DecidableEq, Repr

/-- One word in furrow `k` against the bench (R247 Bench order); none where it breaks the order. Bench grains by k·2^16 + grain. -/
def benchStep (es : List HvEntry) (k : Nat) (w : Nat) (m : SMap BenchAt) : Option (SMap BenchAt) :=
  if wordKind w = 2 then
    let key := bitsOf w 18 5 * 2 ^ 16 + bitsOf w 25 16
    let op := bitsOf w 23 2
    (List.range (bitsOf w 12 6)).foldl (fun m i => m.bind fun m =>
      if op ≠ 1 then some (SMap.ins m (key + i) ⟨k, op == 2, false⟩)
      else match SMap.find? m (key + i) with
        | some b => if b.pass || b.emitted then none else some (SMap.ins m (key + i) ⟨k, false, false⟩)
        | none => none) (some m)
  else
    let key := bitsOf w 18 5 * 2 ^ 16 + bitsOf w 23 16
    let pass := (es[bitsOf w 0 18]?).elim false fun e => e.codec == 4
    (List.range (bitsOf w 39 9)).foldl (fun m i => m.bind fun m =>
      match SMap.find? m (key + i) with
      | some b => if b.emitted || b.furrow == k || b.pass != pass then none else some (SMap.ins m (key + i) { b with emitted := true })
      | none => none) (some m)

/-- The words of a program in order, with their furrows. -/
def wordsInTime (p : GroupProg) : List (Nat × Nat × Nat) :=
  ((List.range (groupFurrows p.groups)).map fun k => (p.at k).map fun x => (k, x.1, x.2)).flatten

/-- The first word that breaks the bench order. -/
def benchFails (es : List HvEntry) : List (Nat × Nat × Nat) → SMap BenchAt → Option Nat
  | [], _ => none
  | x :: xs, m => match benchStep es x.1 x.2.2 m with
    | none => some x.2.1
    | some m => benchFails es xs m

/-- Gather and emit grains of gleaner `g` among the words of a group (R247 Rate). -/
def gleanRate (ws : List (Nat × Nat)) (g : Nat) : Nat :=
  (ws.map fun x => if bitsOf x.2 18 5 = g then (if wordKind x.2 = 2 then bitsOf x.2 12 6 else bitsOf x.2 39 9) else 0).sum

/-- A word of a gleaner program breaks a check of its furrow: rate, matching, codec 3 in the first or last furrow. -/
def gleanFails (s : State) (progs : SMap GroupProg) (es : List HvEntry) (p : GroupProg) (h len k : Nat) (w : Nat) : Bool :=
  decide (256 < gleanRate (p.at k) (bitsOf w 18 5)) ||
  (if wordKind w = 2 then
     let n := bitsOf w 12 6
     let q := s.edgePlot h (bitsOf w 0 6)
     n != 0 && (s.edgeFailed h (bitsOf w 0 6) || decide (k < 2) || !covers (sentOn progs q.1 q.2 (k - 2)) (bitsOf w 6 6) n)
   else ((es[bitsOf w 0 18]?).elim false fun e => e.codec == 3) && (k == 0 || k + 1 == len))

/-- A word of a group that applies to no furrow breaks the checks that ask for none: rate, failed link (R67). -/
def gleanStill (s : State) (ws : List (Nat × Nat)) (h w : Nat) : Bool :=
  decide (256 < gleanRate ws (bitsOf w 18 5)) ||
    (wordKind w == 2 && bitsOf w 12 6 != 0 && s.edgeFailed h (bitsOf w 0 6))

/-- Every emit word naming an entry: headland, furrow, grains. -/
def emitsOf (heads : List (Option GroupProg)) (i : Nat) : List (Nat × Nat × Nat) :=
  ((List.zipIdx heads).map fun q => q.1.elim [] fun p => (wordsInTime p).filterMap fun x =>
    if wordKind x.2.2 = 5 ∧ bitsOf x.2.2 0 18 = i then some (q.2, x.1, bitsOf x.2.2 39 9) else none).flatten

/-- The headland that emits an entry. -/
def headOf (heads : List (Option GroupProg)) (i : Nat) : Nat := ((emitsOf heads i).head?).elim 0 (·.1)

/-- An entry breaks a check of R247 or R333: coverage, channel, fence, residual range. -/
def hvEntryFails (s : State) (heads : List (Option GroupProg)) (es : List HvEntry) (i : Nat) (e : HvEntry) : Bool :=
  let xs := emitsOf heads i
  let h := headOf heads i
  let g := 32 * h + e.gleaner
  xs.isEmpty || xs.any (fun x => x.1 != h) || (xs.map (·.2.2)).sum != e.grains || !s.chanEnabled (g / 4) ||
    bitOf (s.getF (F.FENCED_GLEANERS.MASK (g / 64))) (g % 64) ||
    (e.codec == 3 &&
      (s.resShare h == 0 || decide (s.resShare h < e.resOffset + 4 * e.elements) ||
        (List.zipIdx es).any fun f => f.2 != i && f.1.codec == 3 && f.1.gleaner == e.gleaner && headOf heads f.2 == h &&
          rangesMeet (f.1.resOffset, 4 * f.1.elements) (e.resOffset, 4 * e.elements)))

/-- The norm furrow is misplaced (R258, R247). -/
def normFails (s : State) (heads : List (Option GroupProg)) (tab : HvTable) (length : Option Nat) : Bool :=
  match tab.normRel with
  | none => false
  | some r =>
    length.elim false (fun len => decide (len ≤ r + 1)) || s.normChannel.isNone ||
      (List.zipIdx tab.entries).any fun e => e.1.bin != 0 && (emitsOf heads e.2).any fun x => decide (r < x.2.1 + 4)

/-- The bytes of the gradient segments and the norm segment that a step of a program can queue at headland h (R256). -/
def emittedBytes (s : State) (heads : List (Option GroupProg)) (tab : HvTable) (h : Nat) : Nat :=
  ((List.zipIdx tab.entries).map fun e => if headOf heads e.2 = h then e.1.size else 0).sum +
    (if tab.normRel.isSome ∧ s.normChannel.elim false (fun c => c / 8 == h) then 64 + 16 * ceilDiv 360 16 else 0)

/-- The most bytes a step of a program can queue at headland h (R256): what it emits, and the trailers. -/
def stepBytes (s : State) (heads : List (Option GroupProg)) (tab : HvTable) (h : Nat) : Nat :=
  s.emittedBytes heads tab h +
    128 * ((List.range 8).filter fun c => s.chanEnabled (8 * h + c)).length

/-- The harvest checks of one program. -/
def harvestFails (s : State) (progs : SMap GroupProg) (heads : List (Option GroupProg)) (tab : HvTable) (length : Option Nat) :
    Option HeadAt :=
  let es := tab.entries
  let order := (ascendFails (es.map (·.key)) 0).map HeadAt.entry
  let words := (List.zipIdx heads).findSome? fun q => q.1.bind fun p =>
    let total := groupFurrows p.groups
    if length.elim false (· != total) then some (HeadAt.word q.2 0)
    else (((wordsInTime p).find? fun x => s.gleanFails progs es p q.2 total x.1 x.2.2).map fun x => HeadAt.word q.2 x.2.1) <|>
      (benchFails es (wordsInTime p) []).map (HeadAt.word q.2) <|>
      p.still.findSome? fun ws => (ws.find? fun x => s.gleanStill ws q.2 x.2).map fun x => HeadAt.word q.2 x.1
  let entries := ((List.zipIdx es).find? fun e => s.hvEntryFails heads es e.2 e.1).map fun e => HeadAt.entry e.2
  let norm := if s.normFails heads tab length then some HeadAt.norm else none
  let buffers := if (List.range 4).any fun h => decide (s.txArea h < s.stepBytes heads tab h) && s.emittedBytes heads tab h != 0
    then some (if es.isEmpty then HeadAt.norm else HeadAt.entry 0) else none
  order <|> words <|> entries <|> norm <|> buffers

end State
end Sys2Proof.Machine
end

