-- ==== Sys2Proof/Machine/PlanValues.lean ====
section
/-! DEFINITION. The values a plan brings: REGISTERS records and host-written shadows, the state as it would be with the plan in effect,
and the checks of register values (R298, R307, R310 checks 1 to 17, R311, R280, R388). -/

namespace Sys2Proof.Machine

/-! ### Merging sparse stores -/

/-- Merge two stores, joining the values of a number that both list; `n` bounds the entries of both together. -/
def SMap.joinFuel {α : Type} (f : α → α → α) : Nat → SMap α → SMap α → SMap α
  | _, [], b => b
  | _, a, [] => a
  | 0, a, _ => a
  | n + 1, x :: xs, y :: ys =>
    if x.1 < y.1 then x :: joinFuel f n xs (y :: ys)
    else if y.1 < x.1 then y :: joinFuel f n (x :: xs) ys
    else (x.1, f x.2 y.2) :: joinFuel f n xs ys

/-- Merge two stores. -/
def SMap.join {α : Type} (f : α → α → α) (a b : SMap α) : SMap α := SMap.joinFuel f (a.length + b.length) a b
/-- Merge two stores; the second one's values stand. -/
def SMap.over {α : Type} (a b : SMap α) : SMap α := SMap.join (fun _ y => y) a b

/-! ### Records (R298) -/

/-- Values by field key, each with 1 + the record that wrote it, or 0 where the host did. -/
abbrev Over := SMap (Nat × Nat)

/-- The fields of a register written whole. -/
def fieldWrites (r : RegRow) (addr v tag : Nat) : Over := r.fields.map fun f => ((f.fld addr).key, (bitsOf v f.lo f.width, tag))

/-- Bits of a value outside the register's fields (R13, R304). -/
def reservedBits (r : RegRow) (v : Nat) : Bool :=
  r.fields.foldl (fun w f => setBits w f.lo f.width 0) v != 0

/-- The field belongs to a configuration register (R11, R311). -/
def configKey (k : Nat) : Bool := (findReg (k / 64)).elim false (·.1.config)

namespace State

/-- The addresses a record writes under its SCOPE; none where it has no such register. -/
def recordTargets (t : State) (r : RegRow) (idx : List Nat) (addr scope : Nat) : Option (List Nat) :=
  let inPlot : Bool := decide (0x200000000000 ≤ addr) && decide (addr < 0x300000000000)
  let own := if inPlot then r.dims.drop 1 else r.dims
  if scope = 0 then some [addr]
  else if scope = 4 then
    match own, idx.getLast? with
    | [d], some i => some ((List.range (d.limit - d.first)).map fun k => addr - i * d.stride + (d.first + k) * d.stride)
    | _, _ => none
  else if inPlot && decide (blockLid addr = 0) then
    some ((t.plotList.filter fun l => scope == 1 || (scope == 3) == t.isV l).map fun l => addr + l * 2 ^ 20)
  else none

/-- One record's writes. Addresses of absent plots, and QUEUE_CFG of queues 0 and 1, ignore them (R57, R292). -/
def recordWrites (t : State) (sect i : Nat) (rec : Nat × Nat) : Chk Over :=
  let addr := bitsOf rec.1 0 48
  match findReg addr with
  | none => .error ⟨whyRegister, sect, i⟩
  | some (r, idx) =>
    if !r.config then .error ⟨whyRegister, sect, i⟩
    else match t.recordTargets r idx addr (bitsOf rec.1 48 3) with
      | none => .error ⟨whyRegister, sect, i⟩
      | some as =>
        if reservedBits r rec.2 then .error ⟨whyReservedBit, sect, 16 * i + 8⟩
        else .ok (((as.filter fun a => !(t.absentBlock a || deadQueueCfg a)).map fun a => fieldWrites r a rec.2 (i + 1)).flatten)

/-- Every record in section order: a later one overwrites an earlier one. -/
def recordAll (t : State) (sect : Nat) : Nat → List (Nat × Nat) → Over → Chk Over
  | _, [], ov => .ok ov
  | i, r :: rs, ov => match t.recordWrites sect i r with
    | .error e => .error e
    | .ok w => recordAll t sect (i + 1) rs (SMap.over ov w)

/-! ### The state with the plan in effect -/

/-- Values put in effect: those equal to the reset value are not listed. -/
def withValues (t : State) (ov : Over) : State :=
  let live := ov.filter fun x => x.2.1 != t.keyReset x.1
  let dead := ov.filter fun x => x.2.1 == t.keyReset x.1
  let marked : SMap (Option Nat) := SMap.over (t.regs.map fun x => (x.1, some x.2)) (dead.map fun x => (x.1, none))
  { t with regs := SMap.over (marked.filterMap fun x => x.2.map (x.1, ·)) (live.map fun x => (x.1, x.2.1)) }

/-- The grid and the register values before the records: a new configuration takes its shape from the header and starts every
configuration register at its reset value (R56, R60, R307, R333). -/
def planGround (s : State) (d : PlanDoc) : State :=
  if d.hdr.newConfig then
    let t := (s.formGrid (d.hdr.grade == 1) d.hdr.seam d.hdr.holes (d.repair.map (·.2))).fenceGleaners
    { t with regs := t.regs.filter fun x => !configKey x.1 }
  else s

/-- Words of images at the plots that have one, in ascending place. -/
def imageWords (x : ImageSec) (size : Nat) (words : ProgImage → List Nat) : SMap Word :=
  let images := (x.images.map fun m => (List.zipIdx (words m)).filter fun w => w.1 != 0).toArray
  (x.plots.map fun p => (images.getD p.2 []).map fun w => (p.1 * size + w.2, BitVec.ofNat 64 w.1)).flatten

/-- Words of the headlands' memories. -/
def headWords (x : TableSec) : SMap Word :=
  ((List.zipIdx x.heads).map fun h => ((List.zipIdx h.1.2).filter fun w => w.1 != 0).map fun w =>
    (h.2 * 2 ^ 32 + w.2, BitVec.ofNat 64 w.1)).flatten

/-- The memories and tables that the plan's sections replace (R297). -/
def planLoad (t : State) (d : PlanDoc) : State :=
  let new := d.hdr.newConfig
  let keep {α : Type} (o : Option α) (now empty : α) : α := o.getD (if new then empty else now)
  let m := t.mem
  let p := t.plan
  let mem := { m with
    slots := keep (d.plots.map fun x => imageWords x (2 ^ 15) (·.words)) m.slots []
    consts := keep (d.plots.map fun x => imageWords x (2 ^ 9) (·.consts)) m.consts []
    routes := keep (d.routes.map fun x => imageWords x (2 ^ 13) (·.words)) m.routes [] }
  let plan := { p with
    voters := keep (d.votes.map fun v => v.2.map fun k => (k, ())) p.voters []
    dispatch := keep (d.sowing.map headWords) p.dispatch []
    sowTab := keep (d.sowing.map fun x => x.tables.map fun a => (a.j, a.entries.filterMap sowEntryOf)) p.sowTab []
    gleaner := keep (d.harvest.map headWords) p.gleaner []
    hvTab := keep (d.harvest.map fun x => x.tables.map fun a => (a.j, ⟨a.entries.filterMap hvEntryOf, a.norm⟩)) p.hvTab []
    ckpt := match d.ckpt with
      | some c => some c.2
      | none => if new then none else p.ckpt }
  { t with mem := mem, plan := plan }

/-! ### Where a value's check failed (R314) -/

/-- Section index of REGISTERS. -/
def regsSection (d : PlanDoc) : Nat := d.records.elim headSection (·.1)

/-- The record that gave a field its value, as section and byte offset; the header's number and 0 where none did. -/
def valueAt (d : PlanDoc) (ov : Over) (k extra : Nat) : Nat × Nat :=
  match SMap.find? ov k with
  | some (_, r + 1) => (regsSection d, 16 * r + extra)
  | _ => (headSection, 0)

/-- Refuse for the value of a field. -/
def mustValue (d : PlanDoc) (ov : Over) (ok : Bool) (reason : Nat) (f : Fld) : Chk Unit :=
  let p := valueAt d ov f.key 8
  must ok reason p.1 p.2

/-! ### Encodings of register values (R388, R390, R415) -/

def valueEncodings (t : State) (d : PlanDoc) (ov : Over) : Chk Unit := do
  let cap := t.getF F.POWER_CFG.MODULE_CAP
  let lim := t.getF F.POWER_CFG.P_LIMIT
  let pace := t.getF F.THERM_CFG.T_PACE
  mustValue d ov (decide (6400 ≤ cap) && decide (cap ≤ 24576)) whyEncoding F.POWER_CFG.MODULE_CAP
  mustValue d ov (decide (5000 ≤ lim) && decide (lim ≤ 25000)) whyEncoding F.POWER_CFG.P_LIMIT
  mustValue d ov (decide (85 ≤ pace) && decide (pace ≤ 105)) whyEncoding F.THERM_CFG.T_PACE
  checkAll (fun n =>
    let lead := t.getF (F.REGION_CFG.WAKE_LEAD_FW n)
    mustValue d ov (decide (t.getF (F.REGION_CFG.WAKE_DEFER n) ≤ 4096) &&
      (!t.sleepEnabled n || (decide (128 ≤ lead) && decide (lead + 64 ≤ t.getF (F.REGION_CFG.SLEEP_MIN_FW n))))) whyEncoding
      (F.REGION_CFG.WAKE_DEFER n)) (List.range 256)
  let perf := ov.filter fun x =>
    let a := x.1 / 64
    decide (0x200000000000 ≤ a) && decide (a < 0x300000000000) && decide (0x9000 ≤ a % 2 ^ 20) && decide (a % 2 ^ 20 < 0x9100) &&
      x.1 % 64 == 0 && decide (0x10 < x.2.1)
  match perf.head? with
  | some x =>
    let p := valueAt d ov x.1 8
    .error ⟨whyEncoding, p.1, p.2⟩
  | none => .ok ()

/-! ### Paired fields (R310) -/

/-- Pad modes of a plot as the plan gives them: a value written whole shows banks that a V-plot has not. -/
def padModes (t : State) (l : Nat) : Nat := t.keyValue (F.PAD_CFG.MODE l).key

/-- Check 8 for one plot (R185). -/
def padOkay (t : State) (l : Nat) : Bool :=
  (List.range 8).all fun b =>
    let m := bitsOf (t.padModes l) (2 * b) 2
    m != 3 && (!t.bankCarried l b || m == 1) && !(t.isV l && decide (6 ≤ b) && m != 0)

/-- Check 9 for one plot (R190). -/
def windowsOkay (t : State) (l : Nat) : Bool :=
  (List.range 8).all fun b =>
    let size := t.getF (F.CACHE_WIN.SIZE l b) * 65536
    let base := t.getF (F.CACHE_WIN.BASE l b)
    size == 0 || (bitsOf (t.padModes l) (2 * b) 2 == 2 && base % 65536 == 0 && decide (size ≤ 2 ^ 29) &&
      (t.partOf base size).elim false fun k => t.partCodec k == 0)

/-- Check 10 for one plot (R198). -/
def streamsOkay (t : State) (l : Nat) : Bool :=
  (List.range 2).all fun i =>
    let size := t.getF (F.LOAM_STREAM.SIZE l i) * 65536
    let base := t.getF (F.LOAM_STREAM.BASE l i)
    size == 0 || (base % 65536 == 0 && (t.partOf base size).isSome)

/-- The fields of a partition entry, absent ones too (R192, R208, R210). -/
def partFieldsOk (t : State) (i : Nat) : Bool :=
  let typ := t.partType i
  let codec := t.partCodec i
  let src := t.getF (F.LOAM_PART_ATTR.SRC_FMT i)
  let slot := t.getF (F.LOAM_PART_ATTR.SLOT_UNITS i)
  decide (typ ≤ 4) && decide (codec ≤ 2) && (codec == 0 || typ == 1) &&
    (t.getF (F.LOAM_PART_ATTR.KEEP i) == 0 || decide (3 ≤ typ)) && (if codec = 0 then src == 0 else decide (src ≤ 2)) &&
    (codec == 1 || (slot == 0 && t.getF (F.LOAM_PART_ATTR.OVERFLOW_CHUNKS i) == 0)) && decide (slot ≤ 16) &&
    t.partBase i % 65536 == 0 && t.partSize i % 65536 == 0 && decide (t.partBase i + t.partSize i ≤ 2 ^ 32)

/-- Physical bytes of a partition (R193, R204, R206). -/
def partPhysical (t : State) (i : Nat) : Nat :=
  let size := t.partSize i
  if t.partCommitted i then 2 * size
  else if t.partCodec i = 1 then
    size / 1024 * (64 * t.getF (F.LOAM_PART_ATTR.SLOT_UNITS i)) + 1024 * t.getF (F.LOAM_PART_ATTR.OVERFLOW_CHUNKS i)
  else if t.partCodec i = 2 then (if t.getF (F.LOAM_PART_ATTR.SRC_FMT i) = 0 then size / 4 else size / 2)
  else size

/-- Check 11 (R192, R193, R210). -/
def partsOkay (t : State) : Bool :=
  let here := (List.range 8).filter t.partPresent
  (List.range 8).all t.partFieldsOk &&
    (here.all fun i => here.all fun j => i == j || !rangesMeet (t.partBase i, t.partSize i) (t.partBase j, t.partSize j)) &&
    decide (((here.filter t.partCommitted).map t.partSize).sum ≤ 128 * 2 ^ 20) &&
    decide ((here.map t.partPhysical).sum ≤ 584 * 2 ^ 20) &&
    decide (((here.filter fun i => t.partCodec i == 1).map t.partSize).sum ≤ 512 * 2 ^ 20)

/-- Check 15: evaluation programs have no harvest (R354). -/
def evalOkay (t : State) : Bool :=
  (List.range 16).all fun j =>
    let tab := SMap.get HvTable.zero t.plan.hvTab j
    !bitOf (t.getF F.MODE_CFG.EVAL_PROGRAMS) j ||
      (tab.entries.isEmpty && tab.normRel.isNone && (List.range 4).all fun h => !bitOf (t.gleanMem h j) 32)

/-- Checks 1 to 17 in order. -/
def pairChecks (t : State) (h : PlanHdr) : List (Nat × Bool) :=
  let mt := t.getF F.FURROW_CFG.FURROW_MT
  let eval := t.getF F.FURROW_CFG.GRANT_EVAL_MT
  let policy := t.getF F.FURROW_CFG.CLOCK_POLICY
  let ratio := t.getF F.PACE_CFG.PACE_RATIO
  let floor := t.getF F.PACE_CFG.PACE_FLOOR
  let mult := t.getF F.LOAM_CFG.REFRESH_MULT
  [ (1, !(t.getF F.GRID_CFG.GRADE == 0 && t.getF F.GRID_SHAPE.PRODUCT_GRADE == 1)),
    (2, t.getF F.GRID_CFG.GRADE == h.grade && t.getF F.GRID_CFG.SEAM_MODE == h.seam),
    (3, decide (t.getF F.FURROW_CFG.FURROW_PHASE < mt) && decide (4 ≤ eval) && decide (eval + 8 ≤ mt) && decide (40 ≤ mt)),
    (4, t.getF F.FURROW_CFG.TWIN_LOCK == 0 || t.isPaired),
    (5, policy == 0 || (policy == 1 && decide (44 ≤ mt))),
    (6, decide (ratio ≤ 16) && decide (floor ≤ 16) && (t.getF F.PACE_CFG.PACE_MODE == 0 || decide (floor ≤ ratio))),
    (7, (List.range 256).all fun n => decide (t.getF (F.CLK_CFG.MARGIN_FLOOR n) ≤ t.getF (F.CLK_CFG.STRETCH_THRESH n))),
    (8, t.plotList.all t.padOkay),
    (9, t.plotList.all t.windowsOkay),
    (10, t.plotList.all t.streamsOkay),
    (11, t.partsOkay),
    (12, mult != 3 && decide (t.getF F.MEM_STATUS.REFRESH_MIN ≤ mult)),
    (13, (List.range 4).all fun i =>
      decide (t.getF (F.HL_PART.SOW_UNITS i) + t.getF (F.HL_PART.HARVEST_UNITS i) + t.getF (F.HL_PART.STAGE_UNITS i) ≤ 752) &&
        decide (2 * t.getF (F.HV_SEG_CFG.RES_UNITS i) ≤ t.getF (F.HL_PART.HARVEST_UNITS i))),
    (14, t.plan.voters.all fun v => bitOf (t.getF F.VOTE_CFG.ENABLE) (v.1 / 2 ^ 24)),
    (15, t.evalOkay),
    (16, decide (t.getF F.MODE_CFG.CKPT_MODE ≤ 1)),
    (17, (ringedQueues t.regs).all fun q => decide (q < h.queues)) ]

/-! ### Fixed items (R309 order 5, R311, R365) -/

/-- An apply within a configuration may change this field. -/
def mayChange (s t : State) (k : Nat) : Bool :=
  match findReg (k / 64) with
  | none => false
  | some (r, idx) =>
    let i := idx.headD 0
    if ["LOAM_PART_ATTR", "LOAM_PART_BASE", "LOAM_PART_SIZE"].contains r.name then
      decide (s.partType i < 3) && decide (t.partType i < 3)
    else if r.name = "PAD_CFG" then k % 64 == 0
    else ["FURROW_CFG", "PACE_CFG", "HOLD_LIMIT", "CLK_CFG", "VOTE_CFG", "CHECK_CFG", "LOAM_CFG", "HL_PART", "CACHE_WIN", "LOAM_STREAM",
      "SOW_CHAN_CFG", "QUEUE_CFG", "QUEUE_EP", "MODE_CFG"].contains r.name

/-- Fields whose value the plan changes. -/
def changedKeys (s : State) (ov : Over) : List Nat := (ov.filter fun x => x.2.1 != s.keyValue x.1).map (·.1)

/-- The kept layout (R345, R348): what a checkpoint names by its LAYOUT digest. -/
def sameLayout (s t : State) : Bool := s.keptLayout == t.keptLayout

def fixedChecks (s t : State) (d : PlanDoc) (ov : Over) : Chk Unit :=
  if s.draining && !s.sameLayout t then must false whyKept headSection 0
  else if d.hdr.newConfig then .ok ()
  else do
    must (d.hdr.grade == s.getF F.GRID_SHAPE.CONFIG_GRADE && d.hdr.seam == s.getF F.GRID_SHAPE.SEAM_MODE) whyFixed headSection 32
    must ((List.range 4).all fun i => d.hdr.holes.getD i 0 == s.getF (F.HOLE_MAP.DARK i)) whyFixed headSection 40
    must d.repair.isNone whyFixed (d.repair.elim headSection (·.1)) 0
    let ks := s.changedKeys ov
    match ks.find? fun k => !s.mayChange t k with
    | some k =>
      let p := valueAt d ov k 0
      .error ⟨whyFixed, p.1, p.2⟩
    | none =>
      must (!(s.keepsSegs && ks.any fun k =>
        decide ((F.HL_PART.SOW_UNITS 0).key ≤ k) && decide (k < (F.HL_PART.SOW_UNITS 4).key))) whyKept headSection 0

/-! ### Shape (R49, R56, R57, R310, R332) -/

/-- A region that only a hole may hold: latched dark, five or fewer phases, or PERMANENT. -/
def holeOnly (s : State) (n : Nat) : Bool :=
  s.getF (F.REGION_PSTAT.DARK_LATCH n) == 1 || decide (s.getF (F.REGION_PSTAT.PHASES n) ≤ 5) || s.histState unitRegion n == 4

def shapeChecks (s : State) (d : PlanDoc) : Chk Unit :=
  if !d.hdr.newConfig then .ok ()
  else do
    must (!(d.hdr.grade == 0 && s.getF F.GRID_SHAPE.PRODUCT_GRADE == 1)) whyShape headSection 32
    mustNone ((List.range 256).find? fun n => s.holeOnly n && !d.hdr.isHole n) whyShape headSection
    mustNone ((s.rowWithoutMap d.hdr.isHole (d.hdr.grade == 1) (d.repair.map (·.2))).map (· / 2)) whyShape
      (d.repair.elim headSection (·.1))

/-! ### Queues (R280) -/

/-- Queues 2 to 32767 of which the plan or the present state lists a field. -/
def namedQueues (s t : State) : List Nat :=
  let qs (m : SMap Nat) : SMap Unit := (m.filter fun x =>
    decide ((F.QUEUE_CFG.ENTRIES 2).addr ≤ x.1 / 64) && decide (x.1 / 64 < (F.QUEUE_CFG.ENTRIES 32768).addr)).map fun x =>
      ((x.1 / 64 - (F.QUEUE_CFG.ENTRIES 0).addr) / 16, ())
  NSet.toList ((qs s.regs ++ qs t.regs).foldl (fun m x => NSet.insert m x.1) [])

/-- The ring of a queue in a state's registers: parcels and entries, whether or not it has been lost. -/
def ringOf (t : State) (q : Nat) : Nat × Nat :=
  if q < 2 then (t.getF (F.MGMT_RING.BASE_PARCEL q), t.getF (F.MGMT_RING.ENTRIES q))
  else (t.getF (F.QUEUE_CFG.BASE_PARCEL q), t.getF (F.QUEUE_CFG.ENTRIES q))
def ringSpan (t : State) (q : Nat) : Nat × Nat := ((t.ringOf q).1, ceilDiv (t.ringOf q).2 1024)

/-- The queue's fields change, or a new configuration enables it again after its ring was lost (R279). -/
def queueChanges (s t : State) (new : Bool) (q : Nat) : Bool :=
  let v (x : State) : List Nat := [x.getF (F.QUEUE_CFG.KIND q), x.getF (F.QUEUE_CFG.EP_TYPE q), x.getF (F.QUEUE_CFG.LEDGER q),
    x.getF (F.QUEUE_EP.EP_ID q)]
  decide (s.ringOf q ≠ t.ringOf q) || decide (v s ≠ v t) || (new && NSet.mem s.win.off q)

/-- The ring is new or stands elsewhere. -/
def ringMoves (s t : State) (new : Bool) (q : Nat) : Bool :=
  decide ((t.ringOf q).2 ≠ 0) && (decide (s.ringOf q ≠ t.ringOf q) || (NSet.mem s.win.off q && s.queueChanges t new q))

/-- The endpoint that a queue names is present (R280), be its ring enabled or not. -/
def endpointOk (t : State) (q : Nat) : Bool :=
  let typ := t.getF (F.QUEUE_CFG.EP_TYPE q)
  let ep := t.getF (F.QUEUE_EP.EP_ID q)
  if typ = 1 then t.present ep else if typ = 2 then decide (ep < 128) else if typ = 3 then ep == 0 else typ == 0

/-- A queue breaks a rule of R280. -/
def queueFails (s t : State) (new : Bool) (named : List Nat) (q : Nat) : Bool :=
  let n := (t.ringOf q).2
  let span := t.ringSpan q
  let mine := s.markedRing q
  let ledger (q : Nat) : Bool := t.getF (F.QUEUE_CFG.LEDGER q) == 1
  !ringSizeOk n || decide (1 < t.getF (F.QUEUE_CFG.KIND q)) || decide (3 < t.getF (F.QUEUE_CFG.EP_TYPE q)) ||
    (ledger q && (t.getF (F.QUEUE_CFG.KIND q) != 0 || t.getF (F.QUEUE_CFG.EP_TYPE q) != 1 ||
      decide (64 ≤ (named.filter fun p => decide (p < q) && ledger p).length))) ||
    !t.endpointOk q ||
    (n != 0 && (decide (1048576 < span.1 + span.2) ||
      ([0, 1] ++ named).any fun p => p != q && rangesMeet (t.ringSpan p) span)) ||
    (s.ringMoves t new q && !((List.range span.2).all fun i =>
      s.owner (span.1 + i) == 0 || mine.contains (span.1 + i))) ||
    (s.queueChanges t new q && !(s.unreturned q).isEmpty)

def queueChecks (s t : State) (d : PlanDoc) : Chk Unit :=
  let named := s.namedQueues t
  mustNone (named.find? (s.queueFails t d.hdr.newConfig named)) whyQueue (regsSection d)

/-! ### The CHECKPOINT section (R349) -/

/-- Parcels in a unit of a region code; 0 where the region is not kept (R345). -/
def regionLimit (t : State) (code : Nat) : Nat :=
  if code < 8 then (if t.partKept code then t.partSize code / 65536 else 0)
  else if code = 8 then (if t.plotList.any fun l => t.getF (F.PAD_CFG.CARRY l) != 0 then 128 else 0)
  else 32 * ((List.range 4).map fun h => t.getF (F.HV_SEG_CFG.RES_UNITS h)).foldl max 0

def ckptChecks (t : State) (d : PlanDoc) : Chk Unit :=
  match d.ckpt with
  | none => .ok ()
  | some (sect, c) => do
    mustNone ((c.order.findIdx? fun o => decide (t.regionLimit o.1 = 0) || decide (t.regionLimit o.1 < o.2.1 + o.2.2)).map
      fun i => 256 + 8 * i) whyEncoding sect
    must ((List.range 32).all fun i => !bitOf c.channels i || t.chanEnabled i) whyEncoding sect 8
    must ((List.range 4).all fun h => decide (c.ledgerUnits ≤ t.getF (F.HL_PART.STAGE_UNITS h))) whyEncoding sect 16

/-- Channels in use whose lanes are excluded, or whose lane pair is PERMANENT or MARGINAL (R333, R404). -/
def laneChecks (t : State) (d : PlanDoc) (ov : Over) : Chk Unit :=
  checkAll (fun c =>
    let bad := t.chanEnabled c && (List.range 16).any fun k => t.laneExcluded (16 * c + k) || decide (3 ≤ t.histState unitLane (16 * c + k))
    let p := valueAt d ov (F.SOW_CHAN_CFG.ENABLE c).key 0
    must (!bad) whySowing p.1 p.2) (List.range 32)

end State
end Sys2Proof.Machine
end

