-- ==== Sys2Proof/Machine/PlanCheck.lean ====
section
/-! DEFINITION. Validation of a decoded plan as a whole: plot programs over the grid, scheduled demand, loam traffic, routes, sowing and
harvest, and what apply computes from them (R68, R178, R197, R229, R247, R256, R308 phase 4, R310, R376, R377, R379). -/

namespace Sys2Proof.Machine

/-- The program of a plot: the byte offset of its image in PLOT_PROGRAMS and what apply knows of its sixteen programs. -/
structure PlotProg where
  off : Nat
  infos : List (Option ProgInfo)
  deriving DecidableEq, Repr

def PlotProg.info (p : PlotProg) (j : Nat) : Option ProgInfo := (p.infos[j]?).join

/-- Runs of consecutive numbers of a rising list, each with its end. -/
def runsOf : List Nat → List (Nat × Nat)
  | [] => []
  | k :: ks => match runsOf ks with
    | [] => [(k, k + 1)]
    | r :: rs => if k + 1 = r.1 then (k, r.2) :: rs else (k, k + 1) :: r :: rs

/-- Sum of two furrow maps. -/
def sumMaps (a b : SMap Nat) : SMap Nat := SMap.join (· + ·) a b

/-- A function of the furrow that changes at listed furrows only: its value there. -/
abbrev Profile := SMap Nat

/-- Drop the places at which a profile does not change. -/
def Profile.squeeze : Option Nat → Profile → Profile
  | _, [] => []
  | old, (k, v) :: rest => if old = some v then Profile.squeeze old rest else (k, v) :: Profile.squeeze (some v) rest

/-- What a profile adds and takes at each place. -/
def Profile.steps : Int → Profile → SMap Int
  | _, [] => []
  | old, (k, v) :: rest => (k, (v : Int) - old) :: Profile.steps v rest

/-- The highest value of a sum of profiles, from its steps. -/
def highest (m : SMap Int) : Int := (m.foldl (fun (r : Int × Int) x => (r.1 + x.2, max r.2 (r.1 + x.2))) (0, 0)).2

namespace State

/-! ### Plot programs (R162, R178) -/

/-- The image of a plot that the present memory holds: its words, entry words of an absent image included. -/
def slotImage (t : State) (l : Nat) : Nat → Nat :=
  let m : SMap Nat := (t.mem.slots.filter fun x => decide (l * 2 ^ 15 ≤ x.1) && decide (x.1 < (l + 1) * 2 ^ 15)).map fun x =>
    (x.1 % 2 ^ 15, x.2.toNat)
  fun a => (SMap.find? m a).getD (if a < 16 then 6 * 2 ^ 60 else 0)

/-- Plots whose slot memory holds a program. -/
def programmedPlots (t : State) : List Nat :=
  t.plotList.filter fun l => t.mem.slots.any fun x => x.1 / 2 ^ 15 == l

/-- Every plot's programs checked; the section, and the byte offset of the word refused. -/
def plotPrograms (t : State) (d : PlanDoc) : Chk (SMap PlotProg) :=
  match d.plots with
  | some x =>
    let used (v : Bool) (i : Nat) : Bool := x.plots.any fun p => p.2 == i && t.isV p.1 == v
    let check (v : Bool) (i : Nat) (m : ProgImage) : Chk (List (Option ProgInfo)) :=
      if used v i then
        let ws := m.words.toArray
        match checkImage (fun a => ws.getD a 0) v (some m.consts) with
        | .error a => .error ⟨whyProgram, x.idx, m.off + 8 * a⟩
        | .ok is => .ok is
      else .ok []
    do
      let table ← decodeAll (fun m => do
        let a ← check false m.2 m.1
        let b ← check true m.2 m.1
        .ok (a, b)) (List.zipIdx x.images)
      let arr := table.toArray
      .ok (x.plots.map fun p =>
        let e := arr.getD p.2 ([], [])
        (p.1, ⟨(x.images[p.2]?).elim 0 (·.off), if t.isV p.1 then e.2 else e.1⟩))
  | none => decodeAll (fun l => match checkImage (t.slotImage l) (t.isV l) none with
      | .error _ => .error ⟨whyProgram, headSection, 0⟩
      | .ok is => .ok (l, ⟨0, is⟩)) t.programmedPlots

/-- PLOT_PROGRAMS, or the header's number where it is absent. -/
def progSection (d : PlanDoc) : Nat := d.plots.elim headSection (·.idx)

/-- LENGTH of program j: that of any plot that has it. -/
def planLength (ps : SMap PlotProg) (j : Nat) : Option Nat := ps.findSome? fun p => (p.2.info j).map (·.length)

/-- Check 18 (R162). -/
def lengthsAgree (ps : SMap PlotProg) : Bool :=
  (List.range 16).all fun j => ps.all fun p => (p.2.info j).elim true fun i => planLength ps j == some i.length

/-- R151: a VREAD before the first result of its channel in the step; the byte offset of the word. -/
def votesFail (ps : SMap PlotProg) (j : Nat) : Option Nat :=
  let first (c : Nat) : Option Nat := ps.foldl (fun (m : Option Nat) p =>
    ((p.2.info j).elim [] fun i => (i.votes.filter fun v => v.2 == c).map (·.1)).foldl (fun m k => some (m.elim k (min k))) m) none
  ps.findSome? fun p => (p.2.info j).bind fun i =>
    (i.vreads.find? fun r => (first r.2.1).elim true fun k => decide (r.1 < k + 6)).map fun r => p.2.off + 8 * r.2.2

/-! ### Busy furrows, sleep and demand (R376, R377, R379) -/

/-- The programs of a region's plots. -/
def regionProgs (t : State) (ps : SMap PlotProg) (n : Nat) : List (Nat × PlotProg) := ps.filter fun p => t.regionOf p.1 == n

/-- Runs of furrows in which a region has work in program j. -/
def planBusy (rs : List (Nat × PlotProg)) (j : Nat) : List (Nat × Nat) :=
  runsOf (NSet.toList (rs.foldl (fun m p => (p.2.info j).elim m fun i => SMap.over m i.busy) []))

/-- Its sleep intervals: idle runs of at least SLEEP_MIN_FW furrows. -/
def planSleeps (t : State) (n len : Nat) (busy : List (Nat × Nat)) : List (Nat × Nat) :=
  if t.sleepEnabled n && !t.regionCarries n then
    (gaps len 0 busy).filter fun r => decide (t.getF (F.REGION_CFG.SLEEP_MIN_FW n) ≤ r.2 - r.1)
  else []

/-- A read of a register written before a sleep interval; the byte offset of the word (R379). -/
def sleepFail (rs : List (Nat × PlotProg)) (j : Nat) (sleeps : List (Nat × Nat)) : Option Nat :=
  if sleeps.isEmpty then none
  else rs.findSome? fun p => (p.2.info j).bind fun i =>
    (i.reads.find? fun r => sleeps.any fun z => decide (r.2.1 < 48 * z.1) && decide (z.2 ≤ r.1)).map fun r => p.2.off + 8 * r.2.2

/-- Base current of an awake region, in 1/960 A: the region, its shells and its cores. -/
def baseLoad (t : State) (n : Nat) : Nat :=
  let ls := t.plotList.filter fun l => t.regionOf l == n
  1440 + 20 * 144 + (ls.map fun l =>
    (if t.isV l then 672 else 864) + 48 * ((List.range 8).filter fun b => t.bankMode l b != 0).length).sum

/-- Demand of a region over program j of `len` furrows, in 1/960 A (R376). -/
def demandProfile (t : State) (rs : List (Nat × PlotProg)) (n j len : Nat) (sleeps : List (Nat × Nat)) : Profile :=
  let load : SMap Nat := rs.foldl (fun m p => (p.2.info j).elim m fun i => sumMaps m i.load) []
  let lead := t.getF (F.REGION_CFG.WAKE_LEAD_FW n)
  let base := t.baseLoad n
  let marks (ks : List Nat) : SMap Unit := ks.map (·, ())
  let ks := NSet.toList (SMap.over (SMap.over (marks (0 :: sleeps.map (·.1))) (marks (sleeps.map fun z => z.2 - lead)))
    (SMap.over (marks (load.map (·.1))) (marks (load.map fun x => x.1 + 1))))
  Profile.squeeze none ((ks.filter fun k => decide (k < len)).map fun k =>
    if sleeps.any fun z => decide (z.1 ≤ k) && decide (k < z.2 - lead) then (k, 480 + 20 * 144)
    else (k, base + SMap.get 0 load k))

/-- The demand cap of a region's working phases, in A (R375). -/
def phaseCap (t : State) (n : Nat) : Nat :=
  let k := t.getF (F.REGION_PSTAT.PHASES n)
  if 7 ≤ k then 125 else if k = 6 then 110 else 0

/-- What apply knows of a region in a program. -/
structure RegionPlan where
  n : Nat
  j : Nat
  busy : List (Nat × Nat)
  demand : Profile
  deriving DecidableEq, Repr

/-- Every region outside holes in program j, or the refusal. -/
def regionPlans (t : State) (d : PlanDoc) (ps : SMap PlotProg) (j : Nat) : Chk (List RegionPlan) :=
  match planLength ps j with
  | none => .ok []
  | some len => do
    let rs ← decodeAll (fun n => do
      let here := t.regionProgs ps n
      let busy := planBusy here j
      let sleeps := t.planSleeps n len busy
      mustNone (sleepFail here j sleeps) whyProgram (progSection d)
      let demand := t.demandProfile here n j len sleeps
      must (demand.all fun x => decide (x.2 ≤ 960 * t.phaseCap n)) whyProgram (progSection d) (here.head?.elim 0 (·.2.off))
      .ok (⟨n, j, busy, demand⟩ : RegionPlan)) ((List.range 256).filter fun n => !t.isHole n)
    let all : SMap Int := rs.foldl (fun m r => SMap.join (· + ·) m (Profile.steps 0 r.demand)) []
    must (decide (highest all ≤ ((960 * t.getF F.POWER_CFG.MODULE_CAP : Nat) : Int))) whyProgram (progSection d)
      (d.plots.elim 0 fun x => x.images.head?.elim 0 (·.off))
    .ok rs

/-! ### Routes, sowing, harvest together (R68, R197, R229, R247) -/

/-- Byte offset of a plot's image in ROUTES or PLOT_PROGRAMS. -/
def imageOffset (x : Option ImageSec) (l : Nat) : Nat :=
  x.elim 0 fun x => ((x.plots.find? fun p => p.1 == l).bind fun p => x.images[p.2]?).elim 0 (·.off)

/-- Refuse at a word of a plot's memory: 0xFFFF and 0 where its section is absent. -/
def wordReject (reason : Nat) (x : Option ImageSec) (p : Nat × Nat) : Reject :=
  x.elim ⟨reason, headSection, 0⟩ fun y => ⟨reason, y.idx, imageOffset x p.1 + 8 * p.2⟩

/-- Refuse at a place of SOWING or HARVEST. -/
def headReject (reason j : Nat) (x : Option TableSec) (p : HeadAt) : Reject :=
  x.elim ⟨reason, headSection, 0⟩ fun y => ⟨reason, y.idx, match p with
    | .entry i => (y.tables.find? fun a => a.j == j).elim 0 (·.off) + 32 * i
    | .word h a => (y.heads[h]?).elim 0 (·.1) + 8 * a
    | .norm => 40 + 32 * j + 16⟩

/-- Refuse with a reject that a search found, if any. -/
def orReject {α : Type} (bad : Option α) (f : α → Reject) : Chk Unit :=
  match bad with
  | none => .ok ()
  | some a => .error (f a)

/-- Words of images given by ROUTES that are refused, wherever they stand (R65, R68). -/
def routeEntries (d : PlanDoc) : Option (Nat × Nat) :=
  d.routes.bind fun x => x.plots.findSome? fun p => ((x.images[p.2]?).bind fun m =>
    (List.zipIdx m.words).find? fun w =>
      if w.2 < 16 then w.1 == 0 || !routeEntryOk w.1 else !routeMemOk w.1).map fun w => (p.1, w.2)

/-- Memory words and tables of SOWING or HARVEST that are not well formed. -/
def tableFault {α : Type} (harvest : Bool) (x : Option TableSec) (entry : List Nat → Option α) : Option (Nat × HeadAt) :=
  x.bind fun y =>
    ((List.zipIdx y.heads).findSome? fun h => ((List.zipIdx h.1.2).find? fun w =>
      if w.2 < 16 then w.1 == 0 || !headEntryOk w.1 else !headMemOk harvest w.1).map fun w => (0, HeadAt.word h.2 w.2)) <|>
    y.tables.findSome? fun a => (a.entries.findIdx? fun e => (entry e).isNone).map fun i => (a.j, HeadAt.entry i)

/-- Loam port over 384 grains in a furrow of program j: the plot (R197). -/
def loamOver (t : State) (ps : SMap PlotProg) (routes : SMap GroupProg) (j : Nat) : Option Nat :=
  t.plotList.find? fun l =>
    let mover := ((SMap.find? ps l).bind fun p => p.info j).elim [] (·.loam)
    let total := (SMap.find? routes l).elim 0 fun p => groupFurrows p.groups
    (mover.any fun x => decide (384 < x.2 + routerLoam routes l x.1)) ||
      (List.range (total + 1)).any fun k => decide (384 < routerLoam routes l k)

/-- The checks of one program's routes, dispatch and gleaners, and the most bytes its step can queue by headland. -/
def fabricChecks (t : State) (d : PlanDoc) (ps : SMap PlotProg) (j : Nat) : Chk (List Nat) := do
  let len := planLength ps j
  let sow := SMap.get [] t.plan.sowTab j
  let tab := SMap.get HvTable.zero t.plan.hvTab j
  let routes ← (match t.routeProgs j with
    | .error p => .error (wordReject whyRoute d.routes p)
    | .ok r => .ok r)
  let heads ← (match headProgs t.dispatchMem (t.plan.dispatch.length + 16) j fun h w => t.dispatchWordOk h sow.length w with
    | .error p => .error (headReject whySowing j d.sowing (.word p.1 p.2))
    | .ok r => .ok r)
  let gleaners ← (match headProgs t.gleanMem (t.plan.gleaner.length + 16) j fun h w => t.gleanWordOk h tab.entries w with
    | .error p => .error (headReject whyHarvest j d.harvest (.word p.1 p.2))
    | .ok r => .ok r)
  match t.loamOver ps routes j with
  | some l =>
    if (SMap.find? ps l).isSome then .error (wordReject whyProgram d.plots (l, 0)) else .error (wordReject whyRoute d.routes (l, 0))
  | none => pure ()
  orReject (t.routeFails routes len) (wordReject whyRoute d.routes)
  orReject (t.sowFails heads sow len) (headReject whySowing j d.sowing)
  orReject (t.edgeReadFails routes heads) (wordReject whySowing d.routes)
  orReject (t.harvestFails routes gleaners tab len) (headReject whyHarvest j d.harvest)
  .ok ((List.range 4).map fun h => t.stepBytes gleaners tab h)

/-! ### Phase 4 -/

/-- What apply computes goes into the plan's part of the state, and PLAN_PEAK into its registers. -/
def planComputed (t : State) (regions : List RegionPlan) (bytes : List (List Nat)) : State :=
  let inAmps (x : Nat × Nat) : Nat × Nat := (x.1, ceilDiv x.2 60)
  let key (r : RegionPlan) : Nat := 256 * r.j + r.n
  let t := { t with plan := { t.plan with
    txMax := (List.zipIdx (bytes.flatten)).filterMap fun x => if x.1 = 0 then none else some (x.2, x.1)
    busy := (regions.filter fun r => !r.busy.isEmpty).map fun r => (key r, r.busy)
    demand := regions.map fun r => (key r, Profile.squeeze none (r.demand.map inAmps)) } }
  (List.range 256).foldl (fun t n => t.keepF (F.REGION_DEMAND.PLAN_PEAK n)
    ((regions.filter fun r => r.n == n).foldl (fun m r => r.demand.foldl (fun m x => max m (ceilDiv x.2 60)) m) 0)) t

/-- The shadows as phase 3 leaves them (R298, R307). -/
def planShadows (s : State) (d : PlanDoc) : Chk Over := do
  must (d.hdr.newConfig || d.hdr.hostShadows || !s.shadowsDirty) whyShadowDirty headSection 0
  let host : Over := if d.hdr.newConfig || !d.hdr.hostShadows then [] else s.shadow.map fun x => (x.1, (x.2, 0))
  match d.records with
  | none => .ok host
  | some (sect, rs) => (s.planGround d).recordAll sect 0 rs host

/-- Phases 3 and 4 of an apply from the records on (R308): the state with the plan in effect, or the reason it is refused. -/
def validatePlan (s : State) (d : PlanDoc) (ov : Over) : Chk State := do
  let t := ((s.planGround d).withValues ov).planLoad d
  t.valueEncodings d ov
  match (t.pairChecks d.hdr).find? fun c => !c.2 with
  | some c => .error ⟨whyPair, regsSection d, c.1⟩
  | none => pure ()
  s.shapeChecks d
  fixedChecks s t d ov
  let ps ← t.plotPrograms d
  must (lengthsAgree ps) whyPair (progSection d) 18
  mustNone ((List.range 16).findSome? (votesFail ps)) whyProgram (progSection d)
  orReject (routeEntries d) (wordReject whyRoute d.routes)
  orReject (tableFault false d.sowing sowEntryOf) (fun p => headReject whySowing p.1 d.sowing p.2)
  orReject (tableFault true d.harvest hvEntryOf) (fun p => headReject whyHarvest p.1 d.harvest p.2)
  let regions ← decodeAll (t.regionPlans d ps) (List.range 16)
  let bytes ← decodeAll (t.fabricChecks d ps) (List.range 16)
  t.laneChecks d ov
  queueChecks s t d
  t.ckptChecks d
  .ok (t.planComputed regions.flatten bytes)

end State
end Sys2Proof.Machine
end

