-- ==== Sys2Proof/Machine/Apply.lean ====
section
/-! DEFINITION. The APPLY command: authentication, refusals, validation, load and commit of a field plan (R284, R301, R305-R314,
R318). -/

namespace Sys2Proof.Machine

/-- The outcome of an apply that takes no effect: the entry's status and RESULT, and the reason where there is one. -/
structure Refused where
  status : Nat
  why : Option Reject
  deriving DecidableEq, Repr

/-- A count that a new configuration starts at zero (R312): every counter described as since configuration start. -/
def sinceConfig (k : Nat) : Bool :=
  match findReg (k / 64) with
  | none => false
  | some (r, _) => match r.fields.find? fun f => f.lo == k % 64 with
    | none => false
    | some f =>
      (f.name == "COUNT" &&
        !(["MERIDIAN_COUNT", "EVENTS_LOST", "LOG_DROPPED", "CLASS_COUNT", "CKPT_REMAIN", "RNG_WORDS"].contains r.name)) ||
      ["EPOCH_CHANGES", "RETRAINS", "SUBST_COUNT", "WAKES"].contains f.name

namespace State

/-- The front entry of queue 0 is refused or rejected (R313, R314). -/
def refuseApply (s : State) (r : Refused) : State :=
  match r.why with
  | none => s.complete 0 r.status 0
  | some w =>
    let s := s.nowF F.APPLY_LAST.REASON w.reason
    let s := s.nowF F.APPLY_LAST.SECTION w.sect
    let s := s.nowF F.APPLY_LAST.DETAIL w.detail
    s.complete 0 0x000B w.word

/-- The plan digest: SHA-512 over the image up to and including the public key (R305). -/
def imageDigest (m : Img) : List Byte := sha512 (Img.bytes m 0 (m.size - 96))

/-- R309 orders 2 to 5 for an image that authenticates. -/
def planStanding (s : State) (h : PlanHdr) : Option Refused :=
  let rejected (why : Nat) : Option Refused := some ⟨0x000B, some ⟨why, headSection, 0⟩⟩
  if h.newConfig then
    if h.base != zeroBytes 64 then rejected whyBase
    else if s.keepsSegs then rejected whyKept
    else none
  else if s.getF F.REPAIR_STATUS.DEGRADED = 1 then some ⟨0x0007, none⟩
  else if s.getF F.MEM_STATUS.HORIZON_LOST = 1 then some ⟨0x0008, none⟩
  else if s.getF F.PLAN_STATUS.CONFIGURED = 0 ∨ h.base ≠ s.planDigest then rejected whyBase
  else none

/-- Phases 1 and 2 (R294, R301, R305, R306, R309): the sections of an authentic image of `len` bytes, under the plan format version
chosen on the command's port. -/
def authenticate (s : State) (m : Img) (chosen : Option (Nat × Nat)) : Except Refused (List Section) :=
  let h := readHdr m
  let no {α : Type} (why : Nat) : Except Refused α := .error ⟨0x000B, some ⟨why, headSection, 0⟩⟩
  if m.size < 256 ∨ Img.num m 0 4 ≠ 0x9D3AF1E1 ∨ Img.num m 8 4 ≠ 256 then no whyFormat
  else match layoutOk m m.size with
    | .error r => .error ⟨0x000B, some r⟩
    | .ok secs =>
      let key := Img.bytes m (m.size - 128) 32
      if !(chosen.elim false fun v => h.major == v.1 && decide (h.minor ≤ v.2)) then no whyVersion
      else if !s.planKeys.contains key then no whyKey
      else if !Ed25519.verify key (imageDigest m) (Img.bytes m (m.size - 96) 64) then no whySignature
      else if h.bindSerial && h.serial != s.man.serial then no whySerial
      else match s.planStanding h with
        | some r => .error r
        | none => .ok secs

/-! ### Commit (R312) -/

/-- Queues whose rings the plan enables, changes or disables: the old rings are freed, the new ones claimed, and the indices restart
(R276, R280). -/
def commitQueues (s t : State) (new : Bool) : State :=
  let qs := (s.namedQueues t).filter fun q => decide (s.ringOf q ≠ t.ringOf q) || s.ringMoves t new q
  let u := qs.foldl (fun (u : State) q => u.freeRing (s.markedRing q)) t
  qs.foldl (fun u q =>
    let v := u.restartQueue q
    v.claimRing (v.ringParcels q)) u

/-- What the plot and shell memories hold now (R78, R183). -/
def showLoaded (t : State) (d : PlanDoc) : State :=
  let new := d.hdr.newConfig
  let t := if new || d.plots.isSome then
      t.plotList.foldl (fun t l =>
        let m := d.plots.bind fun x => (x.plots.find? fun p => p.1 == l).bind fun p => x.images[p.2]?
        let present := (List.range 16).foldl (fun w j => w + b2n (bitOf (t.slotMem l j) 15) * 2 ^ j) 0
        let t := t.nowF (F.PROG_LOADED.SLOT_WORDS l) (m.elim 16 (·.words.length))
        let t := t.nowF (F.PROG_LOADED.CONST_WORDS l) (m.elim 0 (·.consts.length))
        t.nowF (F.PROG_LOADED.PRESENT_MASK l) present) t
    else t
  if new || d.routes.isSome then
    (List.range 5120).foldl (fun t p =>
      if t.siteState p = 3 then t
      else
        let m := (t.lidOfSite p).bind fun l => d.routes.bind fun x =>
          (x.plots.find? fun q => q.1 == l).bind fun q => x.images[q.2]?
        t.nowF (F.ROUTER_STATUS.WORDS_LOADED p) (m.elim 16 (·.words.length))) t
  else t

/-- Committed state is zeroed, but a drain goes on: the checkpoint copies of what is not drained yet stay readable (R312, R365).
Manifests, the ledger area and segments under way are no part of the configuration (log entry 69). -/
def carryDrain (s : State) : CkptSt :=
  if s.draining then { s.ckpt with
    held := (s.undrained.filter fun x => !x.2.failed).foldl (fun m x => SMap.ins m x.1 (s.ckptBytes x.1)) [] }
  else { s.ckpt with parcels := [], held := [] }

/-- What only a new configuration does to the planned state `t`; `s` is the state before (R57, R252, R312, R344). -/
def freshConfig (s t : State) : State :=
  let t := { t with
    regs := t.regs.filter fun x => !sinceConfig x.1
    ckpt := s.carryDrain
    mem := { t.mem with
      loam := [], trans := [], image := [], cur := [], dirty := [], blockWritten := [], chunk := [], chunkNext := [], cache := [],
      portGrains := [], garbled := none }
    hv := { t.hv with residual := [], resCur := [], resDirty := [] } }
  let t := t.nowF F.REPAIR_STATUS.DEGRADED 0
  let t := t.nowF F.REPAIR_STATUS.SUBST_PENDING 0
  let t := t.nowF F.MEM_STATUS.HORIZON_LOST 0
  let t := (List.range 5120).foldl (fun t p => t.nowF (F.LOAM_STATUS.HORIZON_LOST p) 0) t
  let t := [F.CKPT_STATUS.DEFERRED, F.CKPT_STATUS.NOW_PENDING, F.CKPT_STATUS.CKPT_SEQ, F.CKPT_STATUS.STEPS_SINCE].foldl
    (fun t f => t.nowF f 0) t
  (List.range 256).foldl (fun t n =>
    if t.isHole n then t.powerRegion n false
    else if t.getF (F.REGION_PSTAT.SWITCH n) = 0 ∨ !t.sleepEnabled n then t.powerRegion n true else t) t

/-- The pacing ratio under the new PACE_CFG: a reduction in force stays; above the new floor the next descent that reaches it posts
(R27, R385). -/
def commitPace (s t : State) : State :=
  let e := s.getF F.PACE_STATUS.EFFECTIVE
  let top := t.paceTarget
  let floor := t.getF F.PACE_CFG.PACE_FLOOR
  let n := if e = s.paceTarget then top else max (min e top) (min floor top)
  let t := t.setPace n
  if floor < n then { t with power := { t.power with floorPosted := false } } else t

/-- Phase 6: `t` is the state with the plan in effect, `s` the state before (R312). -/
def commitPlan (s t : State) (d : PlanDoc) (image : List Byte) (host : Bool) : State :=
  let new := d.hdr.newConfig
  let t := s.commitPace (s.commitQueues t new)
  let t := if new then s.freshConfig t else t
  let t := { t with shadow := [], plan := { t.plan with image := image } }
  let t := (List.range 8).foldl (fun t i => t.nowF (F.PLAN_DIGEST.DIGEST i) (wordField d.digest i 0 64)) t
  let t := t.nowF F.PLAN_ID.ID d.hdr.planId
  let t := t.nowF F.PLAN_STATUS.HOST_VALUES (b2n host)
  let t := t.nowF F.PLAN_STATUS.CONFIGURED 1
  let t := t.nowF F.PLAN_STATUS.APPLY_COUNT (satAdd 32 (t.getF F.PLAN_STATUS.APPLY_COUNT) 1)
  let t := if new then t.nowF F.PLAN_STATUS.CONFIG_COUNT (satAdd 16 (t.getF F.PLAN_STATUS.CONFIG_COUNT) 1) else t
  let t := [F.APPLY_LAST.REASON, F.APPLY_LAST.SECTION, F.APPLY_LAST.DETAIL, F.TWIN_LOCK_STATUS.LOCKED].foldl (fun t f => t.nowF f 0) t
  let t := (t.showLoaded d).showTx.advanceEpoch.setStale.checkDrain
  let t := t.event 0x0011 srcModule 0 (d.hdr.major + d.hdr.minor * 2 ^ 16)
  (t.complete 0 0 0).refreshPub

/-! ### The command (R284, R308, R318) -/

/-- A load fails in phase 5: the memories are loaded again from the current half, and the plan store line is recorded (R313). -/
def failLoad (s : State) (h off : Nat) (reloadFails : Bool) : State :=
  let s := s.raise {
    code := 0x0107, srcType := srcHeadland, srcId := h, detail := off, unit := some (unitHeadland, h), abandons := false,
    degraded := reloadFails }
  let s := if reloadFails then { s.degrade (Config.degradedRow s.freeCtr).toNat with freeCtr := s.freeCtr + 1 } else s
  s.refuseApply ⟨0x000B, some ⟨whyLoadFailed, headSection, 0⟩⟩

/-- An image that authenticates: phases 3 to 6. A pending substitution runs within an apply that starts no configuration. -/
def applyDoc (s : State) (m : Img) (secs : List Section) (o : ApplyObs) : State :=
  let step : Chk (PlanDoc × Over × State) := do
    let d ← decodePlan m secs (imageDigest m)
    let ov ← s.planShadows d
    let t ← s.validatePlan d ov
    .ok (d, ov, t)
  match step with
  | .error r => s.refuseApply ⟨0x000B, some r⟩
  | .ok (d, ov, t) =>
    match o.loadFail with
    | some (h, off) => s.failLoad h.toNat off.toNat o.reloadFails
    | none =>
      let host := ov.any fun x => x.2.2 == 0
      if d.hdr.newConfig ∨ s.getF F.REPAIR_STATUS.SUBST_PENDING = 0 then s.commitPlan t d m.toList host
      else
        let u := s.substAtOnce (bits13 o.kat)
        if u.getF F.REPAIR_STATUS.DEGRADED = 1 then u.complete 0 0x0007 0
        else match u.validatePlan d ov with
          | .error r => s.refuseApply ⟨0x000B, some r⟩
          | .ok v => u.commitPlan v d m.toList host

/-- APPLY: its turn on queue 0, its lease, its image, and what becomes of it. -/
def applyCommand (s : State) (o : ApplyObs) : State :=
  let s := s.front
  match s.turn with
  | none => s
  | some i =>
    if s.opAt 0 i ≠ 4 ∨ s.mustWait then s
    else if !s.hasLease then s.complete 0 0x0006 0
    else
      let a := s.entryWindow 0 i
      let len := s.entryLength 0 i
      if len = 0 then s.refuseApply ⟨0x000B, some ⟨whyFormat, headSection, 0⟩⟩
      else if 2 ^ 36 < a + len then s.complete 0 0x0003 0
      else if !(parcelsOf a len).all fun p => s.owner p == 2 then s.complete 0 0x0004 0
      else if s.hasBadLine a len || o.storeBad then s.refuseRead 0 0x000E a len
      else
        let m : Img := (s.winGet a len).toArray
        let chosen := (SMap.find? (s.queue 0).via i).bind fun p => (s.port p).plan
        match s.authenticate m chosen with
        | .error r => s.refuseApply r
        | .ok secs => s.applyDoc m secs o

end State

/-- APPLY (R284, R308): what the fetch, the load and a pending substitution met. -/
def execApply (o : ApplyObs) (s : State) : Out := s.answer (s.applyCommand o)

end Sys2Proof.Machine
end

