-- ==== Sys2Proof/Machine/Outbound.lean ====
section
/-! DEFINITION. The commands of the harvest path: gather and emit words, the outbound superblock, releases and resends
(R217, R244, R245, R254-R257, R261, R347). -/

namespace Sys2Proof.Machine

/-- The outbound control word (R217, R255). -/
structure OutCtl where
  sbSeq : Nat
  epoch : Nat
  expect : Nat
  returned : Nat
  limit : Nat
  enabled : Nat
  committed : Nat
  firstHdr : Nat
  abandoned : Nat
  deriving DecidableEq, Repr

def OutCtl.bytes (o : OutCtl) : List Byte :=
  let head := wordsBytes [
      o.sbSeq + o.epoch * 2 ^ 32, o.expect + o.returned * 2 ^ 32, o.limit + o.enabled * 2 ^ 32,
      o.committed + o.firstHdr * 2 ^ 48, o.abandoned] ++ zeroBytes 4
  head ++ leBytes 4 (crc32c head)

/-- A segment's transmission as the lanes take it: its grains, and the checkpoint parcel it is, if any. -/
structure NextSeg where
  grains : List Grain
  drain : Option Nat
  deriving DecidableEq, Repr

namespace State

/-- Number and take the next segment of a channel: one to resend, else the oldest kept one not begun, else a segment of the
drain (R254, R347). One that an uncorrectable line has lost takes its number and sends no grain (R261). -/
def nextSeg (s : State) (c : Nat) : Option NextSeg × State :=
  let x := s.tx c
  match x.resend with
  | r :: rest =>
    let s := s.setTx c { x with resend := rest }
    let g := s.hv.kept.find? fun g => g.chan == c && g.stepS == r.1 && g.hseq == some r.2 && !g.lost
    (some ⟨g.elim [] fun g => segGrains g.header g.payload, none⟩, s)
  | [] =>
    match s.hv.kept.find? fun g => g.chan == c && g.hseq.isNone with
    | some g =>
      let n := s.begunCount g.stepS c
      let begun := { g with hseq := some n }
      let before := s.hv.kept.takeWhile fun y => !(y.chan == c && y.hseq.isNone)
      let after := (s.hv.kept.dropWhile fun y => !(y.chan == c && y.hseq.isNone)).drop 1
      (some ⟨if g.lost then [] else segGrains begun.header begun.payload, none⟩, s.setKept (before ++ begun :: after))
    | none =>
      match s.ckpt.out with
      | d :: rest =>
        if bitOf s.ckptChannels c then
          let n := SMap.get 0 s.ckpt.hseq c
          let g : HvSeg := {
            chan := c, stepS := d.stepS, kind := 4, codec := 0, fmt := 0, bin := 0, layer := d.layer, tile := d.tile, gleaner := 0,
            elements := d.elements, sat := 0, nonfin := 0, payload := d.payload, hseq := some n, committed := true }
          let s := s.modCkpt fun k => { k with out := rest, hseq := SMap.set 0 k.hseq c (n + 1) }
          (some ⟨segGrains g.header g.payload, if d.layer < 10 then some (parcelKey d.layer d.tile d.elements) else none⟩, s)
        else (none, s)
      | [] => (none, s)

/-- Turns that suffice to fill a superblock: each one sends a grain or takes a segment. -/
def fillFuel (s : State) (c : Nat) : Nat := 1000 + (s.tx c).resend.length + s.hv.kept.length + s.ckpt.out.length

/-- Fill `room` grains of a superblock of channel `c`: the grains so far, and where the first header began. -/
def fillSb (s : State) (c : Nat) : Nat → Nat → List Grain → Nat → List Grain × Nat × State
  | 0, _, gs, first => (gs, first, s)
  | fuel + 1, room, gs, first =>
    if room = 0 then (gs, first, s)
    else
      let x := s.tx c
      if x.cur.isEmpty then
        let r := s.nextSeg c
        match r.1 with
        | none => (gs ++ List.replicate room 0, first, r.2)
        | some n =>
          let s := r.2.setTx c { r.2.tx c with cur := n.grains, curDrain := n.drain }
          fillSb s c fuel room gs (if first = 1023 ∧ !n.grains.isEmpty then gs.length else first)
      else
        let now := x.cur.take room
        let left := x.cur.drop room
        let s := s.setTx c { x with cur := left, curDrain := if left.isEmpty then none else x.curDrain }
        let s := match x.curDrain with
          | some k => if left.isEmpty then s.parcelSent k else s
          | none => s
        fillSb s c fuel (room - now.length) (gs ++ now) first

/-- An uncorrectable line in the kept segment that stands `k`-th among the channel's kept segments, be it waiting, sent or to be resent
(R261). -/
def keptLineLost (s : State) (c k off : Nat) : State :=
  match (s.hv.kept.filter fun g => g.chan == c)[k]? with
  | none => s
  | some g =>
    if g.committed then
      let n := (((numberSegs g.stepS c (s.begunCount g.stepS c) s.hv.kept).filter fun g => g.chan == c)[k]?.bind (·.hseq)).getD 0
      let mark (m : Nat × List HvSeg) (y : HvSeg) : Nat × List HvSeg :=
        if y.chan = c then (m.1 + 1, m.2 ++ [if m.1 = k then { y with lost := true } else y]) else (m.1, m.2 ++ [y])
      (s.setKept (s.hv.kept.foldl mark (0, [])).2).event 0x000E srcChannel c g.stepS n
    else
      s.raise {
        code := 0x0107, srcType := srcHeadland, srcId := c / 8, opUnit := opHeadland, detail := off,
        unit := some (unitHeadland, c / 8) }

/-- OUTBOUND_SUPERBLOCK: one block period of channel `c`'s outbound lanes (R217, R254, R255). -/
def outbound (s : State) (c : Nat) (badLine : Option (Nat × Nat)) : State :=
  let s := match badLine with
    | some b => s.keptLineLost c b.1 b.2
    | none => s
  let x := s.tx c
  let s := s.setTx c { x with sbSeq := (x.sbSeq + 1) % 2 ^ 32 }
  let r : List Grain × Nat × State :=
    if s.chanUp c then s.fillSb c (s.fillFuel c) 960 [] 1023 else (List.replicate 960 0, 1023, s)
  let s := r.2.2
  let k := s.chan c
  let o : OutCtl := {
    sbSeq := x.sbSeq, epoch := s.epoch, expect := s.getF (F.CHAN_STATUS.EXPECT_SSEQ c), returned := k.returned,
    limit := s.creditLimit c, enabled := b2n (s.chanEnabled c), committed := s.getF F.HV_STATUS.COMMITTED_S,
    firstHdr := r.2.1, abandoned := s.hv.abandonedS }
  { s with hv := { s.hv with out := SMap.ins s.hv.out c ⟨o.bytes, r.1⟩ } }

end State

/-- GATHER_START (R244). -/
def execGatherStart (h : BitVec 2) (j : BitVec 8) (obs : List GleanMishap) (s : State) : Out :=
  s.answer (s.gather h.toNat j.toNat 0 obs)
/-- GATHER_ADD (R244). -/
def execGatherAdd (h : BitVec 2) (j : BitVec 8) (obs : List GleanMishap) (s : State) : Out :=
  s.answer (s.gather h.toNat j.toNat 1 obs)
/-- GATHER_PASS (R244). -/
def execGatherPass (h : BitVec 2) (j : BitVec 8) (obs : List GleanMishap) (s : State) : Out :=
  s.answer (s.gather h.toNat j.toNat 2 obs)
/-- EMIT (R245). -/
def execEmit (h : BitVec 2) (j : BitVec 8) (obs : List GleanMishap) (s : State) : Out :=
  s.answer (s.emitWord h.toNat j.toNat obs)
/-- OUTBOUND_SUPERBLOCK (R254). -/
def execOutboundSuperblock (c : BitVec 5) (badLine : Option (BitVec 32 × BitVec 36)) (s : State) : Out :=
  s.answer (s.outbound c.toNat (badLine.map fun b => (b.1.toNat, b.2.toNat)))

end Sys2Proof.Machine
end

