-- ==== Sys2Proof/Machine/Scrub.lean ====
section
/-! DEFINITION. The pad and loam scrubbers, and the temperature of a loam layer (R187, R200-R202, R207, R209, R235, R261, R279). -/

namespace Sys2Proof.Machine
namespace State

/-- The word's line is marked unwritten, or its carried bank stale (R187-R189). -/
def padLineLost (s : State) (lid a : Nat) : State :=
  if s.bankCarried lid (a / 2 ^ 20) then s.keepF (F.PAD_STATUS.STALE lid) 1
  else s.modMem fun m => { m with pad := SMap.clearRange m.pad (padKey lid (a / 64 * 64)) 64 }

/-- PAD_SCRUB: the scrubber meets a failing word of a plot's pad in an idle bank step (R187). In a cache-mode bank the line is
fetched again, and counts as corrected (R191). -/
def padScrub (s : State) (lid a : Nat) (uncorrectable : Bool) : State :=
  if s.getF F.LOAM_CFG.PAD_SCRUB_EN = 1 && s.present lid && !s.coreFenced lid && s.bankMode lid (a / 2 ^ 20) != 0 then
    let p := s.siteOf lid
    let args : FaultArgs := {
      code := 0x0101, srcType := srcPlot, srcId := lid, opUnit := opPad, detail := a }
    if uncorrectable && s.bankMode lid (a / 2 ^ 20) == 1 then
      let s := s.incLive (F.PAD_UNCORR.COUNT lid) 1
      if s.inAttempt then (s.coreFault lid args).abandonIfNoBoundary
      else (s.padLineLost lid a).raise { args with unit := some (unitCore, p), abandons := false }
    else ((s.incF (F.PAD_CORR.COUNT lid) 1).correct (unitCore, p) { args with code := 0x0001 })
  else s

/-- A corrected line of a site's loam or of headland loam is counted, and written back (R199). -/
def scrubCorrected (s : State) (line : ScrubLine) (symbol : Bool) : State :=
  let site (p off : Nat) : State :=
    let s := if symbol then s.incF (F.CORR_SYMBOL.COUNT p) 1 else s.incF (F.CORR_BIT.COUNT p) 1
    s.correct (unitShell, p) {
      code := 0x0002, srcType := srcSite, srcId := p, opUnit := opLoam, detail := off }
  let headland (h off : Nat) : State :=
    s.correct (unitHeadland, h) { code := 0x0002, srcType := srcHeadland, srcId := h, opUnit := opHeadland, detail := off }
  match line with
  | .committed p _ off => site p.toNat off.toNat
  | .image p _ a => site p.toNat a.toNat
  | .idle p off => site p.toNat off.toNat
  | .window l => headland (l.toNat / 2 ^ 28) (l.toNat * 64)
  | .store h _ off => headland h.toNat off.toNat
  | .sowing h off => headland h.toNat off.toNat
  | .harvest c _ off => headland (c.toNat / 8) off.toNat
  | .staging h _ off => headland h.toNat off.toNat
  | .residual h _ off => headland h.toNat off.toNat
  | .map _ _ => s
  | .residualMap _ _ => s

/-- An uncorrectable line that holds the horizon: the record, HORIZON_LOST, and the end of a substitution (R200, R209). -/
def scrubHorizon (s : State) (p : Option Nat) (a : FaultArgs) : State :=
  ((s.raise a).horizonLost p).stopSubst.abandonIfNoBoundary

/-- An uncorrectable headland line outside any step's data: its record (R322). -/
def scrubHeadland (s : State) (h off : Nat) (abandons : Bool) : State :=
  (s.raise {
    code := 0x0107, srcType := srcHeadland, srcId := h, opUnit := opHeadland, detail := off, unit := some (unitHeadland, h),
    abandons := abandons }).abandonIfNoBoundary

/-- A copy of committed loam found uncorrectable: the CUR copy, a DIRTY copy during a step, or a copy that holds nothing. -/
def scrubCommitted (s : State) (p copy off : Nat) : State :=
  let s := s.incLive (F.UNCORR.COUNT p) 1
  let a : FaultArgs := {
    code := 0x0103, srcType := srcSite, srcId := p, opUnit := opLoam, detail := off, unit := some (unitShell, p) }
  match s.partOf off 1 with
  | none => s
  | some i =>
    if !s.partCommitted i ∨ (s.lidOfSite p).isNone then s
    else if copy = s.curCopy p off then s.scrubHorizon (some p) a
    else if s.inAttempt && NSet.mem s.mem.dirty (granKey p off) then (s.raise { a with code := 0x0102 }).abandonIfNoBoundary
    else s

/-- A pad image half found uncorrectable (R200): only the current half of a carried bank holds the horizon. -/
def scrubImage (s : State) (p half a : Nat) : State :=
  let s := s.incLive (F.UNCORR.COUNT p) 1
  match s.lidOfSite p with
  | none => s
  | some lid =>
    if s.bankCarried lid (a / 2 ^ 20) && half == s.getF (F.PAD_STATUS.IMAGE_HALF lid) then
      s.scrubHorizon (some p) {
        code := 0x0103, srcType := srcSite, srcId := p, opUnit := opLoam, detail := a, unit := some (unitShell, p) }
    else s

/-- A residual granule's line found uncorrectable (R261). -/
def scrubResidual (s : State) (h copy off : Nat) : State :=
  let a : FaultArgs := {
    code := 0x0107, srcType := srcHeadland, srcId := h, opUnit := opHeadland, detail := off + 2 ^ 36, unit := some (unitHeadland, h) }
  if copy = s.resCurCopy h off then s.scrubHorizon none a
  else if s.inAttempt && NSet.mem s.hv.resDirty (resGran h off) then (s.raise { a with detail := off }).abandonIfNoBoundary
  else s

/-- A checkpoint parcel in headland staging found uncorrectable: before it has been sent, the drain can no longer complete (R348). -/
def scrubStaging (s : State) (h k off : Nat) : State :=
  if (SMap.find? s.ckpt.stage k).isSome then
    let s := s.scrubHeadland h off false
    if (s.parcel k).any (·.sent) then s
    else (s.modParcel k fun x => { x with failed := true }).modCkpt fun c => { c with broken := true }
  else s

/-- What an uncorrectable line does, by where it lies (R200, R207). -/
def scrubUncorrectable (s : State) (line : ScrubLine) : State :=
  match line with
  | .committed p copy off => s.scrubCommitted p.toNat (b2n copy) off.toNat
  | .image p half a => s.scrubImage p.toNat (b2n half) a.toNat
  | .idle p _ => s.incLive (F.UNCORR.COUNT p.toNat) 1
  | .window l =>
    if NSet.mem s.win.badLines l.toNat then s.meetBadLines (64 * l.toNat) 64
    else
      ({ s with win := { s.win with badLines := NSet.insert s.win.badLines l.toNat } }).windowLost (l.toNat / 1024)
  | .store h incoming off => if incoming then s else s.scrubHeadland h.toNat off.toNat false
  | .sowing h off => (s.sowLineLost h.toNat off.toNat).abandonIfNoBoundary
  | .harvest c k off => (s.keptLineLost c.toNat k.toNat off.toNat).abandonIfNoBoundary
  | .staging h parcel off =>
    match parcel with
    | some (layer, tile, elements) => s.scrubStaging h.toNat (parcelKey layer.toNat tile.toNat elements.toNat) off.toNat
    | none => s.scrubHeadland h.toNat off.toNat false
  | .residual h copy off => s.scrubResidual h.toNat (b2n copy) off.toNat
  | .map p w => s.scrubHorizon (some p.toNat) {
      code := 0x0108, srcType := srcSite, srcId := p.toNat, opUnit := opLoam, detail := w.toNat, unit := some (unitShell, p.toNat) }
  | .residualMap h w => s.scrubHorizon none {
      code := 0x0108, srcType := srcHeadland, srcId := h.toNat, opUnit := opHeadland, detail := w.toNat + 2 ^ 17,
      unit := some (unitHeadland, h.toNat) }

/-- The loam of a site that a line names is powered; headland loam is once the rails are up. -/
def scrubReaches (s : State) (line : ScrubLine) : Bool :=
  let site (p : Nat) := decide (p < 5120) && s.getF (F.LOAM_STATUS.POWERED p) == 1
  match line with
  | .committed p _ _ => site p.toNat
  | .image p _ _ => site p.toNat
  | .idle p _ => site p.toNat
  | .map p _ => site p.toNat
  | _ => true

/-- A scrub pass over a site's loam is complete (R212). -/
def scrubPass (s : State) (line : ScrubLine) : State :=
  match line with
  | .committed p _ _ => s.incF (F.SCRUB_PASSES.COUNT p.toNat) 1
  | .image p _ _ => s.incF (F.SCRUB_PASSES.COUNT p.toNat) 1
  | .idle p _ => s.incF (F.SCRUB_PASSES.COUNT p.toNat) 1
  | _ => s

/-- LOAM_SCRUB: the scrubber reads a line (R202), the last of a pass if `last`. -/
def loamScrub (s : State) (line : ScrubLine) (found : ScrubFound) (last : Bool) : State :=
  if s.getF F.LOAM_CFG.SCRUB_EN = 1 && s.isReady && s.scrubReaches line then
    let s := if last then s.scrubPass line else s
    match found with
    | .clean => s
    | .bit => s.scrubCorrected line false
    | .symbol => s.scrubCorrected line true
    | .uncorrectable => s.scrubUncorrectable line
  else s

/-- LOAM_HOT_CHANGE: a layer crosses 85 °C (R201). -/
def loamHot (s : State) (p layer : Nat) (hot : Bool) : State :=
  if s.getF (F.LOAM_STATUS.POWERED p) = 1 then
    let k := 2 * p + layer
    let m := if hot then NSet.insert s.mem.hot k else NSet.erase s.mem.hot k
    let s := s.modMem fun x => { x with hot := m }
    s.keepF (F.LOAM_STATUS.HOT p) (b2n (NSet.mem m (2 * p) || NSet.mem m (2 * p + 1)))
  else s

end State

/-- PAD_SCRUB (R187). -/
def execPadScrub (lid : BitVec 24) (address : BitVec 23) (uncorrectable : Bool) (s : State) : Out :=
  s.answer (s.padScrub lid.toNat address.toNat uncorrectable)
/-- LOAM_SCRUB (R202). -/
def execLoamScrub (line : ScrubLine) (found : ScrubFound) (last : Bool) (s : State) : Out :=
  s.answer (s.loamScrub line found last)
/-- LOAM_HOT_CHANGE (R201): site `p` is one of 5,120. -/
def execLoamHotChange (p : BitVec 13) (layer : BitVec 1) (hot : Bool) (s : State) : Out :=
  s.answerIf (decide (p.toNat < 5120)) (s.loamHot p.toNat layer.toNat hot)

end Sys2Proof.Machine
end

