-- ==== Sys2Proof/Machine/Dusk.lean ====
section
/-! DEFINITION. The dusk test (R331, R335-R339). -/

namespace Sys2Proof.Machine

/-- The history unit of a record of the dusk test. -/
def hitUnit (h : DuskHit) : Nat × Nat := (h.type.toNat, h.id.toNat)

namespace State

/-- A dusk test exercises cores, shells and links of sites that are not DARK, regions in service and gleaners (R336). -/
def duskExercises (s : State) (u : Nat × Nat) : Bool :=
  if u.1 = unitCore ∨ u.1 = unitShell then decide (u.2 < 5120) && s.siteState u.2 != 3
  else if u.1 = unitLink then decide (u.2 < 20480) && s.siteState (u.2 / 4) != 3
  else if u.1 = unitRegion then decide (u.2 < 256) && s.getF (F.REGION_PSTAT.SWITCH u.2) == 1
  else u.1 == unitGleaner && decide (u.2 < 128)

/-- A correction that a pass can find, on the unit its cause names: pad, loam, link, route memory, slot memory and bench words. -/
def duskCorrects (code type : Nat) : Bool :=
  [(1, unitCore), (2, unitShell), (3, unitLink), (4, unitShell), (5, unitCore), (6, unitGleaner)].contains (code, type)

/-- What a pass can find: classifiable causes, and corrections, on units it exercises. -/
def duskHits (s : State) (hits : List DuskHit) : List DuskHit :=
  hits.filter fun h => s.duskExercises (hitUnit h) && (causeClassifies h.code.toNat || duskCorrects h.code.toNat h.type.toNat)

/-- A correction is counted in its unit's counter (R323). -/
def duskCount (s : State) (code id : Nat) : State :=
  let lid (f : Nat → Fld) : State := (s.lidOfSite id).elim s fun l => s.incF (f l) 1
  if code = 1 then lid F.PAD_CORR.COUNT
  else if code = 2 then s.incF (F.CORR_BIT.COUNT id) 1
  else if code = 3 then s.incF (F.CORRECTED.COUNT (id / 4) (id % 4)) 1
  else if code = 4 then s.incF (F.ROUTE_MEM_CORR.COUNT id) 1
  else if code = 5 then lid F.SLOT_MEM_CORR.COUNT
  else s.incF (F.BENCH_CORR.COUNT id) 1

/-- A record of the test, from the unit's site, region or gleaner; a correction is counted and recorded under R330. -/
def duskRaise (s : State) (h : DuskHit) : State :=
  let u := (hitUnit h)
  let site : Nat := if u.1 = unitLink then u.2 / 4 else u.2
  let a : FaultArgs := {
    code := h.code.toNat, srcType := srcSite, srcId := site, detail := h.detail.toNat, unit := some u, abandons := false, dusk := true }
  let a : FaultArgs := if u.1 = unitRegion then { a with srcType := srcRegion, srcId := u.2 }
    else if u.1 = unitGleaner then { a with srcType := srcGleaner, srcId := u.2 }
    else a
  if causeClass a.code = 0 then (s.duskCount a.code u.2).correct u a else s.raise a

/-- The units that reproduced between two states: a classifiable record was raised on them (R331), each once. -/
def reproduced (before after : State) : List (Nat × Nat) :=
  (((after.recs.drop before.recs.length).filter (·.classifiable)).filterMap (·.unit)).eraseDups
/-- A pass's records. -/
def duskPass (s : State) (hits : List DuskHit) : State := hits.foldl duskRaise s

/-- The site of a core is ACTIVE: its classification by the test fences it (R335). -/
def duskFence (s : State) (u : Nat × Nat) : State :=
  if u.1 = unitCore ∧ 3 ≤ (s.summary u).state ∧ s.siteState u.2 = 0 then s.fenceSite u.2 else s

/-- R331, dusk column: the state of a unit that the test exercised. -/
def duskState (st : Nat) (nominal stress full : Bool) : Nat :=
  if st = 4 then 4
  else if nominal then 4
  else if stress then 3
  else if st = 0 then 0
  else if st = 3 then 3
  else if full then 2
  else 1

/-- Classify every exercised unit (R331). -/
def duskClassify (s : State) (nominal stress : List (Nat × Nat)) (full : Bool) : State :=
  let hit := (nominal ++ stress).foldl (fun s u => s.setSummary u { s.summary u with
    state := duskState (s.summary u).state (nominal.contains u) true full }) s
  let others := s.hist.sum.filter fun x =>
    let u := (x.1 / 2 ^ 24, x.1 % 2 ^ 24)
    s.duskExercises u && !((nominal ++ stress).contains u)
  others.foldl (fun s x => s.setSummary (x.1 / 2 ^ 24, x.1 % 2 ^ 24) { x.2 with
    state := duskState x.2.state false false full }) hit

/-- Units that a full test without reproduction clears (R338). -/
def duskCleared (s : State) (hits : List (Nat × Nat)) (full : Bool) : Nat :=
  if full then
    (s.hist.sum.filter fun (x : Nat × Summary) =>
      let u := (x.1 / 2 ^ 24, x.1 % 2 ^ 24)
      x.2.state == 1 && s.duskExercises u && !hits.contains u).length
  else 0

/-- The test begins: pads and site loam are overwritten (R336, R337), and it counts as an attempt for R329. -/
def duskBegin (s : State) : State :=
  let n := s.step.attempt + 1
  let s := { s with step := { s.step with attempt := n } }
  let s := { s with mem := { s.mem with
    pad := [], image := [], loam := [], trans := [], cache := [], garbled := some n, wipes := s.mem.wipes + 1 } }
  let s := (s.undrained.map (·.1)).foldl (fun s k => s.modParcel k fun x => { x with failed := true }) s
  let s := if s.undrained.isEmpty then s else s.modCkpt fun c => { c with broken := true }
  s.keepF F.DUSK_STATUS.RUNNING 1

/-- Reproductions in the nominal pass are counted. -/
def duskNominal (s : State) (units : List (Nat × Nat)) : State :=
  units.foldl (fun s u => s.setSummary u { s.summary u with duskNom := satAdd 4 (s.summary u).duskNom 1 }) s

/-- Stage 5 and the end of the test: classification, fences, STALE and HORIZON_LOST, the entry's completion (R335, R337,
R338). -/
def duskEnd (s : State) (nominal stress : List (Nat × Nat)) (full tempLow aborted : Bool) : State :=
  let cleared := s.duskCleared (nominal ++ stress) full
  let s := s.duskClassify nominal stress full
  let s := s.setStale.horizonLost none
  let s := (nominal ++ stress).foldl duskFence s
  let s := s.keepF F.DUSK_STATUS.RUNNING 0
  let s := s.keepF F.DUSK_STATUS.STAGE 0
  let s := s.keepF F.DUSK_STATUS.LAST_MERIDIAN s.meridian
  let lost := s.dusk.elim false (·.lost)
  let s := { s with dusk := none }
  let result := min nominal.length 0xFFFF + min stress.length 0xFFFF * 2 ^ 16 + min cleared 0xFFFF * 2 ^ 32 +
    b2n tempLow * 2 ^ 48 + b2n aborted * 2 ^ 49
  if lost then s else s.complete 0 0 result

/-- DUSK: stages 1 and 2, and with NOMINAL_ONLY the end; else the coolant wait follows (R336). -/
def duskCommand (s : State) (hits : List DuskHit) : State :=
  let s := s.front
  match s.turn with
  | none => s
  | some i =>
    if s.opAt 0 i ≠ 6 ∨ s.mustWait then s
    else if !s.hasLease then s.complete 0 0x0006 0
    else if s.entryWord 0 i 4 / 2 ≠ 0 then s.complete 0 0x0001 0
    else
      let s := s.duskBegin
      let nominal := s.reproduced (s.duskPass hits)
      let s := (s.duskPass hits).duskNominal nominal
      if s.entryWord 0 i 4 % 2 = 1 then s.duskEnd nominal [] false false false
      else
        let s := s.keepF F.DUSK_STATUS.STAGE 3
        { s with dusk := some { nominal := nominal } }

/-- DUSK_STRESS_PASS: stages 4 and 5; `reached` says whether stage 3 ended with the inlet temperature reached (R336, R337). -/
def duskStress (s : State) (hits : List DuskHit) (reached : Bool) : State :=
  match s.dusk with
  | none => s
  | some d =>
    let only := (s.reproduced (s.duskPass hits)).filter fun u => !d.nominal.contains u
    let s := s.duskPass hits
    let s := only.foldl (fun s u => s.setSummary u { s.summary u with
      duskStress := satAdd 4 (s.summary u).duskStress 1 }) s
    s.duskEnd d.nominal only reached (!reached) false

/-- R339: meridian loss stops the test; only the nominal pass, which is complete, classifies. -/
def duskAbort (s : State) : State :=
  match s.dusk with
  | none => s
  | some d => s.duskEnd d.nominal [] false false true

/-- What a command that may lose the meridian does to a dusk test. -/
def lossAborts (before after : State) : State :=
  if before.locked && !after.locked then after.duskAbort else after

end State

/-- DUSK (R336): `hits` are the records of the nominal pass; those on units that it does not exercise do not occur. -/
def execDusk (hits : List DuskHit) (s : State) : Out := s.answer (s.duskCommand (s.duskHits hits))
/-- DUSK_STRESS_PASS (R336): `hits` are the records of the stress pass. -/
def execDuskStressPass (hits : List DuskHit) (reached : Bool) (s : State) : Out :=
  s.answer (s.duskStress (s.duskHits hits) reached)

end Sys2Proof.Machine
end

