-- ==== Sys2Proof/Machine/Power.lean ====
section
/-! DEFINITION. Rails, feed, regulator phases, shorts, contacts, pacing, wakes and coolant (R367-R391, R439). -/

namespace Sys2Proof.Machine
namespace State

/-! ### Rails and the feed (R371-R374, R386) -/

/-- Rail indexes of RAIL_MON: VFEED, VLOAM, VIO, VOPT, VANA, VMGT. -/
def inTol (s : State) (i : Nat) : Bool := s.getF (F.RAIL_MON.IN_TOL i) == 1
def setTol (s : State) (i : Nat) (on : Bool) : State := s.keepF (F.RAIL_MON.IN_TOL i) (b2n on)

/-- Bring-up is under way: the controllers run, and it has neither stopped nor reported readiness. -/
def booting (s : State) : Bool := s.boot.obs.isSome && decide (s.getF F.BOOT_STATUS.STATE < 2)
/-- Bring-up stops (R407). -/
def bootStop (s : State) (code : Nat) : State :=
  if s.booting then (s.keepF F.BOOT_STATUS.STATE 2).keepF F.BOOT_STATUS.CODE code else s

/-- The controllers drop the feed permit; it is granted again only after a full removal of the rails (R374). -/
def dropPermit (s : State) : State := { s with power := { s.power with permit := false, withdrawn := true } }
/-- The bed must remove every rail (R369). -/
def faultRails (s : State) : State := { s.dropPermit with power := { s.dropPermit.power with faultN := false } }

/-- Every loam content is lost, site and headland: committed state, window, kept segments, ledger area; a step in progress with
them (R373). -/
def loseLoam (s : State) : State :=
  let rings := (0 :: 1 :: s.enabledQueues).filter fun q => s.qEntries q != 0
  let s := rings.foldl (fun s q =>
    let s := s.setQueue q QueueSt.zero
    let s := s.nowF (F.QUEUE_STATE.GIVE q) 0
    let s := s.nowF (F.QUEUE_STATE.DONE q) 0
    if q < 2 then s.nowF (F.MGMT_RING.ENTRIES q) 0 else { s with win := { s.win with off := NSet.insert s.win.off q } }) s
  let s := { s with
    win := { s.win with
      bytes := [], badLines := [], toVoid := [], lost := true, flags := s.win.flags.map fun (x : Nat × BitVec 4) => (x.1, 3) }
    mem := { MemSt.zero with garbled := some (2 ^ 65), wipes := s.mem.wipes + 1 }
    plots := [], fab := FabricSt.zero, hv := HarvestSt.zero, sow := { s.sow with chans := [], digests := [] }
    ckpt := CkptSt.zero, dusk := none
    step := { s.step with phase := .idle, fault := none, staged := [], skip := [] }
    grid := { s.grid with changes := [] }
    regs := s.base.getD s.regs, base := none }
  let s := s.keepF F.DUSK_STATUS.RUNNING 0
  let s := s.keepF F.DUSK_STATUS.STAGE 0
  let s := s.nowF F.CKPT_STATUS.DRAINING 0
  (List.range 256).foldl (fun s n => s.powerRegion n false) (s.setStale.horizonLost none)

/-- The final log write: every record that waits, the mark of an orderly power-down, and the count once acquired; a controller must
live (R372, R373, R398). -/
def finalWrite (s : State) : State :=
  if s.controllerLost 0 && s.controllerLost 1 then s
  else
    let s := s.finalLog
    let s := { s with boot := { s.boot with orderly := true } }
    if s.isReady || s.boot.acquired.isSome then { s with boot := { s.boot with lastCount := s.meridian } } else s

/-- The outcome of a VFEED or VLOAM fault, and of a limit: permit low, PWR_FAULT_N low, RAIL_FAULT, contents lost (R373). -/
def feedFault (s : State) (i : Nat) : State :=
  let s := s.event 0x0062 srcModule 0 i
  let s := (if s.isReady then s.publish else s).finalWrite
  (s.faultRails.loseLoam).bootStop 0x14

/-- Every lane unlocks (R373). -/
def railLanes (s : State) : State := s.loseLanes

/-- VANA out of tolerance: meridian loss, clocks stop. -/
def clocksStop (s : State) : State := s.referenceTimeout

/-- RAIL_FAULT of rails 0 to 4: the rail leaves its tolerance (R373). -/
def railFault (s : State) (i : Nat) : State :=
  if s.inTol i then
    let s := s.setTol i false
    if i < 2 then s.feedFault i
    else if i < 4 then s.railLanes
    else s.clocksStop
  else s

/-- RAIL_OUT_OF_TOLERANCE_LIMIT: VIO or VOPT for 1 s, VANA for 10 ms (R373). -/
def railLimit (s : State) (i : Nat) : State :=
  if s.boot.obs.isSome && decide (2 ≤ i) && decide (i ≤ 4) && NSet.mem s.power.risen i && !s.inTol i && s.power.faultN then
    s.feedFault i
  else s

/-- FEED_WITHDRAWN: the permit falls, and VFEED is lost with it (R386, R373). -/
def feedWithdrawn (s : State) (cause : Nat) : State :=
  if s.power.permit then
    let s := s.event 0x0061 srcModule 0 cause
    if s.inTol 0 then (s.setTol 0 false).feedFault 0 else s.dropPermit.bootStop 0x14
  else s

/-- FEED_TIMEOUT: VFEED is not in tolerance 50 ms after the permit (R371). -/
def feedTimeout (s : State) : State :=
  if s.booting && s.power.permit && !NSet.mem s.power.risen 0 then
    ((s.event 0x0061 srcModule 0 4).faultRails).bootStop 0x11
  else s

/-- A rail that rises within its order and windows (R371): delay from its starting point and ramp, in µs; `clean`: a monotonic
ramp, with every later rail below 0.3 V. -/
def railOrderOk (s : State) (i delay ramp : Nat) (clean : Bool) : Bool :=
  let within (lo hi x : Nat) : Bool := decide (lo ≤ x) && decide (x ≤ hi)
  clean &&
    (if i = 4 then within 0 20000 delay && within 200 10000 ramp
     else if i = 2 ∨ i = 3 then s.inTol 4 && within 10000 100000 delay && within 500 10000 ramp
     else if i = 1 then s.inTol 2 && s.inTol 3 && within 2000 50000 delay && within 1000 10000 ramp
     else s.power.permit && within 0 10000 delay && within 1000 20000 ramp)

/-- BED_WARN: the final log write (R373, R398). -/
def bedWarn (s : State) : State :=
  if s.boot.obs.isSome && s.power.bedWarnN then
    let s := { s with power := { s.power with bedWarnN := false } }
    (s.event 0x0063 srcModule 0 s.meridian).settle.finalWrite
  else s

/-! ### Regulator phases and shorts (R375, R378, R381) -/

/-- The cap for a number of working phases; none below 6 (R375). -/
def capOf (phases : Nat) : Nat := if 7 ≤ phases then 125 else if phases = 6 then 110 else 0
/-- Show the phases a region has left. -/
def showPhases (s : State) (n : Nat) : State :=
  let left := 8 - popCount 8 (SMap.get 0 s.power.phaseOff n)
  (s.keepF (F.REGION_PSTAT.PHASES n) left).keepF (F.REGION_PSTAT.CAP n) (capOf left)

/-- REGULATOR_PHASE_LOSS (R378). -/
def phaseLoss (s : State) (n phase cause : Nat) : State :=
  let off := SMap.get 0 s.power.phaseOff n
  if s.boot.obs.isNone ∨ s.getF (F.REGION_PSTAT.SWITCH n) = 0 ∨ bitOf off phase then s
  else
    let s := { s with power := { s.power with phaseOff := SMap.set 0 s.power.phaseOff n (setBits off phase 1 1) } }
    let s := s.showPhases n
    let left := s.getF (F.REGION_PSTAT.PHASES n)
    let ab := s.inAttempt &&
      (if left = 6 then decide (1760 < s.demandFrom s.step.program n 0)
       else decide (left ≤ 5) && decide (320 * left < s.demandFrom s.step.program n (s.step.granted - 1)))
    let s := s.raise {
      code := 0x0505, srcType := srcRegion, srcId := n, detail := phase + cause * 16 + left * 256,
      unit := some (unitRegion, n), abandons := ab }
    if left ≤ 5 then
      let s := { s with power := { s.power with doomed := NSet.insert s.power.doomed n } }
      if s.inAttempt then s.abandonIfNoBoundary else s.stopSubst.darkenDoomed
    else s.abandonIfNoBoundary

/-- The loam of a region is lost (R381). -/
def loseRegionLoam (s : State) (n : Nat) : State :=
  s.modMem fun m => { m with
    loam := SMap.clearRange m.loam (40 * n * 2 ^ 32) (40 * 2 ^ 32)
    trans := SMap.clearRange m.trans (20 * n * 2 ^ 32) (20 * 2 ^ 32)
    image := SMap.clearRange m.image (40 * n * 2 ^ 23) (40 * 2 ^ 23) }

/-- REGION_SHORT: input current above 250 A for more than 200 ns (R381). -/
def regionShort (s : State) (n peak ns : Nat) : State :=
  if s.getF (F.REGION_PSTAT.SWITCH n) = 1 ∧ 250 < peak ∧ 200 < ns then
    let s := s.raise {
      code := 0x0504, srcType := srcRegion, srcId := n, detail := peak + ns * 2 ^ 16, unit := some (unitRegion, n), fenced := true, degraded := true }
    (((s.stopSubst.goDark n).loseRegionLoam n)).abandonIfNoBoundary
  else s

/-! ### Contacts (R382) -/

/-- CONTACT_SUSPECT: a group's drop against its model, signed, in 0.1 mV; above 12 mV the group is suspect, and its record posts at
most once an hour. -/
def contact (s : State) (k excess amps : Nat) : State :=
  if s.power.permit && s.inTol 0 then
    let bad := decide (120 < excess) && decide (excess < 2 ^ 15)
    let s := s.keepF (F.CONTACT_MON.EXCESS k) excess
    let s := s.keepF (F.CONTACT_MON.SUSPECT k) (b2n bad)
    let due := (SMap.find? s.power.contactAt k).elim true fun t => decide (t + hourMt ≤ s.meridian)
    if bad && due then
      let s := { s with power := { s.power with contactAt := SMap.ins s.power.contactAt k s.meridian } }
      s.raise {
        code := 0x0601, srcType := srcModule, srcId := 0, detail := k + excess * 2 ^ 16 + amps * 2 ^ 32, abandons := false,
        classifiable := false }
    else s
  else s

/-! ### Pacing (R385) -/

/-- Maximum currents of the rails in A (R367). -/
def railMax (i : Nat) : Nat := [12500, 2000, 1200, 350, 40, 15].getD i 0
/-- A 12-bit or 16-bit reading as a signed number. -/
def signedOf (w x : Nat) : Int := if x < 2 ^ (w - 1) then (x : Int) else (x : Int) - 2 ^ w

/-- The readings that decide pacing: hottest junction in 1/16 °C, loam in 1/4 °C, input power, and rail currents. -/
def hottest (s : State) : Int := signedOf 12 (s.getF F.POWER_STATUS.HOTTEST)
def tPace (s : State) : Int := s.getF F.THERM_CFG.T_PACE
/-- The triggers active by their readings alone. -/
def triggersOn (s : State) : Nat :=
  b2n (decide (16 * s.tPace ≤ s.hottest)) + b2n (decide (380 < s.power.loamTemp)) * 2 +
    b2n (decide (s.getF F.POWER_CFG.P_LIMIT < s.getF F.POWER_STATUS.INPUT_W)) * 4 +
    b2n ((List.range 6).any fun i => decide (98 * railMax i < 100 * s.getF (F.RAIL_MON.AMPS i))) * 8
/-- The triggers whose readings are not below their release level. -/
def triggersHeld (s : State) : Nat :=
  b2n (decide (16 * (s.tPace - 5) ≤ s.hottest)) + b2n (decide (360 ≤ s.power.loamTemp)) * 2 +
    b2n (decide (95 * s.getF F.POWER_CFG.P_LIMIT ≤ 100 * s.getF F.POWER_STATUS.INPUT_W)) * 4 +
    b2n ((List.range 6).any fun i => decide (90 * railMax i ≤ 100 * s.getF (F.RAIL_MON.AMPS i))) * 8
/-- Active triggers: a trigger stays active until its reading falls below the release level. -/
def showTriggers (s : State) : State :=
  let was := s.getF F.POWER_STATUS.CAUSE
  s.keepF F.POWER_STATUS.CAUSE ((was &&& s.triggersHeld) ||| s.triggersOn)

/-- PACE_LOWER: 1 ms with a trigger active lowers the effective ratio by one step. -/
def paceLower (s : State) : State :=
  let e := s.getF F.PACE_STATUS.EFFECTIVE
  let floor := s.getF F.PACE_CFG.PACE_FLOOR
  if s.isReady && s.getF F.POWER_STATUS.CAUSE != 0 && decide (floor < e) then
    let s := (s.setPace (e - 1)).incLive F.POWER_STATUS.PACE_STEPS 1
    if e - 1 = floor ∧ !s.power.floorPosted then
      ({ s with power := { s.power with floorPosted := true } }).event 0x0060 srcModule 0 (s.getF F.POWER_STATUS.CAUSE)
    else s
  else s

/-- PACE_RAISE: 10 ms with no trigger active and every reading below its release level raises it by one step. -/
def paceRaise (s : State) : State :=
  let e := s.getF F.PACE_STATUS.EFFECTIVE
  if s.isReady && s.getF F.POWER_STATUS.CAUSE == 0 && s.triggersHeld == 0 && decide (e < s.paceTarget) then
    let s := s.setPace (e + 1)
    if s.getF F.PACE_CFG.PACE_FLOOR < e + 1 then { s with power := { s.power with floorPosted := false } } else s
  else s

/-! ### Wakes (R380) -/

def setWake (s : State) (n : Nat) (w : WakeSt) : State := { s with power := { s.power with wakes := SMap.ins s.power.wakes n w } }

/-- The lowest adjacent region whose scheduled demand passes 80 % of its cap, in 1/16 A. -/
def wakeRefuser (s : State) (n : Nat) : Option Nat :=
  (adjacent n).foldl (fun (r : Option Nat) m =>
    if 10 * s.demandNow m ≤ 128 * s.regionCap m then r else some (r.elim m (min m))) none

/-- WAKE_STAGE: a due stage closes a quarter of the region's core switches, or is refused (R380). -/
def wakeStage (s : State) (n : Nat) : State :=
  match SMap.find? s.power.wakes n with
  | none => s
  | some w =>
    let begun := s.getF (F.REGION_PSTAT.WAKING n) == 1
    if (begun || s.wakeDue n) && decide (w.stages < 4) && (w.stages == 0 || decide (w.lastAt + 1250 ≤ s.meridian)) then
      let s := if begun then s else (s.keepF (F.REGION_PSTAT.WAKING n) 1).keepF (F.REGION_PSTAT.DEFERRED n) 0
      match s.wakeRefuser n with
      | none => s.setWake n { w with stages := w.stages + 1, lastAt := s.meridian, refusedIn := none }
      | some m =>
        if w.refusedIn = some s.step.granted then s
        else (s.setWake n { w with refusedIn := some s.step.granted, refusedBy := m }).incLive (F.REGION_PSTAT.DEFERRED n) 1
    else s

/-- WAKE_COMPLETE: 1,250 mt after stage 4 (R380). -/
def wakeComplete (s : State) (n : Nat) : State :=
  match SMap.find? s.power.wakes n with
  | none => s
  | some w =>
    if w.stages = 4 ∧ w.lastAt + 1250 ≤ s.meridian then
      let s := { s with power := { s.power with wakes := SMap.drop s.power.wakes n } }
      let s := s.keepF (F.REGION_PSTAT.AWAKE n) 1
      let s := s.keepF (F.REGION_PSTAT.WAKING n) 0
      s.incSat (F.REGION_PSTAT.WAKES n) 1
    else s

/-- WAKE_DEFER_EXPIRED: the deferral has reached WAKE_DEFER (R380, R388). -/
def wakeExpired (s : State) (n : Nat) : State :=
  match SMap.find? s.power.wakes n with
  | none => s
  | some w =>
    let d := s.getF (F.REGION_PSTAT.DEFERRED n)
    if s.getF (F.REGION_PSTAT.WAKING n) = 1 ∧ 0 < d ∧ s.getF (F.REGION_CFG.WAKE_DEFER n) ≤ d ∧ !w.expired then
      let s := s.setWake n { w with expired := true }
      (s.raise {
        code := 0x0503, srcType := srcRegion, srcId := n, detail := d + w.refusedBy * 2 ^ 16,
        unit := some (unitRegion, n) }).abandonIfNoBoundary
    else s

/-! ### Coolant (R387, R439, R443) -/

/-- Show the coolant readings. -/
def showCoolant (s : State) (inlet outlet flow : Nat) : State :=
  let s := s.keepF F.COOLANT_STATUS.INLET inlet
  let s := s.keepF F.COOLANT_STATUS.OUTLET outlet
  s.keepF F.COOLANT_STATUS.FLOW flow

/-- COOLANT_RANGE: a reading leaves its range; after the permit the event posts once per excursion (R439). -/
def coolantRange (s : State) (inlet outlet flow : Nat) : State :=
  if s.boot.obs.isSome then
    let s := s.showCoolant inlet outlet flow
    if s.getF F.COOLANT_STATUS.IN_RANGE = 1 then
      let s := s.keepF F.COOLANT_STATUS.IN_RANGE 0
      if s.power.permit then
        let s := if s.isReady then s.incLive F.COOLANT_STATUS.EXCURSIONS 1 else s
        s.event 0x0080 srcModule 0 ((inlet % 2 ^ 11 + inlet / 2 ^ 11 * 0xF800) + flow * 2 ^ 16)
      else s
    else s
  else s

/-- Readings that lie within R438: flow 30 to 45 L/min, inlet 15 to 40 °C. -/
def coolantOk (inlet flow : Nat) : Bool :=
  decide (300 ≤ flow) && decide (flow ≤ 450) && decide (240 ≤ inlet) && decide (inlet ≤ 640)

/-- COOLANT_IN_RANGE: the readings return within their limits. -/
def coolantBack (s : State) (inlet outlet flow : Nat) : State :=
  if s.boot.obs.isSome && coolantOk inlet flow then
    (s.showCoolant inlet outlet flow).keepF F.COOLANT_STATUS.IN_RANGE 1
  else s

end State

/-- RAIL_OUT_OF_TOLERANCE_LIMIT (R373). -/
def execRailOutOfToleranceLimit (i : BitVec 3) (s : State) : Out := s.answer (s.railLimit i.toNat)
/-- BED_WARN (R373). -/
def execBedWarn (s : State) : Out := s.answer s.bedWarn
/-- REGULATOR_PHASE_LOSS (R378): causes 0 over-current, 1 switching, 2 temperature. -/
def execRegulatorPhaseLoss (n : BitVec 8) (phase : BitVec 3) (cause : BitVec 2) (s : State) : Out :=
  s.answerIf (decide (cause.toNat < 3)) (s.phaseLoss n.toNat phase.toNat cause.toNat)
/-- REGION_SHORT (R381). -/
def execRegionShort (n : BitVec 8) (peak ns : BitVec 16) (s : State) : Out := s.answer (s.regionShort n.toNat peak.toNat ns.toNat)
/-- CONTACT_SUSPECT (R382). -/
def execContactSuspect (k : BitVec 6) (excess amps : BitVec 16) (s : State) : Out :=
  s.answer (s.contact k.toNat excess.toNat amps.toNat)
/-- PACE_LOWER (R385). -/
def execPaceLower (s : State) : Out := s.answer s.paceLower
/-- PACE_RAISE (R385). -/
def execPaceRaise (s : State) : Out := s.answer s.paceRaise
/-- FEED_WITHDRAWN (R386): causes 0 junction, 1 loam, 2 coolant. -/
def execFeedWithdrawn (cause : BitVec 2) (s : State) : Out :=
  s.answerIf (decide (cause.toNat < 3)) (s.feedWithdrawn cause.toNat)
/-- FEED_TIMEOUT (R371). -/
def execFeedTimeout (s : State) : Out := s.answer s.feedTimeout
/-- WAKE_STAGE (R380). -/
def execWakeStage (n : BitVec 8) (s : State) : Out := s.answer (s.wakeStage n.toNat)
/-- WAKE_COMPLETE (R380). -/
def execWakeComplete (n : BitVec 8) (s : State) : Out := s.answer (s.wakeComplete n.toNat)
/-- WAKE_DEFER_EXPIRED (R380). -/
def execWakeDeferExpired (n : BitVec 8) (s : State) : Out := s.answer (s.wakeExpired n.toNat)
/-- COOLANT_RANGE (R439). -/
def execCoolantRange (inlet outlet flow : BitVec 12) (s : State) : Out :=
  s.answer (s.coolantRange inlet.toNat outlet.toNat flow.toNat)

end Sys2Proof.Machine
end

