-- ==== Sys2Proof/Machine/Boot.lean ====
section
/-! DEFINITION. Bring-up from bare rails to readiness, the management controllers, and the meridian count in flash (R17, R324, R326,
R371, R374, R392-R409). -/

namespace Sys2Proof

/-- The number of a trained unit in the stores of settings. -/
def TrainUnit.key : TrainUnit → Nat
  | .lane l => l.toNat
  | .watch => 1023
  | .loam p => 2 ^ 13 + p.toNat
  | .headLoam h => 2 ^ 14 + h.toNat
  | .trim n => 2 ^ 15 + n.toNat
  | .crossing i => 2 ^ 16 + i.toNat

namespace Machine
namespace State

/-! ### Power-up (R372, R394) -/

/-- Registers that carrier flash keeps, or manufacture fixes: the identity, the log heads, the dark latches, FORCE_FULL (R324, R381,
R411). -/
def flashField (k : Nat) : Bool :=
  [F.ID_PART.PART.key, F.ID_PART.STEPPING.key, F.GRID_SHAPE.PRODUCT_GRADE.key, F.HIST_STATUS.NORTH_HEAD.key,
   F.HIST_STATUS.SOUTH_HEAD.key, F.HIST_STATUS.NORTH_WRAPPED.key, F.HIST_STATUS.SOUTH_WRAPPED.key, F.BOOT_CFG.FORCE_FULL.key].contains k ||
    (decide ((F.REGION_PSTAT.DARK_LATCH 0).key ≤ k) && decide (k ≤ (F.REGION_PSTAT.DARK_LATCH 255).key) &&
      (k - (F.REGION_PSTAT.DARK_LATCH 0).key) % ((F.REGION_PSTAT.DARK_LATCH 1).key - (F.REGION_PSTAT.DARK_LATCH 0).key) == 0)

/-- What a removal of the rails leaves: carrier flash, and what manufacture fixed (R372, R441). -/
def powerOff (s : State) : State := { State.reset with
  pending := s.pending, freeCtr := s.freeCtr, man := s.man
  regs := s.regs.filter fun x => flashField x.1
  pub := s.regs.filter fun x => flashField x.1
  hist := {
    sum := [], flash := s.hist.flash.map fun (x : Nat × SumCopy) => (x.1, { x.2 with val := { x.2.val with lastAttempt := 0, lastCorr := none } })
    ring := s.hist.ring, wait := [], rate := [], events := s.hist.events }
  obs := { State.reset.obs with keys := s.obs.keys }
  power := { PowerSt.zero with phaseOff := s.power.phaseOff }
  boot := { BootSt.zero with fw := s.boot.fw, saved := s.boot.saved, lastCount := s.boot.lastCount, orderly := s.boot.orderly } }

/-- The rails fall in their order, VFEED first: before it falls the controllers finish the history log (R372). -/
def railsFall (s : State) : State :=
  if s.boot.obs.isSome then (if s.isReady then s.publish else s).finalWrite else s

/-- VMGT enters tolerance: the controllers start, the north one leads, and they read both halves of the history (R324, R392, R394). -/
def powerUp (s : State) (o : BootObs) : State :=
  let s := s.powerOff
  let s := { s with boot := { s.boot with obs := some o, wasOrderly := s.boot.orderly, orderly := false } }
  let s := s.nowF F.ID_PART.PART s.man.grade
  let s := s.nowF F.ID_PART.STEPPING s.man.stepping
  let s := s.nowF F.GRID_SHAPE.PRODUCT_GRADE s.man.grade
  let s := (List.range 4).foldl (fun s i => s.nowF (F.ID_KEY.VALUE i) (wordField s.idKey i 0 64)) s
  let s := s.power.phaseOff.foldl (fun s x => s.showPhases x.1) s
  let s := s.setTol 5 true
  let s := s.nowF F.MGMT_STATUS.NORTH_ALIVE 1
  (s.nowF F.MGMT_STATUS.SOUTH_ALIVE 1).mergeSummaries

/-! ### The phases and their waits (R394, R407, R408) -/

def bootPhase (s : State) : Nat := s.getF F.BOOT_STATUS.PHASE
/-- The fast path was chosen (R396). -/
def fastPath (s : State) : Bool := s.getF F.BOOT_STATUS.PATH == 1

/-- Bring-up stands in a phase: running (code 0) or waiting. -/
def bootAt (s : State) (phase code : Nat) : State :=
  let s := s.keepF F.BOOT_STATUS.PHASE phase
  let s := s.keepF F.BOOT_STATUS.STATE (b2n (code != 0))
  s.keepF F.BOOT_STATUS.CODE code

/-- The lanes that are locked as phase 7 begins: it measures these (R403). -/
def openGate (s : State) : State :=
  let locked := ((List.range 512).filter s.laneLocked) ++ ((List.range 16).filter fun k => !NSet.mem s.twin.down k).map (512 + ·)
  { s with boot := { s.boot with gate := locked.foldl NSet.insert [], fallen := [] } }

/-- A phase begins, or begins again (R393, R409). -/
def beginPhase (s : State) (p : Nat) : State :=
  let s := { s.bootAt p 0 with boot := { s.boot with work := 0, repeats := false } }
  if p = 7 then s.openGate else s

/-- A controller that lives grants the permit; one alone may (R374). -/
def controllersGrant (s : State) : Bool := !(s.controllerLost 0 && s.controllerLost 1)

/-- FEED_PERMIT may rise (R374). -/
def permitOk (s : State) : Bool :=
  ([1, 2, 3, 4, 5].all s.inTol) && decide (6 ≤ s.boot.loamMs) && s.getF F.COOLANT_STATUS.IN_RANGE == 1 && s.controllersGrant &&
    !s.power.withdrawn

/-- What a phase waits for, as R407's code; 0 when it runs. -/
def bootWait (s : State) : Nat :=
  let p := s.bootPhase
  if p = 0 then (if [1, 2, 3, 4].all s.inTol then 0 else 0x01)
  else if p = 1 then 0
  else if !s.locked then 0x02
  else if p = 2 then
    if s.power.permit then (if s.inTol 0 then 0 else 0x01)
    else if s.getF F.COOLANT_STATUS.IN_RANGE = 0 then 0x03 else 0
  else 0

/-- The permit rises when it may, in phase 2; bring-up shows what it waits for. -/
def advanceBoot (s : State) : State :=
  if s.booting then
    let s := if decide (s.bootPhase = 2) && s.locked && !s.power.permit && s.permitOk then
      { s with power := { s.power with permit := true } } else s
    s.bootAt s.bootPhase s.bootWait
  else s

/-! ### Phases 0 to 2 (R394, R397, R398) -/

/-- The version of a bundle: major, minor and security, from bit 0 up. -/
def bundleVersion (b : Bundle) : Nat := (Config.bundleVersion b.bytes).toNat

/-- A copy that verifies against the release key and is not below the rollback counter (R397). -/
def fwOk (s : State) (b : Bundle) : Bool :=
  Ed25519.verify s.man.releaseKey b.bytes b.sig && decide (s.man.rollback ≤ bitsOf (bundleVersion b) 32 16)

/-- A half's copy that its controller can run. -/
def fwCopy (s : State) (half i : Nat) : Option Bundle := ((s.boot.fw[2 * half + i]?).join).filter s.fwOk

/-- The copy that a half tries first, and the other. -/
def fwTry (s : State) (half : Nat) : List (Nat × Bundle) := [0, 1].filterMap fun i => (s.fwCopy half i).map fun b => (i, b)

/-- R397: the copies that the controllers run: the first that verifies of each if they are the same version, else the other of
each, else a mixed pair. -/
def fwRunning (s : State) : Option (Nat × Nat × Bundle) :=
  let n := s.fwTry 0
  let t := s.fwTry 1
  let pair (a b : Nat) : Option (Nat × Nat × Bundle) :=
    match n[a]?, t[b]? with
    | some x, some y => if bundleVersion x.2 = bundleVersion y.2 then some (x.1, y.1, x.2) else none
    | _, _ => none
  (pair 0 0).or ((pair 1 1).or ((pair 0 1).or (pair 1 0)))

/-- Phase 0 ends: the ports are trained, the identity is read. -/
def endIdentity (s : State) (o : BootObs) : State :=
  let s := [0, 1].foldl (fun (s : State) p => if bitOf o.ports.toNat p then s.nowF (F.PORT_STATUS.UP p) 1 else s) s
  if o.identity then s.beginPhase 1 else s.bootStop 0x13

/-- Phase 1 ends: the controllers run a bundle, or share none. -/
def endFirmware (s : State) : State :=
  match s.fwRunning with
  | none => s.bootStop 0x12
  | some fw =>
    let v := bundleVersion fw.2.2
    let s := s.nowF F.FW_VERSION.MAJOR (bitsOf v 0 16)
    let s := s.nowF F.FW_VERSION.MINOR (bitsOf v 16 16)
    let s := s.nowF F.FW_VERSION.SECURITY (bitsOf v 32 16)
    let s := s.nowF F.FW_VERSION.NORTH_COPY fw.1
    (s.nowF F.FW_VERSION.SOUTH_COPY fw.2.1).beginPhase 2

/-- An acquired count below the recorded one makes every meridian time in flash older than any window (R326, R398). -/
def ageFlash (s : State) : State :=
  let aged (x : Summary) : Summary := { x with old := 3, corrOld := true }
  { s with
    hist := { s.hist with
      sum := s.hist.sum.map fun (x : Nat × Summary) => (x.1, aged x.2)
      flash := s.hist.flash.map fun (x : Nat × SumCopy) => (x.1, { x.2 with val := aged x.2.val }) }
    boot := { s.boot with saved := s.boot.saved.map fun x => { x with old := true } } }

/-- The first lock since VMGT rose acquires the count, which is compared with the recorded one (R326, R398). -/
def acquire (s : State) : State :=
  if s.locked && s.boot.acquired.isNone then
    let s := if s.meridian < s.boot.lastCount then s.ageFlash else s
    { s with boot := { s.boot with acquired := some s.meridian } }
  else s

/-- The regions latched dark (R378, R381). -/
def darkLatches (s : State) : NSet :=
  (List.range 256).foldl (fun d n => if s.getF (F.REGION_PSTAT.DARK_LATCH n) = 1 then NSet.insert d n else d) []

/-- The conditions of the fast path that are not met, condition k at bit k − 1 (R396). -/
def fastRefused (s : State) (o : BootObs) : Nat :=
  let m := s.meridian
  let sv := s.boot.saved.filter fun _ => o.saved
  let met : List Bool := [
    sv.isSome,
    sv.any fun x => x.serial == s.man.serial && x.major == s.getF F.FW_VERSION.MAJOR,
    sv.any fun x => !x.old && decide (x.meridian ≤ m) && decide (m - x.meridian < 4860000000000000),
    (s.hist.sum.all fun x => x.2.state != 1) && sv.all fun x =>
      x.events == s.hist.events && x.dark == s.darkLatches && x.phaseOff == s.power.phaseOff,
    s.boot.wasOrderly,
    s.getF F.BOOT_CFG.FORCE_FULL == 0,
    sv.all fun x => !x.again]
  ((List.zipIdx met).map fun x => if x.1 then 0 else 2 ^ x.2).sum

/-- Days of meridian time since the settings were written, saturating. -/
def savedAge (s : State) : Nat :=
  match s.boot.saved with
  | none => 0
  | some x => if x.old ∨ s.meridian < x.meridian then 0xFFFF else min ((s.meridian - x.meridian) / 54000000000000) 0xFFFF

/-- Phase 2 ends: the contacts are measured (R382), and the path is chosen (R394, R396); a bed that refused margining asks for a
full one (R402). -/
def endAnalogue (s : State) (o : BootObs) : State :=
  let s := (List.zipIdx o.contacts).foldl (fun s x => if x.2 < 64 then s.nowF (F.CONTACT_MON.R_UOHM x.2) x.1.toNat else s) s
  let refused := s.fastRefused o
  let fast := refused == 0 && !(s.boot.saved.any fun x => x.noMargin)
  let s := s.nowF F.SAVED_STATUS.VALID (b2n (s.boot.saved.isSome && o.saved))
  let s := s.nowF F.SAVED_STATUS.FAST_REFUSED refused
  let s := s.nowF F.SAVED_STATUS.AGE_DAYS s.savedAge
  (s.keepF F.BOOT_STATUS.PATH (b2n fast)).beginPhase 3

/-! ### Phases 3 to 8 (R399-R405) -/

/-- A shell fails during bring-up: its site is DARK until the next one. -/
def bootShell (s : State) (p : Nat) : State :=
  { s.keepF (F.ROUTER_STATUS.SHELL_FAIL p) 1 with grid := { s.grid with shellFailed := NSet.insert s.grid.shellFailed p } }

/-- A fault found on a site, for the unit history (R395). -/
def bootFault (s : State) (code ut p detail : Nat) : State :=
  s.raise {
    code := code, srcType := srcSite, srcId := p, detail := detail, unit := some (ut, p),
    abandons := false }

/-- A march failure (R401). -/
def marchFail (s : State) (f : MarchFail) : State :=
  match f with
  | .pad p a => s.bootFault 0x0101 unitCore p.toNat a.toNat
  | .slotMem p w => s.bootFault 0x0105 unitCore p.toNat w.toNat
  | .route p w => (s.bootFault 0x0109 unitShell p.toNat w.toNat).bootShell p.toNat
  | .map p w => (s.bootFault 0x0108 unitShell p.toNat w.toNat).bootShell p.toNat
  | .bench g b => s.raise {
      code := 0x0106, srcType := srcGleaner, srcId := g.toNat, detail := b.toNat,
      unit := some (unitGleaner, g.toNat), abandons := false }

/-- A lane fails the gate: recorded, not classifiable, and excluded (R403, R404). -/
def gateFail (s : State) (l symbols : Nat) : State :=
  (s.raise {
    code := 0x0007, srcType := srcLane, srcId := l, detail := symbols,
    unit := (if l < 512 then some (unitLane, l) else none), abandons := false, classifiable := false }).setExcluded l true

/-- The settings that bring-up ends up with: on the full path what it trained, on the fast path the saved ones but for the units
trained in full (R396, R399). -/
def trainUnits (s : State) (o : BootObs) : State :=
  let kept := if s.fastPath then s.boot.saved.elim [] (·.values) else []
  { s with boot := { s.boot with values := o.trained.foldl (fun m x => SMap.ins m x.1.key x.2.toNat) kept } }

/-- Phase 3 ends: lanes lock, but with VIO or VOPT out (R373); a loam port that cannot train is a shell failure (R399). -/
def endTraining (s : State) (o : BootObs) : State :=
  let out := o.lanesOut.map BitVec.toNat
  let s := s.trainUnits o
  let s := if s.inTol 2 && s.inTol 3 then
      (((List.range 512).filter fun l => !out.contains l).foldl gainLane s).gainTwinLanes
        ((List.range 16).filter fun k => !out.contains (512 + k))
    else s
  (o.loamOut.foldl (fun s p => s.bootShell p.toNat) s).beginPhase 4

/-- Phase 4 ends: the plot firmware is where it can be (R400). -/
def endBroadcast (s : State) (o : BootObs) : State :=
  let s := o.silent.foldl (fun s p => s.bootShell p.toNat) s
  (o.cores.foldl (fun s p => s.bootFault 0x020C unitCore p.toNat (Config.katWorkload p.toNat).toNat) s).beginPhase 5

/-- Phase 5 ends (R401). -/
def endMarch (s : State) (o : BootObs) : State := (o.march.foldl marchFail s).beginPhase 6

/-- The remap of weak rows: afresh on the full path, the saved one with the rows that fail now on the fast path (R402). -/
def remapRows (s : State) (o : BootObs) : NSet :=
  o.weakRows.foldl (fun m x => NSet.insert m (x.1.toNat * 2 ^ 32 + x.2.toNat))
    (if s.fastPath then s.boot.saved.elim [] (·.remap) else [])

/-- Phase 6 ends: weak rows are remapped, and REFRESH_MIN found; the fast path screens at the saved one (R201, R402). -/
def endLoam (s : State) (o : BootObs) : State :=
  let m := s.remapRows o
  let s := { s with boot := { s.boot with remap := m } }
  let sites := (m.map fun x => x.1 / 2 ^ 32).eraseDups
  let s := sites.foldl (fun (s : State) p => s.nowF (F.LOAM_STATUS.WEAK_ROWS p) (m.filter fun x => x.1 / 2 ^ 32 == p).length) s
  let kept := if s.fastPath then s.boot.saved.elim 0 (·.refreshMin) else 0
  let s := s.nowF F.MEM_STATUS.REFRESH_MIN (max kept o.refreshMin.toNat)
  let s := s.nowF F.SAVED_STATUS.NO_MARGIN (b2n (!s.fastPath && o.noMargin))
  (o.hopeless.foldl (fun s x => (s.bootFault 0x0102 unitShell x.1.toNat x.2.toNat).bootShell x.1.toNat) s).beginPhase 7

/-- Phase 7 ends: a measured lane that did not stay locked or fails otherwise is excluded; one not locked when the phase began is
untested, and excluded too (R403, R404, R409). -/
def endGate (s : State) (o : BootObs) : State :=
  let kept := s.boot.gate
  let fell := s.boot.fallen
  let untested := (List.range 528).filter fun l => !NSet.mem kept l && !NSet.mem fell l
  let s := (o.laneFails.filter fun x => NSet.mem kept x.1.toNat).foldl (fun s x => s.gateFail x.1.toNat x.2.toNat) s
  let s := fell.toList.foldl (fun s l => s.gateFail l (((o.laneFails.find? fun x => x.1.toNat == l).map fun x => x.2.toNat).getD 0)) s
  let s := untested.foldl (fun s l => s.setExcluded l true) s
  let s := { s with boot := { s.boot with untested := untested.foldl NSet.insert [], gate := [], fallen := [] } }
  let s := s.nowF F.GATE_SUMMARY.TESTED (528 - untested.length)
  ((s.nowF F.GATE_SUMMARY.WORST_BER o.worstBer.toNat).showGate).beginPhase 8

/-- Phase 8: the grid of the product grade; a link that fails the walk three times darkens its receiving shell (R405, R409). -/
def bootGrid (s : State) (o : BootObs) : State :=
  let s := o.walk.foldl (fun s x => (s.bootFault 0x0409 unitShell x.1.toNat x.2.toNat).bootShell x.1.toNat) s
  let s := s.historyOnly
  let narrow := s.man.grade == 1
  let s := s.formGrid narrow 0 [0, 0, 0, 0] none
  s.nowF F.BOOT_STATUS.GRID_SHORT ((List.range 512).filter fun k => (s.rowStart (fun _ => false) narrow k).isNone).length

/-- The settings that a readiness writes, in two copies (R396): bit 7 asks the next bring-up for a full path where a fast one
remapped a new weak row or trained a lane in full. -/
def saveSettings (s : State) (o : BootObs) : State :=
  let lane (x : TrainUnit × BitVec 64) : Bool := match x.1 with
    | .lane _ => true
    | _ => false
  let fresh := s.boot.remap.any fun x => !(s.boot.saved.any fun y => NSet.mem y.remap x.1)
  { s with boot := { s.boot with
      saved := some {
        serial := s.man.serial, major := s.getF F.FW_VERSION.MAJOR, meridian := s.meridian, old := false, values := s.boot.values,
        remap := s.boot.remap, refreshMin := s.getF F.MEM_STATUS.REFRESH_MIN, again := s.fastPath && (fresh || o.trained.any lane),
        noMargin := !s.fastPath && o.noMargin, dark := s.darkLatches, phaseOff := s.power.phaseOff, events := s.hist.events }
      lastCount := s.meridian } }

/-- Readiness (R22, R406). -/
def ready (s : State) (o : BootObs) : State :=
  let s := s.historyOnly.saveSettings o
  let s := if s.fastPath then s else s.nowF F.BOOT_CFG.FORCE_FULL 0
  let s := s.nowF F.LOG_DROPPED.COUNT 0
  let s := s.keepF F.FURROW_INDEX.INDEX (s.meridian / 40 % 2 ^ 48)
  let s := s.keepF F.BOOT_STATUS.PHASE 0xF
  let s := s.keepF F.BOOT_STATUS.STATE 3
  let s := s.keepF F.BOOT_STATUS.CODE 0
  s.refreshPub

/-! ### The run of the phases (R393, R394, R409) -/

/-- A phase's work is done in full: what it finds takes effect, and the next phase begins (R394). -/
def endPhase (s : State) (o : BootObs) : State :=
  match s.bootPhase with
  | 0 => s.endIdentity o
  | 1 => s.endFirmware
  | 2 => if s.power.permit ∧ s.boot.groups = 16 then s.endAnalogue o else s
  | 3 => s.endTraining o
  | 4 => s.endBroadcast o
  | 5 => s.endMarch o
  | 6 => s.endLoam o
  | 7 => s.endGate o
  | _ => (s.bootGrid o).ready o

/-- A millisecond of bring-up: it counts in the phase's duration, waits included; a phase that does not wait does its work, which
starts over where it must be repeated (R393, R394, R408, R409). -/
def bootMs (s : State) : State :=
  match s.boot.obs with
  | none => s
  | some o =>
    if s.booting && s.controllersGrant then
      let p := s.bootPhase
      let s := s.incSat (F.PHASE_MS.MS p) 1
      let s := s.incSat F.BOOT_STATUS.ELAPSED_MS 1
      let s := if s.inTol 1 then { s with boot := { s.boot with loamMs := s.boot.loamMs + 1 } } else s
      let s := s.advanceBoot
      if s.bootWait ≠ 0 then s
      else if s.boot.repeats then s.beginPhase p
      else
        let s := { s with boot := { s.boot with work := s.boot.work + 1 } }
        if ((o.ms[p]?).getD 0).toNat ≤ s.boot.work then s.endPhase o else s
    else s

/-- What interrupts a phase makes it run again, once it can: the meridian lost in phase 3 or later (R409), a controller lost
(R393). -/
def repeatPhase (s : State) : State := if s.booting then { s with boot := { s.boot with repeats := true } } else s

/-- BRING_UP: the rails were removed, and VMGT enters tolerance. -/
def bringUp (s : State) (o : BootObs) : State := (s.railsFall.powerUp o).advanceBoot

/-- REGION_SWITCH_GROUP_CLOSE: the next 16 regions, but those latched dark (R374). -/
def groupClose (s : State) : State :=
  if s.booting && s.power.permit && decide (s.boot.groups < 16) then
    let g := s.boot.groups
    let s := (List.range 16).foldl (fun s i =>
      let n := 16 * g + i
      if s.getF (F.REGION_PSTAT.DARK_LATCH n) = 1 ∨ s.isHole n then s else s.powerRegion n true) s
    ({ s with boot := { s.boot with groups := g + 1 } }).advanceBoot
  else s

/-- RAIL_IN_TOLERANCE: a rail rises under R371, or returns to its tolerance. -/
def railBack (s : State) (i delay ramp : Nat) (clean : Bool) : State :=
  if s.boot.obs.isNone ∨ i = 5 then s
  else if NSet.mem s.power.risen i then
    if s.power.faultN then (s.setTol i true).advanceBoot else s
  else if s.booting then
    if s.railOrderOk i delay ramp clean then
      (({ s with power := { s.power with risen := NSet.insert s.power.risen i } }).setTol i true).advanceBoot
    else ((s.event 0x0061 srcModule 0 3).faultRails).bootStop 0x10
  else s

/-- COOLANT_IN_RANGE, with the bring-up that waits for it. -/
def coolantReturns (s : State) (inlet outlet flow : Nat) : State := (s.coolantBack inlet outlet flow).advanceBoot

/-- A command that may lose the meridian: a dusk test stops (R339), and so does a bring-up phase from 3 on (R409). -/
def lossStops (before after : State) : State :=
  let s := before.lossAborts after
  if before.locked && !after.locked && decide (3 ≤ s.bootPhase) then s.repeatPhase.advanceBoot else s

/-- MERIDIAN_FRAME, in a powered module whose clocks run (R16, R373, R398). -/
def meridianFrame (s : State) (elapsed : Nat) (frame : BitVec 128) : State :=
  if s.inTol 4 then (s.lossStops (s.frame elapsed frame)).acquire.advanceBoot else s

/-- MERIDIAN_COUNT_RECORD: the count goes to carrier flash (R398). -/
def recordCount (s : State) : State :=
  if s.isReady || s.locked then { s with boot := { s.boot with lastCount := s.meridian } } else s

/-! ### The controllers (R393) -/

/-- The controllers take the readings of a heartbeat (R370, R384, R385). -/
def readSensors (s : State) (t : Telemetry) : State :=
  let s := t.temps.foldl (fun (s : State) x => { s with sense := SMap.ins s.sense x.1.toNat (x.2.1.toNat, x.2.2.toNat) }) s
  let s := t.amps.foldl (fun (s : State) x =>
    let n := x.1.toNat
    let s := s.keepF (F.REGION_DEMAND.MEAS_NOW n) x.2.toNat
    s.keepF (F.REGION_DEMAND.MEAS_PEAK n) (max (s.getF (F.REGION_DEMAND.MEAS_PEAK n)) x.2.toNat)) s
  let s := t.rails.foldl (fun (s : State) x =>
    if x.1.toNat < 6 then
      (s.keepF (F.RAIL_MON.MV x.1.toNat) x.2.1.toNat).keepF (F.RAIL_MON.AMPS x.1.toNat) x.2.2.toNat
    else s) s
  let s := s.keepF F.POWER_STATUS.INPUT_W t.inputW.toNat
  let hot := (s.sense.filter fun x => decide (x.1 < 256)).map fun (x : Nat × Nat × Nat) => signedOf 16 (x.2.1 % 2 ^ 16)
  let s := match hot with
    | [] => s
    | h :: hs => s.keepF F.POWER_STATUS.HOTTEST ((hs.foldl max h) % 2 ^ 12).toNat
  let s := { s with power := { s.power with loamTemp := t.loam.toNat } }
  (s.showCoolant t.inlet.toNat t.outlet.toNat t.flow.toNat).showTriggers

/-- One controller's heartbeat of this millisecond, missed or not. -/
def beat (s : State) (half : Nat) (missed : Bool) : State :=
  if s.controllerLost half then s
  else if missed then
    let s := s.incLive F.MGMT_STATUS.HB_MISSES 1
    { s with boot := { s.boot with misses := SMap.modify 0 s.boot.misses half (· + 1) } }
  else { s with boot := { s.boot with misses := SMap.drop s.boot.misses half } }

/-- MGMT_HEARTBEAT: the millisecond of the controllers, and of bring-up (R393, R394). -/
def mgmtHeartbeat (s : State) (missNorth missSouth : Bool) (t : Telemetry) : State :=
  if s.boot.obs.isSome then (((s.beat 0 missNorth).beat 1 missSouth).readSensors t).bootMs else s

/-- CONTROLLER_LOST: ten heartbeats in a row missed; the survivor takes over, and repeats the phase of a bring-up (R393). -/
def controllerGone (s : State) (half : Nat) : State :=
  if s.boot.obs.isSome && !s.controllerLost half && decide (10 ≤ SMap.get 0 s.boot.misses half) then
    let s := if half = 0 then s.nowF F.MGMT_STATUS.NORTH_ALIVE 0 else s.nowF F.MGMT_STATUS.SOUTH_ALIVE 0
    let s := s.nowF F.MGMT_STATUS.ONE_CONTROLLER 1
    let s := if s.getF F.MGMT_STATUS.LEADER = half then s.nowF F.MGMT_STATUS.LEADER (1 - half) else s
    let s := (s.takeOverLog half).repeatPhase
    s.event 0x0070 srcModule 0 half
  else s

/-- RAIL_FAULT; with VANA the clocks stop, with VMGT the controllers go, and the bed removes every rail (R373). -/
def anyRailFault (s : State) (i : Nat) : State :=
  if i = 5 then (if s.boot.obs.isSome then s.powerOff else s) else s.lossStops (s.railFault i)

/-- MERIDIAN_REFERENCE_TIMEOUT (R18, R339, R409). -/
def referenceGone (s : State) : State := s.lossStops s.referenceTimeout
/-- MULTIPLIER_LOCK_LOSS (R18, R339, R409). -/
def multiplierGone (s : State) : State := s.lossStops (s.meridianLoss 1)

end State

/-- BRING_UP (R394). -/
def execBringUp (o : BootObs) (s : State) : Out := s.answerIf (bootObsOk o) (s.bringUp o)
/-- REGION_SWITCH_GROUP_CLOSE (R374). -/
def execRegionSwitchGroupClose (s : State) : Out := s.answer s.groupClose
/-- RAIL_IN_TOLERANCE (R371): rails 0 to 5. -/
def execRailInTolerance (i : BitVec 3) (delayUs rampUs : BitVec 32) (clean : Bool) (s : State) : Out :=
  s.answerIf (decide (i.toNat < 6)) (s.railBack i.toNat delayUs.toNat rampUs.toNat clean)
/-- RAIL_FAULT (R373): rails 0 to 5. -/
def execRailFault (i : BitVec 3) (s : State) : Out :=
  s.answerIf (decide (i.toNat < 6)) (s.anyRailFault i.toNat)
/-- COOLANT_IN_RANGE (R439, R408). -/
def execCoolantInRange (inlet outlet flow : BitVec 12) (s : State) : Out :=
  s.answer (s.coolantReturns inlet.toNat outlet.toNat flow.toNat)
/-- MERIDIAN_FRAME (R16, R398): its epoch edge lies `elapsed` mt on. -/
def execMeridianFrame (elapsed : BitVec 32) (frame : BitVec 128) (s : State) : Out :=
  s.answer (s.meridianFrame elapsed.toNat frame)
/-- MERIDIAN_COUNT_RECORD (R398). -/
def execMeridianCountRecord (s : State) : Out := s.answer s.recordCount
/-- MGMT_HEARTBEAT (R393): each half's heartbeat, missed or not, and the readings that the controllers take with it. -/
def execMgmtHeartbeat (missNorth missSouth : Bool) (t : Telemetry) (s : State) : Out :=
  s.answer (s.mgmtHeartbeat missNorth missSouth t)
/-- CONTROLLER_LOST (R393). -/
def execControllerLost (half : BitVec 1) (s : State) : Out := s.answer (s.controllerGone half.toNat)

/-- MERIDIAN_REFERENCE_TIMEOUT (R18). -/
def execMeridianReferenceTimeout (s : State) : Out := s.answer s.referenceGone
/-- MULTIPLIER_LOCK_LOSS (R18). -/
def execMultiplierLockLoss (s : State) : Out := s.answer s.multiplierGone

end Machine
end Sys2Proof
end

