-- ==== Sys2Proof/Machine/ArrayOps.lean ====
section
/-! DEFINITION. The array's commands (chapter 4): the seven array words, SHADOW_READY and ARRAY_ROW_OUTCOME. -/

namespace Sys2Proof.Machine

/-- WLOAD (R82): 128 weight rows into the shadow plane. -/
def execWload (i : Issue) (o : ArrayWord) (s : State) : Out :=
  s.answerIf (slotOk i.slot && o.ok mWload) (s.arrayWord i mWload o)
/-- SWAP (R83): the active and shadow planes change places. -/
def execSwap (i : Issue) (o : ArrayWord) (s : State) : Out :=
  s.answerIf (slotOk i.slot && o.ok mSwap) (s.arrayWord i mSwap o)
/-- ROWS (R87): y = x·W for each row. -/
def execRows (i : Issue) (o : ArrayWord) (s : State) : Out :=
  s.answerIf (slotOk i.slot && o.ok mRows) (s.arrayWord i mRows o)
/-- TROWS (R88): z = g·Wᵀ for each row. -/
def execTrows (i : Issue) (o : ArrayWord) (s : State) : Out :=
  s.answerIf (slotOk i.slot && o.ok mTrows) (s.arrayWord i mTrows o)
/-- OACC (R89): outer products into the accumulator plane. -/
def execOacc (i : Issue) (o : ArrayWord) (s : State) : Out :=
  s.answerIf (slotOk i.slot && o.ok mOacc) (s.arrayWord i mOacc o)
/-- ODRAIN (R90): the accumulator plane to the pad. -/
def execOdrain (i : Issue) (o : ArrayWord) (s : State) : Out :=
  s.answerIf (slotOk i.slot && o.ok mOdrain) (s.arrayWord i mOdrain o)
/-- EDIAG (R91): element-wise products of row pairs. -/
def execEdiag (i : Issue) (o : ArrayWord) (s : State) : Out :=
  s.answerIf (slotOk i.slot && o.ok mEdiag) (s.arrayWord i mEdiag o)

namespace State

/-- A plot whose core is at work in a running step, in the furrow of array step `p` (R81). -/
def atWork (s : State) (lid p : Nat) : Bool :=
  s.running && decide (0 < s.step.granted) && s.present lid && !s.coreFenced lid &&
    decide ((s.plot lid).now ≤ p) && decide (48 * (s.step.granted - 1) ≤ p) && decide (p < 48 * s.step.granted)

/-- The step of the shadow plane's READY is reached (R82). -/
def shadowReady (s : State) (lid : Nat) : State :=
  let x := s.plot lid
  if x.shadow.state = 1 ∧ s.atWork lid x.readyAt then
    (s.advanceTo lid x.readyAt).modPlot lid fun x => { x with now := max x.now x.readyAt }
  else s

/-- A plot whose rows of array step `p` are still to be taken: its core is at work, or was fenced in that same step (R106). -/
def rowsDue (s : State) (lid p : Nat) : Bool :=
  s.atWork lid p || (s.running && s.coreFenced lid && (s.plot lid).now == p)

/-- A result row lands with what the lanes, the rails and the pad met, after the lower rows of its array step (R92, R100, R103). -/
def arrayRowOutcome (s : State) (lid slot row : Nat) (flips : List (BitVec 8 × BitVec 32)) (disagree : Bool)
    (ms : List Mishap) : State :=
  let p := 48 * (s.step.granted - 1) + slot
  if s.rowsDue lid p then
    let s := s.advance lid p
    let before := (s.plot lid).flight.filter fun fl => decide (fl.due ≤ p) && decide (fl.row < row)
    let s := before.foldl (fun s fl => s.rowDue lid fl [] false) s
    match (s.plot lid).flight.find? fun fl => fl.due == p && fl.row == row with
    | none => s
    | some fl =>
      let s := s.mishaps lid opArray fl.mode fl.slot (fun _ => true) ms
      s.rowDue lid fl (flips.map fun f => (f.1.toNat, f.2)) disagree
  else s

end State

/-- SHADOW_READY (R82): the shadow plane becomes READY 136 steps after its load began. -/
def execShadowReady (lid : BitVec 24) (s : State) : Out := s.answer (s.shadowReady lid.toNat)

/-- ARRAY_ROW_OUTCOME (R100): a result row is written and its check classified. -/
def execArrayRowOutcome (lid : BitVec 24) (slot : BitVec 6) (row : BitVec 24) (flips : List (BitVec 8 × BitVec 32))
    (disagree : Bool) (mis : List Mishap) (s : State) : Out :=
  s.answerIf (slotOk slot) (s.arrayRowOutcome lid.toNat slot.toNat row.toNat flips disagree mis)

end Sys2Proof.Machine
end

