-- ==== Sys2Proof/Machine/Sfu.lean ====
section
/-! DEFINITION. The special-function unit (R142): the special cases, a reference value in fixed point with 320 fractional
bits, and the bound that the unit's own result, a free value, keeps to. -/

namespace Sys2Proof.Machine

/-- Fractional bits of the reference. -/
def sfuBits : Nat := 320
def sfuOne : Int := (2 ^ sfuBits : Nat)

/-- Product and quotient in fixed point. -/
def sfuMul (a b : Int) : Int := a * b / sfuOne
def sfuDiv (a b : Int) : Int := a * sfuOne / b

/-- A finite value in fixed point. -/
def sfuFix (v : Fv) : Int :=
  let d := v.dy
  if 0 ≤ d.e + sfuBits then d.m * (2 ^ (d.e + sfuBits).toNat : Nat) else d.m / (2 ^ (-(d.e + sfuBits)).toNat : Nat)

/-- Σ of `n` terms, each from the one before. -/
def sfuSeries (next : Nat → Int → Int) (weigh : Nat → Int → Int) : Nat → Nat → Int → Int → Int
  | 0, _, _, acc => acc
  | n + 1, k, t, acc => sfuSeries next weigh n (k + 1) (next k t) (acc + weigh k t)

/-- e^r for a small r. -/
def sfuExpSmall (r : Int) : Int := sfuSeries (fun k t => sfuMul t r / ((k : Int) + 1)) (fun _ t => t) 90 0 sfuOne 0
/-- 2·artanh z for |z| ≤ 1/3. -/
def sfuAtanh2 (z : Int) : Int :=
  let z2 := sfuMul z z
  sfuSeries (fun _ t => sfuMul t z2) (fun k t => 2 * t / (2 * (k : Int) + 1)) 110 0 z 0
/-- ln 2. -/
def sfuLn2 : Int := sfuAtanh2 (sfuOne / 3)
/-- arctan (1/n). -/
def sfuAtanInv (n : Nat) : Int :=
  sfuSeries (fun _ t => -(t / ((n * n : Nat) : Int))) (fun k t => t / (2 * (k : Int) + 1)) 150 0 (sfuOne / n) 0
/-- √π. -/
def sfuSqrtPi : Int := (Nat.sqrt (((16 * sfuAtanInv 5 - 4 * sfuAtanInv 239) * sfuOne).toNat) : Nat)

/-- e^x as m · 2^(k − 320), for a fixed-point x. -/
def sfuExp (x : Int) : Dy :=
  let k := (2 * x + sfuLn2) / (2 * sfuLn2)
  ⟨sfuExpSmall (x - k * sfuLn2), k - sfuBits⟩

/-- The exact result, to far below an ulp (R142): 0 exp, 1 log, 2 reciprocal, 3 reciprocal square root, 4 tanh, 5 erf. -/
def sfuReference (f : Nat) (v : Fv) : Dy :=
  match v with
  | .fin s m e =>
    let x := sfuFix v
    let sgn (y : Int) : Int := if s then -y else y
    if f = 0 then sfuExp x
    else if f = 1 then
      let l := Nat.log2 m
      let y := sfuFix (.fin false m (-(l : Int)))
      ⟨((l : Int) + e) * sfuLn2 + sfuAtanh2 (sfuDiv (y - sfuOne) (y + sfuOne)), -sfuBits⟩
    else if f = 2 then ⟨sgn ((2 ^ 200 : Nat) / (m : Int)), -e - 200⟩
    else if f = 3 then
      let m' := if e % 2 = 0 then m else 2 * m
      let e' := if e % 2 = 0 then e else e - 1
      ⟨(Nat.sqrt (2 ^ 400 / m') : Nat), -(e' / 2) - 200⟩
    else if f = 4 then
      let t := (sfuExp (2 * (sgn x)))
      let w := t.atExp (min t.e (-sfuBits)) / (2 ^ (-(sfuBits : Int) - min t.e (-sfuBits)).toNat : Nat)
      ⟨sgn (sfuDiv (w - sfuOne) (w + sfuOne)), -sfuBits⟩
    else
      let y := sgn x
      let y2 := sfuMul y y
      let sum := sfuSeries (fun k t => -(sfuMul t y2 / ((k : Int) + 1))) (fun k t => t / (2 * (k : Int) + 1)) 200 0 y 0
      ⟨sgn (sfuDiv (2 * sum) sfuSqrtPi), -sfuBits⟩
  | _ => Dy.zero

/-- A power of two, or an even power of two, and its exponent. -/
def powerOfTwo (v : Fv) : Option Int :=
  match v with
  | .fin _ m e => if m ≠ 0 ∧ m = 2 ^ Nat.log2 m then some ((Nat.log2 m : Int) + e) else none
  | _ => none

/-- x·10000 compared with a decimal bound of R142. -/
def sfuAtLeast (v : Fv) (tenThousandths : Nat) : Bool := (Dy.mk tenThousandths 0).le (v.dy.abs.mul ⟨10000, 0⟩)

/-- The results that R142 states outright. -/
def sfuSpecial (f : Nat) (v : Fv) : Option Fv :=
  let zero : Fv := .fin false 0 0
  let one : Fv := .fin v.signBit 1 0
  match v with
  | .nan => some .nan
  | .inf s =>
    if f = 0 then some (if s then zero else .inf false)
    else if f = 1 then some (if s then .nan else .inf false)
    else if f = 2 then some (.fin s 0 0)
    else if f = 3 then some (if s then .nan else zero)
    else some one
  | .fin s m _ =>
    if m = 0 then
      (if f = 0 then some (.fin false 1 0)
       else if f = 1 then some (.inf true)
       else if f = 2 then some (.inf s)
       else if f = 3 then some (.inf s)
       else some v)
    else if f = 0 then
      (if (Dy.mk 887228 0).lt (v.dy.mul ⟨10000, 0⟩) then some (.inf false)
       else if v.dy.lt ⟨-200, 0⟩ || (sfuReference 0 v).lt ⟨1, -149⟩ then some zero else none)
    else if f = 1 then
      (if s then some .nan else if powerOfTwo v = some 0 then some zero else none)
    else if f = 2 then
      (match powerOfTwo v with
       | some k => if k < 128 ∧ -149 ≤ -k ∧ -k < 128 then some (.fin s 1 (-k)) else none
       | none => none)
    else if f = 3 then
      (if s then some .nan
       else match powerOfTwo v with
         | some k => if k % 2 = 0 then some (.fin false 1 (-(k / 2))) else none
         | none => none)
    else if f = 4 then (if sfuAtLeast v 90100 then some one else none)
    else if sfuAtLeast v 39200 then some one else none

/-- The unit's own result keeps the bound of R142 against the reference: never zero, within the stated ulps (or, for log
between 0.5 and 2, within 2^−24), infinite only where the bound reaches past the range. -/
def sfuWithin (f : Nat) (v : Fv) (ref : Dy) (cand : Fv) : Bool :=
  let ulps : Int := if f = 2 ∨ f = 3 then 1 else 2
  let lead := leadExp ref.m.natAbs ref.e
  let ulp : Dy := ⟨1, max (lead - 23) (-149)⟩
  let b0 := ulp.mul ⟨ulps, 0⟩
  let near1 := f == 1 && (Dy.mk 1 (-1)).lt v.dy && v.dy.lt ⟨2, 0⟩
  let b1 := if near1 then b0.max ⟨1, -24⟩ else b0
  let bound := b1.add (ref.abs.mul ⟨1, -100⟩)
  match cand with
  | .nan => false
  | .inf s => (s == decide (ref.m < 0)) && (Dy.mk 1 128).le (ref.abs.add bound)
  | .fin _ m _ => decide (m ≠ 0) && (cand.dy.sub ref).abs.le bound

/-- One element of the SFU (R142). -/
def sfuElem (f : Nat) (x : BitVec 32) : BitVec 32 :=
  let v := ofF32 x
  match sfuSpecial f v with
  | some y => toF32 y
  | none =>
    let ref := sfuReference f v
    let c := Config.sfu f x
    if sfuWithin f v ref (ofF32 c) then c else toF32 (.ofDy ref)

end Sys2Proof.Machine
end

