-- ==== Sys2Proof/Machine/VectorEngine.lean ====
section
/-! DEFINITION. The vector engine: sources, tile and mask results, summaries, loads and stores, loose access and the SFU's
issue limits (R134-R146, R170-R172, R190, R191). -/

namespace Sys2Proof.Machine

/-- Latencies of the classes (R137). -/
def dMove : Nat := 6
def dMultiply : Nat := 8
def dReduce : Nat := 10
def dSummary : Nat := 12
def dLoose : Nat := 48
def dSfu : Nat := 16

/-- A field of the EXT bits (R170). -/
def VecWordExt (o : VecWord) (lo w : Nat) : Nat := bitsOf o.ext.toNat lo w

/-- Element-wise results of two tiles. -/
def zipTile (f : BitVec 32 → BitVec 32 → BitVec 32) (a b : Tile) : Tile := List.zipWith f a b

/-- Elements of a tile that a mask leaves unmasked. -/
def unmasked (mask : BitVec 256) (t : Tile) : List (BitVec 32) :=
  ((List.zipIdx t).filter fun e => mask.getLsbD e.2).map (·.1)

/-- Mask bits from a test of each element. -/
def maskOf (f : Nat → Bool) : BitVec 256 :=
  BitVec.ofNat 256 (((List.range 256).filter f).foldl (fun a i => a + 2 ^ i) 0)

/-- Comparisons of ICMP (R171): EQ, NE, LT, LE, GT, GE, signed. -/
def intCond (c : Nat) (a b : BitVec 32) : Bool :=
  match c with
  | 0 => a == b
  | 1 => a != b
  | 2 => decide (a.toInt < b.toInt)
  | 3 => decide (a.toInt ≤ b.toInt)
  | 4 => decide (b.toInt < a.toInt)
  | 5 => decide (b.toInt ≤ a.toInt)
  | _ => false

/-- Comparisons of FCMP (R171): those of ICMP under IEEE 754, and UNORD. -/
def floatCond (c : Nat) (a b : BitVec 32) : Bool :=
  let x := ofF32 a
  let y := ofF32 b
  match c with
  | 0 => fvEq x y
  | 1 => !fvEq x y
  | 2 => fvLt x y
  | 3 => fvLt x y || fvEq x y
  | 4 => fvLt y x
  | 5 => fvLt y x || fvEq x y
  | 6 => x.isNan || y.isNan
  | _ => false

/-- Shift of elements by AMT in one direction; vacated elements are 0 (R171). -/
def shiftTile (dir amt : Nat) (t : Tile) : Tile :=
  (List.range 256).map fun i =>
    let r := i / 16
    let c := i % 16
    let at' (r c : Nat) : BitVec 32 := t.getD (16 * r + c) 0
    match dir with
    | 0 => if c < amt then 0 else at' r (c - amt)
    | 1 => if 16 ≤ c + amt then 0 else at' r (c + amt)
    | 2 => if r < amt then 0 else at' (r - amt) c
    | _ => if 16 ≤ r + amt then 0 else at' (r + amt) c

/-- Unmasked elements of row r or column c. -/
def rowElems (mask : BitVec 256) (t : Tile) (r : Nat) : List (BitVec 32) :=
  ((List.range 16).filter fun c => mask.getLsbD (16 * r + c)).map fun c => t.getD (16 * r + c) 0
def colElems (mask : BitVec 256) (t : Tile) (c : Nat) : List (BitVec 32) :=
  ((List.range 16).filter fun r => mask.getLsbD (16 * r + c)).map fun r => t.getD (16 * r + c) 0
/-- Sixteen results in column 0 or in row 0 of a tile of zeros (R171). -/
def inColumn0 (xs : List (BitVec 32)) : Tile := (List.range 256).map fun i => if i % 16 = 0 then xs.getD (i / 16) 0 else 0
def inRow0 (xs : List (BitVec 32)) : Tile := (List.range 256).map fun i => if i < 16 then xs.getD i 0 else 0

/-- The exact sum rounded once (R141, R171); nothing sums to +0. -/
def sumF32 (xs : List (BitVec 32)) : BitVec 32 := toF32 (sumFv (xs.map ofF32))
/-- Largest and smallest under R139; of nothing, −infinity and +infinity. -/
def maxF32 (xs : List (BitVec 32)) : BitVec 32 := toF32 ((xs.map ofF32).foldl fvMax (.inf true))
def minF32 (xs : List (BitVec 32)) : BitVec 32 := toF32 ((xs.map ofF32).foldl fvMin (.inf false))
def sumInts (xs : List (BitVec 32)) : Int := (xs.map BitVec.toInt).sum

/-- The summaries of tiles (R141), by OP − 0x30: SUM, SUMSQ, MAX, MIN, ABSMAX, COUNT_NONFINITE, COUNT_NONZERO. -/
def summaryF32 (k : Nat) (xs : List (BitVec 32)) : Word :=
  match k with
  | 0 => (sumF32 xs).setWidth 64
  | 1 => (toF32 (sumFv (xs.map fun x => (ofF32 x).mul (ofF32 x)))).setWidth 64
  | 2 => (maxF32 xs).setWidth 64
  | 3 => (minF32 xs).setWidth 64
  | 4 => (toF32 ((xs.map fun x => (ofF32 x).abs).foldl fvMax (.fin false 0 0))).setWidth 64
  | 5 => BitVec.ofNat 64 (xs.filter fun x => !f32finite x).length
  | _ => BitVec.ofNat 64 (xs.filter fun x => !(ofF32 x).isZero).length
def summaryI32 (k : Nat) (xs : List (BitVec 32)) : Word :=
  match k with
  | 0 => BitVec.ofInt 64 (sumInts xs)
  | 1 =>
    let n := (xs.map fun x => x.toInt.natAbs * x.toInt.natAbs).sum
    if n < 2 ^ 63 then BitVec.ofNat 64 n else Config.sumSquares n
  | 2 => BitVec.ofInt 64 ((xs.map BitVec.toInt).foldl max (-2147483648))
  | 3 => BitVec.ofInt 64 ((xs.map BitVec.toInt).foldl min 2147483647)
  | 4 => BitVec.ofNat 64 ((xs.map fun x => x.toInt.natAbs).foldl max 0)
  | _ => BitVec.ofNat 64 (xs.filter fun x => x ≠ 0).length

namespace State

/-- The elements of a vector word that its checkers watch: those its mask leaves live, and all of VSEL, whose mask only selects
(R145, R171). -/
def checkedMask (op : Nat) (o : VecWord) (s : State) (lid : Nat) : BitVec 256 :=
  if op = 0x06 then fullMask else s.maskAt lid o.msk.toNat
def vecLive (op : Nat) (o : VecWord) (lid : Nat) (s : State) (e : Nat) : Bool := (checkedMask op o s lid).getLsbD e

/-- The issue limit of the tile pipes (R136): one operation in four steps on an M-plot, one in each step on a V-plot. -/
def pipeTaken (s : State) (lid p : Nat) : Bool := decide (p < (s.plot lid).pipeFree)
def takePipe (s : State) (lid p : Nat) : State :=
  (s.modPlot lid fun x => { x with pipeFree := p + (if s.isV lid then 1 else 4) }).incF (F.TILE_OPS.COUNT lid) 1 |>.perf lid 0x05 1

/-- The residue and parity-prediction mismatches of a word, in unmasked elements (R145, R146). -/
def residues (s : State) (lid op slot : Nat) (mask : BitVec 256) (ms : List Mishap) : State :=
  ms.foldl (fun s m => match m with
    | .residue e _ =>
      if mask.getLsbD e.toNat then
        (({ s with step := { s.step with vecFails := s.step.vecFails + 1 } }).incLive (F.VEC_CHK_FAIL.COUNT lid) 1).checkFail lid {
          code := 0x0202, srcType := srcPlot, srcId := lid, opUnit := opVector, op := op, slot := slot,
          detail := e.toNat + op * 256 }
      else s
    | _ => s) s

/-- The result bits a mismatch changed. -/
def flipped (ms : List Mishap) (t : Tile) : Tile :=
  ms.foldl (fun t m => match m with
    | .residue e f => t.set e.toNat (t.getD e.toNat 0 ^^^ f)
    | _ => t) t

/-- A tile operation takes its pipe and meets its checks (R136, R145, R146). -/
def vecBegun (op slot : Nat) (o : VecWord) (ms : List Mishap) (s : State) (lid p : Nat) : State :=
  (s.takePipe lid p).residues lid op slot (checkedMask op o s lid) ms

/-- A tile operation is in flight until what it writes has landed (R158, log entry 63); `t` is the state before its body. -/
def inFlight (t u : State) (lid p : Nat) : State :=
  let x := t.plot lid
  let y := u.plot lid
  let least := if y.stores.length ≠ x.stores.length then p + dLoose else if y.loads.length ≠ x.loads.length then p + 10 else p + 4
  let due := ((y.land.drop x.land.length).map (·.1)).foldl max least
  u.modPlot lid fun z => { z with busyUntil := max z.busyUntil due }

/-- A tile operation (R136, R137): its pipe, its checks, then `body` with the mask it names. -/
def vecOp (op slot : Nat) (o : VecWord) (ms : List Mishap) (body : State → Nat → Nat → BitVec 256 → State)
    (s : State) (lid p : Nat) : State :=
  if s.pipeTaken lid p then s.slotConflict lid opVector op slot ruleIssue
  else
    let t := vecBegun op slot o ms s lid p
    if t.coreFenced lid then t else inFlight t (body t lid p (s.maskAt lid o.msk.toNat)) lid p

/-- A vector slot word (R170). -/
def vecWord (s : State) (i : Issue) (op : Nat) (o : VecWord) (body : State → Nat → Nat → BitVec 256 → State) : State :=
  s.issueWord i opVector op o.bits (vecLive op o i.lid.toNat) (vecOp op i.slot.toNat o i.mis body)

/-- Write a tile result after `d` steps. -/
def tileResult (s : State) (lid p d : Nat) (o : VecWord) (mask : BitVec 256) (ms : List Mishap) (t : Tile) : State :=
  s.landLater lid (p + d) (.tile o.td.toNat (flipped ms t) mask o.mz)
/-- Write a mask result after `d` steps; the destination is TD[2:0] (R170). -/
def maskResult (s : State) (lid p d : Nat) (o : VecWord) (mask m : BitVec 256) : State :=
  s.landLater lid (p + d) (.mask (o.td.toNat % 8) m mask o.mz)
/-- Write a summary into general register TD (R141). -/
def summaryResult (s : State) (lid p : Nat) (o : VecWord) (v : Word) : State :=
  s.landLater lid (p + dSummary) (.greg o.td.toNat v)

/-- An element-wise tile operation of one, two or three sources. -/
def tile1 (d : Nat) (f : Tile → Tile) (o : VecWord) (ms : List Mishap) (s : State) (lid p : Nat) (m : BitVec 256) : State :=
  s.tileResult lid p d o m ms (f (s.tileAt lid o.ta.toNat))
def tile2 (d : Nat) (f : BitVec 32 → BitVec 32 → BitVec 32) (o : VecWord) (ms : List Mishap) (s : State) (lid p : Nat)
    (m : BitVec 256) : State :=
  s.tileResult lid p d o m ms (zipTile f (s.tileAt lid o.ta.toNat) (s.tileAt lid o.tb.toNat))
/-- An INT32 operation that saturates and counts its saturated unmasked elements (R139, R144). -/
def satTile (d : Nat) (f : Nat → Int) (o : VecWord) (ms : List Mishap) (s : State) (lid p : Nat) (m : BitVec 256) : State :=
  let rs := (List.range 256).map fun i => satI32 (f i)
  let n := ((List.zipIdx rs).filter fun r => r.1.2 && m.getLsbD r.2).length
  let s := if n = 0 then s else s.incF (F.VEC_SAT_COUNT.COUNT lid) n
  s.tileResult lid p d o m ms (rs.map (·.1))
/-- Element `i` of a source as an integer. -/
def intElem (t : Tile) (i : Nat) : Int := (t.getD i 0).toInt
/-- An in-register conversion with the counts of R121, over unmasked elements. -/
def convTile (f : BitVec 32 → Conv) (o : VecWord) (ms : List Mishap) (s : State) (lid p : Nat) (m : BitVec 256) : State :=
  let cs := (s.tileAt lid o.ta.toNat).map f
  let s := s.countConv lid (((List.zipIdx cs).filter fun c => m.getLsbD c.2).map (·.1))
  s.tileResult lid p dMove o m ms (cs.map fun c => BitVec.ofNat 32 c.bits)
/-- A comparison into a mask. -/
def compareTiles (f : BitVec 32 → BitVec 32 → Bool) (o : VecWord) (s : State) (lid p : Nat) (m : BitVec 256) : State :=
  let a := s.tileAt lid o.ta.toNat
  let b := s.tileAt lid o.tb.toNat
  s.maskResult lid p dMove o m (maskOf fun i => f (a.getD i 0) (b.getD i 0))
/-- Mask logic over the mask registers TA[2:0] and TB[2:0] (R170). -/
def maskLogic (f : BitVec 256 → BitVec 256 → BitVec 256) (o : VecWord) (s : State) (lid p : Nat) (m : BitVec 256) : State :=
  s.maskResult lid p dMove o m (f (s.maskAt lid (o.ta.toNat % 8)) (s.maskAt lid (o.tb.toNat % 8)))
/-- A reduction of rows or columns into a tile; saturated sums count (R139, R144, R171). -/
def reduceTile (f : Tile → BitVec 256 → Tile) (o : VecWord) (ms : List Mishap) (s : State) (lid p : Nat) (m : BitVec 256) : State :=
  s.tileResult lid p dReduce o m ms (f (s.tileAt lid o.ta.toNat) m)
/-- An INT32 reduction, with its saturations. -/
def reduceInts (byRow : Bool) (o : VecWord) (ms : List Mishap) (s : State) (lid p : Nat) (m : BitVec 256) : State :=
  let t := s.tileAt lid o.ta.toNat
  let rs := (List.range 16).map fun k => satI32 (sumInts (if byRow then rowElems m t k else colElems m t k))
  let n := ((List.zipIdx rs).filter fun r => r.1.2 && m.getLsbD (if byRow then 16 * r.2 else r.2)).length
  let s := if n = 0 then s else s.incF (F.VEC_SAT_COUNT.COUNT lid) n
  s.tileResult lid p dReduce o m ms (if byRow then inColumn0 (rs.map (·.1)) else inRow0 (rs.map (·.1)))
/-- A tile summary (R141): TYPE 1 reads INT32; COUNT_NONFINITE refuses it. -/
def summaryOp (k slot : Nat) (o : VecWord) (s : State) (lid p : Nat) (m : BitVec 256) : State :=
  let xs := unmasked m (s.tileAt lid o.ta.toNat)
  if VecWordExt o 0 1 = 0 then s.summaryResult lid p o (summaryF32 k xs)
  else if k = 5 then s.slotConflict lid opVector (0x30 + k) slot ruleFormat
  else s.summaryResult lid p o (summaryI32 k xs)
/-- A summary of mask TA over the unmasked elements. -/
def maskSummary (f : Nat → Nat → Word) (o : VecWord) (s : State) (lid p : Nat) (m : BitVec 256) : State :=
  let a := s.maskAt lid (o.ta.toNat % 8)
  let n := ((List.range 256).filter fun i => m.getLsbD i).length
  let k := ((List.range 256).filter fun i => m.getLsbD i && a.getLsbD i).length
  s.summaryResult lid p o (f k n)

/-! ### Loads and stores (R140, R172) -/

/-- Address and pitch of a tile load or store, and the rule they break, if any. -/
def tileAddress (s : State) (lid : Nat) (o : VecWord) : Nat × Nat × Option Nat :=
  let g := (s.gregAt lid o.tb.toNat).toNat
  let fmt := VecWordExt o 20 4
  (g % 2 ^ 32 + 64 * VecWordExt o 0 12, g / 2 ^ 32,
    if fmt = 15 then some ruleFormat
    else if g % 16 ≠ 0 ∨ g / 2 ^ 32 % 16 ≠ 0 then some ruleAlign else none)

/-- VLD (R140, R172, R186). -/
def tileLoad (slot : Nat) (o : VecWord) (s : State) (lid p : Nat) (m : BitVec 256) : State :=
  let a := s.tileAddress lid o
  match a.2.2 with
  | some r => s.slotConflict lid opVector 0x3A slot r
  | none =>
    let l : LoadRun := {
      p0 := p, slot := slot, td := o.td.toNat, fmt := VecWordExt o 20 4, blk := VecWordExt o 18 2, addr := a.1,
      pitch := a.2.1, mask := m, mz := o.mz, got := [] }
    s.modPlot lid fun x => { x with loads := x.loads ++ [l] }

/-- VST (R140, R172, R186): four rows use the port in each of steps P + 1 to P + 4 and are written six steps later. -/
def tileStore (slot : Nat) (o : VecWord) (s : State) (lid p : Nat) (m : BitVec 256) : State :=
  let a := s.tileAddress lid o
  match a.2.2 with
  | some r => s.slotConflict lid opVector 0x3B slot r
  | none =>
    let t := s.tileAt lid o.ta.toNat
    let fmt := VecWordExt o 20 4
    let blk := VecWordExt o 18 2
    (List.range 4).foldl (fun s k =>
      let s := s.usePort lid (p + 1 + k) ⟨tileSpans fmt blk a.1 a.2.1 (4 * k), true, opVector, 0x3B, slot⟩
      s.landLater lid (p + 7 + k) (.store fmt (VecWordExt o 17 1 == 1) blk a.1 a.2.1 (4 * k) slot t m)) s

/-! ### Loose access (R143, R190, R191) -/

/-- The bank a loose address names, and the logical offset of `n` bytes at it; none when the address leaves the
window or the bank is not in cache mode (R190). `base` is the address whose bits name the bank. -/
def looseOffset (s : State) (lid base a n : Nat) : Option (Nat × Nat) :=
  let b := bitsOf base 29 3
  let off := a - b * 2 ^ 29
  if 2 ^ 32 ≤ base ∨ s.bankMode lid b ≠ 2 ∨ a < b * 2 ^ 29 ∨ 2 ^ 29 < off + n ∨ s.getF (F.CACHE_WIN.SIZE lid b) * 65536 < off + n
  then none else some (b, s.getF (F.CACHE_WIN.BASE lid b) + off)

/-- One line of a cache set is used (R191): a hit moves it to the front; a miss of a load fills it, least recently used
out, and counts. -/
def cacheUse (s : State) (lid b off : Nat) (fill : Bool) : State :=
  let line := off / 64
  let base := s.getF (F.CACHE_WIN.BASE lid b)
  let key := (8 * lid + b) * 4096 + (line - base / 64) % 4096
  let ls := SMap.get [] s.mem.cache key
  let put (xs : List Nat) : State := s.modMem fun m => { m with cache := SMap.set [] m.cache key xs }
  if ls.contains line then put (line :: ls.filter (· ≠ line))
  else if fill then (put ((line :: ls).take 4)).incF (F.CACHE_MISSES.COUNT lid) 1 |>.perf lid 0x0B 1
  else s

/-- Note a loose access that completes by the bound (R143, R159). -/
def loosePending (s : State) (lid p slot unit op a : Nat) : State :=
  (s.perf lid 0x0A 1).modPlot lid fun x => { x with
    loose := max x.loose (min 48 (Config.looseSteps lid p a)), loosePend := x.loosePend ++ [(p, slot, unit, op, a)] }

/-- Read bytes loosely: the lines of the range are used, the bytes are loam's (R191). -/
def looseRead (s : State) (lid p b off n : Nat) : List Byte × State :=
  let s' := (List.range ((off + n - 1) / 64 - off / 64 + 1)).foldl (fun s k => s.cacheUse lid b (64 * (off / 64 + k)) true) s
  (s.loamRead lid p off n, s')

/-- Store bytes loosely: written through to loam by the bound; lines that are present are updated (R191). -/
def looseWrite (s : State) (lid p b : Nat) (ws : List (Nat × List Byte × List Byte)) : State :=
  let s := ws.foldl (fun s w =>
    (List.range ((w.1 + w.2.1.length - 1) / 64 - w.1 / 64 + 1)).foldl (fun s k => s.cacheUse lid b (64 * (w.1 / 64 + k)) false) s) s
  s.modPlot lid fun x => { x with stores := x.stores ++ [⟨p + dLoose, ws⟩] }

/-- The windows' offsets of the spans of a loose tile access (R190): none if any leaves the window. -/
def looseSpans (s : State) (lid base : Nat) (spans : List (Nat × Nat)) : Option (Nat × List (Nat × Nat)) :=
  spans.foldl (fun acc q => match acc, s.looseOffset lid base q.1 q.2 with
    | some (_, xs), some (b, off) => some (b, xs ++ [(off, q.2)])
    | _, _ => none) (some (0, []))

/-- The base address a loose tile access takes its bank bits from (R190). -/
def looseBase (s : State) (lid : Nat) (o : VecWord) : Nat := (s.gregAt lid o.tb.toNat).toNat % 2 ^ 32

/-- VLDL (R143, R190, R191): the result lands at exactly P + 48. -/
def looseTileLoad (slot : Nat) (o : VecWord) (s : State) (lid p : Nat) (m : BitVec 256) : State :=
  let a := s.tileAddress lid o
  let fmt := VecWordExt o 20 4
  let spans := ([0, 4, 8, 12].map fun r => tileSpans fmt (VecWordExt o 18 2) a.1 a.2.1 r).flatten
  match a.2.2, s.looseSpans lid (s.looseBase lid o) spans with
  | some r, _ => s.slotConflict lid opVector 0x3C slot r
  | none, none => s.slotConflict lid opVector 0x3C slot ruleRange
  | none, some (b, offs) =>
    let r := offs.foldl (fun (r : List (List Byte) × State) q =>
      let g := r.2.looseRead lid p b q.1 q.2
      (r.1 ++ [g.1], g.2)) ([], s)
    let cs := loadedWords fmt r.1
    let s := (r.2.loosePending lid p slot opVector 0x3C a.1).countConv lid
      (((List.zipIdx cs).filter fun c => m.getLsbD c.2).map (·.1))
    s.landLater lid (p + dLoose) (.tile o.td.toNat (cs.map fun c => BitVec.ofNat 32 c.bits) m o.mz)

/-- The bytes of one row of a loose tile store, with the bits that its unmasked elements write (R144). -/
def looseTileBytes (fmt : Nat) (rs : List Round) (row : Nat) (t : Tile) (m : BitVec 256) (offs : List (Nat × Nat)) :
    List (Nat × List Byte × List Byte) × List Conv :=
  let toInt := fmt == 11 || fmt == 12 || fmt == 13
  let val (i : Nat) : Fv := if toInt then .ofInt (t.getD i 0).toInt else ofF32 (t.getD i 0)
  if isMx fmt then
    let w := mxBits fmt
    let is := (List.range 32).map (· + 16 * row)
    let e := mxEncode fmt rs (is.map val)
    let pairs := (List.zip is e.2).filter fun q => m.getLsbD q.1
    match offs with
    | [x, y] =>
      if pairs.isEmpty then ([], [])
      else
        let new := pairs.foldl (fun z q => setBits z (w * (q.1 - 16 * row)) w q.2.bits) 0
        let on := pairs.foldl (fun z q => setBits z (w * (q.1 - 16 * row)) w (2 ^ w - 1)) 0
        ([(x.1, leBytes x.2 new, leBytes x.2 on), (y.1, [BitVec.ofNat 8 e.1], [255])], pairs.map (·.2))
    | _ => ([], [])
  else
    match offs with
    | x :: _ =>
      let is := (List.range 16).map (· + 16 * row)
      if fmt = 14 then
        let e := b16Encode rs (is.map val)
        let pairs := (List.zip is e.2).filter fun q => m.getLsbD q.1
        if pairs.isEmpty then ([], [])
        else
          let on := pairs.foldl (fun z q => setBits z (7 * (q.1 - 16 * row) + 8) 7 127) (255 + 255 * 2 ^ 120)
          ([(x.1, leBytes x.2 e.1, leBytes x.2 on)], pairs.map (·.2))
      else
        let w := elemBits fmt
        let pairs := (List.zipWith (fun i r => (i, convElem fmt r (val i))) is rs).filter fun q => m.getLsbD q.1
        if pairs.isEmpty then ([], [])
        else
          let new := pairs.foldl (fun z q => setBits z (w * (q.1 - 16 * row)) w q.2.bits) 0
          let on := pairs.foldl (fun z q => setBits z (w * (q.1 - 16 * row)) w (2 ^ w - 1)) 0
          ([(x.1, leBytes x.2 new, leBytes x.2 on)], pairs.map (·.2))
    | [] => ([], [])

/-- VSTL (R143, R190, R191): converted at its issue, in loam by P + 48. -/
def looseTileStore (slot : Nat) (o : VecWord) (s : State) (lid p : Nat) (m : BitVec 256) : State :=
  let a := s.tileAddress lid o
  let fmt := VecWordExt o 20 4
  let spans := ([0, 4, 8, 12].map fun r => tileSpans fmt (VecWordExt o 18 2) a.1 a.2.1 r).flatten
  match a.2.2, s.looseSpans lid (s.looseBase lid o) spans with
  | some r, _ => s.slotConflict lid opVector 0x3D slot r
  | none, none => s.slotConflict lid opVector 0x3D slot ruleRange
  | none, some (b, offs) =>
    if offs.any fun q => s.loamWriteBad q.1 q.2 then s.slotConflict lid opVector 0x3D slot ruleRange
    else
      let t := s.tileAt lid o.ta.toNat
      let sr := VecWordExt o 17 1 == 1 && !(fmt == 0 || fmt == 13)
      let d := s.draw lid (if sr then 256 else 0)
      let rs : List Round := if sr then d.1.map Round.sr else List.replicate 256 .rne
      let per := if isMx fmt then 2 else 1
      let rows := if isMx fmt then (List.range 8).map (2 * ·) else List.range 16
      let parts := (List.zipIdx rows).map fun r =>
        looseTileBytes fmt ((rs.drop (16 * r.1)).take (16 * per)) r.1 t m ((offs.drop (per * r.2)).take per)
      let s := d.2.countConv lid (parts.map (·.2)).flatten
      (s.looseWrite lid p b (parts.map (·.1)).flatten).loosePending lid p slot opVector 0x3D a.1

/-- An SFU word takes its unit and meets its checks (R136, R142, R146). -/
def sfuBegun (slot : Nat) (o : VecWord) (ms : List Mishap) (s : State) (lid p : Nat) : State :=
  let t := (s.modPlot lid fun x => { x with sfuFree := p + 4 }).incF (F.SFU_OPS.COUNT lid) 1 |>.perf lid 0x06 1
  t.residues lid 0x3E slot (s.maskAt lid o.msk.toNat) ms

/-- An SFU word (R136, R142): V-plots only, one in four steps. -/
def sfuOp (slot : Nat) (o : VecWord) (ms : List Mishap) (s : State) (lid p : Nat) : State :=
  if p < (s.plot lid).sfuFree then s.slotConflict lid opVector 0x3E slot ruleIssue
  else
    let t := sfuBegun slot o ms s lid p
    if t.coreFenced lid then t
    else
      t.tileResult lid p dSfu o (s.maskAt lid o.msk.toNat) ms ((t.tileAt lid o.ta.toNat).map (sfuElem (VecWordExt o 0 3)))

end State
end Sys2Proof.Machine
end

