-- ==== Sys2Proof/Machine/ControlOps.lean ====
section
/-! DEFINITION. The control words (R147, R148, R151, R154, R176, R177), the loose-access overrun (R143), the vote result
(R75, R76) and the end of a furrow's slots with its fork latch (R149, R153). -/

namespace Sys2Proof.Machine

/-- The comparisons of CMP and CMPI (R177): EQ, NE, LT, LE, LTU, LEU. -/
def wordCond (c : Nat) (a b : Word) : Bool :=
  match c with
  | 0 => a == b
  | 1 => a != b
  | 2 => decide (a.toInt < b.toInt)
  | 3 => decide (a.toInt ≤ b.toInt)
  | 4 => decide (a.toNat < b.toNat)
  | 5 => decide (a.toNat ≤ b.toNat)
  | _ => false

/-- EXPECT (R154): a value between two bounds, signed or as binary32. -/
def expectHolds (float : Bool) (v lo hi : Word) : Bool :=
  if float then
    let x := ofF32 (v.setWidth 32)
    let l := ofF32 (lo.setWidth 32)
    let h := ofF32 (hi.setWidth 32)
    (fvLt l x || fvEq l x) && (fvLt x h || fvEq x h)
  else decide (lo.toInt ≤ v.toInt) && decide (v.toInt ≤ hi.toInt)

namespace State

/-- A control slot word (R176). -/
def ctlWord (s : State) (i : Issue) (op : Nat) (l : CtlLayout) (o : CtlWord) (body : State → Nat → Nat → State) : State :=
  s.issueWord i opControl op (o.bits l) (fun _ _ => true) body

/-- Write RD after `d` steps. -/
def ctlResult (s : State) (lid p d : Nat) (o : CtlWord) (v : Word) : State := s.landLater lid (p + d) (.greg o.rd.toNat v)

/-- RD = f RS1 RS2, after `d` steps (R147, R177). -/
def ctlReg (d : Nat) (f : Word → Word → Word) (o : CtlWord) (s : State) (lid p : Nat) : State :=
  s.ctlResult lid p d o (f (s.gregAt lid o.rs1.toNat) (s.gregAt lid o.rs2.toNat))
/-- RD = f RS1 IMM, IMM sign-extended (R177). -/
def ctlImm (f : Word → Word → Word) (o : CtlWord) (s : State) (lid p : Nat) : State :=
  s.ctlResult lid p 1 o (f (s.gregAt lid o.rs1.toNat) (o.imm.signExtend 64))

/-- RS1 + IMM: the address of a control load or store (R176). -/
def ctlAddress (s : State) (lid : Nat) (o : CtlWord) : Nat := (s.gregAt lid o.rs1.toNat + o.imm.signExtend 64).toNat

/-- LD (R177, R186): 8 bytes of a pad-mode bank. -/
def ctlLoad (slot : Nat) (o : CtlWord) (s : State) (lid p : Nat) : State :=
  let a := s.ctlAddress lid o
  if a % 8 ≠ 0 then s.slotConflict lid opControl 0x20 slot ruleAlign
  else
    let v := BitVec.ofNat 64 (leNat (s.padRead lid p a 8))
    (s.usePort lid p ⟨[(a, 8)], false, opControl, 0x20, slot⟩).ctlResult lid p 6 o v

/-- ST (R177, R186). -/
def ctlStore (slot : Nat) (o : CtlWord) (s : State) (lid p : Nat) : State :=
  let a := s.ctlAddress lid o
  if a % 8 ≠ 0 then s.slotConflict lid opControl 0x21 slot ruleAlign
  else
    let v := s.gregAt lid o.rs2.toNat
    (s.usePort lid p ⟨[(a, 8)], true, opControl, 0x21, slot⟩).landLater lid (p + 6) (.pad a (leBytes 8 v.toNat))

/-- LDL (R143, R190, R191). -/
def ctlLoadLoose (slot : Nat) (o : CtlWord) (s : State) (lid p : Nat) : State :=
  let a := s.ctlAddress lid o
  if a % 8 ≠ 0 then s.slotConflict lid opControl 0x22 slot ruleAlign
  else match s.looseOffset lid a a 8 with
    | none => s.slotConflict lid opControl 0x22 slot ruleRange
    | some (b, off) =>
      let r := s.looseRead lid p b off 8
      (r.2.loosePending lid p slot opControl 0x22 a).ctlResult lid p dLoose o (BitVec.ofNat 64 (leNat r.1))

/-- STL (R143, R190, R191, R196). -/
def ctlStoreLoose (slot : Nat) (o : CtlWord) (s : State) (lid p : Nat) : State :=
  let a := s.ctlAddress lid o
  if a % 8 ≠ 0 then s.slotConflict lid opControl 0x23 slot ruleAlign
  else match s.looseOffset lid a a 8 with
    | none => s.slotConflict lid opControl 0x23 slot ruleRange
    | some (b, off) =>
      if s.loamWriteBad off 8 then s.slotConflict lid opControl 0x23 slot ruleRange
      else
        (s.looseWrite lid p b [(off, leBytes 8 (s.gregAt lid o.rs2.toNat).toNat, List.replicate 8 255)]).loosePending lid p slot opControl 0x23 a

/-- VOTE (R151): bit 0 of RS1 on a channel; a disabled channel is a fault of class check (R78). -/
def ctlVote (slot : Nat) (o : CtlWord) (s : State) (lid _p : Nat) : State :=
  let c := o.chan.toNat
  if s.voteEnabled c then s.castVote c lid ((s.gregAt lid o.rs1.toNat).getLsbD 0)
  else s.coreFault lid {
    code := 0x020A, srcType := srcPlot, srcId := lid, opUnit := opControl, op := 0x28, slot := slot, detail := c }

/-- VREAD (R151): bit 0 the value, bit 63 the poisoned mark. -/
def ctlVoteRead (o : CtlWord) (s : State) (lid p : Nat) : State :=
  let c := o.chan.toNat
  let s := s.deliverVotes c
  let r := (SMap.find? s.fab.readable c).getD (false, false, 0)
  s.ctlResult lid p 1 o (BitVec.ofNat 64 (b2n r.1 + b2n r.2.1 * 2 ^ 63))

/-- EXPECT (R154). -/
def ctlExpect (slot : Nat) (o : CtlWord) (s : State) (lid _p : Nat) : State :=
  let k := o.index.toNat
  if expectHolds o.typ (s.gregAt lid o.rs1.toNat) (s.constMem lid k) (s.constMem lid (k + 1)) then s
  else (s.incLive (F.EXPECT_FAIL.COUNT lid) 1).coreFault lid {
    code := 0x0206, srcType := srcPlot, srcId := lid, opUnit := opControl, op := 0x2C, slot := slot, detail := k }

end State

/-- ADD (R177): sum modulo 2^64. -/
def execCAdd (i : Issue) (o : CtlWord) (s : State) : Out :=
  s.answerIf (slotOk i.slot && o.ok 0x01) (s.ctlWord i 0x01 .register o (State.ctlReg 1 (fun a b => a + b) o))

/-- SUB (R177): difference modulo 2^64. -/
def execCSub (i : Issue) (o : CtlWord) (s : State) : Out :=
  s.answerIf (slotOk i.slot && o.ok 0x02) (s.ctlWord i 0x02 .register o (State.ctlReg 1 (fun a b => a - b) o))

/-- AND (R177): and. -/
def execCAnd (i : Issue) (o : CtlWord) (s : State) : Out :=
  s.answerIf (slotOk i.slot && o.ok 0x03) (s.ctlWord i 0x03 .register o (State.ctlReg 1 (fun a b => a &&& b) o))

/-- OR (R177): or. -/
def execCOr (i : Issue) (o : CtlWord) (s : State) : Out :=
  s.answerIf (slotOk i.slot && o.ok 0x04) (s.ctlWord i 0x04 .register o (State.ctlReg 1 (fun a b => a ||| b) o))

/-- XOR (R177): exclusive or. -/
def execCXor (i : Issue) (o : CtlWord) (s : State) : Out :=
  s.answerIf (slotOk i.slot && o.ok 0x05) (s.ctlWord i 0x05 .register o (State.ctlReg 1 (fun a b => a ^^^ b) o))

/-- SHL (R177): shift left by RS2[5:0]. -/
def execCShl (i : Issue) (o : CtlWord) (s : State) : Out :=
  s.answerIf (slotOk i.slot && o.ok 0x06) (s.ctlWord i 0x06 .register o (State.ctlReg 1 (fun a b => a <<< (b.toNat % 64)) o))

/-- SHR (R177): shift right by RS2[5:0]. -/
def execCShr (i : Issue) (o : CtlWord) (s : State) : Out :=
  s.answerIf (slotOk i.slot && o.ok 0x07) (s.ctlWord i 0x07 .register o (State.ctlReg 1 (fun a b => a >>> (b.toNat % 64)) o))

/-- SHRA (R177): shift right by RS2[5:0], the sign copied. -/
def execCShra (i : Issue) (o : CtlWord) (s : State) : Out :=
  s.answerIf (slotOk i.slot && o.ok 0x08) (s.ctlWord i 0x08 .register o (State.ctlReg 1 (fun a b => a.sshiftRight (b.toNat % 64)) o))

/-- CMP (R177): RD = RS1 COND RS2, 1 or 0. -/
def execCCmp (i : Issue) (o : CtlWord) (s : State) : Out :=
  s.answerIf (slotOk i.slot && o.ok 0x09) (s.ctlWord i 0x09 .register o (State.ctlReg 1 (fun a b => BitVec.ofNat 64 (b2n (wordCond o.cond.toNat a b))) o))

/-- SEL (R177): RD = RS2 if RS1 ≠ 0, else RS3. -/
def execCSel (i : Issue) (o : CtlWord) (s : State) : Out :=
  s.answerIf (slotOk i.slot && o.ok 0x0A) (s.ctlWord i 0x0A .register o (fun s lid p =>
    s.ctlResult lid p 1 o (if s.gregAt lid o.rs1.toNat = 0 then s.gregAt lid o.rs3.toNat else s.gregAt lid o.rs2.toNat)))

/-- MUL (R177): low 64 bits of the product. -/
def execCMul (i : Issue) (o : CtlWord) (s : State) : Out :=
  s.answerIf (slotOk i.slot && o.ok 0x0B) (s.ctlWord i 0x0B .register o (State.ctlReg 3 (fun a b => a * b) o))

/-- ADDI (R177): sum with IMM. -/
def execCAddi (i : Issue) (o : CtlWord) (s : State) : Out :=
  s.answerIf (slotOk i.slot && o.ok 0x10) (s.ctlWord i 0x10 .immediate o (State.ctlImm (fun a b => a + b) o))

/-- ANDI (R177): and with IMM. -/
def execCAndi (i : Issue) (o : CtlWord) (s : State) : Out :=
  s.answerIf (slotOk i.slot && o.ok 0x11) (s.ctlWord i 0x11 .immediate o (State.ctlImm (fun a b => a &&& b) o))

/-- ORI (R177): or with IMM. -/
def execCOri (i : Issue) (o : CtlWord) (s : State) : Out :=
  s.answerIf (slotOk i.slot && o.ok 0x12) (s.ctlWord i 0x12 .immediate o (State.ctlImm (fun a b => a ||| b) o))

/-- XORI (R177): exclusive or with IMM. -/
def execCXori (i : Issue) (o : CtlWord) (s : State) : Out :=
  s.answerIf (slotOk i.slot && o.ok 0x13) (s.ctlWord i 0x13 .immediate o (State.ctlImm (fun a b => a ^^^ b) o))

/-- SHLI (R177): shift left by IMM. -/
def execCShli (i : Issue) (o : CtlWord) (s : State) : Out :=
  s.answerIf (slotOk i.slot && o.ok 0x14) (s.ctlWord i 0x14 .immediate o (State.ctlImm (fun a b => a <<< (b.toNat % 64)) o))

/-- SHRI (R177): shift right by IMM. -/
def execCShri (i : Issue) (o : CtlWord) (s : State) : Out :=
  s.answerIf (slotOk i.slot && o.ok 0x15) (s.ctlWord i 0x15 .immediate o (State.ctlImm (fun a b => a >>> (b.toNat % 64)) o))

/-- SHRAI (R177): shift right by IMM, the sign copied. -/
def execCShrai (i : Issue) (o : CtlWord) (s : State) : Out :=
  s.answerIf (slotOk i.slot && o.ok 0x16) (s.ctlWord i 0x16 .immediate o (State.ctlImm (fun a b => a.sshiftRight (b.toNat % 64)) o))

/-- CMPI (R177): RD = RS1 COND IMM, 1 or 0. -/
def execCCmpi (i : Issue) (o : CtlWord) (s : State) : Out :=
  s.answerIf (slotOk i.slot && o.ok 0x17) (s.ctlWord i 0x17 .immediate o (State.ctlImm (fun a b => BitVec.ofNat 64 (b2n (wordCond o.cond.toNat a b))) o))

/-- LIL (R177): RD = IMM sign-extended. -/
def execCLil (i : Issue) (o : CtlWord) (s : State) : Out :=
  s.answerIf (slotOk i.slot && o.ok 0x18) (s.ctlWord i 0x18 .immediate o (fun s lid p =>
    s.ctlResult lid p 1 o (o.imm.signExtend 64)))

/-- LIH (R177): RD[63:32] = IMM, RD[31:0] kept. -/
def execCLih (i : Issue) (o : CtlWord) (s : State) : Out :=
  s.answerIf (slotOk i.slot && o.ok 0x19) (s.ctlWord i 0x19 .immediate o (fun s lid p =>
    s.ctlResult lid p 1 o (o.imm ++ (s.gregAt lid o.rd.toNat).setWidth 32)))

/-- CONST (R177): RD = constant word INDEX. -/
def execCConst (i : Issue) (o : CtlWord) (s : State) : Out :=
  s.answerIf (slotOk i.slot && o.ok 0x1A) (s.ctlWord i 0x1A .table o (fun s lid p =>
    s.ctlResult lid p 1 o (s.constMem lid o.index.toNat)))

/-- LD (R177): 8 bytes of a pad-mode bank. -/
def execCLd (i : Issue) (o : CtlWord) (s : State) : Out :=
  s.answerIf (slotOk i.slot && o.ok 0x20) (s.ctlWord i 0x20 .load o (State.ctlLoad i.slot.toNat o))

/-- ST (R177): 8 bytes to a pad-mode bank. -/
def execCSt (i : Issue) (o : CtlWord) (s : State) : Out :=
  s.answerIf (slotOk i.slot && o.ok 0x21) (s.ctlWord i 0x21 .store o (State.ctlStore i.slot.toNat o))

/-- LDL (R143): 8 bytes through a cache-mode bank. -/
def execCLdl (i : Issue) (o : CtlWord) (s : State) : Out :=
  s.answerIf (slotOk i.slot && o.ok 0x22) (s.ctlWord i 0x22 .load o (State.ctlLoadLoose i.slot.toNat o))

/-- STL (R143): 8 bytes through a cache-mode bank. -/
def execCStl (i : Issue) (o : CtlWord) (s : State) : Out :=
  s.answerIf (slotOk i.slot && o.ok 0x23) (s.ctlWord i 0x23 .store o (State.ctlStoreLoose i.slot.toNat o))

/-- VOTE (R151): set the plot's bit on a channel. -/
def execCVote (i : Issue) (o : CtlWord) (s : State) : Out :=
  s.answerIf (slotOk i.slot && o.ok 0x28) (s.ctlWord i 0x28 .vote o (State.ctlVote i.slot.toNat o))

/-- VREAD (R151): the latest readable result of a channel. -/
def execCVread (i : Issue) (o : CtlWord) (s : State) : Out :=
  s.answerIf (slotOk i.slot && o.ok 0x29) (s.ctlWord i 0x29 .vread o (State.ctlVoteRead o))

/-- EXPECT (R154): check a register against two constants. -/
def execCExpect (i : Issue) (o : CtlWord) (s : State) : Out :=
  s.answerIf (slotOk i.slot && o.ok 0x2C) (s.ctlWord i 0x2C .table o (State.ctlExpect i.slot.toNat o))

namespace State

/-- A loose access that has not completed by P + 48 (R143). -/
def looseOverrun (s : State) (lid : Nat) : State :=
  match (s.plot lid).loosePend with
  | [] => s
  | (p, slot, unit, op, a) :: _ =>
    if s.atWork lid (p + 48) then
      let s := s.advance lid (p + 48)
      if s.coreFenced lid then s
      else
        let s := s.modPlot lid fun x => { x with now := p + 48 }
        s.coreFault lid {
          code := 0x0302, srcType := srcPlot, srcId := lid, opUnit := unit, op := op, slot := slot, detail := a % 2 ^ 32 }
    else s

/-- The vote tree carries a vote of the channel in the present furrow: one in flight, or a result that becomes readable now. -/
def voteCarried (s : State) (c : Nat) : Bool :=
  (s.fab.votes.any fun v => v.chan == c) || ((SMap.find? s.fab.readable c).any fun r => r.2.2 == s.furrow)

/-- A vote result becomes readable; a node whose rails agree, with the region its fault is attributed to, is a fault of class link
(R75, R76, R320). -/
def voteResult (s : State) (c region : Nat) (agree : Bool) : State :=
  if s.running then
    let s := s.deliverVotes c
    if agree && s.voteCarried c then s.raise {
      code := 0x0404, srcType := srcRegion, srcId := region, detail := c, opUnit := opRouter, unit := some (unitRegion, region) }
    else s
  else s

/-- R149: latch the fork selector when the next furrow is a fork furrow. -/
def latchFork (s : State) (lid : Nat) : State :=
  match forkAhead (s.slotMem lid) 32768 (bitsOf (s.slotMem lid s.step.program) 0 15) s.step.granted with
  | none => s
  | some w =>
    let v := (s.gregAt lid (bitsOf w 0 5)).toNat % 4
    let f := bitsOf w 24 8
    if v < bitsOf w 5 3 then
      let s := s.modPlot lid fun x => { x with variants := SMap.ins x.variants f v, lastFork := f }
      let s := s.incF (F.FORKS_TAKEN.COUNT lid v) 1
      (s.keepF (F.CTL_STATUS.LAST_VARIANT lid) v).keepF (F.CTL_STATUS.LAST_FORK lid) f
    else s.coreFault lid {
      code := 0x0207, srcType := srcPlot, srcId := lid, opUnit := opSequencer, detail := f + v * 256 }

/-- The words of the furrow that the signature covers: all of them, or, on a core fenced within the furrow, those it has fetched
(R51, R153, log entry 64). -/
def signedWords (s : State) (lid : Nat) : List Nat :=
  if s.coreFenced lid then (s.furrowWords lid).take (s.plot lid).fetched else s.furrowWords lid

/-- The end of slot 47 (R149, R152, R153): what the memories met in words that no unit receives (R160), the signals that no word of
the furrow accounts for, by unit, the signature of the furrow's words, then the fork. A core fenced within the furrow has its
signature compared and latches nothing (R156). -/
def slotsEnd (s : State) (lid : Nat) (signals : List (Nat × Watch)) (ms : List Mishap) : State :=
  let p := 48 * s.step.granted - 1
  if s.running && decide (0 < s.step.granted) && !s.step.judged && s.present lid && s.hasProgram lid &&
      decide ((s.plot lid).now ≤ p) then
    let s := s.advance lid (p + 1)
    let s := if s.coreFenced lid then s
      else signals.foldl (fun s x => s.mishap lid x.1 0 47 (fun _ => true) (.watchdog x.2))
        (s.mishaps lid opSequencer 0 47 (fun _ => true) ms)
    let want := crc32c (wordsBytes (s.signedWords lid))
    let got := (s.plot lid).crc ^^^ 0xFFFFFFFF
    let s := s.modPlot lid fun x => { x with crc := 0xFFFFFFFF, fetched := 0 }
    if want ≠ got then
      (s.incLive (F.SIGNATURE_FAIL.COUNT lid) 1).coreFault lid {
        code := 0x0205, srcType := srcPlot, srcId := lid, opUnit := opSequencer, detail := want + got * 2 ^ 32 }
    else if s.coreFenced lid then s
    else s.latchFork lid
  else s

end State

/-- LOOSE_ACCESS_OVERRUN (R143): a loose access misses its bound. -/
def execLooseAccessOverrun (lid : BitVec 24) (s : State) : Out := s.answer (s.looseOverrun lid.toNat)

/-- VOTE_RESULT (R75, R76): a vote's result becomes readable, or a node's rails agree. -/
def execVoteResult (c : BitVec 4) (o : VoteRails) (s : State) : Out :=
  s.answer (s.voteResult c.toNat o.region.toNat o.agree)

/-- FURROW_SLOTS_END (R149, R152, R153): the signature check and the fork latch at the end of slot 47; its `signals`
are unit signals of the furrow that its slot table does not ask for, or asks for and no word brought, and its `mis` what the memories
met in its entry, header, fork and end words (R160). -/
def execFurrowSlotsEnd (lid : BitVec 24) (o : SlotsEnd) (s : State) : Out :=
  s.answer (s.slotsEnd lid.toNat (o.signals.map fun x => (x.1.toNat, x.2)) o.mis)

end Sys2Proof.Machine
end

