-- ==== Sys2Proof/Machine/MoverOps.lean ====
section
/-! DEFINITION. The mover's words (R173-R175, R179, R197). -/

namespace Sys2Proof.Machine
namespace State

/-- Grains per step and latency (R174). -/
def moverRate (ssp dsp : Nat) : Nat × Nat := if ssp = 1 ∨ dsp = 1 then (8, 40) else (32, 12)

/-- The rule a mover word breaks at its issue, if any (R173-R175, R179, R192, R196). `len` is its LEN, `src` and `dst`
its addresses. -/
def moverRefusal (s : State) (lid p op : Nat) (o : MoverWord) (len src dst : Nat) : Option Nat :=
  let r := moverRate o.ssp.toNat o.dsp.toNat
  let last := if len = 0 then p else p + ceilDiv len r.1 - 1
  let done := if len = 0 then p else last + r.2
  let furrowEnd := 48 * s.step.granted
  let outside (a : Nat) : Bool := s.loamOutside a (16 * len)
  if p < (s.plot lid).moverFree then some ruleIssue
  else if 4095 < len then some ruleRange
  else if (op = 1 ∧ src % 16 ≠ 0) ∨ dst % 16 ≠ 0 then some ruleAlign
  else if 48 * s.step.length ≤ done then some ruleRange
  else if o.dsp = 2 ∧ (12288 < dst + 16 * len ∨ furrowEnd ≤ done) then some ruleRange
  else if op = 1 ∧ o.ssp = 2 ∧ (12288 < src + 16 * len ∨
      (if o.aprev then furrowEnd ≤ last ∨ s.step.granted ≤ 1 else furrowEnd + 48 ≤ last)) then some ruleRange
  else if op = 1 ∧ o.ssp = 1 ∧ outside src then some ruleRange
  else if o.dsp = 1 ∧ (outside dst || (loamPieces dst (16 * len)).any fun q => s.loamWriteBad q.1 q.2) then some ruleRange
  else none

/-- The slip of a mover word that reads loam: the largest correction among its lines, in lc (R31, R199). -/
def loamSlip (ms : List Mishap) : Nat :=
  ms.foldl (fun n m => match m with
    | .loamCorrBit _ => max n 1
    | .loamCorrSymbol _ => max n 2
    | _ => n) 0

/-- Delay the later slots of a plot in this furrow (R31). -/
def addSlip (s : State) (lid n : Nat) : State :=
  if n = 0 then s
  else
    let s := { s with step := { s.step with slip := SMap.modify 0 s.step.slip lid (· + n) } }
    (s.incF (F.SLIP_COUNT.COUNT (s.regionOf lid)) n).perf lid 0x09 n

/-- Issue a mover operation at its step (R173-R175). -/
def moverOp (op slot : Nat) (o : MoverWord) (ms : List Mishap) (s : State) (lid p : Nat) : State :=
  let len := if o.lsrc then o.len.toNat else (s.gregAt lid o.gl.toNat).toNat
  let src := (s.gregAt lid o.gs.toNat).toNat % 2 ^ 32
  let dst := (s.gregAt lid o.gd.toNat).toNat % 2 ^ 32
  match s.moverRefusal lid p op o len src dst with
  | some rule => s.slotConflict lid opMover op slot rule
  | none =>
    let r := moverRate o.ssp.toNat o.dsp.toNat
    let s := if op = 1 ∧ o.ssp = 1 then s.addSlip lid (loamSlip ms) else s
    let s := s.modPlot lid fun x => { x with moverFree := p + max 1 (ceilDiv len r.1) }
    if len = 0 then s
    else
      let t : Transfer := {
        p0 := p, slot := slot, ssp := if op = 2 then 3 else o.ssp.toNat, dsp := o.dsp.toNat, src := src, dst := dst,
        len := len, rate := r.1, lat := r.2, fill := s.gregAt lid o.gs.toNat,
        pageIn := if o.aprev then (s.furrow + 2 ^ 48 - 1) % 2 ^ 48 else s.furrow, pageOut := s.furrow, got := [] }
      s.modPlot lid fun x => { x with moves := x.moves ++ [t] }

/-- A mover slot word (R173). -/
def moverWord (s : State) (i : Issue) (op : Nat) (o : MoverWord) : State :=
  s.issueWord i opMover op o.bits (fun _ _ => true) (moverOp op i.slot.toNat o i.mis)

end State

/-- MCOPY (R173): copy grains from the source to the destination. -/
def execMcopy (i : Issue) (o : MoverWord) (s : State) : Out := s.answerIf (slotOk i.slot && o.ok 1) (s.moverWord i 1 o)
/-- MFILL (R173): write grains of a 64-bit value, twice each. -/
def execMfill (i : Issue) (o : MoverWord) (s : State) : Out := s.answerIf (slotOk i.slot && o.ok 2) (s.moverWord i 2 o)

end Sys2Proof.Machine
end

