-- ==== Sys2Proof/Machine/VectorOps.lean ====
section
/-! DEFINITION. The vector words (R171): one meaning for each opcode. -/

namespace Sys2Proof.Machine

/-- VCOPY (R171): TD = TA. -/
def execVcopy (i : Issue) (o : VecWord) (s : State) : Out :=
  s.answerIf (slotOk i.slot && o.ok 0x01) (s.vecWord i 0x01 o (State.tile1 dMove id o i.mis))

/-- VTRANS (R171): TD(r,c) = TA(c,r). -/
def execVtrans (i : Issue) (o : VecWord) (s : State) : Out :=
  s.answerIf (slotOk i.slot && o.ok 0x02) (s.vecWord i 0x02 o (State.tile1 dMove (fun t => (List.range 256).map fun k => t.getD (16 * (k % 16) + k / 16) 0) o i.mis))

/-- VBCROW (R171): every row of TD = row IDX of TA. -/
def execVbcrow (i : Issue) (o : VecWord) (s : State) : Out :=
  s.answerIf (slotOk i.slot && o.ok 0x03) (s.vecWord i 0x03 o (State.tile1 dMove (fun t => (List.range 256).map fun k => t.getD (16 * VecWordExt o 0 4 + k % 16) 0) o i.mis))

/-- VBCCOL (R171): every column of TD = column IDX of TA. -/
def execVbccol (i : Issue) (o : VecWord) (s : State) : Out :=
  s.answerIf (slotOk i.slot && o.ok 0x04) (s.vecWord i 0x04 o (State.tile1 dMove (fun t => (List.range 256).map fun k => t.getD (16 * (k / 16) + VecWordExt o 0 4) 0) o i.mis))

/-- VESHIFT (R171): shift elements by AMT in direction DIR. -/
def execVeshift (i : Issue) (o : VecWord) (s : State) : Out :=
  s.answerIf (slotOk i.slot && o.ok 0x05) (s.vecWord i 0x05 o (State.tile1 dMove (shiftTile (VecWordExt o 0 2) (VecWordExt o 4 4)) o i.mis))

/-- VSEL (R171): TD = TA where the MSK bit is 1, else TB; every element is written. -/
def execVsel (i : Issue) (o : VecWord) (s : State) : Out :=
  s.answerIf (slotOk i.slot && o.ok 0x06) (s.vecWord i 0x06 o fun s lid p m =>
    s.tileResult lid p dMove o fullMask i.mis (blendTile false m (s.tileAt lid o.tb.toNat) (s.tileAt lid o.ta.toNat)))

/-- VSPLAT (R171): every element = bits [31:0] of general register TA. -/
def execVsplat (i : Issue) (o : VecWord) (s : State) : Out :=
  s.answerIf (slotOk i.slot && o.ok 0x07) (s.vecWord i 0x07 o fun s lid p m =>
    s.tileResult lid p dMove o m i.mis (List.replicate 256 ((s.gregAt lid o.ta.toNat).setWidth 32)))

/-- IADD (R171): INT32 sum, saturating. -/
def execIadd (i : Issue) (o : VecWord) (s : State) : Out :=
  s.answerIf (slotOk i.slot && o.ok 0x08) (s.vecWord i 0x08 o fun s lid p m =>
    State.satTile dMove (fun k => State.intElem (s.tileAt lid o.ta.toNat) k + State.intElem (s.tileAt lid o.tb.toNat) k) o i.mis s lid p m)

/-- ISUB (R171): INT32 difference, saturating. -/
def execIsub (i : Issue) (o : VecWord) (s : State) : Out :=
  s.answerIf (slotOk i.slot && o.ok 0x09) (s.vecWord i 0x09 o fun s lid p m =>
    State.satTile dMove (fun k => State.intElem (s.tileAt lid o.ta.toNat) k - State.intElem (s.tileAt lid o.tb.toNat) k) o i.mis s lid p m)

/-- IMIN (R171): signed minimum. -/
def execImin (i : Issue) (o : VecWord) (s : State) : Out :=
  s.answerIf (slotOk i.slot && o.ok 0x0A) (s.vecWord i 0x0A o (State.tile2 dMove (fun a b => if b.toInt < a.toInt then b else a) o i.mis))

/-- IMAX (R171): signed maximum. -/
def execImax (i : Issue) (o : VecWord) (s : State) : Out :=
  s.answerIf (slotOk i.slot && o.ok 0x0B) (s.vecWord i 0x0B o (State.tile2 dMove (fun a b => if a.toInt < b.toInt then b else a) o i.mis))

/-- ICMP (R171): mask TD = TA cond TB, signed. -/
def execIcmp (i : Issue) (o : VecWord) (s : State) : Out :=
  s.answerIf (slotOk i.slot && o.ok 0x0C) (s.vecWord i 0x0C o (State.compareTiles (intCond (VecWordExt o 0 3)) o))

/-- VEC_AND (R171): bitwise and. -/
def execVecAnd (i : Issue) (o : VecWord) (s : State) : Out :=
  s.answerIf (slotOk i.slot && o.ok 0x0D) (s.vecWord i 0x0D o (State.tile2 dMove (· &&& ·) o i.mis))

/-- VEC_OR (R171): bitwise or. -/
def execVecOr (i : Issue) (o : VecWord) (s : State) : Out :=
  s.answerIf (slotOk i.slot && o.ok 0x0E) (s.vecWord i 0x0E o (State.tile2 dMove (· ||| ·) o i.mis))

/-- VEC_XOR (R171): bitwise exclusive or. -/
def execVecXor (i : Issue) (o : VecWord) (s : State) : Out :=
  s.answerIf (slotOk i.slot && o.ok 0x0F) (s.vecWord i 0x0F o (State.tile2 dMove (· ^^^ ·) o i.mis))

/-- VEC_SHL (R171): shift each element left by SH. -/
def execVecShl (i : Issue) (o : VecWord) (s : State) : Out :=
  s.answerIf (slotOk i.slot && o.ok 0x10) (s.vecWord i 0x10 o (State.tile1 dMove (fun t => t.map fun (a : BitVec 32) => a <<< VecWordExt o 0 5) o i.mis))

/-- VEC_SHR (R171): shift each element right by SH. -/
def execVecShr (i : Issue) (o : VecWord) (s : State) : Out :=
  s.answerIf (slotOk i.slot && o.ok 0x11) (s.vecWord i 0x11 o (State.tile1 dMove (fun t => t.map fun (a : BitVec 32) => a >>> VecWordExt o 0 5) o i.mis))

/-- VEC_SHRA (R171): shift each element right by SH, the sign bit copied. -/
def execVecShra (i : Issue) (o : VecWord) (s : State) : Out :=
  s.answerIf (slotOk i.slot && o.ok 0x12) (s.vecWord i 0x12 o (State.tile1 dMove (fun t => t.map fun (a : BitVec 32) => a.sshiftRight (VecWordExt o 0 5)) o i.mis))

/-- IMUL (R171): INT32 product, saturating. -/
def execImul (i : Issue) (o : VecWord) (s : State) : Out :=
  s.answerIf (slotOk i.slot && o.ok 0x13) (s.vecWord i 0x13 o fun s lid p m =>
    State.satTile dMultiply (fun k => State.intElem (s.tileAt lid o.ta.toNat) k * State.intElem (s.tileAt lid o.tb.toNat) k) o i.mis s lid p m)

/-- IMADD (R171): TD = TA · TB + TC, saturating. -/
def execImadd (i : Issue) (o : VecWord) (s : State) : Out :=
  s.answerIf (slotOk i.slot && o.ok 0x14) (s.vecWord i 0x14 o fun s lid p m =>
    State.satTile dMultiply (fun k => State.intElem (s.tileAt lid o.ta.toNat) k * State.intElem (s.tileAt lid o.tb.toNat) k + State.intElem (s.tileAt lid o.tc.toNat) k) o i.mis s lid p m)

/-- FADD (R171): binary32 sum. -/
def execFadd (i : Issue) (o : VecWord) (s : State) : Out :=
  s.answerIf (slotOk i.slot && o.ok 0x18) (s.vecWord i 0x18 o (State.tile2 dMove f32add o i.mis))

/-- FSUB (R171): binary32 difference. -/
def execFsub (i : Issue) (o : VecWord) (s : State) : Out :=
  s.answerIf (slotOk i.slot && o.ok 0x19) (s.vecWord i 0x19 o (State.tile2 dMove f32sub o i.mis))

/-- FMIN (R171): binary32 minimum, −0 below +0. -/
def execFmin (i : Issue) (o : VecWord) (s : State) : Out :=
  s.answerIf (slotOk i.slot && o.ok 0x1A) (s.vecWord i 0x1A o (State.tile2 dMove f32min o i.mis))

/-- FMAX (R171): binary32 maximum, −0 below +0. -/
def execFmax (i : Issue) (o : VecWord) (s : State) : Out :=
  s.answerIf (slotOk i.slot && o.ok 0x1B) (s.vecWord i 0x1B o (State.tile2 dMove f32max o i.mis))

/-- FCMP (R171): mask TD = TA cond TB. -/
def execFcmp (i : Issue) (o : VecWord) (s : State) : Out :=
  s.answerIf (slotOk i.slot && o.ok 0x1C) (s.vecWord i 0x1C o (State.compareTiles (floatCond (VecWordExt o 0 3)) o))

/-- FABS (R171): TD = |TA|. -/
def execFabs (i : Issue) (o : VecWord) (s : State) : Out :=
  s.answerIf (slotOk i.slot && o.ok 0x1D) (s.vecWord i 0x1D o (State.tile1 dMove (fun t => t.map f32abs) o i.mis))

/-- FNEG (R171): TD = −TA. -/
def execFneg (i : Issue) (o : VecWord) (s : State) : Out :=
  s.answerIf (slotOk i.slot && o.ok 0x1E) (s.vecWord i 0x1E o (State.tile1 dMove (fun t => t.map f32neg) o i.mis))

/-- FMUL (R171): binary32 product. -/
def execFmul (i : Issue) (o : VecWord) (s : State) : Out :=
  s.answerIf (slotOk i.slot && o.ok 0x1F) (s.vecWord i 0x1F o (State.tile2 dMultiply f32mul o i.mis))

/-- FFMA (R171): TD = TA · TB + TC, rounded once. -/
def execFfma (i : Issue) (o : VecWord) (s : State) : Out :=
  s.answerIf (slotOk i.slot && o.ok 0x20) (s.vecWord i 0x20 o fun s lid p m =>
    s.tileResult lid p dMultiply o m i.mis (List.zipWith (fun ab c => f32fma ab.1 ab.2 c) (List.zip (s.tileAt lid o.ta.toNat) (s.tileAt lid o.tb.toNat)) (s.tileAt lid o.tc.toNat)))

/-- CVTFI (R171): binary32 to INT32, to nearest even. -/
def execCvtfi (i : Issue) (o : VecWord) (s : State) : Out :=
  s.answerIf (slotOk i.slot && o.ok 0x21) (s.vecWord i 0x21 o (State.convTile (fun x => encodeInt 32 .rne (ofF32 x)) o i.mis))

/-- CVTIF (R171): INT32 to binary32, to nearest even. -/
def execCvtif (i : Issue) (o : VecWord) (s : State) : Out :=
  s.answerIf (slotOk i.slot && o.ok 0x22) (s.vecWord i 0x22 o (State.convTile (fun x => encodeF fBinary32 .rne (.ofInt x.toInt)) o i.mis))

/-- MAND (R171): mask logic and. -/
def execMand (i : Issue) (o : VecWord) (s : State) : Out :=
  s.answerIf (slotOk i.slot && o.ok 0x23) (s.vecWord i 0x23 o (State.maskLogic (· &&& ·) o))

/-- MOR (R171): mask logic or. -/
def execMor (i : Issue) (o : VecWord) (s : State) : Out :=
  s.answerIf (slotOk i.slot && o.ok 0x24) (s.vecWord i 0x24 o (State.maskLogic (· ||| ·) o))

/-- MNOT (R171): mask logic not. -/
def execMnot (i : Issue) (o : VecWord) (s : State) : Out :=
  s.answerIf (slotOk i.slot && o.ok 0x25) (s.vecWord i 0x25 o (State.maskLogic (fun a _ => ~~~a) o))

/-- FROWSUM (R171): row sums, exact and rounded once. -/
def execFrowsum (i : Issue) (o : VecWord) (s : State) : Out :=
  s.answerIf (slotOk i.slot && o.ok 0x28) (s.vecWord i 0x28 o (State.reduceTile (fun t m => inColumn0 ((List.range 16).map fun r => sumF32 (rowElems m t r))) o i.mis))

/-- FCOLSUM (R171): column sums, exact and rounded once. -/
def execFcolsum (i : Issue) (o : VecWord) (s : State) : Out :=
  s.answerIf (slotOk i.slot && o.ok 0x29) (s.vecWord i 0x29 o (State.reduceTile (fun t m => inRow0 ((List.range 16).map fun c => sumF32 (colElems m t c))) o i.mis))

/-- FROWMAX (R171): row maxima. -/
def execFrowmax (i : Issue) (o : VecWord) (s : State) : Out :=
  s.answerIf (slotOk i.slot && o.ok 0x2A) (s.vecWord i 0x2A o (State.reduceTile (fun t m => inColumn0 ((List.range 16).map fun r => maxF32 (rowElems m t r))) o i.mis))

/-- FCOLMAX (R171): column maxima. -/
def execFcolmax (i : Issue) (o : VecWord) (s : State) : Out :=
  s.answerIf (slotOk i.slot && o.ok 0x2B) (s.vecWord i 0x2B o (State.reduceTile (fun t m => inRow0 ((List.range 16).map fun c => maxF32 (colElems m t c))) o i.mis))

/-- IROWSUM (R171): INT32 row sums, saturating. -/
def execIrowsum (i : Issue) (o : VecWord) (s : State) : Out :=
  s.answerIf (slotOk i.slot && o.ok 0x2C) (s.vecWord i 0x2C o (State.reduceInts true o i.mis))

/-- ICOLSUM (R171): INT32 column sums, saturating. -/
def execIcolsum (i : Issue) (o : VecWord) (s : State) : Out :=
  s.answerIf (slotOk i.slot && o.ok 0x2D) (s.vecWord i 0x2D o (State.reduceInts false o i.mis))

/-- SUM (R141): the sum of a tile. -/
def execSum (i : Issue) (o : VecWord) (s : State) : Out :=
  s.answerIf (slotOk i.slot && o.ok 0x30) (s.vecWord i 0x30 o (State.summaryOp 0 i.slot.toNat o))

/-- SUMSQ (R141): the sum of squares. -/
def execSumsq (i : Issue) (o : VecWord) (s : State) : Out :=
  s.answerIf (slotOk i.slot && o.ok 0x31) (s.vecWord i 0x31 o (State.summaryOp 1 i.slot.toNat o))

/-- MAX (R141): the largest element. -/
def execMax (i : Issue) (o : VecWord) (s : State) : Out :=
  s.answerIf (slotOk i.slot && o.ok 0x32) (s.vecWord i 0x32 o (State.summaryOp 2 i.slot.toNat o))

/-- MIN (R141): the smallest element. -/
def execMin (i : Issue) (o : VecWord) (s : State) : Out :=
  s.answerIf (slotOk i.slot && o.ok 0x33) (s.vecWord i 0x33 o (State.summaryOp 3 i.slot.toNat o))

/-- ABSMAX (R141): the largest magnitude. -/
def execAbsmax (i : Issue) (o : VecWord) (s : State) : Out :=
  s.answerIf (slotOk i.slot && o.ok 0x34) (s.vecWord i 0x34 o (State.summaryOp 4 i.slot.toNat o))

/-- CNTNF (R141): COUNT_NONFINITE. -/
def execCntnf (i : Issue) (o : VecWord) (s : State) : Out :=
  s.answerIf (slotOk i.slot && o.ok 0x35) (s.vecWord i 0x35 o (State.summaryOp 5 i.slot.toNat o))

/-- CNTNZ (R141): COUNT_NONZERO. -/
def execCntnz (i : Issue) (o : VecWord) (s : State) : Out :=
  s.answerIf (slotOk i.slot && o.ok 0x36) (s.vecWord i 0x36 o (State.summaryOp 6 i.slot.toNat o))

/-- MANY (R141): MASK_ANY. -/
def execMany (i : Issue) (o : VecWord) (s : State) : Out :=
  s.answerIf (slotOk i.slot && o.ok 0x37) (s.vecWord i 0x37 o (State.maskSummary (fun k _ => if k = 0 then 0 else 1) o))

/-- MALL (R141): MASK_ALL. -/
def execMall (i : Issue) (o : VecWord) (s : State) : Out :=
  s.answerIf (slotOk i.slot && o.ok 0x38) (s.vecWord i 0x38 o (State.maskSummary (fun k n => if k = n then 1 else 0) o))

/-- MPOP (R141): MASK_POP. -/
def execMpop (i : Issue) (o : VecWord) (s : State) : Out :=
  s.answerIf (slotOk i.slot && o.ok 0x39) (s.vecWord i 0x39 o (State.maskSummary (fun k _ => BitVec.ofNat 64 k) o))

/-- VLD (R140): tile load at a pad-mode bank. -/
def execVld (i : Issue) (o : VecWord) (s : State) : Out :=
  s.answerIf (slotOk i.slot && o.ok 0x3A) (s.vecWord i 0x3A o (State.tileLoad i.slot.toNat o))

/-- VST (R140): tile store at a pad-mode bank. -/
def execVst (i : Issue) (o : VecWord) (s : State) : Out :=
  s.answerIf (slotOk i.slot && o.ok 0x3B) (s.vecWord i 0x3B o (State.tileStore i.slot.toNat o))

/-- VLDL (R143): tile load at a cache-mode bank. -/
def execVldl (i : Issue) (o : VecWord) (s : State) : Out :=
  s.answerIf (slotOk i.slot && o.ok 0x3C) (s.vecWord i 0x3C o (State.looseTileLoad i.slot.toNat o))

/-- VSTL (R143): tile store at a cache-mode bank. -/
def execVstl (i : Issue) (o : VecWord) (s : State) : Out :=
  s.answerIf (slotOk i.slot && o.ok 0x3D) (s.vecWord i 0x3D o (State.looseTileStore i.slot.toNat o))

/-- SFU (R142): TD = FUNC(TA), V-plots only. -/
def execSfu (i : Issue) (o : VecWord) (s : State) : Out :=
  s.answerIf (slotOk i.slot && o.ok 0x3E)
    (if s.isV i.lid.toNat then
      (s.issueWord i opVector 0x3E o.bits (State.vecLive 0x3E o i.lid.toNat) (State.sfuOp i.slot.toNat o i.mis))
    else s)

end Sys2Proof.Machine
end

