-- ==== Sys2Proof/Machine/Dispatch.lean ====
section
/-! DEFINITION. One arm for each command of the table. -/

namespace Sys2Proof.Machine

/-- What a command does to everything but the queue of commands that wait. -/
def exec (i : Instr) (s : State) : Host.Outcome State Fault Refusal :=
  match i with
  | .meridianFrame elapsed frame => Sys2Proof.Machine.execMeridianFrame elapsed frame s
  | .meridianReferenceTimeout => Sys2Proof.Machine.execMeridianReferenceTimeout s
  | .multiplierLockLoss => Sys2Proof.Machine.execMultiplierLockLoss s
  | .grantSample => Sys2Proof.Machine.execGrantSample s
  | .furrowBoundary => Sys2Proof.Machine.execFurrowBoundary s
  | .holdLimitFault => Sys2Proof.Machine.execHoldLimitFault s
  | .furrowSlotsEnd lid o => Sys2Proof.Machine.execFurrowSlotsEnd lid o s
  | .marginFault n codes => Sys2Proof.Machine.execMarginFault n codes s
  | .wload w o => Sys2Proof.Machine.execWload w o s
  | .shadowReady lid => Sys2Proof.Machine.execShadowReady lid s
  | .swap w o => Sys2Proof.Machine.execSwap w o s
  | .rows w o => Sys2Proof.Machine.execRows w o s
  | .trows w o => Sys2Proof.Machine.execTrows w o s
  | .oacc w o => Sys2Proof.Machine.execOacc w o s
  | .odrain w o => Sys2Proof.Machine.execOdrain w o s
  | .ediag w o => Sys2Proof.Machine.execEdiag w o s
  | .arrayRowOutcome lid slot row flips disagree mis => Sys2Proof.Machine.execArrayRowOutcome lid slot row flips disagree mis s
  | .vcopy w o => Sys2Proof.Machine.execVcopy w o s
  | .vtrans w o => Sys2Proof.Machine.execVtrans w o s
  | .vbcrow w o => Sys2Proof.Machine.execVbcrow w o s
  | .vbccol w o => Sys2Proof.Machine.execVbccol w o s
  | .veshift w o => Sys2Proof.Machine.execVeshift w o s
  | .vsel w o => Sys2Proof.Machine.execVsel w o s
  | .vsplat w o => Sys2Proof.Machine.execVsplat w o s
  | .iadd w o => Sys2Proof.Machine.execIadd w o s
  | .isub w o => Sys2Proof.Machine.execIsub w o s
  | .imin w o => Sys2Proof.Machine.execImin w o s
  | .imax w o => Sys2Proof.Machine.execImax w o s
  | .icmp w o => Sys2Proof.Machine.execIcmp w o s
  | .vecAnd w o => Sys2Proof.Machine.execVecAnd w o s
  | .vecOr w o => Sys2Proof.Machine.execVecOr w o s
  | .vecXor w o => Sys2Proof.Machine.execVecXor w o s
  | .vecShl w o => Sys2Proof.Machine.execVecShl w o s
  | .vecShr w o => Sys2Proof.Machine.execVecShr w o s
  | .vecShra w o => Sys2Proof.Machine.execVecShra w o s
  | .imul w o => Sys2Proof.Machine.execImul w o s
  | .imadd w o => Sys2Proof.Machine.execImadd w o s
  | .fadd w o => Sys2Proof.Machine.execFadd w o s
  | .fsub w o => Sys2Proof.Machine.execFsub w o s
  | .fmin w o => Sys2Proof.Machine.execFmin w o s
  | .fmax w o => Sys2Proof.Machine.execFmax w o s
  | .fcmp w o => Sys2Proof.Machine.execFcmp w o s
  | .fabs w o => Sys2Proof.Machine.execFabs w o s
  | .fneg w o => Sys2Proof.Machine.execFneg w o s
  | .fmul w o => Sys2Proof.Machine.execFmul w o s
  | .ffma w o => Sys2Proof.Machine.execFfma w o s
  | .cvtfi w o => Sys2Proof.Machine.execCvtfi w o s
  | .cvtif w o => Sys2Proof.Machine.execCvtif w o s
  | .mand w o => Sys2Proof.Machine.execMand w o s
  | .mor w o => Sys2Proof.Machine.execMor w o s
  | .mnot w o => Sys2Proof.Machine.execMnot w o s
  | .frowsum w o => Sys2Proof.Machine.execFrowsum w o s
  | .fcolsum w o => Sys2Proof.Machine.execFcolsum w o s
  | .frowmax w o => Sys2Proof.Machine.execFrowmax w o s
  | .fcolmax w o => Sys2Proof.Machine.execFcolmax w o s
  | .irowsum w o => Sys2Proof.Machine.execIrowsum w o s
  | .icolsum w o => Sys2Proof.Machine.execIcolsum w o s
  | .sum w o => Sys2Proof.Machine.execSum w o s
  | .sumsq w o => Sys2Proof.Machine.execSumsq w o s
  | .max w o => Sys2Proof.Machine.execMax w o s
  | .min w o => Sys2Proof.Machine.execMin w o s
  | .absmax w o => Sys2Proof.Machine.execAbsmax w o s
  | .cntnf w o => Sys2Proof.Machine.execCntnf w o s
  | .cntnz w o => Sys2Proof.Machine.execCntnz w o s
  | .many w o => Sys2Proof.Machine.execMany w o s
  | .mall w o => Sys2Proof.Machine.execMall w o s
  | .mpop w o => Sys2Proof.Machine.execMpop w o s
  | .vld w o => Sys2Proof.Machine.execVld w o s
  | .vst w o => Sys2Proof.Machine.execVst w o s
  | .vldl w o => Sys2Proof.Machine.execVldl w o s
  | .vstl w o => Sys2Proof.Machine.execVstl w o s
  | .sfu w o => Sys2Proof.Machine.execSfu w o s
  | .mcopy w o => Sys2Proof.Machine.execMcopy w o s
  | .mfill w o => Sys2Proof.Machine.execMfill w o s
  | .cAdd w o => Sys2Proof.Machine.execCAdd w o s
  | .cSub w o => Sys2Proof.Machine.execCSub w o s
  | .cAnd w o => Sys2Proof.Machine.execCAnd w o s
  | .cOr w o => Sys2Proof.Machine.execCOr w o s
  | .cXor w o => Sys2Proof.Machine.execCXor w o s
  | .cShl w o => Sys2Proof.Machine.execCShl w o s
  | .cShr w o => Sys2Proof.Machine.execCShr w o s
  | .cShra w o => Sys2Proof.Machine.execCShra w o s
  | .cCmp w o => Sys2Proof.Machine.execCCmp w o s
  | .cSel w o => Sys2Proof.Machine.execCSel w o s
  | .cMul w o => Sys2Proof.Machine.execCMul w o s
  | .cAddi w o => Sys2Proof.Machine.execCAddi w o s
  | .cAndi w o => Sys2Proof.Machine.execCAndi w o s
  | .cOri w o => Sys2Proof.Machine.execCOri w o s
  | .cXori w o => Sys2Proof.Machine.execCXori w o s
  | .cShli w o => Sys2Proof.Machine.execCShli w o s
  | .cShri w o => Sys2Proof.Machine.execCShri w o s
  | .cShrai w o => Sys2Proof.Machine.execCShrai w o s
  | .cCmpi w o => Sys2Proof.Machine.execCCmpi w o s
  | .cLil w o => Sys2Proof.Machine.execCLil w o s
  | .cLih w o => Sys2Proof.Machine.execCLih w o s
  | .cConst w o => Sys2Proof.Machine.execCConst w o s
  | .cLd w o => Sys2Proof.Machine.execCLd w o s
  | .cSt w o => Sys2Proof.Machine.execCSt w o s
  | .cLdl w o => Sys2Proof.Machine.execCLdl w o s
  | .cStl w o => Sys2Proof.Machine.execCStl w o s
  | .cVote w o => Sys2Proof.Machine.execCVote w o s
  | .cVread w o => Sys2Proof.Machine.execCVread w o s
  | .cExpect w o => Sys2Proof.Machine.execCExpect w o s
  | .looseAccessOverrun lid => Sys2Proof.Machine.execLooseAccessOverrun lid s
  | .voteResult c o => Sys2Proof.Machine.execVoteResult c o s
  | .routeWord p j obs => Sys2Proof.Machine.execRouteWord p j obs s
  | .dispatchWord h j obs => Sys2Proof.Machine.execDispatchWord h j obs s
  | .gatherStart h j obs => Sys2Proof.Machine.execGatherStart h j obs s
  | .gatherAdd h j obs => Sys2Proof.Machine.execGatherAdd h j obs s
  | .gatherPass h j obs => Sys2Proof.Machine.execGatherPass h j obs s
  | .emit h j obs => Sys2Proof.Machine.execEmit h j obs s
  | .superblockReceive c elapsed blocks => Sys2Proof.Machine.execSuperblockReceive c elapsed blocks s
  | .laneLockLoss l => Sys2Proof.Machine.execLaneLockLoss l s
  | .laneLockRegain l => Sys2Proof.Machine.execLaneLockRegain l s
  | .segmentReceive c => Sys2Proof.Machine.execSegmentReceive c s
  | .outboundSuperblock c badLine => Sys2Proof.Machine.execOutboundSuperblock c badLine s
  | .hvRelease p tag stepS => Sys2Proof.Machine.execHvRelease p tag stepS s
  | .hvResend p tag c hseq => Sys2Proof.Machine.execHvResend p tag c hseq s
  | .read p tag addr len => Sys2Proof.Machine.execRead p tag addr len s
  | .write p tag addr data => Sys2Proof.Machine.execWrite p tag addr data s
  | .hello p tag payload => Sys2Proof.Machine.execHello p tag payload s
  | .packetBadType p => Sys2Proof.Machine.execPacketBadType p s
  | .portDown p => Sys2Proof.Machine.execPortDown p s
  | .portUp p => Sys2Proof.Machine.execPortUp p s
  | .give p tag first count => Sys2Proof.Machine.execGive p tag first count s
  | .share p tag first count => Sys2Proof.Machine.execShare p tag first count s
  | .void p tag first count => Sys2Proof.Machine.execVoid p tag first count s
  | .claim p tag first count => Sys2Proof.Machine.execClaim p tag first count s
  | .reclaim p tag first count => Sys2Proof.Machine.execReclaim p tag first count s
  | .recall p tag first count => Sys2Proof.Machine.execRecall p tag first count s
  | .queueDoorbell p tag q give => Sys2Proof.Machine.execQueueDoorbell p tag q give s
  | .mgmtRing p tag w base entries => Sys2Proof.Machine.execMgmtRing p tag w base entries s
  | .nop => Sys2Proof.Machine.execNop s
  | .stepStart kat => Sys2Proof.Machine.execStepStart kat s
  | .migrationStageDone badLine shells => Sys2Proof.Machine.execMigrationStageDone badLine shells s
  | .evalStart kat => Sys2Proof.Machine.execEvalStart kat s
  | .apply obs => Sys2Proof.Machine.execApply obs s
  | .lease => Sys2Proof.Machine.execLease s
  | .dusk hits => Sys2Proof.Machine.execDusk hits s
  | .duskStressPass hits reached => Sys2Proof.Machine.execDuskStressPass hits reached s
  | .witness => Sys2Proof.Machine.execWitness s
  | .stagingPass => Sys2Proof.Machine.execStagingPass s
  | .copyIn q => Sys2Proof.Machine.execCopyIn q s
  | .copyOut q => Sys2Proof.Machine.execCopyOut q s
  | .resOut q => Sys2Proof.Machine.execResOut q s
  | .ckptNow q => Sys2Proof.Machine.execCkptNow q s
  | .restore q kat => Sys2Proof.Machine.execRestore q kat s
  | .manifestOut q => Sys2Proof.Machine.execManifestOut q s
  | .ledgerOut q => Sys2Proof.Machine.execLedgerOut q s
  | .drainWait q => Sys2Proof.Machine.execDrainWait q s
  | .horizonClose o => Sys2Proof.Machine.execHorizonClose o s
  | .loopbackTest shells heads => Sys2Proof.Machine.execLoopbackTest shells heads s
  | .parcelDrained readable => Sys2Proof.Machine.execParcelDrained readable s
  | .applyDiscard p tag => Sys2Proof.Machine.execApplyDiscard p tag s
  | .leaseExpiry => Sys2Proof.Machine.execLeaseExpiry s
  | .controllerLeaseExchange fromSouth => Sys2Proof.Machine.execControllerLeaseExchange fromSouth s
  | .notice index boundary mt phase latency => Sys2Proof.Machine.execNotice index boundary mt phase latency s
  | .ack what => Sys2Proof.Machine.execAck what s
  | .twinHorizon stepS committed => Sys2Proof.Machine.execTwinHorizon stepS committed s
  | .twinLease raw => Sys2Proof.Machine.execTwinLease raw s
  | .heartbeat acks held => Sys2Proof.Machine.execHeartbeat acks held s
  | .ledger seq rec => Sys2Proof.Machine.execLedger seq rec s
  | .manifest seq m => Sys2Proof.Machine.execManifest seq m s
  | .parcel seq layer tile elements data => Sys2Proof.Machine.execParcel seq layer tile elements data s
  | .twinPeriodicSend => Sys2Proof.Machine.execTwinPeriodicSend s
  | .twinResendTimeout => Sys2Proof.Machine.execTwinResendTimeout s
  | .padScrub lid address uncorrectable => Sys2Proof.Machine.execPadScrub lid address uncorrectable s
  | .loamScrub line found last => Sys2Proof.Machine.execLoamScrub line found last s
  | .historyLogWrite half flashError => Sys2Proof.Machine.execHistoryLogWrite half flashError s
  | .railFault w => Sys2Proof.Machine.execRailFault w s
  | .bedWarn => Sys2Proof.Machine.execBedWarn s
  | .regulatorPhaseLoss n phase cause => Sys2Proof.Machine.execRegulatorPhaseLoss n phase cause s
  | .regionShort n peak ns => Sys2Proof.Machine.execRegionShort n peak ns s
  | .contactSuspect k excess amps => Sys2Proof.Machine.execContactSuspect k excess amps s
  | .paceLower => Sys2Proof.Machine.execPaceLower s
  | .paceRaise => Sys2Proof.Machine.execPaceRaise s
  | .feedWithdrawn cause => Sys2Proof.Machine.execFeedWithdrawn cause s
  | .wakeStage n => Sys2Proof.Machine.execWakeStage n s
  | .wakeComplete n => Sys2Proof.Machine.execWakeComplete n s
  | .wakeDeferExpired n => Sys2Proof.Machine.execWakeDeferExpired n s
  | .coolantRange inlet outlet flow => Sys2Proof.Machine.execCoolantRange inlet outlet flow s
  | .bringUp obs => Sys2Proof.Machine.execBringUp obs s
  | .regionSwitchGroupClose => Sys2Proof.Machine.execRegionSwitchGroupClose s
  | .mgmtHeartbeat missNorth missSouth t => Sys2Proof.Machine.execMgmtHeartbeat missNorth missSouth t s
  | .controllerLost half => Sys2Proof.Machine.execControllerLost half s
  | .meridianCountRecord => Sys2Proof.Machine.execMeridianCountRecord s
  | .laneRegate p tag channels twin => Sys2Proof.Machine.execLaneRegate p tag channels twin s
  | .regateDone passed => Sys2Proof.Machine.execRegateDone passed s
  | .keyLoad p tag parcel => Sys2Proof.Machine.execKeyLoad p tag parcel s
  | .keyLoadTakeEffect => Sys2Proof.Machine.execKeyLoadTakeEffect s
  | .attestReq p tag parcel => Sys2Proof.Machine.execAttestReq p tag parcel s
  | .traceSample => Sys2Proof.Machine.execTraceSample s
  | .registerWrite p tag addr value => Sys2Proof.Machine.execRegisterWrite p tag addr value s
  | .periodStretch n codes => Sys2Proof.Machine.execPeriodStretch n codes s
  | .restoreLimitExpired => Sys2Proof.Machine.execRestoreLimitExpired s
  | .railOutOfToleranceLimit w => Sys2Proof.Machine.execRailOutOfToleranceLimit w s
  | .railInTolerance w delayUs rampUs clean => Sys2Proof.Machine.execRailInTolerance w delayUs rampUs clean s
  | .feedTimeout => Sys2Proof.Machine.execFeedTimeout s
  | .coolantInRange inlet outlet flow => Sys2Proof.Machine.execCoolantInRange inlet outlet flow s
  | .loamHotChange p layer hot => Sys2Proof.Machine.execLoamHotChange p layer hot s
  | .twinLinkSuperblock => Sys2Proof.Machine.execTwinLinkSuperblock s

end Sys2Proof.Machine
end

