-- ==== Sys2Proof/Machine/Step.lean ====
section
/-! DEFINITION. One step: the command that has waited longest, or a tick. -/

namespace Sys2Proof.Machine

/-- Nothing is commanded for a meridian tick: the counter advances by one while the reference runs (R17), and the links take the
completions and trace records that wait for them (log entry 4). -/
def State.tick (s : State) : State := (s.elapse 1).drainLinks

/-- Take the command at the front of the queue and carry it out with the rest of the queue; on an empty queue a tick passes. -/
def step (s : State) : Host.Outcome State Fault Refusal :=
  match s.pending with
  | [] => .next s.tick
  | c :: rest => exec c { s with pending := rest }

/-- The state with the command that a word spells at the front of its queue: no word spells one. -/
def State.withFetchWord (s : State) (nbits w : Nat) : State :=
  match decodeTableWord nbits w with
  | some c => { s with pending := c :: s.pending }
  | none => s

end Sys2Proof.Machine
end

