-- ==== Sys2Proof/Safety.lean ====
section
/-! DEFINITION. What counts as a safe run of the block: every command that waits has operands that can occur, so that no step
stops. -/

namespace Sys2Proof.Machine

/-- Every command that waits can occur. -/
def State.queueOk (s : State) : Bool := s.pending.all Instr.wellFormed

/-- Carry out `n` steps. -/
def State.run (s : State) : Nat → Host.Outcome State Fault Refusal
  | 0 => .next s
  | n + 1 =>
    match Sys2Proof.Machine.step s with
    | .next t => State.run t n
    | .fault f => .fault f
    | .refused r => .refused r

/-- A run of `n` steps is safe if it reaches a state. -/
def State.safeFor (s : State) (n : Nat) : Prop := ∃ t, s.run n = .next t

/-- Outside a step, a staging pass and a close, nothing waits in a ready module for the publication point: no record, no finished
entry, no parcel on its way to VOID (R278, R287). -/
def State.settledOk (s : State) : Prop :=
  s.isReady = true → s.atPublication = true → s.recs = [] ∧ s.win.toVoid = [] ∧ ∀ q, (s.queue q).fin = []

/-! ### What statements say of a command -/

/-- `c` completes in `s`: its effect leaves a state of which `P` holds, which then settles (R278; `State.after`). -/
def State.does (s : State) (c : Instr) (P : State → Prop) : Prop := ∃ u, exec c s = .next (s.after u) ∧ P u

/-- Every field but those in `fs` reads as before. -/
def State.fieldsBut (s t : State) (fs : List Fld) : Prop := ∀ f : Fld, (∀ g ∈ fs, f.key ≠ g.key) → t.getF f = s.getF f

/-- `t` is `u` but for the plot `lid`, which is `x`, and the register fields in `fs`; the queue of commands and the manufacture data
apart, nothing else differs. -/
def State.plotOnly (u t : State) (lid : Nat) (x : PlotSt) (fs : List Fld) : Prop :=
  t.plot lid = x ∧ (∀ k, k ≠ lid → t.plot k = u.plot k) ∧ u.fieldsBut t fs ∧
    { t with plots := u.plots, regs := u.regs, pub := u.pub, base := u.base, pending := u.pending, man := u.man } = u

/-- `t` is `u` with one more landing on one plot; the queue of commands and the manufacture data apart, nothing else differs. -/
def State.landsOn (u t : State) (lid due : Nat) (l : Landing) : Prop :=
  t.plot lid = { u.plot lid with land := (u.plot lid).land ++ [(due, l)] } ∧ (∀ k, k ≠ lid → t.plot k = u.plot k) ∧
    { t with plots := u.plots, pending := u.pending, man := u.man } = u

/-- `t` is `u` with one more landing of a tile operation on one plot, whose tile operations are in flight until it lands (R158); the
queue of commands and the manufacture data apart, nothing else differs. -/
def State.tileLandsOn (u t : State) (lid due : Nat) (l : Landing) : Prop :=
  t.plot lid = { u.plot lid with land := (u.plot lid).land ++ [(due, l)], busyUntil := max (u.plot lid).busyUntil due } ∧
    (∀ k, k ≠ lid → t.plot k = u.plot k) ∧ { t with plots := u.plots, pending := u.pending, man := u.man } = u

/-- Nothing is under way in a plot, a load of its shadow plane apart. -/
def PlotSt.atRest (x : PlotSt) : Prop :=
  x.feeds = [] ∧ x.flight = [] ∧ x.land = [] ∧ x.loads = [] ∧ x.moves = [] ∧ x.stores = [] ∧ x.ports = [] ∧ x.loosePend = []

/-- The counters of a plot's performance unit. -/
def perfFields (lid : Nat) : List Fld := (List.range 32).map (F.PERF_COUNT.COUNT lid)

/-- What a core fault of a plot does to `u` (R51, R334): its record waits, the attempt is marked for abandonment, the core is fenced
and a substitution is due. -/
def State.coreFailed (u t : State) (lid code : Nat) : Prop :=
  (∃ r more, t.recs = u.recs ++ r :: more ∧ r.code = code ∧ r.srcType = srcPlot ∧ r.srcId = lid ∧ r.abandoned = true ∧ r.fenced = true) ∧
    t.step.fault = some (u.step.fault.getD (causeClass code)) ∧ t.coreFenced lid = true ∧ t.getF F.REPAIR_STATUS.SUBST_PENDING = 1

/-- A request with this tag on a port is taken: the port is up and the tag is not outstanding (R268). -/
def State.takes (s : State) (p tag : Nat) : Prop := s.portUp p = true ∧ s.tagOut p tag = false

/-- `u` is `v` with one more completion on a port, and nothing else differs. -/
def State.replied (v u : State) (p tag type status : Nat) (payload : List Byte) : Prop :=
  u.port p = { v.port p with out := (v.port p).out ++ [⟨tag, type, status, payload⟩] } ∧ (∀ k, k ≠ p → u.port k = v.port k) ∧
    { u with ports := v.ports } = v

/-- `u` is `v` with the next entry of a queue taken and finished with a status and a result; its return to the ring follows at the
publication point (R278, R282). -/
def State.completed (v u : State) (q status result : Nat) : Prop :=
  ∃ i, v.nextEntry q = some i ∧ u = (v.takeEntry q).finish q i status result

/-- A slot word issues: it can, and `u`, the state in which its operation begins, has its core in service and STEP true. -/
def State.issues (s : State) (i : Issue) (u : State) : Prop :=
  s.canIssue i = true ∧ u.coreFenced i.lid.toNat = false ∧ u.running = true

/-- The state in which the operation of a control word begins (R153, R166, R176). -/
def State.ctlFetched (s : State) (i : Issue) (op : Nat) (l : CtlLayout) (o : CtlWord) : State :=
  s.fetched i opControl op (o.bits l) fun _ _ => true

/-- The same of a vector word (R170), before it takes its pipe. -/
def State.vecFetched (s : State) (i : Issue) (op : Nat) (o : VecWord) : State :=
  s.fetched i opVector op o.bits (State.vecLive op o i.lid.toNat)

/-- The same of an array word (R168) and a mover word (R173). -/
def State.arrayFetched (s : State) (i : Issue) (op : Nat) (o : ArrayWord) : State :=
  s.fetched i opArray op o.bits fun _ _ => true
def State.moverFetched (s : State) (i : Issue) (op : Nat) (o : MoverWord) : State :=
  s.fetched i opMover op o.bits fun _ _ => true

/-- A control word that issues writes `v` into RD after `d` steps, and nothing else. -/
def ctlLands (c : Instr) (i : Issue) (op : Nat) (l : CtlLayout) (o : CtlWord) (d : Nat) (v : State → Word) : Prop :=
  ∀ s : State, c.wellFormed = true → s.issues i (s.ctlFetched i op l o) →
    ∃ t, exec c s = .next t ∧ t.pending = s.pending ∧ t.man = s.man ∧
      (s.ctlFetched i op l o).landsOn t i.lid.toNat (s.issueStep i + d) (.greg o.rd.toNat (v (s.ctlFetched i op l o)))

/-- A tile word that issues with its pipe free and its checks passed writes the result `r` of its sources and mask after `d` steps;
`g` counts what the operation counts. -/
def vecLands (c : Instr) (i : Issue) (op : Nat) (o : VecWord) (d : Nat) (g : State → BitVec 256 → State)
    (r : State → BitVec 256 → Landing) : Prop :=
  ∀ s : State, c.wellFormed = true →
    let u := s.vecFetched i op o
    let p := s.issueStep i
    let w := State.vecBegun op i.slot.toNat o i.mis u i.lid.toNat p
    let m := u.maskAt i.lid.toNat o.msk.toNat
    s.issues i u → u.pipeTaken i.lid.toNat p = false → w.coreFenced i.lid.toNat = false → w.running = true →
    ∃ t, exec c s = .next t ∧ t.pending = s.pending ∧ t.man = s.man ∧
      (g w m).tileLandsOn t i.lid.toNat (p + d) (r w m)

end Sys2Proof.Machine
end

