-- ==== Sys2Proof/Certificates/Slice0/Obligations.lean ====
section
/-! DEFINITION. The statements for the provers, in the order of the spec's chapters: the words of the plot engines, the fabric and
time, sowing and harvest, the ports and queues, the commands of queue 0, checkpoints and the twin, power and bring-up, observation,
and the machine as a whole. -/

open Sys2Proof Sys2Proof.Machine

/-- The register form: RD after 1 step, MUL after 3 (R147, R177). -/
def Obligations.ControlRegisterWords : Prop :=
  ∀ (i : Issue) (o : CtlWord),
    let a (u : State) := u.gregAt i.lid.toNat o.rs1.toNat
    let b (u : State) := u.gregAt i.lid.toNat o.rs2.toNat
    ctlLands (.cAdd i o) i 0x01 .register o 1 (fun u => a u + b u) ∧
    ctlLands (.cSub i o) i 0x02 .register o 1 (fun u => a u - b u) ∧
    ctlLands (.cAnd i o) i 0x03 .register o 1 (fun u => a u &&& b u) ∧
    ctlLands (.cOr i o) i 0x04 .register o 1 (fun u => a u ||| b u) ∧
    ctlLands (.cXor i o) i 0x05 .register o 1 (fun u => a u ^^^ b u) ∧
    ctlLands (.cShl i o) i 0x06 .register o 1 (fun u => a u <<< ((b u).toNat % 64)) ∧
    ctlLands (.cShr i o) i 0x07 .register o 1 (fun u => a u >>> ((b u).toNat % 64)) ∧
    ctlLands (.cShra i o) i 0x08 .register o 1 (fun u => (a u).sshiftRight ((b u).toNat % 64)) ∧
    ctlLands (.cCmp i o) i 0x09 .register o 1 (fun u => if wordCond o.cond.toNat (a u) (b u) then 1 else 0) ∧
    ctlLands (.cSel i o) i 0x0A .register o 1 (fun u => if a u = 0 then u.gregAt i.lid.toNat o.rs3.toNat else b u) ∧
    ctlLands (.cMul i o) i 0x0B .register o 3 (fun u => a u * b u)

/-- The immediate form and CONST: IMM sign-extended, RD after 1 step; LIH keeps the low half of RD (R176, R177). -/
def Obligations.ControlImmediateWords : Prop :=
  ∀ (i : Issue) (o : CtlWord),
    let a (u : State) := u.gregAt i.lid.toNat o.rs1.toNat
    let n := o.imm.signExtend 64
    ctlLands (.cAddi i o) i 0x10 .immediate o 1 (fun u => a u + n) ∧
    ctlLands (.cAndi i o) i 0x11 .immediate o 1 (fun u => a u &&& n) ∧
    ctlLands (.cOri i o) i 0x12 .immediate o 1 (fun u => a u ||| n) ∧
    ctlLands (.cXori i o) i 0x13 .immediate o 1 (fun u => a u ^^^ n) ∧
    ctlLands (.cShli i o) i 0x14 .immediate o 1 (fun u => a u <<< o.imm.toNat) ∧
    ctlLands (.cShri i o) i 0x15 .immediate o 1 (fun u => a u >>> o.imm.toNat) ∧
    ctlLands (.cShrai i o) i 0x16 .immediate o 1 (fun u => (a u).sshiftRight o.imm.toNat) ∧
    ctlLands (.cCmpi i o) i 0x17 .immediate o 1 (fun u => if wordCond o.cond.toNat (a u) n then 1 else 0) ∧
    ctlLands (.cLil i o) i 0x18 .immediate o 1 (fun _ => n) ∧
    ctlLands (.cLih i o) i 0x19 .immediate o 1 (fun u => o.imm ++ (u.gregAt i.lid.toNat o.rd.toNat).setWidth 32) ∧
    ctlLands (.cConst i o) i 0x1A .table o 1 (fun u => u.constMem i.lid.toNat o.index.toNat)

/-- LD and LDL: eight bytes at RS1 + IMM, after 6 steps from the pad and at 48 steps through a cache-mode bank (R143, R177,
R186, R190). LD changes nothing beside its port and its landing. -/
def Obligations.ControlLoads : Prop :=
  ∀ (s : State) (i : Issue) (o : CtlWord),
    let lid := i.lid.toNat
    let p := s.issueStep i
    (let u := s.ctlFetched i 0x20 .load o
     let a := u.ctlAddress lid o
     (Instr.cLd i o).wellFormed = true → s.issues i u → a % 8 = 0 →
     ∃ t, exec (.cLd i o) s = .next t ∧
       (t.plot lid).land = (u.plot lid).land ++ [(p + 6, .greg o.rd.toNat (BitVec.ofNat 64 (leNat (u.padRead lid p a 8))))] ∧
       (t.plot lid).ports = SMap.modify [] (u.plot lid).ports p (· ++ [⟨[(a, 8)], false, opControl, 0x20, i.slot.toNat⟩]) ∧
       (∀ k, k ≠ lid → t.plot k = u.plot k) ∧ { t with plots := u.plots, pending := u.pending, man := u.man } = u) ∧
    (let u := s.ctlFetched i 0x22 .load o
     let a := u.ctlAddress lid o
     ∀ b off, (Instr.cLdl i o).wellFormed = true → s.issues i u → a % 8 = 0 → u.looseOffset lid a a 8 = some (b, off) →
     ∃ t, exec (.cLdl i o) s = .next t ∧
       (t.plot lid).land = (u.plot lid).land ++ [(p + 48, .greg o.rd.toNat (BitVec.ofNat 64 (leNat (u.loamRead lid p off 8))))] ∧
       (t.plot lid).loosePend = (u.plot lid).loosePend ++ [(p, i.slot.toNat, opControl, 0x22, a)] ∧
       (∀ k, k ≠ lid → t.plot k = u.plot k) ∧ t.win = u.win ∧ { t.mem with cache := u.mem.cache } = u.mem)

/-- ST and STL: eight bytes of RS2 to RS1 + IMM, in the pad 6 steps later and in loam by 48 (R143, R177, R186, R190). -/
def Obligations.ControlStores : Prop :=
  ∀ (s : State) (i : Issue) (o : CtlWord),
    let lid := i.lid.toNat
    let p := s.issueStep i
    (let u := s.ctlFetched i 0x21 .store o
     let a := u.ctlAddress lid o
     (Instr.cSt i o).wellFormed = true → s.issues i u → a % 8 = 0 →
     ∃ t, exec (.cSt i o) s = .next t ∧
       (t.plot lid).land = (u.plot lid).land ++ [(p + 6, .pad a (leBytes 8 (u.gregAt lid o.rs2.toNat).toNat))] ∧
       (t.plot lid).ports = SMap.modify [] (u.plot lid).ports p (· ++ [⟨[(a, 8)], true, opControl, 0x21, i.slot.toNat⟩]) ∧
       (∀ k, k ≠ lid → t.plot k = u.plot k) ∧ { t with plots := u.plots, pending := u.pending, man := u.man } = u) ∧
    (let u := s.ctlFetched i 0x23 .store o
     let a := u.ctlAddress lid o
     ∀ b off, (Instr.cStl i o).wellFormed = true → s.issues i u → a % 8 = 0 → u.looseOffset lid a a 8 = some (b, off) →
     u.loamWriteBad off 8 = false →
     ∃ t, exec (.cStl i o) s = .next t ∧
       (t.plot lid).stores =
         (u.plot lid).stores ++ [⟨p + 48, [(off, leBytes 8 (u.gregAt lid o.rs2.toNat).toNat, List.replicate 8 255)]⟩] ∧
       (t.plot lid).loosePend = (u.plot lid).loosePend ++ [(p, i.slot.toNat, opControl, 0x23, a)] ∧
       (∀ k, k ≠ lid → t.plot k = u.plot k) ∧ t.win = u.win ∧ { t.mem with cache := u.mem.cache } = u.mem)

/-- VOTE casts bit 0 of RS1 on an enabled channel; VREAD writes the latest readable result, bit 63 its poisoned mark (R75, R78,
R151). EXPECT: within the two constants' bounds nothing happens; outside them the check fails, is counted and recorded (R154).
Rests on readings and choices of the model: log entry 18. -/
def Obligations.ControlVotesAndChecks : Prop :=
  (∀ (s : State) (i : Issue) (o : CtlWord),
    let lid := i.lid.toNat
    let c := o.chan.toNat
    (let u := s.ctlFetched i 0x28 .vote o
     let bit := if u.isVoter c lid then (u.gregAt lid o.rs1.toNat).getLsbD 0 else u.voteIsAnd c
     let cast (x : Bool) := if u.voteIsAnd c then x && bit else x || bit
     let mine (x : VoteSt) : Bool := x.chan == c && x.furrow == u.furrow
     (Instr.cVote i o).wellFormed = true → s.issues i u → u.voteEnabled c = true →
     ∃ t, exec (.cVote i o) s = .next t ∧
       (t.fab.votes.filter mine).map (·.acc) =
         (if u.fab.votes.any mine then (u.fab.votes.filter mine).map fun x => cast x.acc else [cast (u.voteIsAnd c)]) ∧
       (t.fab.votes.filter fun x => !mine x) = (u.fab.votes.filter fun x => !mine x) ∧
       { t.fab with votes := u.fab.votes } = u.fab ∧ { t with fab := u.fab, pending := u.pending, man := u.man } = u) ∧
    (let u := (s.ctlFetched i 0x29 .vread o)
     let w := u.deliverVotes c
     (Instr.cVread i o).wellFormed = true → s.issues i u →
     ∃ t, exec (.cVread i o) s = .next t ∧
       w.landsOn t lid (s.issueStep i + 1) (.greg o.rd.toNat
         ((SMap.find? w.fab.readable c).elim 0 fun r => (if r.1 then 1 else 0) + (if r.2.1 then 0x8000000000000000 else 0))))) ∧
  (∀ (s : State) (i : Issue) (o : CtlWord),
    let lid := i.lid.toNat
    let u := s.ctlFetched i 0x2C .table o
    let k := o.index.toNat
    let inside := expectHolds o.typ (u.gregAt lid o.rs1.toNat) (u.constMem lid k) (u.constMem lid (k + 1))
    (Instr.cExpect i o).wellFormed = true → s.issues i u →
    (inside = true → exec (.cExpect i o) s = .next { u with pending := s.pending, man := s.man }) ∧
    (inside = false → ∃ t, exec (.cExpect i o) s = .next t ∧
      t.getF (F.EXPECT_FAIL.COUNT lid) = min (u.getF (F.EXPECT_FAIL.COUNT lid) + 1) (2 ^ 48 - 1) ∧ u.coreFailed t lid 0x0206))

/-- Moves and broadcasts: TD after 6 steps, in unmasked elements; VSEL writes every element (R137, R171). Comparisons and mask
logic write mask TD[2:0] after 6 steps: bit k from element k, or from the mask registers TA[2:0] and TB[2:0] (R134, R137, R170,
R171). -/
def Obligations.VectorMovesAndMasks : Prop :=
  (∀ (i : Issue) (o : VecWord),
    let same (u : State) (_ : BitVec 256) := u
    let a (u : State) (k : Nat) : BitVec 32 := (u.tileAt i.lid.toNat o.ta.toNat).getD k 0
    let b (u : State) (k : Nat) : BitVec 32 := (u.tileAt i.lid.toNat o.tb.toNat).getD k 0
    let put (t : State → BitVec 256 → Nat → BitVec 32) (u : State) (m : BitVec 256) : Landing :=
      .tile o.td.toNat (State.flipped i.mis ((List.range 256).map (t u m))) m o.mz
    let idx := VecWordExt o 0 4
    let amt := VecWordExt o 4 4
    vecLands (.vcopy i o) i 0x01 o 6 same
      (fun u m => .tile o.td.toNat (State.flipped i.mis (u.tileAt i.lid.toNat o.ta.toNat)) m o.mz) ∧
    vecLands (.vtrans i o) i 0x02 o 6 same (put fun u _ k => a u (16 * (k % 16) + k / 16)) ∧
    vecLands (.vbcrow i o) i 0x03 o 6 same (put fun u _ k => a u (16 * idx + k % 16)) ∧
    vecLands (.vbccol i o) i 0x04 o 6 same (put fun u _ k => a u (16 * (k / 16) + idx)) ∧
    vecLands (.veshift i o) i 0x05 o 6 same (put fun u _ k =>
      if VecWordExt o 0 2 = 0 then (if k % 16 < amt then 0 else a u (k - amt))
      else if VecWordExt o 0 2 = 1 then (if 16 ≤ k % 16 + amt then 0 else a u (k + amt))
      else if VecWordExt o 0 2 = 2 then (if k / 16 < amt then 0 else a u (k - 16 * amt))
      else if 16 ≤ k / 16 + amt then 0 else a u (k + 16 * amt)) ∧
    vecLands (.vsel i o) i 0x06 o 6 same (fun u m =>
      .tile o.td.toNat (State.flipped i.mis ((List.range 256).map fun k => if m.getLsbD k then a u k else b u k)) fullMask o.mz) ∧
    vecLands (.vsplat i o) i 0x07 o 6 same (put fun u _ _ => (u.gregAt i.lid.toNat o.ta.toNat).setWidth 32)) ∧
  (∀ (i : Issue) (o : VecWord),
    let lid := i.lid.toNat
    let same (u : State) (_ : BitVec 256) := u
    let cond (f : BitVec 32 → BitVec 32 → Bool) (u : State) (m : BitVec 256) : Landing :=
      .mask (o.td.toNat % 8) (maskOf fun k => f ((u.tileAt lid o.ta.toNat).getD k 0) ((u.tileAt lid o.tb.toNat).getD k 0)) m o.mz
    let logic (f : BitVec 256 → BitVec 256 → BitVec 256) (u : State) (m : BitVec 256) : Landing :=
      .mask (o.td.toNat % 8) (f (u.maskAt lid (o.ta.toNat % 8)) (u.maskAt lid (o.tb.toNat % 8))) m o.mz
    (∀ (f : Nat → Bool) (k : Nat), k < 256 → (maskOf f).getLsbD k = f k) ∧
    vecLands (.icmp i o) i 0x0C o 6 same (cond (intCond (VecWordExt o 0 3))) ∧
    vecLands (.fcmp i o) i 0x1C o 6 same (cond (floatCond (VecWordExt o 0 3))) ∧
    vecLands (.mand i o) i 0x23 o 6 same (logic (· &&& ·)) ∧
    vecLands (.mor i o) i 0x24 o 6 same (logic (· ||| ·)) ∧
    vecLands (.mnot i o) i 0x25 o 6 same (logic fun x _ => ~~~x))

/-- INT32 words: sums and products saturate and the saturated unmasked elements are counted in VEC_SAT_COUNT; minima, bitwise
words and shifts do not; TD after 6 steps, products after 8 (R137, R139, R144, R171). -/
def Obligations.VectorIntegers : Prop :=
  ∀ (i : Issue) (o : VecWord),
    let lid := i.lid.toNat
    let same (u : State) (_ : BitVec 256) := u
    let a (u : State) (k : Nat) : Int := ((u.tileAt lid o.ta.toNat).getD k 0).toInt
    let b (u : State) (k : Nat) : Int := ((u.tileAt lid o.tb.toNat).getD k 0).toInt
    let c (u : State) (k : Nat) : Int := ((u.tileAt lid o.tc.toNat).getD k 0).toInt
    let clip (x : Int) : Int := max (-2147483648) (min 2147483647 x)
    let count (f : State → Nat → Int) (u : State) (m : BitVec 256) : State :=
      let n := ((List.range 256).filter fun k => m.getLsbD k && clip (f u k) != f u k).length
      if n = 0 then u else u.incF (F.VEC_SAT_COUNT.COUNT lid) n
    let sat (f : State → Nat → Int) (u : State) (m : BitVec 256) : Landing :=
      .tile o.td.toNat (State.flipped i.mis ((List.range 256).map fun k => BitVec.ofInt 32 (clip (f u k)))) m o.mz
    let two (f : BitVec 32 → BitVec 32 → BitVec 32) (u : State) (m : BitVec 256) : Landing :=
      .tile o.td.toNat (State.flipped i.mis (List.zipWith f (u.tileAt lid o.ta.toNat) (u.tileAt lid o.tb.toNat))) m o.mz
    let one (f : BitVec 32 → BitVec 32) (u : State) (m : BitVec 256) : Landing :=
      .tile o.td.toNat (State.flipped i.mis ((u.tileAt lid o.ta.toNat).map f)) m o.mz
    let sh := VecWordExt o 0 5
    vecLands (.iadd i o) i 0x08 o 6 (count fun u k => a u k + b u k) (sat fun u k => a u k + b u k) ∧
    vecLands (.isub i o) i 0x09 o 6 (count fun u k => a u k - b u k) (sat fun u k => a u k - b u k) ∧
    vecLands (.imul i o) i 0x13 o 8 (count fun u k => a u k * b u k) (sat fun u k => a u k * b u k) ∧
    vecLands (.imadd i o) i 0x14 o 8 (count fun u k => a u k * b u k + c u k) (sat fun u k => a u k * b u k + c u k) ∧
    vecLands (.imin i o) i 0x0A o 6 same (two fun x y => if y.toInt < x.toInt then y else x) ∧
    vecLands (.imax i o) i 0x0B o 6 same (two fun x y => if x.toInt < y.toInt then y else x) ∧
    vecLands (.vecAnd i o) i 0x0D o 6 same (two (· &&& ·)) ∧
    vecLands (.vecOr i o) i 0x0E o 6 same (two (· ||| ·)) ∧
    vecLands (.vecXor i o) i 0x0F o 6 same (two (· ^^^ ·)) ∧
    vecLands (.vecShl i o) i 0x10 o 6 same (one (· <<< sh)) ∧
    vecLands (.vecShr i o) i 0x11 o 6 same (one (· >>> sh)) ∧
    vecLands (.vecShra i o) i 0x12 o 6 same (one fun x => x.sshiftRight sh)

/-- Binary32 words and the two conversions: TD after 6 steps, products after 8; conversions count what saturated and what was
not finite (R121, R137, R139, R171). -/
def Obligations.VectorFloats : Prop :=
  ∀ (i : Issue) (o : VecWord),
    let lid := i.lid.toNat
    let same (u : State) (_ : BitVec 256) := u
    let two (f : BitVec 32 → BitVec 32 → BitVec 32) (u : State) (m : BitVec 256) : Landing :=
      .tile o.td.toNat (State.flipped i.mis (List.zipWith f (u.tileAt lid o.ta.toNat) (u.tileAt lid o.tb.toNat))) m o.mz
    let one (f : BitVec 32 → BitVec 32) (u : State) (m : BitVec 256) : Landing :=
      .tile o.td.toNat (State.flipped i.mis ((u.tileAt lid o.ta.toNat).map f)) m o.mz
    let conv (f : BitVec 32 → Conv) (u : State) (m : BitVec 256) : State :=
      u.countConv lid ((List.zipIdx ((u.tileAt lid o.ta.toNat).map f)).filter (fun c => m.getLsbD c.2) |>.map (·.1))
    let toInt (x : BitVec 32) : Conv := encodeInt 32 .rne (ofF32 x)
    let toFloat (x : BitVec 32) : Conv := encodeF fBinary32 .rne (.ofInt x.toInt)
    vecLands (.fadd i o) i 0x18 o 6 same (two f32add) ∧
    vecLands (.fsub i o) i 0x19 o 6 same (two f32sub) ∧
    vecLands (.fmin i o) i 0x1A o 6 same (two f32min) ∧
    vecLands (.fmax i o) i 0x1B o 6 same (two f32max) ∧
    vecLands (.fabs i o) i 0x1D o 6 same (one f32abs) ∧
    vecLands (.fneg i o) i 0x1E o 6 same (one f32neg) ∧
    vecLands (.fmul i o) i 0x1F o 8 same (two f32mul) ∧
    vecLands (.ffma i o) i 0x20 o 8 same (fun u m => .tile o.td.toNat (State.flipped i.mis (List.zipWith (fun xy z => f32fma xy.1 xy.2 z)
      (List.zip (u.tileAt lid o.ta.toNat) (u.tileAt lid o.tb.toNat)) (u.tileAt lid o.tc.toNat))) m o.mz) ∧
    vecLands (.cvtfi i o) i 0x21 o 6 (conv toInt) (one fun x => BitVec.ofNat 32 (toInt x).bits) ∧
    vecLands (.cvtif i o) i 0x22 o 6 (conv toFloat) (one fun x => BitVec.ofNat 32 (toFloat x).bits)

/-- Reductions of the unmasked elements of rows or columns, after 10 steps, into column 0 or row 0 of a tile of zeros; INT32
sums saturate and are counted (R137, R139, R171). Summaries write general register TD after 12 steps: of the unmasked elements
as binary32 (TYPE 0) or INT32 (TYPE 1), and of a mask over the unmasked elements (R137, R141). Rests on readings and choices of
the model: log entries 14 and 25. -/
def Obligations.VectorReductionsAndSummaries : Prop :=
  (∀ (i : Issue) (o : VecWord),
    let lid := i.lid.toNat
    let same (u : State) (_ : BitVec 256) := u
    let row (u : State) (m : BitVec 256) (r : Nat) := rowElems m (u.tileAt lid o.ta.toNat) r
    let col (u : State) (m : BitVec 256) (c : Nat) := colElems m (u.tileAt lid o.ta.toNat) c
    let put (t : Tile) (m : BitVec 256) : Landing := .tile o.td.toNat (State.flipped i.mis t) m o.mz
    let clip (x : Int) : Int := max (-2147483648) (min 2147483647 x)
    let count (x : State → BitVec 256 → Nat → List (BitVec 32)) (e : Nat → Nat) (u : State) (m : BitVec 256) : State :=
      let n := ((List.range 16).filter fun k => m.getLsbD (e k) && clip (sumInts (x u m k)) != sumInts (x u m k)).length
      if n = 0 then u else u.incF (F.VEC_SAT_COUNT.COUNT lid) n
    let ints (x : State → BitVec 256 → Nat → List (BitVec 32)) (u : State) (m : BitVec 256) : List (BitVec 32) :=
      (List.range 16).map fun k => BitVec.ofInt 32 (clip (sumInts (x u m k)))
    vecLands (.frowsum i o) i 0x28 o 10 same (fun u m => put (inColumn0 ((List.range 16).map fun r => sumF32 (row u m r))) m) ∧
    vecLands (.fcolsum i o) i 0x29 o 10 same (fun u m => put (inRow0 ((List.range 16).map fun c => sumF32 (col u m c))) m) ∧
    vecLands (.frowmax i o) i 0x2A o 10 same (fun u m => put (inColumn0 ((List.range 16).map fun r => maxF32 (row u m r))) m) ∧
    vecLands (.fcolmax i o) i 0x2B o 10 same (fun u m => put (inRow0 ((List.range 16).map fun c => maxF32 (col u m c))) m) ∧
    vecLands (.irowsum i o) i 0x2C o 10 (count row (16 * ·)) (fun u m => put (inColumn0 (ints row u m)) m) ∧
    vecLands (.icolsum i o) i 0x2D o 10 (count col id) (fun u m => put (inRow0 (ints col u m)) m)) ∧
  (∀ (i : Issue) (o : VecWord),
    let lid := i.lid.toNat
    let same (u : State) (_ : BitVec 256) := u
    let xs (u : State) (m : BitVec 256) : List (BitVec 32) :=
      (List.zipIdx (u.tileAt lid o.ta.toNat)).filter (fun e => m.getLsbD e.2) |>.map (·.1)
    let reg (f : State → BitVec 256 → Word) (u : State) (m : BitVec 256) : Landing := .greg o.td.toNat (f u m)
    let typ := VecWordExt o 0 1
    let wide (x : BitVec 32) : Word := x.setWidth 64
    let n (_ : State) (m : BitVec 256) := ((List.range 256).filter fun k => m.getLsbD k).length
    let k (u : State) (m : BitVec 256) :=
      ((List.range 256).filter fun e => m.getLsbD e && (u.maskAt lid (o.ta.toNat % 8)).getLsbD e).length
    (typ = 0 →
      vecLands (.sum i o) i 0x30 o 12 same (reg fun u m => wide (sumF32 (xs u m))) ∧
      vecLands (.sumsq i o) i 0x31 o 12 same (reg fun u m => wide (toF32 (sumFv ((xs u m).map fun x => (ofF32 x).mul (ofF32 x))))) ∧
      vecLands (.max i o) i 0x32 o 12 same (reg fun u m => wide (maxF32 (xs u m))) ∧
      vecLands (.min i o) i 0x33 o 12 same (reg fun u m => wide (minF32 (xs u m))) ∧
      vecLands (.absmax i o) i 0x34 o 12 same
        (reg fun u m => wide (toF32 (((xs u m).map fun x => (ofF32 x).abs).foldl fvMax (.fin false 0 0)))) ∧
      vecLands (.cntnf i o) i 0x35 o 12 same (reg fun u m => BitVec.ofNat 64 ((xs u m).filter fun x => !f32finite x).length) ∧
      vecLands (.cntnz i o) i 0x36 o 12 same (reg fun u m => BitVec.ofNat 64 ((xs u m).filter fun x => !(ofF32 x).isZero).length)) ∧
    (typ = 1 →
      vecLands (.sum i o) i 0x30 o 12 same (reg fun u m => BitVec.ofInt 64 ((xs u m).map BitVec.toInt).sum) ∧
      vecLands (.sumsq i o) i 0x31 o 12 same (reg fun u m =>
        let q := ((xs u m).map fun x => x.toInt.natAbs * x.toInt.natAbs).sum
        if q < 2 ^ 63 then BitVec.ofNat 64 q else Config.sumSquares q) ∧
      vecLands (.max i o) i 0x32 o 12 same (reg fun u m => BitVec.ofInt 64 (((xs u m).map BitVec.toInt).foldl max (-2147483648))) ∧
      vecLands (.min i o) i 0x33 o 12 same (reg fun u m => BitVec.ofInt 64 (((xs u m).map BitVec.toInt).foldl min 2147483647)) ∧
      vecLands (.absmax i o) i 0x34 o 12 same (reg fun u m => BitVec.ofNat 64 (((xs u m).map fun x => x.toInt.natAbs).foldl max 0)) ∧
      vecLands (.cntnz i o) i 0x36 o 12 same (reg fun u m => BitVec.ofNat 64 ((xs u m).filter fun x => x ≠ 0).length)) ∧
    vecLands (.many i o) i 0x37 o 12 same (reg fun u m => if k u m = 0 then 0 else 1) ∧
    vecLands (.mall i o) i 0x38 o 12 same (reg fun u m => if k u m = n u m then 1 else 0) ∧
    vecLands (.mpop i o) i 0x39 o 12 same (reg fun u m => BitVec.ofNat 64 (k u m)))

/-- VLD reads four rows in each of four steps and lands ten steps after its issue; VST uses the port at P + 1 to P + 4 and
writes six steps later (R140, R172, R186). VLDL lands exactly 48 steps after its issue with the bytes loam holds; VSTL converts
at its issue and is in loam by then. Beside the cache, the performance counters and the conversions counted nothing else changes
(R143, R190, R191). On a plot with nothing under way, its pipe free and its address aligned, each carries out its access. Rests
on readings and choices of the model: log entries 14 and 24. -/
def Obligations.TileAccesses : Prop :=
  (∀ (s : State) (i : Issue) (o : VecWord),
    let lid := i.lid.toNat
    let p := s.issueStep i
    let begun (op : Nat) := State.vecBegun op i.slot.toNat o i.mis (s.vecFetched i op o) lid p
    let ready (op : Nat) : Prop := s.issues i (s.vecFetched i op o) ∧ (s.vecFetched i op o).pipeTaken lid p = false ∧
      (begun op).coreFenced lid = false ∧ (begun op).running = true ∧ ((begun op).tileAddress lid o).2.2 = none
    let mask (op : Nat) := (s.vecFetched i op o).maskAt lid o.msk.toNat
    let addr (op : Nat) := ((begun op).tileAddress lid o).1
    let pitch (op : Nat) := ((begun op).tileAddress lid o).2.1
    let fmt := VecWordExt o 20 4
    let blk := VecWordExt o 18 2
    ((Instr.vld i o).wellFormed = true → ready 0x3A →
      ∃ t, exec (.vld i o) s = .next t ∧ t.pending = s.pending ∧ t.man = s.man ∧
        (begun 0x3A).plotOnly t lid { (begun 0x3A).plot lid with
          loads := ((begun 0x3A).plot lid).loads ++ [{
            p0 := p, slot := i.slot.toNat, td := o.td.toNat, fmt := fmt, blk := blk, addr := addr 0x3A, pitch := pitch 0x3A, mask := mask 0x3A, mz := o.mz, got := [] }]
          busyUntil := max ((begun 0x3A).plot lid).busyUntil (p + 10) } []) ∧
    ((Instr.vst i o).wellFormed = true → ready 0x3B →
      ∃ t, exec (.vst i o) s = .next t ∧ t.pending = s.pending ∧ t.man = s.man ∧
        (begun 0x3B).plotOnly t lid { (begun 0x3B).plot lid with
          ports := ((List.range 4).foldl (fun m k => SMap.modify [] m (p + 1 + k)
            (· ++ [⟨tileSpans fmt blk (addr 0x3B) (pitch 0x3B) (4 * k), true, opVector, 0x3B, i.slot.toNat⟩])) ((begun 0x3B).plot lid).ports)
          land := ((begun 0x3B).plot lid).land ++ (List.range 4).map fun k => (p + 7 + k, .store fmt (VecWordExt o 17 1 == 1) blk
            (addr 0x3B) (pitch 0x3B) (4 * k) i.slot.toNat ((begun 0x3B).tileAt lid o.ta.toNat) (mask 0x3B))
          busyUntil := max ((begun 0x3B).plot lid).busyUntil (p + 10) } [])) ∧
  (∀ (s : State) (i : Issue) (o : VecWord) (b : Nat) (offs : List (Nat × Nat)),
    let lid := i.lid.toNat
    let p := s.issueStep i
    let begun (op : Nat) := State.vecBegun op i.slot.toNat o i.mis (s.vecFetched i op o) lid p
    let mask (op : Nat) := (s.vecFetched i op o).maskAt lid o.msk.toNat
    let a (op : Nat) := (begun op).tileAddress lid o
    let fmt := VecWordExt o 20 4
    let spans (op : Nat) := ([0, 4, 8, 12].map fun r => tileSpans fmt (VecWordExt o 18 2) (a op).1 (a op).2.1 r).flatten
    let ready (op : Nat) : Prop := s.issues i (s.vecFetched i op o) ∧ (s.vecFetched i op o).pipeTaken lid p = false ∧
      (begun op).coreFenced lid = false ∧ (begun op).running = true ∧ (a op).2.2 = none ∧
      (begun op).looseSpans lid ((begun op).looseBase lid o) (spans op) = some (b, offs)
    ((Instr.vldl i o).wellFormed = true → ready 0x3C →
      let w := begun 0x3C
      ∃ t, exec (.vldl i o) s = .next t ∧ t.pending = s.pending ∧ t.man = s.man ∧
        (t.plot lid).land = (w.plot lid).land ++ [(p + 48, .tile o.td.toNat
          ((loadedWords fmt (offs.map fun q => w.loamRead lid p q.1 q.2)).map fun c => BitVec.ofNat 32 c.bits) (mask 0x3C) o.mz)] ∧
        (t.plot lid).loosePend = (w.plot lid).loosePend ++ [(p, i.slot.toNat, opVector, 0x3C, (a 0x3C).1)] ∧
        (∀ k, k ≠ lid → t.plot k = w.plot k) ∧ { t.mem with cache := w.mem.cache } = w.mem ∧ t.win = w.win ∧
        w.fieldsBut t (F.CACHE_MISSES.COUNT lid :: F.CONV_SAT_COUNT.COUNT lid :: F.CONV_NONFINITE_COUNT.COUNT lid :: perfFields lid)) ∧
    ((Instr.vstl i o).wellFormed = true → ready 0x3D → (offs.any fun q => (begun 0x3D).loamWriteBad q.1 q.2) = false →
      let w := begun 0x3D
      ∃ t x, exec (.vstl i o) s = .next t ∧ t.pending = s.pending ∧ t.man = s.man ∧
        (t.plot lid).stores = (w.plot lid).stores ++ [⟨p + 48, x⟩] ∧ (∀ y ∈ x, ∃ q ∈ offs, y.1 = q.1) ∧
        (VecWordExt o 17 1 = 0 →
          let per := if isMx fmt then 2 else 1
          let rows := if isMx fmt then (List.range 8).map (2 * ·) else List.range 16
          x = (rows.zipIdx.map fun r => (State.looseTileBytes fmt (List.replicate (16 * per) .rne) r.1 (w.tileAt lid o.ta.toNat)
            (mask 0x3D) ((offs.drop (per * r.2)).take per)).1).flatten) ∧
        (t.plot lid).loosePend = (w.plot lid).loosePend ++ [(p, i.slot.toNat, opVector, 0x3D, (a 0x3D).1)] ∧
        (∀ k, k ≠ lid → t.plot k = w.plot k) ∧ { t.mem with cache := w.mem.cache } = w.mem ∧ t.win = w.win ∧
        w.fieldsBut t (F.CONV_SAT_COUNT.COUNT lid :: F.CONV_NONFINITE_COUNT.COUNT lid :: perfFields lid))) ∧
  (∀ (s : State) (i : Issue) (o : VecWord),
    let lid := i.lid.toNat
    let p := s.issueStep i
    let x := s.plot lid
    let fmt := VecWordExt o 20 4
    let blk := VecWordExt o 18 2
    let a := s.tileAddress lid o
    let mask := s.maskAt lid o.msk.toNat
    let fetched (op : Nat) : PlotSt := { x with
      now := p, crc := crcRun 0x82F63B78 (leBytes 8 (i.raw opVector op o.bits)) x.crc, fetched := x.fetched + 1
      pipeFree := p + (if s.isV lid then 1 else 4) }
    let counted := F.WORDS_ISSUED.COUNT lid :: F.TILE_OPS.COUNT lid :: perfFields lid
    i.mis = [] → s.canIssue i = true → State.quiet x = true →
    x.pipeFree ≤ p → a.2.2 = none →
      ((Instr.vld i o).wellFormed = true → ∃ t, exec (.vld i o) s = .next t ∧
        s.plotOnly t lid { fetched 0x3A with
          loads := [{
            p0 := p, slot := i.slot.toNat, td := o.td.toNat, fmt := fmt, blk := blk, addr := a.1, pitch := a.2.1, mask := mask, mz := o.mz
            got := [] }]
          busyUntil := max x.busyUntil (p + 10) } counted) ∧
      ((Instr.vst i o).wellFormed = true → ∃ t, exec (.vst i o) s = .next t ∧
        s.plotOnly t lid { fetched 0x3B with
          ports := (List.range 4).foldl (fun m k => SMap.modify [] m (p + 1 + k)
            (· ++ [⟨tileSpans fmt blk a.1 a.2.1 (4 * k), true, opVector, 0x3B, i.slot.toNat⟩])) []
          land := (List.range 4).map fun k => (p + 7 + k, .store fmt (VecWordExt o 17 1 == 1) blk a.1 a.2.1 (4 * k) i.slot.toNat
            (s.tileAt lid o.ta.toNat) mask)
          busyUntil := max x.busyUntil (p + 10) } counted) ∧
      (∀ (b : Nat) (offs : List (Nat × Nat)),
        s.looseSpans lid (s.looseBase lid o) ([0, 4, 8, 12].map fun r => tileSpans fmt blk a.1 a.2.1 r).flatten = some (b, offs) →
        ((Instr.vldl i o).wellFormed = true → ∃ t, exec (.vldl i o) s = .next t ∧
          (t.plot lid).land = [(p + 48, .tile o.td.toNat
            ((loadedWords fmt (offs.map fun q => s.loamGet (s.siteOf lid) q.1 q.2)).map fun c => BitVec.ofNat 32 c.bits) mask o.mz)] ∧
          (t.plot lid).loosePend = [(p, i.slot.toNat, opVector, 0x3C, a.1)] ∧ (∀ k, k ≠ lid → t.plot k = s.plot k) ∧
          { t.mem with cache := s.mem.cache } = s.mem ∧ t.win = s.win ∧ t.recs = s.recs ∧
          s.fieldsBut t (F.CACHE_MISSES.COUNT lid :: F.CONV_SAT_COUNT.COUNT lid :: F.CONV_NONFINITE_COUNT.COUNT lid :: counted)) ∧
        ((Instr.vstl i o).wellFormed = true → (offs.any fun q => s.loamWriteBad q.1 q.2) = false →
          ∃ t ws, exec (.vstl i o) s = .next t ∧ (t.plot lid).stores = [⟨p + 48, ws⟩] ∧ (∀ y ∈ ws, ∃ q ∈ offs, y.1 = q.1) ∧
            (t.plot lid).loosePend = [(p, i.slot.toNat, opVector, 0x3D, a.1)] ∧ (∀ k, k ≠ lid → t.plot k = s.plot k) ∧
            { t.mem with cache := s.mem.cache } = s.mem ∧ t.win = s.win ∧ t.recs = s.recs ∧
            s.fieldsBut t (F.CONV_SAT_COUNT.COUNT lid :: F.CONV_NONFINITE_COUNT.COUNT lid :: counted))))

/-- SFU on a V-plot: every unmasked element of TD becomes FUNC of that of TA after 16 steps; the unit takes one word in four
steps (R136, R137, R142). On a plot with nothing under way and its unit free it does so. Rests on readings and choices of the
model: log entry 22. -/
def Obligations.SpecialFunctions : Prop :=
  (∀ (s : State) (i : Issue) (o : VecWord),
    let lid := i.lid.toNat
    let u := s.vecFetched i 0x3E o
    let p := s.issueStep i
    let w := State.sfuBegun i.slot.toNat o i.mis u lid p
    (Instr.sfu i o).wellFormed = true → s.isV lid = true → s.issues i u → (u.plot lid).sfuFree ≤ p → w.coreFenced lid = false →
    w.running = true →
    (∃ t, exec (.sfu i o) s = .next t ∧ t.pending = s.pending ∧ t.man = s.man ∧
      w.landsOn t lid (p + 16) (.tile o.td.toNat
        (State.flipped i.mis ((w.tileAt lid o.ta.toNat).map (sfuElem (VecWordExt o 0 3)))) (u.maskAt lid o.msk.toNat) o.mz)) ∧
    (i.mis = [] → (w.plot lid).sfuFree = p + 4)) ∧
  (∀ (s : State) (i : Issue) (o : VecWord),
    let lid := i.lid.toNat
    let p := s.issueStep i
    let x := s.plot lid
    i.mis = [] → s.canIssue i = true → State.quiet x = true → s.isV lid = true → x.sfuFree ≤ p → (Instr.sfu i o).wellFormed = true →
    ∃ t, exec (.sfu i o) s = .next t ∧
      s.plotOnly t lid { x with
        now := p, crc := crcRun 0x82F63B78 (leBytes 8 (i.raw opVector 0x3E o.bits)) x.crc, fetched := x.fetched + 1
        sfuFree := p + 4
        land := [(p + 16, .tile o.td.toNat ((s.tileAt lid o.ta.toNat).map (sfuElem (VecWordExt o 0 3))) (s.maskAt lid o.msk.toNat) o.mz)] }
        (F.WORDS_ISSUED.COUNT lid :: F.SFU_OPS.COUNT lid :: perfFields lid))

/-- WLOAD clears the shadow plane and feeds it for 128 steps, READY 136 steps after the issue; SWAP exchanges the planes (R82,
R83, R93). ROWS, TROWS, OACC and EDIAG stream COUNT rows, ODRAIN 128: the feed begins at the issue, with its operands'
addresses, pitches and formats; a stream of no rows is one EMPTY outcome; OACC with CLR starts a new accumulator plane (R84,
R87-R93, R100, R168). Rests on readings and choices of the model: log entry 15. -/
def Obligations.ArrayWords : Prop :=
  (∀ (s : State) (i : Issue) (o : ArrayWord),
    let lid := i.lid.toNat
    let p := s.issueStep i
    (let u := s.arrayFetched i mWload o
     let reg := (u.gregAt lid o.ra.toNat).toNat
     (Instr.wload i o).wellFormed = true → s.isV lid = false → s.issues i u → u.arrayRefusal lid p mWload o = none →
     ∃ t f, exec (.wload i o) s = .next t ∧ t.pending = s.pending ∧ t.man = s.man ∧
       u.plotOnly t lid { u.plot lid with
         mode := 6, shadow := { Plane.empty with state := 1, fmt := o.fmtA.toNat }, readyAt := p + 136, loadFree := p + 128
         feeds := (u.plot lid).feeds ++ [f] } [] ∧
       f.mode = 6 ∧ f.p0 = p ∧ f.count = 128 ∧ f.next = 0 ∧ f.srcA = reg % 2 ^ 32 ∧ f.strideA = reg / 2 ^ 32 ∧ f.fmtA = o.fmtA.toNat) ∧
    (let u := s.arrayFetched i mSwap o
     (Instr.swap i o).wellFormed = true → s.isV lid = false → s.issues i u → (u.plot lid).shadow.state = 2 →
     (∀ x, (u.plot lid).feedEnd = some x → x.1 < p) → p < 48 * u.step.length →
     ∃ t, exec (.swap i o) s = .next t ∧ t.pending = s.pending ∧ t.man = s.man ∧
       u.plotOnly t lid { u.plot lid with mode := 7, active := (u.plot lid).shadow, shadow := (u.plot lid).active } [])) ∧
  (∀ (s : State) (i : Issue) (o : ArrayWord) (c : Instr) (mode : Nat),
    (c, mode) ∈ [(.rows i o, mRows), (.trows i o, mTrows), (.oacc i o, mOacc), (.ediag i o, mEdiag), (.odrain i o, mOdrain)] →
    let lid := i.lid.toNat
    let p := s.issueStep i
    let u := s.arrayFetched i mode o
    let reg (r : BitVec 5) : Nat := (u.gregAt lid r.toNat).toNat
    let n := if mode = mOdrain then 128 else if o.csrc then o.cimm.toNat else reg o.rc
    let f : Feed := {
      mode := mode, p0 := p, slot := i.slot.toNat, count := n, next := 0, gotA := [], gotB := [],
      srcA := reg o.ra % 2 ^ 32, strideA := reg o.ra / 2 ^ 32, srcB := reg o.rb % 2 ^ 32, strideB := reg o.rb / 2 ^ 32,
      fmtA := o.fmtA.toNat, fmtB := o.fmtB.toNat, dst := reg o.rd % 2 ^ 32, dstStride := reg o.rd / 2 ^ 32,
      outFmt := o.outFmt.toNat, acc := o.acc, rnd := o.rnd, clr := o.clr }
    let last := p + feedLength (f.half (u.plot lid).active.fmt) n
    c.wellFormed = true → s.isV lid = false → s.issues i u → u.arrayRefusal lid p mode o = none →
    ∃ t, exec c s = .next t ∧ t.pending = s.pending ∧ t.man = s.man ∧
      u.plotOnly t lid { u.plot lid with
        mode := mode, feedEnd := some (last, mode), feeds := (u.plot lid).feeds ++ (if n = 0 then [] else [f])
        accp := if mode = mOacc ∧ o.clr then AccPlane.start ((pairClass f.fmtA f.fmtB).getD 1) else (u.plot lid).accp }
        (F.CHK_COUNT.COUNT lid 1 :: F.CHK_SUM.COUNT 1 :: perfFields lid) ∧
      t.getF (F.CHK_COUNT.COUNT lid 1) = (if n = 0 then (u.getF (F.CHK_COUNT.COUNT lid 1) + 1) % 2 ^ 48 else u.getF (F.CHK_COUNT.COUNT lid 1)))

/-- MCOPY and MFILL occupy the mover for one step per group of grains and move LEN grains from then on; a copy from loam slips
the plot by its largest correction (R31, R173, R174). Rests on readings and choices of the model: log entry 20. -/
def Obligations.MoverWords : Prop :=
  ∀ (s : State) (i : Issue) (o : MoverWord) (c : Instr) (op : Nat),
    (c, op) ∈ [(.mcopy i o, 1), (.mfill i o, 2)] →
    let lid := i.lid.toNat
    let p := s.issueStep i
    let u := s.moverFetched i op o
    let reg (r : BitVec 5) : Nat := (u.gregAt lid r.toNat).toNat
    let len := if o.lsrc then o.len.toNat else reg o.gl
    let loam := decide (o.ssp = 1) || decide (o.dsp = 1)
    let rate := if loam then 8 else 32
    let slip := if op = 1 ∧ o.ssp = 1 then State.loamSlip i.mis else 0
    let x : Transfer := {
      p0 := p, slot := i.slot.toNat, ssp := if op = 2 then 3 else o.ssp.toNat, dsp := o.dsp.toNat, src := reg o.gs % 2 ^ 32,
      dst := reg o.gd % 2 ^ 32, len := len, rate := rate, lat := if loam then 40 else 12, fill := u.gregAt lid o.gs.toNat,
      pageIn := if o.aprev then (u.furrow + 2 ^ 48 - 1) % 2 ^ 48 else u.furrow, pageOut := u.furrow, got := [] }
    c.wellFormed = true → s.issues i u → u.moverRefusal lid p op o len (reg o.gs % 2 ^ 32) (reg o.gd % 2 ^ 32) = none →
    ∃ t, exec c s = .next t ∧ t.pending = s.pending ∧ t.man = s.man ∧
      t.plot lid = { u.plot lid with
        moverFree := p + max 1 ((len + rate - 1) / rate), moves := (u.plot lid).moves ++ (if len = 0 then [] else [x]) } ∧
      (∀ k, k ≠ lid → t.plot k = u.plot k) ∧ t.mem = u.mem ∧ t.win = u.win ∧
      u.fieldsBut t (F.SLIP_COUNT.COUNT (u.regionOf lid) :: perfFields lid) ∧
      SMap.get 0 t.step.slip lid = SMap.get 0 u.step.slip lid + slip

/-- The shadow plane's READY, the row outcome, the loose-access bound and the vote result at their steps (R75, R76, R82, R100,
R143). Rests on readings and choices of the model: log entries 15 and 6. -/
def Obligations.PlotEvents : Prop :=
  ∀ (s : State) (l : BitVec 24),
    let lid := l.toNat
    ((s.plot lid).shadow.state = 1 → s.atWork lid (s.plot lid).readyAt = true →
      let u := s.advanceTo lid (s.plot lid).readyAt
      u.running = true →
      ∃ t, exec (.shadowReady l) s = .next t ∧ t.pending = s.pending ∧ t.man = s.man ∧
        u.plotOnly t lid { u.plot lid with now := max (u.plot lid).now (s.plot lid).readyAt } []) ∧
    ((s.plot lid).shadow.state = 1 → (s.plot lid).atRest → (s.plot lid).now = (s.plot lid).readyAt →
      s.atWork lid (s.plot lid).readyAt = true →
      ∃ t, exec (.shadowReady l) s = .next t ∧ t.pending = s.pending ∧ t.man = s.man ∧
        s.plotOnly t lid { s.plot lid with shadow := State.buildPlane (s.plot lid).shadow } []) ∧
    (∀ (slot : BitVec 6) (row : BitVec 24) (flips : List (BitVec 8 × BitVec 32)) (disagree : Bool) (fl : RowFlight),
      let p := 48 * (s.step.granted - 1) + slot.toNat
      let flip (v : List (BitVec 32)) (f : BitVec 8 × BitVec 32) := v.set f.1.toNat (v.getD f.1.toNat 0 ^^^ f.2)
      let vals := flips.foldl flip fl.vals
      let checked : RowFlight := flips.foldl (fun fl f =>
        if f.1 = 128 then { fl with cF := fl.cF ^^^ f.2, cI := (BitVec.ofInt 64 fl.cI ^^^ f.2.setWidth 64).toInt }
        else if f.1 = 129 then { fl with aF := fl.aF ^^^ f.2 } else fl) fl
      let verdict := (rowOutcome checked vals (s.checkShift fl.cls) disagree).1
      slot.toNat < 48 → s.atWork lid p = true → (s.plot lid).now = p → (s.plot lid).flight = [fl] → fl.due = p →
      fl.row = row.toNat → s.rowOf lid < 512 → s.getF F.CHECK_CFG.ACTION = 0 →
      ∃ t, exec (.arrayRowOutcome l slot row flips disagree []) s = .next t ∧ (t.plot lid).flight = [] ∧
        t.getF (F.CHK_COUNT.COUNT lid verdict) = (s.getF (F.CHK_COUNT.COUNT lid verdict) + 1) % 2 ^ 48 ∧
        (fl.outFmt = 13 ∨ fl.outFmt = 0 → fl.acc = false →
          t.mem = (s.padPut lid fl.dst (packElems 32 (vals.map BitVec.toNat))).mem) ∧
        (verdict = 2 → s.coreFailed t lid 0x0201) ∧ (verdict ≠ 2 → t.recs = s.recs ∧ t.step = s.step)) ∧
    (∀ (q slot unit op a : Nat) (more : List (Nat × Nat × Nat × Nat × Nat)),
      let u := s.advance lid (q + 48)
      (s.plot lid).loosePend = (q, slot, unit, op, a) :: more → s.atWork lid (q + 48) = true →
      (u.coreFenced lid = false → u.running = true →
        ∃ t, exec (.looseAccessOverrun l) s = .next t ∧ u.coreFailed t lid 0x0302) ∧
      ((s.plot lid).now = q + 48 →
        ∃ t, exec (.looseAccessOverrun l) s = .next t ∧ s.coreFailed t lid 0x0302 ∧ t.mem = s.mem ∧ t.win = s.win)) ∧
    (∀ (k : BitVec 4) (g : BitVec 8) (v : VoteSt),
      s.running = true → s.fab.votes.filter (fun v => v.chan == k.toNat) = [v] → furrowAdd v.furrow 6 = s.furrow →
      (∃ t, exec (.voteResult k ⟨g, false⟩) s = .next t ∧
        SMap.find? t.fab.readable k.toNat = some (v.acc, s.votePoisoned k.toNat, s.furrow) ∧
        t.getF (F.VOTE_RESULT.VALUE k.toNat) = (if v.acc then 1 else 0) ∧
        t.getF (F.VOTE_RESULT.POISONED k.toNat) = (if s.votePoisoned k.toNat then 1 else 0) ∧
        t.fab.votes = s.fab.votes.filter (fun x => x.chan != k.toNat) ∧ t.recs = s.recs ∧ t.step = s.step) ∧
      (∃ t r, exec (.voteResult k ⟨g, true⟩) s = .next t ∧ t.recs = s.recs ++ [r] ∧ r.code = 0x0404 ∧ r.srcType = srcRegion ∧
        r.srcId = g.toNat ∧ r.unit = some (unitRegion, g.toNat) ∧ r.abandoned = true ∧
        t.step.fault.isSome = true ∧ t.fab = (s.deliverVotes k.toNat).fab))

/-- The end of slot 47 (R149, R153): a signature that matches changes nothing but the register over the words and, at a fork
furrow, the variant that the fork register names; a signature that does not match, or a variant past the last, fences the core.
-/
def Obligations.FurrowSlotsEnd : Prop :=
  ∀ (s : State) (l : BitVec 24),
    let lid := l.toNat
    let u := s.advance lid (48 * s.step.granted)
    let w := u.modPlot lid fun x => { x with crc := 0xFFFFFFFF, fetched := 0 }
    let fork := forkAhead (u.slotMem lid) 32768 (bitsOf (u.slotMem lid u.step.program) 0 15) u.step.granted
    let matches' := crc32c (wordsBytes (u.furrowWords lid)) = (u.plot lid).crc ^^^ 0xFFFFFFFF
    s.atWork lid (48 * s.step.granted - 1) = true → s.step.judged = false → s.hasProgram lid = true → u.coreFenced lid = false →
    u.running = true →
    (matches' → fork = none → exec (.furrowSlotsEnd l ⟨[], []⟩) s = .next { w with pending := s.pending, man := s.man }) ∧
    (matches' → ∀ x, fork = some x →
      let v := (u.gregAt lid (bitsOf x 0 5)).toNat % 4
      let f := bitsOf x 24 8
      (v < bitsOf x 5 3 → ∃ t, exec (.furrowSlotsEnd l ⟨[], []⟩) s = .next t ∧ t.recs = u.recs ∧
        w.plotOnly t lid { w.plot lid with variants := SMap.ins (w.plot lid).variants f v, lastFork := f }
          [F.FORKS_TAKEN.COUNT lid v, F.CTL_STATUS.LAST_VARIANT lid, F.CTL_STATUS.LAST_FORK lid] ∧
        t.getF (F.CTL_STATUS.LAST_VARIANT lid) = v ∧ t.getF (F.CTL_STATUS.LAST_FORK lid) = f) ∧
      (bitsOf x 5 3 ≤ v → ∃ t, exec (.furrowSlotsEnd l ⟨[], []⟩) s = .next t ∧ u.coreFailed t lid 0x0207)) ∧
    (¬ matches' → ∃ t, exec (.furrowSlotsEnd l ⟨[], []⟩) s = .next t ∧ u.coreFailed t lid 0x0205 ∧
      t.getF (F.SIGNATURE_FAIL.COUNT lid) = min (u.getF (F.SIGNATURE_FAIL.COUNT lid) + 1) (2 ^ 48 - 1))

/-- A core fault in an attempt, on a core in service: its record waits with ABANDONED and FENCED set, the attempt is marked, the
core is fenced, a substitution is due, and no other register, no plot, no memory and no window byte changes (R51, R321, R334).
-/
def Obligations.CoreFault : Prop :=
  ∀ (s : State) (lid : Nat) (a : FaultArgs), s.inAttempt = true → s.coreFenced lid = false → a.abandons = true →
    let t := s.coreFault lid a
    s.coreFailed t lid a.code ∧ s.fieldsBut t [F.REPAIR_STATUS.SUBST_PENDING, F.REPAIR_STATUS.DEGRADED] ∧
    t.plots = s.plots ∧ t.mem = s.mem ∧ t.win = s.win ∧ t.queues = s.queues ∧ t.ports = s.ports ∧
    (∀ k, k / 10 ≠ s.siteOf lid / 10 → t.siteState k = s.siteState k)

/-- Index frames: a good frame with the right index changes nothing but the count of bad frames; a frame that fails its CRC is
counted, the second in a row loses the meridian; a wrong index loses it; without lock, two good frames 4,096 apart lock the
counter to the second (R16-R19). No reference edge for 64 periods, or the multiplier out of lock: with lock held and no attempt
under way the meridian is lost, counted and recorded as 0x0405 with its trigger (R18). Rests on readings and choices of the
model: log entry 6. -/
def Obligations.Meridian : Prop :=
  (∀ (s : State) (n : BitVec 32) (w : BitVec 128),
    let v := ({ s with time := { s.time with refRunning := true } }).elapse n.toNat
    let f := Frame.read w
    let lost (u : State) : Prop := u.locked = false ∧ u.time.loss = true ∧
      u.getF F.MERIDIAN_STATUS.LOSS_COUNT = min (s.getF F.MERIDIAN_STATUS.LOSS_COUNT + 1) (2 ^ 16 - 1)
    s.inTol 4 = true → s.booting = false → s.dusk = none → s.inAttempt = false →
    (s.locked = true → f.ok = true → f.holdover = false → f.index = v.meridian →
      s.does (.meridianFrame n w) fun u =>
        { u with boot := v.boot, hist := v.hist } = { v with time := { v.time with badFrames := 0 } }) ∧
    (s.locked = true → f.ok = true → f.index ≠ v.meridian → s.does (.meridianFrame n w) lost) ∧
    (s.locked = true → f.ok = false →
      s.does (.meridianFrame n w) fun u =>
        u.getF F.MERIDIAN_STATUS.CRC_ERR_COUNT = min (s.getF F.MERIDIAN_STATUS.CRC_ERR_COUNT + 1) (2 ^ 16 - 1) ∧
        (s.time.badFrames = 0 → u.locked = true ∧ u.time.badFrames = 1) ∧ (0 < s.time.badFrames → lost u)) ∧
    (s.locked = false → f.ok = true → ∀ a, s.time.firstFrame = some a → f.index = a + 4096 →
      s.does (.meridianFrame n w) fun u => u.meridian = f.index ∧ u.locked = true ∧ u.time.loss = false ∧ u.time.firstFrame = none)) ∧
  (∀ s : State, s.locked = true → s.inAttempt = false → s.dusk = none →
    let lost (trigger : Nat) (u : State) : Prop := u.locked = false ∧ u.time.loss = true ∧
      u.getF F.MERIDIAN_STATUS.LOSS_COUNT = min (s.getF F.MERIDIAN_STATUS.LOSS_COUNT + 1) (2 ^ 16 - 1) ∧
      ∃ r ∈ u.recs, r.code = 0x0405 ∧ r.d6 = trigger ∧ r.classifiable = false
    s.does .meridianReferenceTimeout (fun u => u.time.refRunning = false ∧ lost 0 u) ∧ s.does .multiplierLockLoss (lost 1))

/-- The eight terms are sampled once for the coming boundary, no earlier than its sampling point; where no furrow of a running
step would begin, STEP is 0, the four terms of a step and the last one are 1, and PACE and LOCK are as they stand (R23, R24,
R27). A standby with TWIN_LOCK samples none (R39). Rests on readings and choices of the model: log entry 6. -/
def Obligations.GrantSample : Prop :=
  ∀ s : State, s.time.refRunning = true → s.time.sampled = false →
    let at0 := s.nextBoundary - s.getF F.FURROW_CFG.GRANT_EVAL_MT
    let v := if s.meridian < at0 then s.keepF F.MERIDIAN_COUNT.COUNT at0 else s
    ((v.followsTwin && !v.running) = true → s.does .grantSample fun u => u = { v with time := { v.time with sampled := true } }) ∧
    ((v.followsTwin && !v.running) = false → s.does .grantSample fun u =>
      u.time.sampled = true ∧ u.step.phase = s.step.phase ∧ u.step.granted = s.step.granted ∧
      u.meridian = v.meridian ∧ u.furrow = s.furrow ∧ u.getF F.GRANT_STATUS.TERMS = v.terms v.nextBoundary ∧
      (s.stepTerm = false → u.getF F.GRANT_STATUS.TERMS = 2 + 4 + 8 + 16 + 128 + (if s.locked then 64 else 0) +
        (if v.pacePermits (s.getF F.PACE_STATUS.EFFECTIVE) v.nextBoundary then 32 else 0)))

/-- A furrow boundary: outside a step it is counted as held by STEP and nothing is granted; in a running step without a fault,
all terms true begin the next furrow and advance the furrow index, a term latched false holds it; at LENGTH the step takes its
horizon. The coming boundary is the first meridian count after the present one on which FURROW_MT counts from FURROW_PHASE
(R20-R25, R342). Rests on readings and choices of the model: log entry 11. -/
def Obligations.FurrowBoundaries : Prop :=
  ∀ s : State, s.time.refRunning = true → s.time.sampled = true → s.time.notices = [] →
    let b := s.nextBoundary
    let terms := s.getF F.GRANT_STATUS.TERMS
    let v := ({ (s.keepF F.MERIDIAN_COUNT.COUNT b) with time := { s.time with sampled := false } }).endSlots
    (s.inAttempt = false →
      s.does .furrowBoundary fun u => u.meridian = b % 2 ^ 64 ∧ u.time.sampled = false ∧ u.getF F.GRANT_STATUS.GRANTED = 0 ∧
        u.getF (F.HOLD_BY_TERM.COUNT 0) = (s.getF (F.HOLD_BY_TERM.COUNT 0) + 1) % 2 ^ 48 ∧ u.furrow = s.furrow ∧ u.step = s.step) ∧
    (v.running = true → v.step.fault = none → v.step.granted < v.step.length → terms = 255 →
      s.does .furrowBoundary fun u => u.step.granted = v.step.granted + 1 ∧ u.furrow = furrowAdd v.furrow 1 ∧
        u.getF F.GRANT_STATUS.GRANTED = 1 ∧ u.step.judged = false ∧ u.running = true) ∧
    (v.running = true → v.step.fault = none → v.step.granted < v.step.length → terms ≠ 255 → bitOf terms 0 = true →
      s.does .furrowBoundary fun u => u.step.granted = v.step.granted ∧ u.furrow = v.furrow ∧ u.getF F.GRANT_STATUS.GRANTED = 0 ∧
        u.running = true ∧ u.plots = v.plots ∧ u.mem = v.mem ∧
        (∀ i ∈ [1, 2, 3, 4, 5, 6], u.getF (F.HOLD_BY_TERM.COUNT i) =
          if bitOf terms i then v.getF (F.HOLD_BY_TERM.COUNT i) else (v.getF (F.HOLD_BY_TERM.COUNT i) + 1) % 2 ^ 48)) ∧
    (v.running = true → v.step.fault = none → v.step.granted = v.step.length →
      s.does .furrowBoundary fun u => u.step.phase = .closing ∧ u.step.granted = v.step.granted ∧ u.plots = v.plots) ∧
    (40 ≤ s.getF F.FURROW_CFG.FURROW_MT → s.getF F.FURROW_CFG.FURROW_PHASE ≤ s.meridian + s.getF F.FURROW_CFG.FURROW_MT →
      let on (m : Nat) : Prop := ((m : Int) - s.getF F.FURROW_CFG.FURROW_PHASE) % s.getF F.FURROW_CFG.FURROW_MT = 0
      s.meridian < s.nextBoundary ∧ on s.nextBoundary ∧ ∀ m, s.meridian < m → m < s.nextBoundary → ¬ on m)

/-- Holds past HOLD_LIMIT end the step, whose attempt is abandoned (R26). An abandonment returns every register written since
the step start but those it leaves apart, clears DIRTY, the fabric and what is under way in the plots, and leaves the block out
of the step (R7, R77, R195, R343). Rests on readings and choices of the model: log entries 42 and 56. -/
def Obligations.HoldLimitAndAbandonment : Prop :=
  (∀ s : State, s.running = true → (∃ i ∈ [1, 2, 3, 4], s.getF F.HOLD_LIMIT.LIMIT < SMap.get 0 s.step.holdRun i) →
    s.does .holdLimitFault fun u =>
      u.step.phase = .idle ∧ u.step.fault = none ∧ u.mem.dirty = [] ∧ u.base = none ∧ u.fab = FabricSt.zero ∧
      (∀ i ∈ [1, 2, 3, 4], s.getF F.HOLD_LIMIT.LIMIT < SMap.get 0 s.step.holdRun i →
        ∃ r ∈ u.recs, r.kind = 2 ∧ r.code = (if i = 4 then 0x0502 else 0x0405 + i) ∧ r.abandoned = true ∧
          r.d6 = SMap.get 0 s.step.holdRun i % 2 ^ 32) ∧
      (∀ i, s.step.q0idx = some i → ⟨i, 0x000C, s.step.stepS, false⟩ ∈ (u.queue 0).fin)) ∧
  (∀ (s : State) (f : Fld) (b : SMap Nat), s.inAttempt = true → s.base = some b →
    let u := s.abandon
    u.step.phase = .idle ∧ u.step.fault = none ∧ u.step.staged = [] ∧ u.mem.dirty = [] ∧ u.base = none ∧ u.fab = FabricSt.zero ∧
      u.mem.cur = s.mem.cur ∧ u.mem.loam = s.mem.loam ∧
      (∃ r ∈ u.recs, r.kind = 1 ∧ r.code = 0x0002 ∧ r.d4 = s.step.stepS ∧ r.d5 = s.step.fault.getD 0) ∧
      (∀ i, s.step.q0idx = some i → ⟨i, 0x000C, s.step.stepS, false⟩ ∈ (u.queue 0).fin) ∧
      (f ∈ [F.HV_STATUS.COMMITTED_S, F.CKPT_STATUS.STEPS_SINCE, F.MEM_STATUS.CLOSE_NS] → u.getF f = fldGet b f ∧ u.pubF f = s.pubF f))

/-- The generator of a region reads its four monitors before a period, keeps the lowest, and stretches by 8/8 below
MARGIN_FLOOR, by 4/8 below STRETCH_THRESH; a code below the floor after a full stretch, or with the derated clock, is fault
0x0501 (R28, R29). Only the stretch of a period of a furrow's slots delays its plots (R32). Rests on readings and choices of the
model: log entry 6. -/
def Obligations.LocalClocks : Prop :=
  ∀ (s : State) (n : BitVec 8) (codes : BitVec 32),
    let k := n.toNat
    let low := ([0, 8, 16, 24].map fun i => bitsOf codes.toNat i 8).foldl min 255
    let floor := s.getF (F.CLK_CFG.MARGIN_FLOOR k)
    let thresh := s.getF (F.CLK_CFG.STRETCH_THRESH k)
    let add := if low < floor then 8 else if low < thresh then 4 else 0
    let derated := s.getF F.FURROW_CFG.CLOCK_POLICY = 1
    let bad := low < floor ∧ (derated ∨ NSet.mem s.time.full k = true)
    let counts := ¬ derated ∧ s.running = true ∧ s.step.judged = false
    ∀ c ∈ [Instr.periodStretch n codes, Instr.marginFault n codes], s.does c fun u =>
      u.getF (F.MARGIN_NOW.CODES k) = codes.toNat ∧ u.getF (F.MARGIN_NOW.LOWEST k) = low ∧
      (bad → ∃ r, u.recs = s.recs ++ [r] ∧ r.code = 0x0501 ∧ r.unit = some (unitRegion, k) ∧ bitsOf r.d6 0 8 = low ∧
        (s.inAttempt = true → r.abandoned = true ∧ u.step.fault.isSome = true)) ∧
      (¬ bad → u.recs = s.recs ∧ u.step.fault = s.step.fault) ∧
      SMap.get 0 u.step.stretch k = SMap.get 0 s.step.stretch k + (if counts then add else 0) ∧
      (NSet.mem u.time.full k = true ↔ if derated then NSet.mem s.time.full k = true else low < floor) ∧
      u.getF (F.STRETCH_COUNT.COUNT k) = (if derated ∨ add = 0 then s.getF (F.STRETCH_COUNT.COUNT k)
        else (s.getF (F.STRETCH_COUNT.COUNT k) + 1) % 2 ^ 48)

/-- A route word takes its grains from a link's page, the send page or the loam stream, and puts them in the arrival page, the
loam stream, the neighbour's page or the edge's; a page that lacks a grain is fault 0x0402 or 0x0403 (R62, R63, R66, R69, R198).
Rests on readings and choices of the model: log entry 37. -/
def Obligations.RouteWords : Prop :=
  ∀ (s : State) (site : BitVec 13) (word : BitVec 8) (lid a : Nat),
    let p := site.toNat
    let j := word.toNat
    let w := s.routeMem lid (a + 1 + j)
    let n := bitsOf w 26 10
    let inp := bitsOf w 3 3
    let out := bitsOf w 0 3
    let g := bitsOf w 16 10
    let v := { s with fab := { s.fab with sent := NSet.insert s.fab.sent (256 * p + j) } }
    let input := if inp = 5 then (v.streamInput lid g n, none) else v.routeInput lid p inp (bitsOf w 6 10) n
    let done := v.portDone lid p out
    let m := s.furrow
    p < 5120 → s.running = true → 0 < s.step.granted → s.step.judged = false → s.siteState p ≠ 3 → s.lidOfSite p = some lid →
    s.routeGroup lid (s.step.granted - 1) = some a → j < bitsOf (s.routeMem lid a) 0 8 → NSet.mem s.fab.sent (256 * p + j) = false →
    (input.2 = none → 0 < n → s.does (.routeWord site word []) fun u =>
      s.fieldsBut u [F.POISON_COUNT.COUNT p, F.GRAINS_SENT.COUNT p out] ∧ u.plots = s.plots ∧ u.mem = s.mem ∧ u.recs = s.recs ∧
      (out = 4 → s.coreFenced lid = false → u.fab = { v.fab with arrive := State.pagePut v.fab.arrive (2 * p + m % 2) m g false input.1 }) ∧
      (out = 4 → s.coreFenced lid = true → u.fab = v.fab) ∧
      (out = 5 → ∃ ws, u.fab = { v.fab with loamOut := v.fab.loamOut ++ ws } ∧ ws.length = input.1.length) ∧
      (out < 4 → u.getF (F.GRAINS_SENT.COUNT p out) = (s.getF (F.GRAINS_SENT.COUNT p out) + input.1.length) % 2 ^ 48 ∧
        (∀ h link, s.edgeLink lid out = some (h, link) →
          u.fab = { v.fab with edge := State.pagePut v.fab.edge (State.edgeKey h link m) m g done input.1 }) ∧
        (s.edgeLink lid out = none → ∀ q, s.neighbour lid out = some q →
          u.fab = { v.fab with inputs := State.pagePut v.fab.inputs (State.inputKey (s.siteOf q) (facing out) m) m g done input.1 }))) ∧
    (∀ f, input.2 = some f → s.does (.routeWord site word []) fun u => u.fab = v.fab ∧
      (f.code = 0x0402 → ∃ r, u.recs = s.recs ++ [r] ∧ r.code = 0x0402 ∧ u.step.fault.isSome = true) ∧
      (f.code = 0x0403 → s.coreFailed u lid 0x0403))

/-- A lane that loses lock retrains and takes its channel down; with the meridian's reference and eight good blocks it regains
lock, and the channel is up once its sixteen lanes are (R213, R218, R237). A twin lane that loses lock takes the twin link down,
and twin lock with it; the link is up while all sixteen are locked and none is excluded (R359, R365, R366). A superblock that
its up channel synchronises to, whose control word passes its CRC and follows the last one, feeds its grains to the parser from
FIRST_HDR; any other is counted in SB_LOST and feeds the loss of every grain (R215-R217). Rests on readings and choices of the
model: log entry 28. -/
def Obligations.SowingLink : Prop :=
  (∀ (s : State) (l : BitVec 10),
    let k := l.toNat
    let others (u : State) : Prop := ∀ j < 512, j ≠ k → u.laneLocked j = s.laneLocked j ∧ u.lane j = s.lane j
    (k < 512 →
      (s.laneLocked k = true → s.does (.laneLockLoss l) fun u =>
        u.laneLocked k = false ∧ bitsOf (u.getF F.SOW_STATUS.CHAN_UP) (k / 16) 1 = 0 ∧
        u.getF (F.LANE_STATUS.RETRAINS k) = min (s.getF (F.LANE_STATUS.RETRAINS k) + 1) (2 ^ 16 - 1) ∧
        u.lane k = { s.lane k with misses := 0, good := 0 } ∧ others u) ∧
      (s.laneLocked k = false → s.locked = true → 8 ≤ (s.lane k).good → s.does (.laneLockRegain l) fun u =>
        u.laneLocked k = true ∧ u.lane k = { s.lane k with misses := 0, good := 0 } ∧ others u ∧
        bitsOf (u.getF F.SOW_STATUS.CHAN_UP) (k / 16) 1 = (if u.chanUp (k / 16) then 1 else 0)) ∧
      (s.locked = false ∨ (s.lane k).good < 8 → s.does (.laneLockRegain l) fun u => u = s)) ∧
    (512 ≤ k → k < 528 →
      (s.does (.laneLockLoss l) fun u => NSet.mem u.twin.down (k - 512) = true ∧ u.getF F.TWIN_STATUS.LINK_UP = 0 ∧
        u.getF F.TWIN_LOCK_STATUS.LOCKED = 0 ∧ others u) ∧
      (s.locked = true → s.does (.laneLockRegain l) fun u => NSet.mem u.twin.down (k - 512) = false ∧ others u ∧
        u.getF F.TWIN_STATUS.LINK_UP = (if u.twin.down = [] ∧ ∀ j ∈ u.excludedLanes, j < 512 then 1 else 0)) ∧
      (s.locked = false → s.does (.laneLockRegain l) fun u => u = s))) ∧
  (∀ (s : State) (chan : BitVec 5) (n : BitVec 32) (blocks : List (List Byte)),
    let c := chan.toNat
    let v := s.elapse n.toNat
    let r := readSb blocks
    let crcOk := leNat ((r.ctl.drop 44).take 4) == crc32c (r.ctl.take 44)
    let seq := wordField r.ctl 0 0 32
    let follows := ∀ m, (s.chan c).lastSb = some m → seq = (m + 1) % 2 ^ 32
    let good := v.chanUp c = true ∧ r.synced = true ∧ crcOk = true ∧ follows
    blocks.length = 16 → (∀ b ∈ blocks, b.length = 1024) →
    (good → s.does (.superblockReceive chan n blocks) fun u =>
      u.chan c = ChanSt.feed { s.chan c with lastSb := some seq } v.meridian (some (wordField r.ctl 0 48 10)) r.grains ∧
      u.getF (F.SB_LOST.COUNT c) = s.getF (F.SB_LOST.COUNT c) ∧ u.meridian = v.meridian) ∧
    (¬ good → s.does (.superblockReceive chan n blocks) fun u =>
      (∃ last, u.chan c = ChanSt.feed { s.chan c with lastSb := last } v.meridian none (List.replicate 960 none)) ∧
      u.getF (F.SB_LOST.COUNT c) = min (s.getF (F.SB_LOST.COUNT c) + 1) (2 ^ 48 - 1) ∧ u.meridian = v.meridian))

/-- The checks of a segment that has arrived whole, in their order: wrong epoch or sequence, loss, credit, form, a furrow that
has passed; a weight segment that passes them all is buffered and holds its credit blocks (R219-R223). Rests on readings and
choices of the model: log entry 38. -/
def Obligations.SegmentReceive : Prop :=
  ∀ (s : State) (chan : BitVec 5) (g : Seg) (rest : List Seg),
    let c := chan.toNat
    let w := s.setChan c { s.chan c with arrived := rest }
    let expect := s.getF (F.CHAN_STATUS.EXPECT_SSEQ c)
    let up (f : Fld) (u : State) : Prop := u.getF f = min (s.getF f + 1) (2 ^ 48 - 1)
    let next (u : State) : Prop := u.getF (F.CHAN_STATUS.EXPECT_SSEQ c) = (expect + 1) % 2 ^ 32
    let c2 := g.epoch = s.epoch ∧ g.sseq = expect
    let c3 := g.lost = false ∧ g.crc = crc64 g.payload
    let c4 := g.kind = 2 ∨ g.blocks ≤ w.creditFree c
    let c5 := w.segOk g = true
    (s.chan c).arrived = g :: rest →
    (¬ c2 → s.does (.segmentReceive chan) fun u => up (F.SEQ_DISCARD.COUNT c) u ∧ w.fieldsBut u [F.SEQ_DISCARD.COUNT c] ∧ u.sow = w.sow) ∧
    (c2 → ¬ c3 → s.does (.segmentReceive chan) fun u => up (F.SEG_LOST.COUNT c) u ∧ w.fieldsBut u [F.SEG_LOST.COUNT c] ∧ u.sow = w.sow) ∧
    (c2 → c3 → ¬ c4 → s.does (.segmentReceive chan) fun u => up (F.CREDIT_VIOL.COUNT c) u ∧
      w.fieldsBut u [F.CREDIT_VIOL.COUNT c] ∧ u.sow = w.sow ∧ ∃ r, u.recs = s.recs ++ [r] ∧ r.kind = 1 ∧ r.code = 0x000C) ∧
    (c2 → c3 → c4 → ¬ c5 → s.does (.segmentReceive chan) fun u => up (F.MALFORMED.COUNT c) u ∧ next u ∧ u.sow = w.sow ∧
      ∃ r, u.recs = s.recs ++ [r] ∧ r.kind = 1 ∧ r.code = 0x000B) ∧
    (c2 → c3 → c4 → c5 → g.kind ≠ 2 → furrowLater g.due s.furrow = false → s.does (.segmentReceive chan) fun u =>
      up (F.STALE.COUNT c) u ∧ next u ∧ u.sow = w.sow) ∧
    (c2 → c3 → c4 → c5 → g.kind ≠ 2 → furrowLater g.due s.furrow = true → s.inAttempt = false → s.does (.segmentReceive chan) fun u =>
      up (F.SEG_ACCEPTED.COUNT c) u ∧ next u ∧
      u.getF (F.CHAN_STATUS.HELD_BLOCKS c) = (s.getF (F.CHAN_STATUS.HELD_BLOCKS c) + g.blocks) % 2 ^ 21 ∧
      u.chan c = { w.chan c with buffer := (w.chan c).buffer ++ [⟨g, none, false, none⟩] } ∧ u.plots = s.plots ∧ u.mem = s.mem)

/-- A dispatch word, once in its furrow, puts grains of the decoded segment that its entry has claimed on the edge link, for the
plot behind it; after the last grain the segment is spent (R227, R228, R232). -/
def Obligations.DispatchWords : Prop :=
  ∀ (s : State) (head : BitVec 2) (word : BitVec 8) (w : Nat) (e : SowEntry) (b : Buffered),
    let h := head.toNat
    let i := bitsOf w 18 18
    let g := b.seg
    let n := bitsOf w 12 6
    let first := bitsOf w 36 24
    let data := decodedBytes g.codec g.src g.dst g.elements g.pitch g.payload
    let cells : List Cell := (List.range n).map fun k => ⟨BitVec.ofNat 128 (leNat ((data.drop (16 * (first + k))).take 16)), false⟩
    let port := s.edgePlot h (bitsOf w 0 6)
    let m := s.furrow
    let v := { s with sow := { s.sow with sent := NSet.insert s.sow.sent (256 * h + word.toNat) } }
    s.running = true → 0 < s.step.granted → s.step.judged = false → NSet.mem s.sow.sent (256 * h + word.toNat) = false →
    s.dispatchWord h word.toNat = some w → s.sowEntries[i]? = some e →
    s.claimedBy e.chan i = some b → wordKind w = 2 → e.chan / 8 = h → 0 < n →
    s.does (.dispatchWord head word []) fun u =>
      u.fab = { s.fab with
        inputs :=
          State.pagePut s.fab.inputs (State.inputKey (s.siteOf port.1) port.2 m) m (bitsOf w 6 6) (v.dispatchDone h (bitsOf w 0 6)) cells } ∧
      u.sow.sent = v.sow.sent ∧
      u.chan e.chan = (if decodedGrains g.codec g.src g.elements g.bytes g.pitch ≤ first + n then
        { s.chan e.chan with buffer := (s.chan e.chan).buffer.map fun x => if x.seg.sseq = g.sseq then { x with spent := some m } else x }
        else s.chan e.chan) ∧
      (∀ k, k ≠ e.chan → u.chan k = s.chan k) ∧ s.fieldsBut u [F.CONV_SAT.COUNT e.chan, F.CONV_NONFINITE.COUNT e.chan] ∧
      u.plots = s.plots ∧ u.mem = s.mem ∧ u.recs = s.recs

/-- A gather word, at its turn, writes the grains of an edge page to the bench of a gleaner (START, PASS) or adds them to it
element by element as binary32 (ADD); a page that lacks one is fault 0x0402 (R240, R243, R244, R261). An emit word encodes bench
grains into the segment of its entry and counts them; codec 0 writes each element's binary32 value, PASS (codec 4) its bytes as
they are (R245, R246, R261). Rests on readings and choices of the model: log entry 39. -/
def Obligations.GleanerWords : Prop :=
  (∀ (s : State) (head : BitVec 2) (word : BitVec 8) (w : Nat) (c : Instr) (op : Nat),
    (c, op) ∈ [(.gatherStart head word [], 0), (.gatherAdd head word [], 1), (.gatherPass head word [], 2)] →
    let h := head.toNat
    let n := bitsOf w 12 6
    let g := 32 * h + bitsOf w 18 5
    let bench := bitsOf w 25 16
    let tag := s.furrowBefore 2
    let page := SMap.get FPage.zero s.fab.edge (State.edgeKey h (bitsOf w 0 6) tag)
    let grain (k : Nat) : Option Cell := if page.tag = tag ∧ page.complete then SMap.find? page.grains (bitsOf w 6 6 + k) else none
    s.gleanTurn h word.toNat = true → s.gleanWord h word.toNat = some w → wordKind w = 2 → bitsOf w 23 2 = op →
    ((∀ k, k < n → (grain k).isSome = true) → s.does c fun u =>
      (∀ k x, k < n → grain k = some x → u.benchAt g (bench + k) =
        (if op = 1 then ⟨State.addGrains (s.benchAt g (bench + k)).val x.val, (s.benchAt g (bench + k)).poison || x.poison⟩ else x)) ∧
      (∀ b, (∀ k, k < n → b % 2 ^ 16 ≠ (bench + k) % 2 ^ 16) → u.benchAt g b = s.benchAt g b) ∧
      u.getF (F.GRAINS_GATHERED.COUNT g) = (s.getF (F.GRAINS_GATHERED.COUNT g) + n) % 2 ^ 48 ∧
      s.fieldsBut u [F.GRAINS_GATHERED.COUNT g, F.POISON.COUNT g] ∧
      { u.hv with bench := s.hv.bench, pos := s.hv.pos } = s.hv ∧ SMap.get 0 u.hv.pos h = word.toNat + 1 ∧ u.fab = s.fab ∧
      u.plots = s.plots ∧ u.mem = s.mem) ∧
    ((∃ k, k < n ∧ grain k = none) → s.does c fun u => { u.hv with pos := s.hv.pos } = s.hv ∧ u.step.fault.isSome = true ∧
      ∃ r, u.recs = s.recs ++ [r] ∧ r.code = 0x0402 ∧ r.srcType = srcHeadland ∧ r.srcId = h)) ∧
  (∀ (s : State) (head : BitVec 2) (word : BitVec 8) (w : Nat) (e : HvEntry),
    let h := head.toNat
    let i := bitsOf w 0 18
    let g := 32 * h + bitsOf w 18 5
    let n := bitsOf w 39 9
    let cells := (List.range n).map fun k => s.benchAt g (bitsOf w 23 16 + k)
    let x := s.openSeg i
    s.gleanTurn h word.toNat = true → s.gleanWord h word.toNat = some w → s.hvEntry i = some e → wordKind w = 5 →
    s.does (.emit head word []) fun u =>
      (u.openSeg i).grains = x.grains + n ∧ (u.openSeg i).words = x.words + 1 ∧ (u.openSeg i).head = h ∧
      (∀ k, k ≠ i → u.openSeg k = s.openSeg k) ∧
      (e.codec = 4 → (u.openSeg i).payload = x.payload ++ (cells.map (State.passBytes e.passFmt)).flatten) ∧
      (e.codec = 0 → (u.openSeg i).payload =
        x.payload ++ (((cells.map State.grainElems).flatten).map fun v => leBytes 4 (toF32 (ofF32 v)).toNat).flatten) ∧
      SMap.get 0 u.hv.pos h = word.toNat + 1 ∧ u.hv.bench = s.hv.bench ∧ u.hv.kept = s.hv.kept ∧ u.plots = s.plots ∧ u.mem = s.mem ∧
      s.fieldsBut u [F.ELEMENTS_EMITTED.COUNT g, F.B16_SAT.COUNT g, F.NONFINITE.COUNT g])

/-- Each block period of a channel's outbound lanes carries a control word with its own sequence number and 960 grains: zeros on
a channel that is down or has nothing to send, else the segment on its way (R217, R254, R255). Rests on readings and choices of
the model: log entry 39. -/
def Obligations.OutboundSuperblock : Prop :=
  ∀ (s : State) (chan : BitVec 5),
    let c := chan.toNat
    let x := s.tx c
    let ctl (first : Nat) : OutCtl := {
      sbSeq := x.sbSeq, epoch := s.epoch, expect := s.getF (F.CHAN_STATUS.EXPECT_SSEQ c), returned := (s.chan c).returned,
      limit := s.creditLimit c, enabled := if s.chanEnabled c then 1 else 0, committed := s.getF F.HV_STATUS.COMMITTED_S,
      firstHdr := first, abandoned := s.hv.abandonedS }
    let sent (u : State) (first : Nat) (gs : List Grain) : Prop := SMap.find? u.hv.out c = some ⟨(ctl first).bytes, gs⟩ ∧
      (u.tx c).sbSeq = (x.sbSeq + 1) % 2 ^ 32 ∧ u.regs = s.regs ∧ u.plots = s.plots ∧ u.mem = s.mem
    let nothing := x.resend = [] ∧ (∀ g ∈ s.hv.kept, ¬ (g.chan = c ∧ g.hseq = none)) ∧ s.ckpt.out = []
    (s.chanUp c = false → s.does (.outboundSuperblock chan none) fun u =>
      sent u 1023 (List.replicate 960 0) ∧ u.tx c = { x with sbSeq := (x.sbSeq + 1) % 2 ^ 32 }) ∧
    (s.chanUp c = true → x.cur = [] → nothing → s.does (.outboundSuperblock chan none) fun u => sent u 1023 (List.replicate 960 0)) ∧
    (s.chanUp c = true → 960 < x.cur.length → s.does (.outboundSuperblock chan none) fun u =>
      sent u 1023 (x.cur.take 960) ∧ u.tx c = { x with sbSeq := (x.sbSeq + 1) % 2 ^ 32, cur := x.cur.drop 960 })

/-- READ: window bytes of a parcel that the host may read, registers of assigned addresses; refusals by their status: before
readiness 5, alignment 3, owner 4, an uncorrectable line 0xE, which is then met in a shared parcel, an unassigned address 2
(R268, R270, R273, R275, R276, R279). A request on a port that is down is not taken, and one whose tag is outstanding only
counts as a tag error (R268, R269). Rests on readings and choices of the model: log entries 36 and 48. -/
def Obligations.PortReadsAndRefusals : Prop :=
  (∀ (s : State) (port : BitVec 1) (t : BitVec 8) (a : BitVec 48) (l : BitVec 13),
    let p := port.toNat
    let tag := t.toNat
    let addr := a.toNat
    let len := l.toNat
    let owner := s.owner (addr / 65536)
    let answers (status : Nat) (bs : List Byte) : Prop := s.does (.read port t a l) fun u => s.replied u p tag 3 status bs
    s.takes p tag →
    (s.fullService p = false → State.statusBlock addr len = false → answers 5 []) ∧
    (s.fullService p = true →
      (State.requestOk addr len = false → answers 3 []) ∧
      (State.requestOk addr len = true → len = 0 → answers 0 []) ∧
      (State.requestOk addr len = true → 0 < len → addr < 2 ^ 36 →
        (owner = 1 ∨ owner = 3 → answers 4 []) ∧
        (owner = 0 → s.hasBadLine addr len = true → answers 0x000E []) ∧
        (owner = 2 → s.hasBadLine addr len = true →
          s.does (.read port t a l) fun u => (s.meetBadLines addr len).replied u p tag 3 0x000E []) ∧
        (owner = 0 ∨ owner = 2 → s.hasBadLine addr len = false → answers 0 (s.winGet addr len))) ∧
      (State.requestOk addr len = true → 0 < len → 2 ^ 36 ≤ addr →
        (∀ bs, s.wordsRead addr (len / 8) = some bs → answers 0 bs) ∧ (s.wordsRead addr (len / 8) = none → answers 2 [])))) ∧
  (∀ (s : State) (port : BitVec 1) (t : BitVec 8) (c : Instr),
    ((∃ a l, c = .read port t a l) ∨ (∃ a bs, c = .write port t a bs ∧ bs.length < 8192) ∨ (∃ x, c = .hello port t x) ∨
      (∃ a v, c = .registerWrite port t a v) ∨ (∃ q g, c = .queueDoorbell port t q g)) →
    (s.portUp port.toNat = false → s.does c fun u => u = s) ∧
    (s.portUp port.toNat = true → s.tagOut port.toNat t.toNat = true → s.does c fun u =>
      u.getF (F.PORT_STATUS.TAG_ERRORS port.toNat) = min (s.getF (F.PORT_STATUS.TAG_ERRORS port.toNat) + 1) (2 ^ 16 - 1) ∧
      { u with regs := s.regs, pub := s.pub, base := s.base } = s))

/-- WRITE: bytes of a parcel owned by HOST land whole and completion 4 answers OK; a DEVICE or VOID parcel answers OWNER and
keeps its bytes; a configuration register takes the value as its shadow, another register as it is written directly (R11, R268,
R275, R276, R307). Rests on readings and choices of the model: log entries 36 and 48. -/
def Obligations.PortWrites : Prop :=
  ∀ (s : State) (port : BitVec 1) (t : BitVec 8) (a : BitVec 48),
    let p := port.toNat
    let tag := t.toNat
    let addr := a.toNat
    s.takes p tag → s.fullService p = true →
    (∀ bs : List Byte, State.requestOk addr bs.length = true → bs ≠ [] → addr < 2 ^ 36 →
      (s.owner (addr / 65536) = 0 → s.does (.write port t a bs) fun u =>
        (∃ v : State, v.replied u p tag 4 0 [] ∧ { v with win := s.win } = s ∧ v.win.flags = s.win.flags) ∧
        u.winGet addr bs.length = bs ∧ (∀ b n, b + n ≤ addr ∨ addr + bs.length ≤ b → u.winGet b n = s.winGet b n)) ∧
      (s.owner (addr / 65536) = 1 ∨ s.owner (addr / 65536) = 3 → s.does (.write port t a bs) fun u => s.replied u p tag 4 4 [])) ∧
    (∀ (v : BitVec 64) (r : RegRow) (idx : List Nat), addr % 8 = 0 → 2 ^ 36 ≤ addr → State.inFlags addr = false →
      addr ≠ 0x300000100000 → findReg addr = some (r, idx) → s.absentBlock addr = false → State.deadQueueCfg addr = false →
      (r.config = true → s.does (.registerWrite port t a v) fun u => (s.shadowWrite r addr v.toNat).replied u p tag 4 0 []) ∧
      (r.config = false →
        (∀ x ∈ [F.HV_RELEASE.STEP_S.addr, F.HV_RESEND.CHANNEL.addr, F.APPLY_CTL.DISCARD.addr, F.LANE_REGATE.CHANNELS.addr,
            F.KEY_LOAD.PARCEL.addr, F.ATTEST_REQ.PARCEL.addr, (F.MGMT_RING.ENTRIES 0).addr, (F.MGMT_RING.ENTRIES 1).addr,
            (F.QUEUE_DOORBELL.GIVE (idx.headD 0)).addr], addr ≠ x) →
        s.does (.registerWrite port t a v) fun u => (s.directWrite r addr v.toNat).replied u p tag 4 0 []))

/-- HELLO chooses a common version of each interface and answers CAPS, or finds none and answers NO_COMMON; a bad packet is
counted; a port that goes down drops its tags; it comes up again once retrained (R267, R269, R271, R272). Rests on readings and
choices of the model: log entries 36 and 48. -/
def Obligations.PortService : Prop :=
  ∀ (s : State) (port : BitVec 1) (t : BitVec 8) (x : BitVec 128),
    let p := port.toNat
    let tag := t.toNat
    let h (i : Nat) : Nat := bitsOf x.toNat (16 * i) 16
    let common := (h 0 = 1 ∨ h 2 = 1) ∧ (h 4 = 1 ∨ h 6 = 1)
    let v := s.setPort p { s.port p with proto := some (1, 0), plan := some (1, 0) }
    (s.takes p tag → common → s.does (.hello port t x) fun u =>
      (v.nowF (F.PORT_STATUS.EXCHANGED p) 1).replied u p tag 6 0 ((v.nowF (F.PORT_STATUS.EXCHANGED p) 1).capsPayload (1, 0) (1, 0)) ∧
      u.getF (F.PORT_STATUS.EXCHANGED p) = 1) ∧
    (s.takes p tag → ¬ common → s.does (.hello port t x) fun u =>
      u.port p = { s.port p with proto := none, plan := none, out := (s.port p).out ++ [⟨tag, 6, 0x0011, []⟩] } ∧
      u.getF (F.PORT_STATUS.EXCHANGED p) = 0 ∧ u.fullService p = false) ∧
    (s.portUp p = true → s.does (.packetBadType port) fun u =>
      u.getF (F.PORT_STATUS.BAD_PACKETS p) = min (s.getF (F.PORT_STATUS.BAD_PACKETS p) + 1) (2 ^ 16 - 1) ∧
      { u with regs := s.regs, pub := s.pub, base := s.base } = s) ∧
    (s.portUp p = true → s.does (.portDown port) fun u => u.portUp p = false ∧ u.port p = { s.port p with out := [] } ∧
      u.getF (F.PORT_STATUS.DOWN_COUNT p) = min (s.getF (F.PORT_STATUS.DOWN_COUNT p) + 1) (2 ^ 16 - 1) ∧
      ∃ r, u.recs = s.recs ++ [r] ∧ r.code = 0x0012 ∧ r.d4 = p) ∧
    (s.portUp p = false → s.boot.obs.isSome = true → s.does (.portUp port) fun u => u.portUp p = true ∧ u.ports = s.ports ∧
      ∃ r, u.recs = s.recs ++ [r] ∧ r.code = 0x0013 ∧ r.d4 = p)

/-- GIVE, SHARE, VOID, CLAIM, RECLAIM and RECALL are writes of PARCEL_DOORBELL: they change every parcel of their run or none,
the owner at once, a VOID parcel's bytes to zero, RECLAIM and RECALL by PENDING alone; a run past the last parcel answers ALIGN,
one with a parcel that is not eligible or pends already OWNER, another OP UNASSIGNED, a run of no parcels OK, and reserved bits
are discarded (R269, R276, R277, R289). -/
def Obligations.ParcelDoorbells : Prop :=
  ∀ (s : State) (port : BitVec 1) (t : BitVec 8),
    let p := port.toNat
    let written (v : BitVec 64) : Instr := .registerWrite port t 0x300000100000#48 v
    s.takes p t.toNat → s.fullService p = true →
    (∀ (first : BitVec 20) (count : BitVec 21) (c : Instr) (op : Nat),
      (c, op) ∈ [(.give port t first count, 1), (.share port t first count, 2), (.void port t first count, 3),
        (.claim port t first count, 4), (.reclaim port t first count, 5), (.recall port t first count, 6)] →
      let named (k : Nat) : Prop := first.toNat ≤ k ∧ k < first.toNat + count.toNat
      let may (k : Nat) : Prop := if op ≤ 3 then s.owner k = 0 else if op = 4 then s.owner k = 3
        else if op = 5 then s.owner k = 1 ∧ s.isPending k = false
        else s.owner k = 2 ∧ s.isRing k = false ∧ s.isPending k = false
      exec c s = exec (written (BitVec.ofNat 64 (first.toNat + count.toNat * 2 ^ 20 + op * 2 ^ 41))) s ∧
      (2 ^ 20 < first.toNat + count.toNat → s.does c fun u => s.replied u p t.toNat 4 3 []) ∧
      (first.toNat + count.toNat ≤ 2 ^ 20 → (∃ k, named k ∧ ¬ may k) → s.does c fun u => s.replied u p t.toNat 4 4 []) ∧
      (first.toNat + count.toNat ≤ 2 ^ 20 → (∀ k, named k → may k) → s.does c fun u =>
        (∃ v : State, v.replied u p t.toNat 4 0 [] ∧ { v with win := s.win } = s) ∧
        (∀ k, named k → u.flag k =
          if op = 1 then 1 else if op = 2 then 2 else if op = 3 then 3 else if op = 4 then 0 else s.flag k ||| 4) ∧
        (∀ k, ¬ named k → u.flag k = s.flag k) ∧
        (∀ a, u.winGet a 1 = if op = 3 ∧ named (a / 65536) then [0] else s.winGet a 1))) ∧
    (∀ v : BitVec 64, exec (written v) s = exec (written (v &&& 0xFFFFFFFFFFF#64)) s ∧
      (v.toNat / 2 ^ 20 % 2 ^ 21 = 0 → s.does (written v) fun u => s.replied u p t.toNat 4 0 []) ∧
      (v.toNat / 2 ^ 20 % 2 ^ 21 ≠ 0 → v.toNat / 2 ^ 41 % 8 = 0 ∨ v.toNat / 2 ^ 41 % 8 = 7 →
        s.does (written v) fun u => s.replied u p t.toNat 4 1 []))

/-- QUEUE_DOORBELL gives entries that the host owns: GIVE moves to the value, no further than the ring has entries, and the
entries become DEVICE's; a disabled queue, and one that an entry's uncorrectable line disables, answers QUEUE_OFF. MGMT_RING
sets a management ring up: its parcels become SHARED-RO with RING and the queue starts anew (R276, R280, R282, R291). Rests on
readings and choices of the model: log entry 48. -/
def Obligations.QueueDoorbells : Prop :=
  ∀ (s : State) (port : BitVec 1) (t : BitVec 8),
    let p := port.toNat
    s.takes p t.toNat → s.fullService p = true →
    (∀ (queue : BitVec 15) (give : BitVec 32),
      let q := queue.toNat
      let had := (s.qGive q + 2 ^ 32 - s.qDone q) % 2 ^ 32
      let has := (give.toNat + 2 ^ 32 - s.qDone q) % 2 ^ 32
      let fresh (i : Nat) : Prop := ∃ k, k < has - had ∧ i = (s.qGive q + k) % 2 ^ 32
      (s.qEntries q = 0 → s.does (.queueDoorbell port t queue give) fun u => s.replied u p t.toNat 4 0x000F []) ∧
      (s.qEntries q ≠ 0 → (s.qEntries q < has ∨ has < had) → s.does (.queueDoorbell port t queue give) fun u =>
        s.replied u p t.toNat 4 4 []) ∧
      (s.qEntries q ≠ 0 → has ≤ s.qEntries q → had ≤ has → (∃ i, fresh i ∧ s.hasBadLine (s.entryAddr q i) 64 = true) →
        s.does (.queueDoorbell port t queue give) fun u => ∃ v : State, v.replied u p t.toNat 4 0x000F []) ∧
      (s.qEntries q ≠ 0 → has ≤ s.qEntries q → had ≤ has →
        (∀ i, fresh i → s.winWord (s.entryAddr q i) % 4 = 0 ∧ s.hasBadLine (s.entryAddr q i) 64 = false) →
        s.does (.queueDoorbell port t queue give) fun u => (∃ v : State, v.replied u p t.toNat 4 0 []) ∧ u.qGive q = give.toNat ∧
          u.qDone q = s.qDone q ∧ (∀ i, fresh i → u.winWord (s.entryAddr q i) % 4 = 1) ∧ u.win.flags = s.win.flags ∧
          (u.queue q).next = (s.queue q).next)) ∧
    (∀ (w : BitVec 1) (base : BitVec 20) (entries : BitVec 21),
      let i := w.toNat
      let n := (entries.toNat + 1023) / 1024
      let mine (k : Nat) : Prop := k ∈ s.markedRing i
      let ring (k : Nat) : Prop := base.toNat ≤ k ∧ k < base.toNat + n
      State.ringSizeOk entries.toNat = true → base.toNat + n ≤ 2 ^ 20 → s.unreturned i = [] →
      (∀ k, ring k → s.owner k = 0 ∨ mine k) →
      s.does (.mgmtRing port t w base entries) fun u => (∃ v : State, v.replied u p t.toNat 4 0 []) ∧
        u.getF (F.MGMT_RING.BASE_PARCEL i) = base.toNat ∧ u.getF (F.MGMT_RING.ENTRIES i) = entries.toNat ∧
        u.qGive i = 0 ∧ u.qDone i = 0 ∧ u.queue i = QueueSt.zero ∧
        (∀ k, ring k → u.owner k = 2 ∧ u.isRing k = true) ∧ (∀ k, mine k → ¬ ring k → u.flag k = 0) ∧
        (∀ k, ¬ mine k → ¬ ring k → u.flag k = s.flag k) ∧ u.win.bytes = s.win.bytes)

/-- The control registers whose write does something: HV_RELEASE forgets committed steps, HV_RESEND queues kept segments again,
APPLY_CTL.DISCARD empties the shadows, LANE_REGATE begins a re-gate, KEY_LOAD takes a key list once nothing runs, ATTEST_REQ
asks for a report (R256, R307, R404, R420, R421). -/
def Obligations.ControlWrites : Prop :=
  ∀ (s : State) (port : BitVec 1) (t : BitVec 8),
    let p := port.toNat
    let after (v : State) (c : Instr) : Prop := s.does c fun u => v.replied u p t.toNat 4 0 []
    (s.takes p t.toNat → s.fullService p = true →
      (∀ st : BitVec 48, s.does (.hvRelease port t st) fun u => (∃ v : State, v.replied u p t.toNat 4 0 []) ∧
        u.hv.kept = s.hv.kept.filter fun g => !(g.committed && !furrowLater g.stepS st.toNat)) ∧
      (∀ (c : BitVec 5) (n : BitVec 32), (∃ g ∈ s.hv.kept, g.stepS = s.getF F.HV_RESEND_STEP.STEP_S) →
        s.does (.hvResend port t c n) fun u => (u.tx c.toNat).resend = (s.tx c.toNat).resend ++
          (s.hv.kept.filter fun g => g.stepS == s.getF F.HV_RESEND_STEP.STEP_S && g.chan == c.toNat &&
            g.hseq.any fun m => decide (n.toNat ≤ m)).map fun g => (s.getF F.HV_RESEND_STEP.STEP_S, g.hseq.getD 0)) ∧
      after { s with shadow := [] } (.applyDiscard port t) ∧
      (∀ (cs : BitVec 32) (twin : Bool), (cs ≠ 0 ∨ twin = true) → s.boot.regate = none →
        s.does (.laneRegate port t cs twin) fun u => u.getF F.GATE_SUMMARY.REGATE_RUNNING = 1 ∧
          u.boot = { s.boot with regate := some (cs.toNat + if twin then 2 ^ 32 else 0) }) ∧
      (∀ k : BitVec 20, (s.owner k.toNat ≠ 1 → s.does (.keyLoad port t k) fun u => u.getF F.OBS_STATUS.KEY_RESULT = 6 ∧ u.obs = s.obs) ∧
        (s.owner k.toNat = 1 → s.keyCheck (s.winGet (k.toNat * 65536) 896) = 1 →
          s.does (.keyLoad port t k) fun u =>
            (s.atPublication = true → u.obs.keys = s.winGet (k.toNat * 65536) 896 ∧ u.getF F.OBS_STATUS.KEY_RESULT = 1) ∧
            (s.atPublication = false → u.obs = { s.obs with keyPending := some (s.winGet (k.toNat * 65536) 896) }))) ∧
      (∀ k : BitVec 20, (s.owner k.toNat ≠ 1 → s.does (.attestReq port t k) fun u => u.getF F.OBS_STATUS.ATTEST_OWNER = 1 ∧ u.obs = s.obs) ∧
        (s.owner k.toNat = 1 → s.atPublication = false → s.does (.attestReq port t k) fun u =>
          u.obs = { s.obs with attest := some k.toNat }) ∧
        (s.owner k.toNat = 1 → s.atPublication = true → s.does (.attestReq port t k) fun u =>
          u.obs.attest = none ∧ u.getF F.OBS_STATUS.ATTEST_DONE = 1))) ∧
    (∀ img, s.obs.keyPending = some img → s.atPublication = true →
      s.does .keyLoadTakeEffect fun u => u.obs = { s.obs with keys := img, keyPending := none } ∧ u.getF F.OBS_STATUS.KEY_RESULT = 1)

/-- NOP completes at once; an unassigned operation completes with UNASSIGNED. Entries that an abandonment skips go first (R284,
R285). A step command whose turn it is and that nothing holds back is refused with the first status of its list that applies, or
its attempt begins with the staging pass, the registers of its start kept; with a substitution pending and rows to copy it waits
for the copies (R52, R59, R162, R284, R341). Rests on readings and choices of the model: log entries 6 and 49. -/
def Obligations.QueueZeroCommands : Prop :=
  (∀ (s : State) (i : Nat),
    let v := s.front
    v.turn = some i →
    (v.opAt 0 i = 1 → s.does .nop fun u => v.completed u 0 0 0) ∧
    (v.opAt 0 i = 0 ∨ 7 < v.opAt 0 i → s.does .nop fun u => v.completed u 0 0x0001 0)) ∧
  (∀ (s : State) (kat : List (BitVec 13)) (c : Instr) (eval : Bool) (i : Nat),
    (c, eval) ∈ [(.stepStart kat, false), (.evalStart kat, true)] →
    let v := s.front
    let word := v.entryWord 0 i 5
    let j := word % 16
    v.turn = some i → v.opAt 0 i = (if eval then 3 else 2) → v.mustWait = false →
    (∀ st, v.stepRefusal j eval = some st → s.does c fun u => v.completed u 0 st 0) ∧
    (v.stepRefusal j eval = none → v.getF F.REPAIR_STATUS.SUBST_PENDING = 0 → s.does c fun u =>
      u.step.phase = .staging ∧ u.step.eval = eval ∧ u.step.program = j ∧ u.step.seed = v.entryWord 0 i 4 ∧ u.step.word = word ∧
      u.step.stepS = furrowAdd v.furrow 1 ∧ u.step.attempt = v.step.attempt + 1 ∧ u.step.granted = 0 ∧ u.step.fault = none ∧
      u.step.q0idx = some i ∧ u.base.isSome = true ∧ u.plots = [] ∧ u.fab = FabricSt.zero ∧ u.hv.bench = [] ∧ u.furrow = v.furrow ∧
      (u.queue 0).next = ((v.queue 0).next + 1) % 2 ^ 32 ∧ (u.queue 0).fin = (v.queue 0).fin) ∧
    (v.stepRefusal j eval = none → v.getF F.REPAIR_STATUS.SUBST_PENDING = 1 →
      let w := v.beginSubst (bits13 kat)
      (w.step.phase = .substituting → w.migrated = false → s.does c fun u => u = w) ∧
      (w.step.phase ≠ .substituting → s.does c fun u => u = w.complete 0 0x0007 0)))

/-- The staging pass takes the COPY_IN entries of the plot queues and ends with STEP true; one COPY_IN writes its bytes to the
plot's loam and is counted among those of the step (R23, R283, R351). Rests on readings and choices of the model: log entry 47.
-/
def Obligations.StagingPass : Prop :=
  ∀ s : State, s.step.phase = .staging →
    (s.does .stagingPass fun u => u.running = true ∧ u.step.granted = s.step.granted ∧ u.furrow = s.furrow ∧
      (s.plotQueues = [] → (s.step.eval = true ∨ (∀ q ∈ s.enabledQueues, s.qLedger q = false)) →
        u = { s with step := { s.step with phase := .running } })) ∧
    (∀ (queue : BitVec 15) (i : Nat),
      let q := queue.toNat
      let r := s.copyIn q i
      let took : State := { s.takeEntry q with step := { s.step with staged := s.step.staged ++ [(q, i, r.1)] } }
      q ∈ s.plotQueues → s.nextEntry q = some i → s.opAt q i = 1 → s.does (.copyIn queue) fun u => u.plots = s.plots ∧
        (r.1 ≠ 0x000E → u.step.staged = s.step.staged ++ [(q, i, r.1)] ∧
          (u.queue q).next = ((s.queue q).next + 1) % 2 ^ 32 ∧ u.win = s.win) ∧
        (r.1 = 0x000E → u = took.meetBadLines (s.entryWindow q i) (s.entryLength q i)) ∧
        (r.1 = 0 → s.entryLength q i ≠ 0 → u.mem =
          (s.loamPut (s.siteOf (s.qEpId q)) (s.entryWord q i 3) (s.winGet (s.entryWindow q i) (s.entryLength q i))).1.mem) ∧
        (r.1 ≠ 0 → u.mem = s.mem))

/-- The copies of a substitution go stage by stage; after the last one the new maps take effect together; a copy that meets an
uncorrectable line, or a shell that fails meanwhile, ends the substitution with DEGRADED and no map changed (R53, R55, R59).
Rests on readings and choices of the model: log entry 46. -/
def Obligations.Substitution : Prop :=
  ∀ s : State, s.step.phase = .substituting →
    let w := s.migrateStage
    (w.migrated = false → s.does (.migrationStageDone none []) fun u => u = w) ∧
    (w.migrated = true →
      s.does (.migrationStageDone none []) (fun u => u = w.endSubst.resumeCommand) ∧ w.endSubst.step.phase = .idle ∧
      w.endSubst.grid.changes = [] ∧ w.endSubst.getF F.REPAIR_STATUS.SUBST_PENDING = 0 ∧ w.endSubst.mem = w.mem ∧
      w.endSubst.ckpt = w.ckpt) ∧
    (∀ p : BitVec 13, s.does (.migrationStageDone (some p) []) fun u =>
      u.step.phase = .idle ∧ u.grid.changes = [] ∧ u.getF F.REPAIR_STATUS.DEGRADED = 1 ∧ u.getF F.MEM_STATUS.HORIZON_LOST = 1 ∧
      (∀ k < 512, u.getF (F.ROW_MAP.POS_SITE k) = s.getF (F.ROW_MAP.POS_SITE k)) ∧ u.mem = s.mem)

/-- APPLY: refused without a lease or with an image outside SHARED-RO parcels; an image that does not authenticate or validate
changes nothing but APPLY_LAST; one that does takes effect by a commit (R301, R305, R309-R314). What a commit leaves: no shadow,
the image kept, its digest and identity in the registers with CONFIGURED and HOST_VALUES, APPLY_LAST cleared, event 0x0011,
every field published; a new configuration starts with loam and DEGRADED cleared, and with no checkpoint parcel unless a drain
goes on (R307, R312, R365). Rests on readings and choices of the model: log entries 12, 51 and 69. -/
def Obligations.ApplyAndCommit : Prop :=
  (∀ (s : State) (o : ApplyObs) (i : Nat),
    let v := s.front
    let a := v.entryWindow 0 i
    let len := v.entryLength 0 i
    let img : Img := (v.winGet a len).toArray
    let chosen := (SMap.find? (v.queue 0).via i).bind fun p => (v.port p).plan
    let rejected (r : Reject) (u : State) : Prop := u.getF F.APPLY_LAST.REASON = r.reason % 2 ^ F.APPLY_LAST.REASON.width ∧
      u.plan = v.plan ∧ u.shadow = v.shadow ∧ u.mem = v.mem ∧ u.grid = v.grid ∧
      v.fieldsBut u [F.APPLY_LAST.REASON, F.APPLY_LAST.SECTION, F.APPLY_LAST.DETAIL] ∧ (u.queue 0).fin = (v.queue 0).fin ++ [⟨i, 0x000B, r.word, false⟩]
    v.turn = some i → v.opAt 0 i = 4 → v.mustWait = false →
    (v.hasLease = false → s.does (.apply o) fun u => v.completed u 0 0x0006 0) ∧
    (v.hasLease = true → 0 < len → a + len ≤ 2 ^ 36 → (∃ p ∈ State.parcelsOf a len, v.owner p ≠ 2) →
      s.does (.apply o) fun u => v.completed u 0 0x0004 0) ∧
    (v.hasLease = true → 0 < len → a + len ≤ 2 ^ 36 → (∀ p ∈ State.parcelsOf a len, v.owner p = 2) → v.hasBadLine a len = false →
      o.storeBad = false →
      (∀ r, v.authenticate img chosen = .error ⟨0x000B, some r⟩ → s.does (.apply o) (rejected r)) ∧
      (∀ st, v.authenticate img chosen = .error ⟨st, none⟩ → s.does (.apply o) fun u => v.completed u 0 st 0) ∧
      (∀ secs, v.authenticate img chosen = .ok secs → s.does (.apply o) fun u =>
        let checked : Chk (PlanDoc × Over × State) := do
          let d ← decodePlan img secs (State.imageDigest img)
          let ov ← v.planShadows d
          let t ← v.validatePlan d ov
          .ok (d, ov, t)
        match checked with
        | .error r => rejected r u
        | .ok (d, ov, t) => o.loadFail = none → d.hdr.newConfig = true ∨ v.getF F.REPAIR_STATUS.SUBST_PENDING = 0 →
          u = v.commitPlan t d img.toList (ov.any fun x => x.2.2 == 0)))) ∧
  (∀ (s t : State) (d : PlanDoc) (image : List Byte) (host : Bool),
    let u := s.commitPlan t d image host
    u.shadow = [] ∧ u.plan = { t.plan with image := image } ∧ u.pub = u.regs ∧
    u.getF F.PLAN_ID.ID = d.hdr.planId % 2 ^ F.PLAN_ID.ID.width ∧ u.getF F.PLAN_STATUS.CONFIGURED = 1 ∧
    u.getF F.PLAN_STATUS.HOST_VALUES = (if host then 1 else 0) ∧ u.getF F.APPLY_LAST.REASON = 0 ∧
    (∀ i, i < 8 → u.getF (F.PLAN_DIGEST.DIGEST i) = wordField d.digest i 0 64) ∧
    (∃ r ∈ u.recs, r.kind = 1 ∧ r.code = 0x0011) ∧
    (d.hdr.newConfig = true → u.mem.loam = [] ∧ u.mem.image = [] ∧ u.mem.cur = [] ∧ u.mem.dirty = [] ∧ u.hv.residual = [] ∧
      (s.draining = false → t.draining = false → u.ckpt = { s.ckpt with parcels := [], held := [] }) ∧ u.getF F.MEM_STATUS.HORIZON_LOST = 0 ∧ u.getF F.REPAIR_STATUS.DEGRADED = 0))

/-- LEASE: a lease that is in form, signed, enrolled, for this module, of an agreeing role, in time and not older is held by the
controller in charge; another is refused with status LEASE and record 0x0703 (R355, R356). WITNESS copies the held witness to
the window (R422). The held lease's expiry is recorded once; a controller that holds none, or an older one, takes the lease of
the other, and where both are valid each records 0x0702 (R357). Rests on readings and choices of the model: log entries 41 and
47. -/
def Obligations.LeasesAndWitness : Prop :=
  (∀ (s : State) (i : Nat),
    let v := s.front
    let a := v.entryWindow 0 i
    let l := Lease.ofBytes (v.winGet a 192)
    v.turn = some i →
    (v.opAt 0 i = 5 → v.entryLength 0 i = 0 → s.does .lease fun u => v.completed u 0 0 0) ∧
    (v.opAt 0 i = 5 → v.entryLength 0 i ≠ 0 → v.rangeStatus a 192 true = 0 →
      (v.leaseRefusal l = none → s.does .lease fun u => u.twin.newest = some l ∧
        (v.inCharge = 0 → u.twin.north = some l ∧ u.twin.south = v.twin.south) ∧
        (v.inCharge ≠ 0 → u.twin.south = some l ∧ u.twin.north = v.twin.north) ∧
        (u.queue 0).fin = (v.queue 0).fin ++ [⟨i, 0, l.expiry, false⟩]) ∧
      (∀ why, v.leaseRefusal l = some why → s.does .lease fun u => u.twin = v.twin ∧
        (∃ r, u.recs = v.recs ++ [r] ∧ r.code = 0x0703 ∧ r.d6 = why + l.seq % 2 ^ 48 * 2 ^ 16) ∧
        (u.queue 0).fin = (v.queue 0).fin ++ [⟨i, 0x0006, 0, false⟩])) ∧
    (v.opAt 0 i = 7 → v.hasLease = true → v.entryLength 0 i = 0 → s.does .witness fun u => v.completed u 0 0 0) ∧
    (v.opAt 0 i = 7 → v.hasLease = true → v.entryLength 0 i ≠ 0 →
      (∀ w, v.obs.witnesses.find? (fun w => w.1 == v.entryWord 0 i 4) = some w → v.rangeStatus a w.2.length false = 0 →
        s.does .witness fun u => u.winGet a w.2.length = w.2 ∧ (u.queue 0).fin = (v.queue 0).fin ++ [⟨i, 0, w.2.length, false⟩]) ∧
      (v.obs.witnesses.find? (fun w => w.1 == v.entryWord 0 i 4) = none → s.does .witness fun u => v.completed u 0 0 0))) ∧
  (∀ s : State,
    (∀ l, s.newestHeld = some l → l.expiry ≤ s.meridian → s.twin.expiredPosted = false → s.does .leaseExpiry fun u =>
      u.twin = { s.twin with expiredPosted := true } ∧ ∃ r, u.recs = s.recs ++ [r] ∧ r.code = 0x0701 ∧ r.d6 = l.seq) ∧
    (∀ (fromSouth : Bool) (l : Lease),
      let mine := if fromSouth then s.twin.south else s.twin.north
      let theirs := if fromSouth then s.twin.north else s.twin.south
      s.controllerLost 0 = false → s.controllerLost 1 = false → s.validOf mine = some l →
      (s.validOf theirs = none →
        s.does (.controllerLeaseExchange fromSouth) fun u => u.twin.north = some l ∧ u.twin.south = some l ∧ u.recs = s.recs) ∧
      (∀ o, s.validOf theirs = some o → o.raw ≠ l.raw → o.seq < l.seq →
        s.does (.controllerLeaseExchange fromSouth) fun u => u.twin.north = some l ∧ u.twin.south = some l ∧
          ∃ r r', u.recs = s.recs ++ [r, r'] ∧ r.code = 0x0702 ∧ r'.code = 0x0702)))

/-- DUSK overwrites pads and site loam, runs the nominal pass, and with NOMINAL_ONLY ends; else it waits for the stress pass,
after which the test has ended and the horizon is lost (R335-R338). Rests on readings and choices of the model: log entry 53. -/
def Obligations.DuskTest : Prop :=
  ∀ (s : State) (hits : List DuskHit),
    (∀ i, let v := s.front
      v.turn = some i → v.opAt 0 i = 6 → v.mustWait = false →
      (v.hasLease = false → s.does (.dusk hits) fun u => v.completed u 0 0x0006 0) ∧
      (v.hasLease = true → v.entryWord 0 i 4 = 0 → s.does (.dusk hits) fun u =>
        u.dusk = some ⟨v.duskBegin.reproduced (v.duskBegin.duskPass (s.duskHits hits)), false⟩ ∧
        u.getF F.DUSK_STATUS.RUNNING = 1 ∧ u.getF F.DUSK_STATUS.STAGE = 3 ∧
        u.mem.pad = [] ∧ u.mem.loam = [] ∧ u.mem.trans = [] ∧ u.step.attempt = v.step.attempt + 1) ∧
      (v.hasLease = true → v.entryWord 0 i 4 = 1 → s.does (.dusk hits) fun u =>
        u.dusk = none ∧ u.getF F.DUSK_STATUS.RUNNING = 0 ∧ u.getF F.MEM_STATUS.HORIZON_LOST = 1 ∧ u.mem.pad = [] ∧ u.mem.loam = [])) ∧
    (∀ (d : DuskSt) (reached : Bool), s.dusk = some d → s.does (.duskStressPass hits reached) fun u =>
      u.dusk = none ∧ u.getF F.DUSK_STATUS.RUNNING = 0 ∧ u.getF F.DUSK_STATUS.STAGE = 0 ∧ u.getF F.MEM_STATUS.HORIZON_LOST = 1 ∧
      u.getF F.DUSK_STATUS.LAST_MERIDIAN = s.meridian % 2 ^ 48)

/-- COPY_OUT and RES_OUT write the committed copy of loam, or of a gleaner's residual share, at WINDOW and complete; a range
that the window does not allow answers its status (R252, R283). Rests on readings and choices of the model: log entry 47. -/
def Obligations.CopiesOut : Prop :=
  ∀ (s : State) (queue : BitVec 15) (i : Nat),
    let q := queue.toNat
    let a := s.entryWindow q i
    let len := s.entryLength q i
    let off := s.entryWord q i 3
    let id := s.qEpId q
    let gave (c : Instr) (bs : List Byte) : Prop := s.does c fun u => u.winGet a len = bs ∧
      (∀ b n, b + n ≤ a ∨ a + len ≤ b → u.winGet b n = s.winGet b n) ∧ (u.queue q).fin = (s.queue q).fin ++ [⟨i, 0, 0, false⟩] ∧ u.mem = s.mem
    0 < len →
    (s.engineEntry q 0 = none → s.engineEntry q 1 = some i → s.opAt q i = 2 →
      (s.rangeStatus a len false ≠ 0 → s.does (.copyOut queue) fun u => s.completed u q (s.rangeStatus a len false) 0) ∧
      (s.rangeStatus a len false = 0 → ∀ k, s.partOf off len = some k →
        (s.partCommitted k = true → gave (.copyOut queue) (s.committedGet (s.siteOf id) off len)) ∧
        (s.partCommitted k = false → s.does (.copyOut queue) fun u => s.completed u q 0x0003 0))) ∧
    (s.engineEntry q 2 = some i → s.opAt q i = 1 → s.rangeStatus a len false = 0 →
      (off + len ≤ s.resShare (id / 32) →
        gave (.resOut queue) (s.resCommitted (id / 32) (id % 32 * s.resShare (id / 32) + off) len)) ∧
      (s.resShare (id / 32) < off + len → s.does (.resOut queue) fun u => s.completed u q 0x0003 0))

/-- The operations of the checkpoint engine's queues: CKPT_NOW marks the next horizon, MANIFEST_OUT and LEDGER_OUT copy what is
held, DRAIN_WAIT waits for the drain, RESTORE verifies its manifest and awaits its parcels until its limit (R350, R363). Rests
on readings and choices of the model: log entry 47. -/
def Obligations.CheckpointEngine : Prop :=
  ∀ (s : State) (queue : BitVec 15) (i : Nat),
    let q := queue.toNat
    let a := s.entryWindow q i
    let op := s.opAt q i
    (s.ckptEntry q = some i →
      (op = 1 → s.getF F.MODE_CFG.CKPT_MODE ≠ 0 → s.plan.ckpt.isSome = true → s.does (.ckptNow queue) fun u =>
        u.getF F.CKPT_STATUS.NOW_PENDING = 1 ∧ (u.queue q).fin = (s.queue q).fin ++ [⟨i, 0, 0, false⟩]) ∧
      (op = 1 → s.getF F.MODE_CFG.CKPT_MODE = 0 → s.does (.ckptNow queue) fun u => s.completed u q 0 1) ∧
      (op = 3 → s.ckpt.manifests.reverse.find? (fun m => m.1 == s.entryWord q i 4) = none →
        s.does (.manifestOut queue) fun u => s.completed u q 0 6) ∧
      (op = 3 → ∀ m, s.ckpt.manifests.reverse.find? (fun m => m.1 == s.entryWord q i 4) = some m → s.entryLength q i ≠ 0 →
        s.rangeStatus a m.2.length false = 0 →
        s.does (.manifestOut queue) fun u => u.winGet a m.2.length = m.2 ∧
          (u.queue q).fin = (s.queue q).fin ++ [⟨i, 0, m.2.length * 2 ^ 32, false⟩]) ∧
      (op = 4 → s.entryLength q i ≠ 0 → s.rangeStatus a (s.entryLength q i) false = 0 → s.does (.ledgerOut queue) fun u =>
        let bs := State.ledgerFrom (s.entryWord q i 4 % 2 ^ 48) (s.entryLength q i) s.ckpt.ledger
        bs.length ≤ s.entryLength q i ∧ u.winGet a bs.length = bs ∧ (u.queue q).fin = (s.queue q).fin ++ [⟨i, 0, bs.length * 2 ^ 32, false⟩]) ∧
      (op = 6 → s.draining = false → s.lanesDrained = true → s.does (.drainWait queue) fun u => s.completed u q 0 0) ∧
      (op = 6 → s.draining = true → s.does (.drainWait queue) fun u => u = s) ∧
      (op = 2 → s.step.phase = .idle → s.dusk = none → s.mustWait = false → s.entryLength q i ≠ 0 → s.rangeStatus a 320 true = 0 →
        s.getF F.REPAIR_STATUS.SUBST_PENDING = 0 →
        (∀ out, s.manifestFault (s.winGet a 320) = some out → s.does (.restore queue []) fun u => s.completed u q 0 out) ∧
        (s.manifestFault (s.winGet a 320) = none → s.entryWord q i 5 = 0 → wordField (s.winGet a 320) 5 0 64 ≠ 0 →
          s.does (.restore queue []) fun u => u.ckpt = { s.ckpt with restore := none } ∧ u.mem = s.mem ∧
            (u.queue q).fin = (s.queue q).fin ++ [⟨i, 0, 5, false⟩]) ∧
        (s.manifestFault (s.winGet a 320) = none → s.entryWord q i 5 ≠ 0 → s.keptKeys ≠ [] → s.does (.restore queue []) fun u =>
          u.ckpt = { s.ckpt with restore := some ⟨i, q, s.winGet a 320, s.entryWord q i 5 * 625000, s.meridian, []⟩ } ∧
          (u.queue q).fin = (s.queue q).fin ∧ u.mem = s.mem))) ∧
    (∀ r, s.ckpt.restore = some r → r.limit ≤ s.meridian - r.started → s.does .restoreLimitExpired fun u =>
      u.ckpt = { s.ckpt with restore := none } ∧ (u.queue r.queue).fin = (s.queue r.queue).fin ++ [⟨r.idx, 0, 5, false⟩])

/-- The horizon close: a fault raised before the commit, an uncorrectable write of the close among them, abandons the step; a
training step commits, CUR flips where DIRTY is set, and HORIZON posts; an evaluation step flips nothing (R195, R196, R342,
R343, R354). Rests on readings and choices of the model: log entry 42. -/
def Obligations.HorizonClose : Prop :=
  ∀ (s : State) (ns : BitVec 32), s.step.phase = .closing →
    (s.step.fault.isSome = true → s.does (.horizonClose ⟨ns, []⟩) fun u => u = s.abandon) ∧
    (∀ (p : BitVec 13) (off : BitVec 32), p.toNat < 5120 → s.step.eval = false → s.does (.horizonClose ⟨ns, [(p, off)]⟩) fun u =>
      u.step.phase = .idle ∧ u.mem.cur = s.mem.cur ∧
      ∃ r ∈ u.recs, r.code = 0x0102 ∧ r.srcId = p.toNat ∧ r.d6 = off.toNat ∧ r.abandoned = true) ∧
    (s.step.fault = none → s.step.eval = false → s.imageBlocked = true → s.does (.horizonClose ⟨ns, []⟩) fun u => u = s) ∧
    (s.step.fault = none → (s.step.eval = false → s.imageBlocked = false) → s.does (.horizonClose ⟨ns, []⟩) fun u =>
      u.step.phase = .idle ∧ u.step.fault = none ∧ u.base = none ∧ u.mem.dirty = [] ∧ u.fab = FabricSt.zero ∧ u.pub = u.regs ∧
      u.getF F.MEM_STATUS.CLOSE_NS = ns.toNat ∧ (∃ r ∈ u.recs, r.kind = 1 ∧ r.code = 0x0001 ∧ r.d4 = s.step.stepS) ∧
      (s.step.eval = true → u.mem.cur = s.mem.cur ∧ u.mem.loam = s.mem.loam ∧
        u.getF F.HV_STATUS.COMMITTED_S = s.getF F.HV_STATUS.COMMITTED_S) ∧
      (s.step.eval = false → u.getF F.HV_STATUS.COMMITTED_S = s.step.stepS % 2 ^ 48 ∧ u.mem.loam = s.mem.loam ∧
        (SMap.rising s.mem.dirty = true → ∀ g, NSet.mem u.mem.cur g = (NSet.mem s.mem.cur g != NSet.mem s.mem.dirty g))))

/-- Loopback tests end outside an attempt: a shell whose port fails is DARK and recorded 0x0409 (R73).
The fabric leg stages the next parcel of the drain (R347). Rests on readings and choices of the model: log entry 40. -/
def Obligations.LoopbackAndDrain : Prop :=
  ∀ s : State,
    (s.inAttempt = false → s.grid.loopbacks ≠ [] →
      (s.does (.loopbackTest [] []) fun u =>
        u = { s with grid := { s.grid with loopbacks := [] } }) ∧
      (∀ (p : BitVec 13) (d : BitVec 2), s.grid.loopbacks = [(4 * p.toNat + d.toNat, ())] → s.step.phase = .idle → p.toNat < 5120 →
        s.does (.loopbackTest [(p, d)] []) fun u => u.grid.loopbacks = [] ∧ u.getF F.REPAIR_STATUS.DEGRADED = 1 ∧
          u.getF (F.ROUTER_STATUS.SHELL_FAIL p.toNat) = 1 ∧ ∃ r ∈ u.recs, r.code = 0x0409 ∧ r.phys = p.toNat)) ∧
    (∀ k, s.draining = true → s.fabricFree = true → s.stagingFull = false → s.nextParcel = some k →
      (s.does (.parcelDrained false) fun u => u.ckpt.broken = true ∧ u.mem = s.mem ∧ u.regs = s.regs) ∧
      (s.does (.parcelDrained true) fun u =>
        SMap.find? u.ckpt.leaves k = some (leafOf k (s.ckptBytes k)) ∧ u.mem = s.mem ∧ u.ckpt.broken = s.ckpt.broken))

/-- Messages from the twin: NOTICE, ACK, TWIN_HORIZON, TWIN_LEASE, HEARTBEAT, LEDGER, MANIFEST and PARCEL (R39, R352,
R358-R360). What a paired module sends: a heartbeat with what it has received; messages of types 4 to 6 again when 2 ms pass
unacknowledged; a superblock of 240 grains carries what waits, as far as it goes (R358, R359). Rests on readings and choices of
the model: log entries 29 and 41. -/
def Obligations.TwinLink : Prop :=
  (∀ s : State,
    (∀ (index : BitVec 48) (boundary : BitVec 64) (mt phase : BitVec 16) (latency : BitVec 8), s.followsTwin = true →
      let agrees := mt.toNat = s.getF F.FURROW_CFG.FURROW_MT ∧ phase.toNat = s.furrowPhase ∧
        (s.getF F.TWIN_LOCK_STATUS.LOCKED = 1 ∨ latency.toNat + 2 < s.getF F.FURROW_CFG.GRANT_EVAL_MT)
      (agrees → s.does (.notice index boundary mt phase latency) fun u =>
        u.time.notices = s.time.notices ++ [(index.toNat, boundary.toNat)] ∧ u.getF F.TWIN_LOCK_STATUS.LOCKED = 1) ∧
      (¬ agrees → s.does (.notice index boundary mt phase latency) fun u => u.time.notices = s.time.notices ∧
        u.getF F.TWIN_LOCK_STATUS.LOCKED = 0 ∧ ∃ x, u.recs = s.recs ++ [x] ∧ x.code = 0x0007)) ∧
    (∀ st : BitVec 48, s.inAttempt = true → st.toNat = s.step.stepS →
      s.does (.ack (.record st)) fun u => u = { s with step := { s.step with ledgerAcked := true } }) ∧
    (∀ (y : BitVec 4) (t : BitVec 24) (e : BitVec 32) (x : ParcelSt),
      let k := parcelKey y.toNat t.toNat e.toNat
      s.parcel k = some x → s.draining = false → s.does (.ack (.parcel y t e)) fun u => u.parcel k = some { x with acked := true } ∧
        u.mem = s.mem ∧ u.twin = s.twin) ∧
    (∀ st : BitVec 48, s.role = 2 → s.does (.twinHorizon st false) fun u =>
      u.ckpt.ledger = s.ckpt.ledger.filter fun r => r.1 != st.toNat) ∧
    (∀ raw : List Byte, raw.length = 192 →
      let l := Lease.ofBytes raw
      s.isPaired = true → l.formOk = true → l.signed = true → s.leaseFits l = true → l.role = 1 → s.heldLease = none →
      (∀ o, s.twin.twinLease = some o → o.seq < l.seq) →
      (s.newestHeld = none → s.does (.twinLease raw) fun u => u = { s with twin := { s.twin with twinLease := some l } }) ∧
      (∀ o, s.newestHeld = some o → o.role = 1 → o.seq < l.seq → s.does (.twinLease raw) fun u =>
        u.inAttempt = (s.inAttempt && s.running) ∧ ∃ x, x ∈ u.recs ∧ x.code = 0x0703 ∧ x.abandoned = s.inAttempt)) ∧
    (∀ (acks : List (BitVec 64)) (held : BitVec 32), s.does (.heartbeat acks held) fun u =>
      u.twin = { s.twin with unacked := s.twin.unacked.filter fun m => !(acks.map BitVec.toNat).contains m.seq } ∧
      (s.role = 1 → u.getF F.TWIN_STATUS.HELD_CKPT = held.toNat)) ∧
    (∀ (seq : BitVec 64) (rec : List Byte), 64 ≤ rec.length → s.role = 2 →
      (∀ r ∈ s.ckpt.ledger, r.1 ≠ wordField rec 1 0 48) → s.ledgerUsed + rec.length ≤ s.ledgerArea →
      s.does (.ledger seq rec) fun u => u.ckpt.ledger = s.ckpt.ledger ++ [(wordField rec 1 0 48, rec)] ∧
        u.twin.received = s.twin.received ++ [seq.toNat] ∧
        (s.isPaired = true → u.twin.queue.map (·.body) = s.twin.queue.map (·.body) ++ [.ackLedger (wordField rec 1 0 48)])) ∧
    (∀ (seq : BitVec 64) (m : List Byte), m.length = 320 → s.role = 2 → s.manifestFault m = none → s.rootMatches m s.twin.parcels = true →
      s.does (.manifest seq m) fun u => u.twin.parcels = [] ∧ u.getF F.TWIN_STATUS.HELD_CKPT = wordField m 6 0 32 ∧
        u.getF F.MEM_STATUS.HORIZON_LOST = 0 ∧ u.ckpt.restore = s.ckpt.restore) ∧
    (∀ (seq : BitVec 64) (y : BitVec 4) (t : BitVec 24) (e : BitVec 32) (bs : List Byte), bs.length = 65536 → s.role = 2 →
      parcelKey y.toNat t.toNat e.toNat ∈ s.keptKeys → s.does (.parcel seq y t e bs) fun u =>
        u.twin.parcels = SMap.ins s.twin.parcels (parcelKey y.toNat t.toNat e.toNat) bs ∧
        u.twin.received = s.twin.received ++ [seq.toNat] ∧ u.mem = s.mem)) ∧
  (∀ s : State,
    let late (m : TwinMsg) : Prop := ∃ t, m.sentAt = some t ∧ t + 2 * 625000 ≤ s.meridian
    (s.isPaired = true → s.heldLease = none → s.does .twinPeriodicSend fun u => u.twin.received = [] ∧
      ∃ m, u.twin.queue = s.twin.queue ++ [m] ∧ m.body = .heartbeat s.twin.received ∧ m.seq = s.twin.nextSeq ∧ m.sentAt = none) ∧
    (s.does .twinResendTimeout fun u =>
      (∀ m, m ∈ u.twin.unacked ↔ m ∈ s.twin.unacked ∧ ¬ late m) ∧
      (∀ m ∈ s.twin.unacked, late m → { m with left := m.body.grains, sentAt := none } ∈ u.twin.queue) ∧
      (∃ more, u.twin.queue = s.twin.queue ++ more) ∧ u.regs = s.regs) ∧
    (s.isPaired = true → s.getF F.TWIN_STATUS.LINK_UP = 1 →
      (s.twin.queue = [] → s.does .twinLinkSuperblock fun u =>
        u.twin = { s.twin with sent := [], blocks := (List.range 16).map (twinBlock []) }) ∧
      (∀ m, s.twin.queue = [m] → 240 < m.left → s.does .twinLinkSuperblock fun u =>
        u.twin = { s.twin with
          queue := [{ m with left := m.left - 240 }], sent := [], blocks := (List.range 16).map (twinBlock (State.msgNext m 240)) }) ∧
      (∀ m, s.twin.queue = [m] → m.left ≤ 240 → s.does .twinLinkSuperblock fun u => u.twin.queue = [] ∧
        u.twin.sent = [(m.seq, m.body)] ∧ u.twin.blocks = (List.range 16).map (twinBlock (State.msgNext m m.left)) ∧ u.twin.unacked = s.twin.unacked ++
          (if 4 ≤ m.body.type ∧ m.body.type ≤ 6 then [{ m with left := 0, sentAt := some s.meridian }] else []))))

/-- Bring-up starts from bare rails and waits for them; a rail that rises within its order and windows while another is still
out, or that returns in service, is in tolerance and bring-up goes on; one that does not stops it; the groups of region switches
close in order; readings of the coolant are shown and their excursion latched (R371, R374, R394, R408, R439). Rests on readings
and choices of the model: log entry 9. -/
def Obligations.BringUp : Prop :=
  ∀ s : State,
    (∀ o : BootObs, bootObsOk o = true → s.does (.bringUp o) fun u => u.boot.obs = some o ∧ u.getF F.BOOT_STATUS.STATE = 1 ∧
      u.getF F.BOOT_STATUS.CODE = 0x01 ∧ u.getF F.BOOT_STATUS.PHASE = 0 ∧ u.getF F.MGMT_STATUS.NORTH_ALIVE = 1 ∧
      u.getF F.MGMT_STATUS.SOUTH_ALIVE = 1 ∧ u.mem = State.reset.mem ∧ u.win = State.reset.win ∧ u.ports = [] ∧ u.step = StepSt.zero) ∧
    (∀ (i : BitVec 3) (d r : BitVec 32) (clean : Bool), i.toNat < 5 → s.boot.obs.isSome = true →
      (NSet.mem s.power.risen i.toNat = true → s.power.faultN = true → s.booting = false →
        s.does (.railInTolerance i d r clean) fun u => u = s.keepF (F.RAIL_MON.IN_TOL i.toNat) 1) ∧
      (NSet.mem s.power.risen i.toNat = false → s.booting = true → s.railOrderOk i.toNat d.toNat r.toNat clean = false →
        s.does (.railInTolerance i d r clean) fun u => u.power.permit = false ∧ u.power.faultN = false ∧
          u.getF F.BOOT_STATUS.STATE = 2 ∧ u.getF F.BOOT_STATUS.CODE = 0x10 ∧ ∃ x, u.recs = s.recs ++ [x] ∧ x.code = 0x0061 ∧ x.d4 = 3) ∧
      (∀ j, 1 ≤ j → j < 5 → j ≠ i.toNat → s.inTol j = false → NSet.mem s.power.risen i.toNat = false → s.booting = true →
        s.bootPhase = 0 →
        s.railOrderOk i.toNat d.toNat r.toNat clean = true → s.does (.railInTolerance i d r clean) fun u =>
          u.getF (F.RAIL_MON.IN_TOL i.toNat) = 1 ∧ NSet.mem u.power.risen i.toNat = true ∧ u.getF F.BOOT_STATUS.CODE = 0x01 ∧
          u.recs = s.recs)) ∧
    (s.booting = true → s.power.permit = true → s.boot.groups < 15 → s.does .regionSwitchGroupClose fun u =>
      u.boot.groups = s.boot.groups + 1 ∧
      ∀ n, n / 16 = s.boot.groups → s.getF (F.REGION_PSTAT.DARK_LATCH n) ≠ 1 → s.isHole n = false → u.getF (F.REGION_PSTAT.SWITCH n) = 1) ∧
    (∀ inlet outlet flow : BitVec 12, s.boot.obs.isSome = true →
      let shown (u : State) : Prop := u.getF F.COOLANT_STATUS.INLET = inlet.toNat ∧ u.getF F.COOLANT_STATUS.OUTLET = outlet.toNat ∧
        u.getF F.COOLANT_STATUS.FLOW = flow.toNat
      (s.getF F.COOLANT_STATUS.IN_RANGE = 1 → s.does (.coolantRange inlet outlet flow) fun u =>
        shown u ∧ u.getF F.COOLANT_STATUS.IN_RANGE = 0) ∧
      (s.booting = false → 300 ≤ flow.toNat → flow.toNat ≤ 450 → 240 ≤ inlet.toNat → inlet.toNat ≤ 640 →
        s.does (.coolantInRange inlet outlet flow) fun u => shown u ∧ u.getF F.COOLANT_STATUS.IN_RANGE = 1))

/-- A rail fault of VFEED or VLOAM, a rail out of tolerance for too long, a withdrawn permit and a feed that does not come: the
permit falls and every content of loam and window is lost; VIO and VOPT take the lanes, VANA the clocks, VMGT everything;
BED_WARN leaves no record waiting and marks an orderly power-down (R371-R374, R386). Rests on readings and choices of the model:
log entry 54. -/
def Obligations.RailFaults : Prop :=
  ∀ s : State,
    let dead (u : State) : Prop := u.power.permit = false ∧ u.win.bytes = [] ∧ u.win.lost = true ∧ u.mem.loam = [] ∧ u.mem.pad = [] ∧
      u.plots = [] ∧ u.step.phase = .idle ∧ u.getF F.MEM_STATUS.HORIZON_LOST = 1
    (∀ i : BitVec 3, s.getF (F.RAIL_MON.IN_TOL i.toNat) = 1 →
      (i.toNat < 2 → s.does (.railFault i) fun u => dead u ∧ u.power.faultN = false ∧ u.getF (F.RAIL_MON.IN_TOL i.toNat) = 0) ∧
      (i.toNat = 2 ∨ i.toNat = 3 → s.does (.railFault i) fun u =>
        u.getF (F.RAIL_MON.IN_TOL i.toNat) = 0 ∧ u.getF F.TWIN_STATUS.LINK_UP = 0 ∧ u.mem = s.mem) ∧
      (i.toNat = 4 → s.does (.railFault i) fun u => u = s.lossStops (s.keepF (F.RAIL_MON.IN_TOL 4) 0).referenceTimeout)) ∧
    (s.boot.obs.isSome = true → s.does (.railFault 5) fun u => u = s.powerOff) ∧
    (∀ i : BitVec 3, s.boot.obs.isSome = true → 2 ≤ i.toNat → i.toNat ≤ 4 → NSet.mem s.power.risen i.toNat = true →
      s.getF (F.RAIL_MON.IN_TOL i.toNat) = 0 → s.power.faultN = true → s.does (.railOutOfToleranceLimit i) fun u =>
        dead u ∧ u.power.faultN = false) ∧
    (∀ cause : BitVec 2, cause.toNat < 3 → s.power.permit = true → s.does (.feedWithdrawn cause) fun u =>
      u.power.permit = false ∧ u.power.withdrawn = true ∧ (s.inTol 0 = true → dead u ∧ u.getF (F.RAIL_MON.IN_TOL 0) = 0)) ∧
    (s.booting = true → s.power.permit = true → NSet.mem s.power.risen 0 = false → s.does .feedTimeout fun u =>
      u.power.permit = false ∧ u.power.faultN = false ∧ u.getF F.BOOT_STATUS.STATE = 2 ∧ u.getF F.BOOT_STATUS.CODE = 0x11 ∧
      ∃ x, u.recs = s.recs ++ [x] ∧ x.code = 0x0061 ∧ x.d4 = 4) ∧
    (s.boot.obs.isSome = true → s.power.bedWarnN = true → s.controllersGrant = true → s.does .bedWarn fun u =>
      u.power.bedWarnN = false ∧ u.boot.orderly = true ∧ u.hist.wait = [] ∧
        (s.isReady = true ∨ s.boot.acquired.isSome = true → u.boot.lastCount = s.meridian))

/-- Regulator phases, shorts and wakes of a region: a lost phase is counted out and recorded, and below six the region goes
dark; a short darkens it at once and loses its loam; a wake goes in four stages, each refused while a neighbour is loaded (R378,
R380, R381). Rests on readings and choices of the model: log entry 54. -/
def Obligations.RegionPower : Prop :=
  ∀ (s : State) (r : BitVec 8),
    let n := r.toNat
    let dark (u : State) : Prop := u.getF (F.REGION_PSTAT.SWITCH n) = 0 ∧ u.getF (F.REGION_PSTAT.DARK_LATCH n) = 1 ∧
      u.getF F.REPAIR_STATUS.DEGRADED = 1
    (∀ (k : BitVec 3) (cause : BitVec 2),
      let off := SMap.get 0 s.power.phaseOff n
      let left := 8 - popCount 8 (setBits off k.toNat 1 1)
      cause.toNat < 3 → s.boot.obs.isSome = true → s.getF (F.REGION_PSTAT.SWITCH n) ≠ 0 → bitOf off k.toNat = false →
      s.step.phase = .idle → s.does (.regulatorPhaseLoss r k cause) fun u =>
        u.getF (F.REGION_PSTAT.PHASES n) = left ∧ u.getF (F.REGION_PSTAT.CAP n) = (if 7 ≤ left then 125 else if left = 6 then 110 else 0) ∧
        (∃ x more, u.recs = s.recs ++ x :: more ∧ x.code = 0x0505 ∧ x.unit = some (unitRegion, n)) ∧ (left ≤ 5 → dark u)) ∧
    (∀ peak ns : BitVec 16, s.getF (F.REGION_PSTAT.SWITCH n) = 1 → 250 < peak.toNat → 200 < ns.toNat → s.step.phase = .idle →
      s.does (.regionShort r peak ns) fun u => dark u ∧
        (∃ x more, u.recs = s.recs ++ x :: more ∧ x.code = 0x0504 ∧ x.fenced = true) ∧
        (∀ p c off, p / 20 = n → c < 2 → off < 2 ^ 32 → SMap.find? u.mem.loam (State.loamKey p c off) = none) ∧ u.win = s.win) ∧
    (∀ w : WakeSt, SMap.find? s.power.wakes n = some w →
      (s.getF (F.REGION_PSTAT.WAKING n) = 1 → w.stages < 4 → (w.stages = 0 ∨ w.lastAt + 1250 ≤ s.meridian) →
        (s.wakeRefuser n = none → s.does (.wakeStage r) fun u =>
          u = { s with power := { s.power with
            wakes := SMap.ins s.power.wakes n { w with stages := w.stages + 1, lastAt := s.meridian, refusedIn := none } } }) ∧
        (∀ m, s.wakeRefuser n = some m → w.refusedIn ≠ some s.step.granted → s.does (.wakeStage r) fun u =>
          u.getF (F.REGION_PSTAT.DEFERRED n) = min (s.getF (F.REGION_PSTAT.DEFERRED n) + 1) (2 ^ 16 - 1))) ∧
      (w.stages = 4 → w.lastAt + 1250 ≤ s.meridian → s.does (.wakeComplete r) fun u =>
        u.getF (F.REGION_PSTAT.AWAKE n) = 1 ∧ u.getF (F.REGION_PSTAT.WAKING n) = 0 ∧
        u.getF (F.REGION_PSTAT.WAKES n) = min (s.getF (F.REGION_PSTAT.WAKES n) + 1) (2 ^ 16 - 1) ∧ SMap.find? u.power.wakes n = none) ∧
      (s.getF (F.REGION_PSTAT.WAKING n) = 1 → 0 < s.getF (F.REGION_PSTAT.DEFERRED n) →
        s.getF (F.REGION_CFG.WAKE_DEFER n) ≤ s.getF (F.REGION_PSTAT.DEFERRED n) → w.expired = false → s.running = true →
        s.does (.wakeDeferExpired r) fun u => u.step.fault.isSome = true ∧ ∃ x, u.recs = s.recs ++ [x] ∧ x.code = 0x0503))

/-- The pacing steps, the contact monitor, the heartbeats of the two controllers, a millisecond of a bring-up that waits for
rails, the loss of a controller, and the count kept in flash (R382, R385, R393, R394, R398). Rests on readings and choices of
the model: log entry 54. -/
def Obligations.PacingAndControllers : Prop :=
  ∀ s : State,
    let e := s.getF F.PACE_STATUS.EFFECTIVE
    (s.isReady = true → s.getF F.POWER_STATUS.CAUSE ≠ 0 → s.getF F.PACE_CFG.PACE_FLOOR < e → s.does .paceLower fun u =>
      u.getF F.PACE_STATUS.EFFECTIVE = (e - 1) % 2 ^ 5 ∧
      u.getF F.POWER_STATUS.PACE_STEPS = min (s.getF F.POWER_STATUS.PACE_STEPS + 1) (2 ^ 16 - 1)) ∧
    (s.isReady = true → s.getF F.POWER_STATUS.CAUSE = 0 → s.triggersHeld = 0 → e < s.paceTarget → s.does .paceRaise fun u =>
      u.getF F.PACE_STATUS.EFFECTIVE = (e + 1) % 2 ^ 5 ∧ u.recs = s.recs) ∧
    (∀ (k : BitVec 6) (excess amps : BitVec 16), s.power.permit = true → s.inTol 0 = true →
      s.does (.contactSuspect k excess amps) fun u => u.getF (F.CONTACT_MON.EXCESS k.toNat) = excess.toNat ∧
        u.getF (F.CONTACT_MON.SUSPECT k.toNat) = (if 120 < excess.toInt then 1 else 0) ∧
        (120 < excess.toInt → SMap.find? s.power.contactAt k.toNat = none → ∃ x, u.recs = s.recs ++ [x] ∧ x.code = 0x0601)) ∧
    (∀ (north south : Bool) (t : Telemetry), s.boot.obs.isSome = true → s.booting = true → s.controllersGrant = true →
      s.bootPhase = 0 → s.inTol 4 = false → s.does (.mgmtHeartbeat north south t) fun u =>
        u.getF (F.PHASE_MS.MS 0) = satAdd (F.PHASE_MS.MS 0).width (s.getF (F.PHASE_MS.MS 0)) 1 ∧ u.getF F.BOOT_STATUS.STATE = 1 ∧
        u.getF F.BOOT_STATUS.CODE = 0x01 ∧ u.bootPhase = 0 ∧ u.boot.work = s.boot.work) ∧
    (∀ (north south : Bool) (t : Telemetry), s.boot.obs.isSome = true → s.booting = false → s.does (.mgmtHeartbeat north south t) fun u =>
      u.getF F.POWER_STATUS.INPUT_W = t.inputW.toNat ∧ u.getF F.COOLANT_STATUS.INLET = t.inlet.toNat ∧
      (s.controllerLost 0 = false → SMap.get 0 u.boot.misses 0 = if north then SMap.get 0 s.boot.misses 0 + 1 else 0) ∧
      (s.controllerLost 1 = false → SMap.get 0 u.boot.misses 1 = if south then SMap.get 0 s.boot.misses 1 + 1 else 0)) ∧
    (∀ half : BitVec 1, s.boot.obs.isSome = true → s.controllerLost half.toNat = false → 10 ≤ SMap.get 0 s.boot.misses half.toNat →
      s.does (.controllerLost half) fun u => u.controllerLost half.toNat = true ∧ u.getF F.MGMT_STATUS.ONE_CONTROLLER = 1 ∧
        u.getF F.MGMT_STATUS.LEADER ≠ half.toNat ∧ ∃ x, u.recs = s.recs ++ [x] ∧ x.code = 0x0070) ∧
    (s.isReady = true ∨ s.locked = true → s.does .meridianCountRecord fun u =>
      u = { s with boot := { s.boot with lastCount := s.meridian } })

/-- The scrubbers count what they correct, in a cache-mode bank what is uncorrectable too, and mark what is lost; a hot layer
shows, a waiting record goes to its half's ring, a counter sample goes to the watch connector, and a re-gate ends (R187, R191,
R199-R202, R279, R325, R404, R416). Rests on readings and choices of the model: log entries 43, 52 and 55. -/
def Obligations.Observation : Prop :=
  ∀ s : State,
    (∀ (l : BitVec 24) (a : BitVec 23),
      let lid := l.toNat
      s.getF F.LOAM_CFG.PAD_SCRUB_EN = 1 → s.present lid = true → s.coreFenced lid = false → s.bankMode lid (a.toNat / 2 ^ 20) ≠ 0 →
      (∀ bad : Bool, bad = false ∨ s.bankMode lid (a.toNat / 2 ^ 20) ≠ 1 → s.does (.padScrub l a bad) fun u =>
        u.getF (F.PAD_CORR.COUNT lid) = (s.getF (F.PAD_CORR.COUNT lid) + 1) % 2 ^ 48 ∧ u.mem = s.mem ∧ u.plots = s.plots) ∧
      (s.bankMode lid (a.toNat / 2 ^ 20) = 1 → s.inAttempt = false → s.bankCarried lid (a.toNat / 2 ^ 20) = false → s.does (.padScrub l a true) fun u =>
        u.mem = { s.mem with pad := SMap.clearRange s.mem.pad (State.padKey lid (a.toNat / 64 * 64)) 64 } ∧
        ∃ x, u.recs = s.recs ++ [x] ∧ x.code = 0x0101)) ∧
    (∀ (p : BitVec 13) (c : Bool) (off : BitVec 32), s.getF F.LOAM_CFG.SCRUB_EN = 1 → s.isReady = true →
      s.scrubReaches (.committed p c off) = true →
      (s.does (.loamScrub (.committed p c off) .clean true) fun u =>
        u = s.setF (F.SCRUB_PASSES.COUNT p.toNat) (s.getF (F.SCRUB_PASSES.COUNT p.toNat) + 1)) ∧
      (s.does (.loamScrub (.committed p c off) .bit false) fun u =>
        u.getF (F.CORR_BIT.COUNT p.toNat) = (s.getF (F.CORR_BIT.COUNT p.toNat) + 1) % 2 ^ 48 ∧ u.mem = s.mem)) ∧
    (∀ l : BitVec 30, s.getF F.LOAM_CFG.SCRUB_EN = 1 → s.isReady = true → NSet.mem s.win.badLines l.toNat = false →
      s.does (.loamScrub (.window l) .uncorrectable false) fun u => NSet.mem u.win.badLines l.toNat = true ∧
        ∃ x more, u.recs = s.recs ++ x :: more ∧ x.code = 0x000F ∧ x.d4 = l.toNat / 1024) ∧
    (∀ (p : BitVec 13) (layer : BitVec 1) (hot : Bool), p.toNat < 5120 → s.getF (F.LOAM_STATUS.POWERED p.toNat) = 1 →
      s.does (.loamHotChange p layer hot) fun u => NSet.mem u.mem.hot (2 * p.toNat + layer.toNat) = hot ∧
        u.getF (F.LOAM_STATUS.HOT p.toNat) =
          (if NSet.mem u.mem.hot (2 * p.toNat) || NSet.mem u.mem.hot (2 * p.toNat + 1) then 1 else 0)) ∧
    (∀ (half : BitVec 1) (w : Nat × Nat × Nat) (rest : List (Nat × Nat × Nat)), s.controllerLost half.toNat = false →
      s.logRate half.toNat < 4096 → s.hist.wait = w :: rest → w.1 = half.toNat →
      s.does (.historyLogWrite half false) fun u => u.hist.wait = rest ∧
        SMap.get 0 u.hist.ring (logKey half.toNat (s.logHead half.toNat)) = State.logWord w.2.2 ∧
        u.logHead half.toNat = (s.logHead half.toNat + 1) % logEntries) ∧
    (s.getF F.TRACE_CFG.SAMPLE = 1 → s.getF F.TRACE_CFG.PERIOD ≠ 0 → s.getF F.TRACE_CFG.PERIOD ≤ s.obs.sampled →
      s.obs.watch.length ≤ 4096 → s.does .traceSample fun u => u.obs.sampled = s.obs.sampled - s.getF F.TRACE_CFG.PERIOD ∧
        (∃ bs, u.obs.watch = s.obs.watch ++ [bs]) ∧ u.obs.watchSeq = (s.obs.watchSeq + 1) % 2 ^ 32) ∧
    (∀ (passed : List (BitVec 10)) (mask : Nat), s.boot.regate = some mask → s.boot.regateNext = 0 →
      s.does (.regateDone passed) fun u => u.boot.regate = none ∧ u.getF F.GATE_SUMMARY.REGATE_RUNNING = 0 ∧
        (∀ l < 528, u.laneExcluded l = (s.laneExcluded l && !(State.regateNames mask l && (passed.map BitVec.toNat).contains l))) ∧
        ∃ x, u.recs = s.recs ++ [x] ∧ x.code = 0x0071)

/-- A step carries out the command that has waited longest, on the state with the rest of the queue. -/
def Obligations.StepFront : Prop :=
  ∀ (s : State) (c : Instr) (rest : List Instr), s.pending = c :: rest → step s = exec c { s with pending := rest }

/-- With no command waiting a tick passes (log entry 4): the meridian count advances by one while the reference runs, and the
links take what waits for them; nothing else changes. -/
def Obligations.IdleTick : Prop :=
  ∀ s : State, s.pending = [] → ∃ t, step s = .next t ∧
    t.meridian = (if s.time.refRunning then (s.meridian + 1) % 2 ^ 64 else s.meridian) ∧
    (∀ x ∈ t.ports, x.2.out = []) ∧ t.obs.watch = [] ∧
    s.fieldsBut t [F.MERIDIAN_COUNT.COUNT] ∧
    { t with regs := s.regs, base := s.base, ports := s.ports, obs := { t.obs with watch := s.obs.watch } } = s

/-- Reset: no power, no command waiting; every register reads its reset value, every parcel is the host's and zero, no lease is
held, no ring is enabled, the counter is without lock. Rests on readings and choices of the model: log entries 1, 2 and 5. -/
def Obligations.ResetState : Prop :=
  let s := State.reset
  s.pending = [] ∧ (∀ f : Fld, s.getF f = f.reset ∧ s.pubF f = f.reset) ∧ (∀ p, s.owner p = 0 ∧ s.isPending p = false ∧ s.isRing p = false) ∧
    (∀ a n, s.winGet a n = List.replicate n 0) ∧ s.hasLease = false ∧ s.qEntries 0 = 0 ∧ s.qEntries 1 = 0 ∧ s.enabledQueues = [] ∧
    s.locked = false ∧ s.isReady = false ∧ s.atPublication = true ∧ s.power.permit = false ∧ s.getF F.PLAN_STATUS.CONFIGURED = 0

/-- Every command whose operands can occur answers a next state, in every state; no command is ever refused. Rests on readings
and choices of the model: log entries 6 and 7. -/
def Obligations.CompletesIffWellFormed : Prop :=
  ∀ (s : State) (c : Instr), ((∃ t, exec c s = .next t) ↔ c.wellFormed = true) ∧ (∀ r, exec c s ≠ .refused r) ∧
    (∀ t, exec c s = .next t → t.pending = s.pending ∧ t.man = s.man)

/-- Between commands of a ready module with STEP false, outside a staging pass and a close, nothing waits for the publication
point: no record, no finished entry, no parcel on its way to VOID (R278, R287). Every step keeps it. -/
def Obligations.PublicationInvariant : Prop :=
  ∀ s t : State, s.settledOk → step s = .next t → t.settledOk

/-- The invariant holds at reset, where nothing waits at all. -/
def Obligations.PublicationInvariantAtReset : Prop :=
  State.reset.settledOk ∧ State.reset.recs = [] ∧ State.reset.win.toVoid = [] ∧ ∀ q, (State.reset.queue q).fin = []

/-- What settling may change (R278, R282, R287): registers, window, queues, records, history and the watch connector; nothing
while a step, a staging pass or a close runs. Before readiness records go to the history alone, and without records nothing
changes (R395). Rests on a choice of the model: log entry 6. -/
def Obligations.SettleFrame : Prop :=
  ∀ s : State,
    { s.settle with regs := s.regs, pub := s.pub, base := s.base, win := s.win, queues := s.queues, recs := s.recs, hist := s.hist, obs := s.obs } = s ∧
    (s.atPublication = false ∨ s.isReady = false ∧ s.recs = [] → s.settle = s) ∧
    (s.atPublication = true → s.isReady = false →
      s.settle.recs = [] ∧ s.settle.win = s.win ∧ s.settle.queues = s.queues ∧ s.settle.obs = s.obs)

/-- A store of window bytes or of pad bytes is read back, and every other byte reads as before; a change of a parcel's flags
leaves every byte and every other parcel's flags; both keep the memory's canonical form. -/
def Obligations.MemoryReadAfterWrite : Prop :=
  ∀ (s : State) (a : Nat) (bs : List Byte),
    (s.winPut a bs).winGet a bs.length = bs ∧
    (∀ b n, b + n ≤ a ∨ a + bs.length ≤ b → (s.winPut a bs).winGet b n = s.winGet b n) ∧
    (∀ k, (s.winPut a bs).flag k = s.flag k) ∧
    (∀ (p : Nat) (v : BitVec 4), (s.setFlag p v).flag p = v ∧ (∀ k, k ≠ p → (s.setFlag p v).flag k = s.flag k) ∧
      ∀ b n, (s.setFlag p v).winGet b n = s.winGet b n) ∧
    (∀ lid, s.padOk lid a bs.length = true → a + bs.length ≤ 2 ^ 23 →
      (s.padPut lid a bs).padGet lid a bs.length = bs ∧
      (∀ k b n, k ≠ lid ∨ b + n ≤ a ∨ a + bs.length ≤ b → b + n ≤ 2 ^ 23 → (s.padPut lid a bs).padGet k b n = s.padGet k b n)) ∧
    (Memory.wf s = true → Memory.wf (s.winPut a bs) = true ∧ (∀ lid, Memory.wf (s.padPut lid a bs) = true) ∧
      ∀ p v, Memory.wf (s.setFlag p v) = true)

/-- A correction of a unit (R330): the count of the last 30 days, restarted where CORR_SINCE lies further back, goes up by one;
at the limit one classifiable event of the corrected cause waits to be posted and the count restarts; a limit of 0 classifies
none. -/
def Obligations.Corrections : Prop :=
  ∀ (s : State) (unit : Nat × Nat) (a : FaultArgs),
    let x := s.summary unit
    let m := s.meridian
    let limit := s.getF F.HIST_CFG.CORR_LIMIT
    let back := x.corrOld = true ∨ window30 < m - x.corrSince
    let n := min ((if back then 0 else x.corr) + 1) (2 ^ 16 - 1)
    let t := s.correct unit a
    (limit = 0 ∨ n < limit →
      (t.summary unit).corr = n ∧ (t.summary unit).corrSince = (if back then m else x.corrSince) ∧ (t.summary unit).corrOld = false ∧
        ∃ more, t.recs = s.recs ++ more ∧ ∀ r ∈ more, r.classifiable = false) ∧
    (limit ≠ 0 → limit ≤ n →
      (t.summary unit).corr = 0 ∧ (t.summary unit).corrSince = m ∧
        ∃ r, t.recs = s.recs ++ [r] ∧ r.kind = 2 ∧ r.code = a.code ∧ r.unit = some unit ∧ r.classifiable = true) ∧
    (∀ v, v ≠ unit → unitKey v ≠ unitKey unit → t.summary v = s.summary v) ∧
    t.regs = s.regs ∧ t.plots = s.plots ∧ t.mem = s.mem ∧ t.win = s.win

/-- What every step start leaves in the plots (R135, R148): g1 the plot's logical id, g2 the step seed, g3 to g31 zero, every
tile register zero, m1 to m7 zero, whatever they held before. -/
def Obligations.StepStartRegisters : Prop :=
  ∀ (s : State) (kat : List (BitVec 13)) (c : Instr) (eval : Bool) (i : Nat),
    (c, eval) ∈ [(.stepStart kat, false), (.evalStart kat, true)] →
    let v := s.front
    v.turn = some i → v.opAt 0 i = (if eval then 3 else 2) → v.mustWait = false →
    v.stepRefusal (v.entryWord 0 i 5 % 16) eval = none → v.getF F.REPAIR_STATUS.SUBST_PENDING = 0 →
    s.does c fun u => u.step.begun = true ∧ ∀ lid,
      u.gregAt lid 0 = 0 ∧ u.gregAt lid 1 = BitVec.ofNat 64 lid ∧ u.gregAt lid 2 = BitVec.ofNat 64 (v.entryWord 0 i 4) ∧
      (∀ r, 3 ≤ r → r < 32 → u.gregAt lid r = 0) ∧ (∀ r < 32, u.tileAt lid r = zeroTile) ∧
      (∀ r, 1 ≤ r → r < 8 → u.maskAt lid r = 0)

/-- The commands of queue 0 complete in a module where no entry waits to be skipped, each on conditions of the present state
alone: NOP with OK; a step and an evaluation step that nothing refuses, into their staging pass; an apply of an image that
authenticates and validates, with its commit; a lease that fits; a dusk test; a held witness; and the copies of a substitution
stage (R59, R284, R301, R312, R336, R356, R422). Rests on readings and choices of the model: log entries 12, 46, 47, 51 and 53.
-/
def Obligations.QueueZeroCompletes : Prop :=
  (∀ (s : State) (i : Nat), s.step.skip = [] → s.turn = some i →
    let a := s.entryWindow 0 i
    let len := s.entryLength 0 i
    (s.opAt 0 i = 1 → s.does .nop fun u => s.completed u 0 0 0) ∧
    (∀ (kat : List (BitVec 13)) (c : Instr) (eval : Bool), (c, eval) ∈ [(.stepStart kat, false), (.evalStart kat, true)] →
      s.opAt 0 i = (if eval then 3 else 2) → s.mustWait = false → s.stepRefusal (s.entryWord 0 i 5 % 16) eval = none →
      s.getF F.REPAIR_STATUS.SUBST_PENDING = 0 → s.does c fun u =>
        u.step.phase = .staging ∧ u.step.eval = eval ∧ u.step.program = s.entryWord 0 i 5 % 16 ∧ u.step.seed = s.entryWord 0 i 4 ∧
        u.step.stepS = furrowAdd s.furrow 1 ∧ u.step.q0idx = some i ∧ u.furrow = s.furrow) ∧
    (∀ (o : ApplyObs) (secs : List Section) (d : PlanDoc) (ov : Over) (t : State),
      let img : Img := (s.winGet a len).toArray
      s.opAt 0 i = 4 → s.mustWait = false → s.hasLease = true → 0 < len → a + len ≤ 2 ^ 36 →
      (∀ p ∈ State.parcelsOf a len, s.owner p = 2) → s.hasBadLine a len = false → o.storeBad = false → o.loadFail = none →
      s.authenticate img ((SMap.find? (s.queue 0).via i).bind fun p => (s.port p).plan) = .ok secs →
      decodePlan img secs (State.imageDigest img) = .ok d → s.planShadows d = .ok ov → s.validatePlan d ov = .ok t →
      (d.hdr.newConfig = true ∨ s.getF F.REPAIR_STATUS.SUBST_PENDING = 0) →
      s.does (.apply o) fun u => u = s.commitPlan t d img.toList (ov.any fun x => x.2.2 == 0)) ∧
    (s.opAt 0 i = 5 → len ≠ 0 → s.rangeStatus a 192 true = 0 → s.leaseRefusal (Lease.ofBytes (s.winGet a 192)) = none →
      s.does .lease fun u => u.twin.newest = some (Lease.ofBytes (s.winGet a 192)) ∧ u.hasLease = true ∧
        (u.queue 0).fin = (s.queue 0).fin ++ [⟨i, 0, (Lease.ofBytes (s.winGet a 192)).expiry, false⟩]) ∧
    (∀ hits : List DuskHit, s.opAt 0 i = 6 → s.mustWait = false → s.hasLease = true → s.entryWord 0 i 4 < 2 →
      s.does (.dusk hits) fun u => u.mem.pad = [] ∧ u.mem.loam = [] ∧ u.dusk.isSome = decide (s.entryWord 0 i 4 = 0) ∧
        u.getF F.DUSK_STATUS.RUNNING = (if s.entryWord 0 i 4 = 0 then 1 else 0)) ∧
    (∀ w, s.opAt 0 i = 7 → s.hasLease = true → len ≠ 0 → s.obs.witnesses.find? (fun w => w.1 == s.entryWord 0 i 4) = some w →
      s.rangeStatus a w.2.length false = 0 →
      s.does .witness fun u => u.winGet a w.2.length = w.2 ∧ (u.queue 0).fin = (s.queue 0).fin ++ [⟨i, 0, w.2.length, false⟩])) ∧
  (∀ s : State, s.step.phase = .substituting → s.migrateStage.migrated = false → ∃ t, exec (.migrationStageDone none []) s = .next t ∧
    t = s.after s.migrateStage)
end

