-- ==== Sys2Proof/Laws/Sparse.lean ====
section
/-! SUPPORT. The laws of the sparse stores: what a read answers after each operation, and that every operation keeps the
canonical form. None of the read laws needs the form. -/

namespace Sys2Proof.Machine.SMap

variable {α : Type}

/-! ### Reads -/

@[simp] theorem find?_nil (k : Nat) : find? ([] : SMap α) k = none := rfl

theorem find?_cons (j : Nat) (v : α) (m : SMap α) (k : Nat) :
    find? ((j, v) :: m) k = if j = k then some v else find? m k := rfl

@[simp] theorem find?_drop_same (m : SMap α) (k : Nat) : find? (drop m k) k = none := by
  induction m with
  | nil => rfl
  | cons x m ih =>
    obtain ⟨j, v⟩ := x
    by_cases h : j = k <;> simp [drop, find?, h, ih]

theorem find?_drop_other (m : SMap α) {j k : Nat} (h : j ≠ k) : find? (drop m k) j = find? m j := by
  induction m with
  | nil => rfl
  | cons x m ih =>
    obtain ⟨i, v⟩ := x
    by_cases hk : i = k
    · subst hk
      simp [drop, find?, ih, Ne.symm h]
    · by_cases hj : i = j
      · subst hj
        simp [drop, find?, hk]
      · simp [drop, find?, hk, hj, ih]

theorem find?_put_same (m : SMap α) (k : Nat) (v : α) (h : find? m k = none) : find? (put m k v) k = some v := by
  induction m with
  | nil => simp [put, find?]
  | cons x m ih =>
    obtain ⟨j, w⟩ := x
    by_cases hj : j = k
    · simp [find?, hj] at h
    · simp only [find?, hj, if_false] at h
      by_cases hk : k < j <;> simp [put, find?, hk, hj, ih h]

theorem find?_put_other (m : SMap α) {j k : Nat} (v : α) (h : j ≠ k) : find? (put m k v) j = find? m j := by
  induction m with
  | nil => simp [put, find?, Ne.symm h]
  | cons x m ih =>
    obtain ⟨i, w⟩ := x
    by_cases hk : k < i
    · simp [put, find?, hk, Ne.symm h]
    · by_cases hj : i = j
      · subst hj
        simp [put, find?, hk]
      · simp [put, find?, hk, hj, ih]

@[simp] theorem find?_ins_same (m : SMap α) (k : Nat) (v : α) : find? (ins m k v) k = some v :=
  find?_put_same _ _ _ (find?_drop_same m k)

theorem find?_ins_other (m : SMap α) {j k : Nat} (v : α) (h : j ≠ k) : find? (ins m k v) j = find? m j := by
  rw [ins, find?_put_other _ _ h, find?_drop_other _ h]

section values
variable [DecidableEq α]

@[simp] theorem get_set_same (d : α) (m : SMap α) (k : Nat) (v : α) : get d (set d m k v) k = v := by
  by_cases h : v = d
  · simp [get, set, h]
  · simp [get, set, h, find?_put_same _ _ _ (find?_drop_same m k)]

theorem get_set_other (d : α) (m : SMap α) {j k : Nat} (v : α) (h : j ≠ k) : get d (set d m k v) j = get d m j := by
  by_cases hv : v = d
  · simp [get, set, hv, find?_drop_other _ h]
  · simp [get, set, hv, find?_put_other _ _ h, find?_drop_other _ h]

theorem get_setAll_before (d : α) (vs : List α) (m : SMap α) {j k : Nat} (h : j < k) :
    get d (setAll d m k vs) j = get d m j := by
  induction vs generalizing m k with
  | nil => rfl
  | cons v vs ih => rw [setAll, ih _ (Nat.lt_succ_of_lt h), get_set_other _ _ _ (Nat.ne_of_lt h)]

theorem get_setAll_after (d : α) (vs : List α) (m : SMap α) {j k : Nat} (h : k + vs.length ≤ j) :
    get d (setAll d m k vs) j = get d m j := by
  induction vs generalizing m k with
  | nil => rfl
  | cons v vs ih =>
    simp only [List.length_cons] at h
    rw [setAll, ih _ (by omega), get_set_other _ _ _ (by omega)]

/-- A byte outside a written range reads as before. -/
theorem get_setAll_outside (d : α) (vs : List α) (m : SMap α) {j k : Nat} (h : j < k ∨ k + vs.length ≤ j) :
    get d (setAll d m k vs) j = get d m j :=
  h.elim (get_setAll_before d vs m) (get_setAll_after d vs m)

/-- A written range reads as what was written. -/
@[simp] theorem getAll_setAll (d : α) (vs : List α) (m : SMap α) (k : Nat) :
    getAll d (setAll d m k vs) k vs.length = vs := by
  induction vs generalizing m k with
  | nil => rfl
  | cons v vs ih =>
    rw [setAll, List.length_cons, getAll, ih, get_setAll_before _ _ _ (Nat.lt_succ_self k), get_set_same]

end values

/-! ### Writing one number again -/

@[simp] theorem drop_drop (m : SMap α) (k : Nat) : drop (drop m k) k = drop m k := by
  induction m with
  | nil => rfl
  | cons x m ih =>
    obtain ⟨j, v⟩ := x
    by_cases h : j = k <;> simp [drop, h, ih]

@[simp] theorem drop_put (m : SMap α) (k : Nat) (v : α) : drop (put m k v) k = drop m k := by
  induction m with
  | nil => simp [put, drop]
  | cons x m ih =>
    obtain ⟨j, w⟩ := x
    by_cases h : k < j
    · simp [put, drop, h]
    · by_cases hj : j = k <;> simp [put, drop, h, hj, ih]

@[simp] theorem ins_ins (m : SMap α) (k : Nat) (v w : α) : ins (ins m k v) k w = ins m k w := by simp [ins]

theorem getAll_setAll_outside [DecidableEq α] (d : α) (vs : List α) (m : SMap α) {j k n : Nat} (h : j + n ≤ k ∨ k + vs.length ≤ j) :
    getAll d (setAll d m k vs) j n = getAll d m j n := by
  induction n generalizing j with
  | zero => rfl
  | succ n ih =>
    rw [getAll, getAll, ih (by omega), get_setAll_outside]
    omega

theorem set_set [DecidableEq α] (d : α) (m : SMap α) (k : Nat) (v w : α) : set d (set d m k v) k w = set d m k w := by
  by_cases hv : v = d <;> by_cases hw : w = d <;> simp [set, hv, hw]

/-! ### The canonical form -/

/-- Every listed number lies above `k`. -/
def above (k : Nat) (m : SMap α) : Prop := ∀ p ∈ m, k < p.1

theorem rising_cons (j : Nat) (v : α) (m : SMap α) : rising ((j, v) :: m) = true ↔ above j m ∧ rising m = true := by
  induction m generalizing j v with
  | nil => simp [rising, above]
  | cons x m ih =>
    obtain ⟨k, w⟩ := x
    simp only [rising, Bool.and_eq_true, decide_eq_true_eq]
    constructor
    · rintro ⟨hjk, hm⟩
      refine ⟨?_, hm⟩
      intro p hp
      rcases List.mem_cons.mp hp with rfl | hp
      · exact hjk
      · exact Nat.lt_trans hjk (((ih k w).mp hm).1 p hp)
    · rintro ⟨ha, hm⟩
      exact ⟨ha _ List.mem_cons_self, hm⟩

theorem mem_drop {m : SMap α} {k : Nat} {p : Nat × α} (h : p ∈ drop m k) : p ∈ m ∧ p.1 ≠ k := by
  induction m with
  | nil => simp [drop] at h
  | cons x m ih =>
    obtain ⟨j, v⟩ := x
    by_cases hj : j = k
    · simp only [drop, hj, if_true] at h
      exact ⟨List.mem_cons_of_mem _ (ih h).1, (ih h).2⟩
    · simp only [drop, hj, if_false, List.mem_cons] at h
      rcases h with rfl | h
      · exact ⟨List.mem_cons_self, hj⟩
      · exact ⟨List.mem_cons_of_mem _ (ih h).1, (ih h).2⟩

theorem mem_put {m : SMap α} {k : Nat} {v : α} {p : Nat × α} (h : p ∈ put m k v) : p = (k, v) ∨ p ∈ m := by
  induction m with
  | nil => simpa [put] using h
  | cons x m ih =>
    obtain ⟨j, w⟩ := x
    by_cases hk : k < j
    · simp only [put, hk, if_true, List.mem_cons] at h
      rcases h with h | h | h
      · exact .inl h
      · exact .inr (h ▸ List.mem_cons_self)
      · exact .inr (List.mem_cons_of_mem _ h)
    · simp only [put, hk, if_false, List.mem_cons] at h
      rcases h with h | h
      · exact .inr (h ▸ List.mem_cons_self)
      · exact (ih h).imp id (List.mem_cons_of_mem _)

theorem rising_drop {m : SMap α} (h : rising m = true) (k : Nat) : rising (drop m k) = true := by
  induction m with
  | nil => rfl
  | cons x m ih =>
    obtain ⟨j, v⟩ := x
    obtain ⟨ha, hm⟩ := (rising_cons j v m).mp h
    by_cases hj : j = k
    · simpa [drop, hj] using ih hm
    · simp only [drop, hj, if_false]
      exact (rising_cons _ _ _).mpr ⟨fun p hp => ha p (mem_drop hp).1, ih hm⟩

theorem rising_put {m : SMap α} {k : Nat} (h : rising m = true) (hk : ∀ p ∈ m, p.1 ≠ k) (v : α) :
    rising (put m k v) = true := by
  induction m with
  | nil => rfl
  | cons x m ih =>
    obtain ⟨j, w⟩ := x
    obtain ⟨ha, hm⟩ := (rising_cons j w m).mp h
    have hj : j ≠ k := hk _ List.mem_cons_self
    by_cases hlt : k < j
    · simp only [put, hlt, if_true]
      refine (rising_cons _ _ _).mpr ⟨?_, h⟩
      intro p hp
      rcases List.mem_cons.mp hp with rfl | hp
      · exact hlt
      · exact Nat.lt_trans hlt (ha p hp)
    · simp only [put, hlt, if_false]
      refine (rising_cons _ _ _).mpr ⟨?_, ih hm fun p hp => hk p (List.mem_cons_of_mem _ hp)⟩
      intro p hp
      rcases mem_put hp with rfl | hp
      · exact Nat.lt_of_le_of_ne (Nat.le_of_not_lt hlt) hj
      · exact ha p hp

theorem rising_ins {m : SMap α} (h : rising m = true) (k : Nat) (v : α) : rising (ins m k v) = true :=
  rising_put (rising_drop h k) (fun _ hp => (mem_drop hp).2) v

theorem rising_filter {m : SMap α} (h : rising m = true) (f : Nat × α → Bool) : rising (m.filter f) = true := by
  induction m with
  | nil => rfl
  | cons x m ih =>
    obtain ⟨j, v⟩ := x
    obtain ⟨ha, hm⟩ := (rising_cons j v m).mp h
    by_cases hf : f (j, v) = true
    · rw [List.filter_cons_of_pos hf]
      exact (rising_cons _ _ _).mpr ⟨fun p hp => ha p (List.mem_filter.mp hp).1, ih hm⟩
    · rw [List.filter_cons_of_neg hf]
      exact ih hm

section form
variable [DecidableEq α] {d : α} {m : SMap α}

theorem wf_iff : wf d m = true ↔ rising m = true ∧ ∀ p ∈ m, p.2 ≠ d := by simp [wf]

@[simp] theorem wf_nil : wf d ([] : SMap α) = true := rfl

theorem wf_drop (h : wf d m = true) (k : Nat) : wf d (drop m k) = true :=
  wf_iff.mpr ⟨rising_drop (wf_iff.mp h).1 k, fun p hp => (wf_iff.mp h).2 p (mem_drop hp).1⟩

theorem wf_set (h : wf d m = true) (k : Nat) (v : α) : wf d (set d m k v) = true := by
  by_cases hv : v = d
  · simpa [set, hv] using wf_drop h k
  · simp only [set, hv, if_false]
    refine wf_iff.mpr ⟨rising_ins (wf_iff.mp h).1 k v, ?_⟩
    intro p hp
    rcases mem_put hp with rfl | hp
    · exact hv
    · exact (wf_iff.mp (wf_drop h k)).2 p hp

theorem wf_modify (h : wf d m = true) (k : Nat) (f : α → α) : wf d (modify d m k f) = true := wf_set h k _

theorem wf_setAll (h : wf d m = true) (k : Nat) (vs : List α) : wf d (setAll d m k vs) = true := by
  induction vs generalizing m k with
  | nil => exact h
  | cons v vs ih => exact ih (wf_set h k v) (k + 1)

theorem wf_filter (h : wf d m = true) (f : Nat × α → Bool) : wf d (m.filter f) = true :=
  wf_iff.mpr ⟨rising_filter (wf_iff.mp h).1 f, fun p hp => (wf_iff.mp h).2 p (List.mem_filter.mp hp).1⟩

theorem wf_clearRange (h : wf d m = true) (lo n : Nat) : wf d (clearRange m lo n) = true := wf_filter h _

end form

end Sys2Proof.Machine.SMap
end

