-- ==== Sys2Proof/Laws/State.lean ====
section
/-! SUPPORT. What each update of the state leaves as it was: one lemma for each field and update. -/

namespace Sys2Proof.Machine.State

variable (s : State)

/-! ### setF -/

@[simp] theorem setF_pending (f : Fld) (v : Nat) : (s.setF f v).pending = s.pending := rfl
@[simp] theorem setF_freeCtr (f : Fld) (v : Nat) : (s.setF f v).freeCtr = s.freeCtr := rfl
@[simp] theorem setF_pub (f : Fld) (v : Nat) : (s.setF f v).pub = s.pub := rfl
@[simp] theorem setF_base (f : Fld) (v : Nat) : (s.setF f v).base = s.base := rfl
@[simp] theorem setF_shadow (f : Fld) (v : Nat) : (s.setF f v).shadow = s.shadow := rfl
@[simp] theorem setF_man (f : Fld) (v : Nat) : (s.setF f v).man = s.man := rfl
@[simp] theorem setF_time (f : Fld) (v : Nat) : (s.setF f v).time = s.time := rfl
@[simp] theorem setF_step (f : Fld) (v : Nat) : (s.setF f v).step = s.step := rfl
@[simp] theorem setF_recs (f : Fld) (v : Nat) : (s.setF f v).recs = s.recs := rfl
@[simp] theorem setF_sense (f : Fld) (v : Nat) : (s.setF f v).sense = s.sense := rfl
@[simp] theorem setF_hist (f : Fld) (v : Nat) : (s.setF f v).hist = s.hist := rfl
@[simp] theorem setF_queues (f : Fld) (v : Nat) : (s.setF f v).queues = s.queues := rfl
@[simp] theorem setF_ports (f : Fld) (v : Nat) : (s.setF f v).ports = s.ports := rfl
@[simp] theorem setF_win (f : Fld) (v : Nat) : (s.setF f v).win = s.win := rfl
@[simp] theorem setF_grid (f : Fld) (v : Nat) : (s.setF f v).grid = s.grid := rfl
@[simp] theorem setF_fab (f : Fld) (v : Nat) : (s.setF f v).fab = s.fab := rfl
@[simp] theorem setF_plots (f : Fld) (v : Nat) : (s.setF f v).plots = s.plots := rfl
@[simp] theorem setF_mem (f : Fld) (v : Nat) : (s.setF f v).mem = s.mem := rfl
@[simp] theorem setF_ckpt (f : Fld) (v : Nat) : (s.setF f v).ckpt = s.ckpt := rfl
@[simp] theorem setF_twin (f : Fld) (v : Nat) : (s.setF f v).twin = s.twin := rfl
@[simp] theorem setF_plan (f : Fld) (v : Nat) : (s.setF f v).plan = s.plan := rfl
@[simp] theorem setF_sow (f : Fld) (v : Nat) : (s.setF f v).sow = s.sow := rfl
@[simp] theorem setF_hv (f : Fld) (v : Nat) : (s.setF f v).hv = s.hv := rfl
@[simp] theorem setF_obs (f : Fld) (v : Nat) : (s.setF f v).obs = s.obs := rfl
@[simp] theorem setF_power (f : Fld) (v : Nat) : (s.setF f v).power = s.power := rfl
@[simp] theorem setF_boot (f : Fld) (v : Nat) : (s.setF f v).boot = s.boot := rfl
@[simp] theorem setF_dusk (f : Fld) (v : Nat) : (s.setF f v).dusk = s.dusk := rfl

/-! ### keepF -/

@[simp] theorem keepF_pending (f : Fld) (v : Nat) : (s.keepF f v).pending = s.pending := rfl
@[simp] theorem keepF_freeCtr (f : Fld) (v : Nat) : (s.keepF f v).freeCtr = s.freeCtr := rfl
@[simp] theorem keepF_pub (f : Fld) (v : Nat) : (s.keepF f v).pub = s.pub := rfl
@[simp] theorem keepF_shadow (f : Fld) (v : Nat) : (s.keepF f v).shadow = s.shadow := rfl
@[simp] theorem keepF_man (f : Fld) (v : Nat) : (s.keepF f v).man = s.man := rfl
@[simp] theorem keepF_time (f : Fld) (v : Nat) : (s.keepF f v).time = s.time := rfl
@[simp] theorem keepF_step (f : Fld) (v : Nat) : (s.keepF f v).step = s.step := rfl
@[simp] theorem keepF_recs (f : Fld) (v : Nat) : (s.keepF f v).recs = s.recs := rfl
@[simp] theorem keepF_sense (f : Fld) (v : Nat) : (s.keepF f v).sense = s.sense := rfl
@[simp] theorem keepF_hist (f : Fld) (v : Nat) : (s.keepF f v).hist = s.hist := rfl
@[simp] theorem keepF_queues (f : Fld) (v : Nat) : (s.keepF f v).queues = s.queues := rfl
@[simp] theorem keepF_ports (f : Fld) (v : Nat) : (s.keepF f v).ports = s.ports := rfl
@[simp] theorem keepF_win (f : Fld) (v : Nat) : (s.keepF f v).win = s.win := rfl
@[simp] theorem keepF_grid (f : Fld) (v : Nat) : (s.keepF f v).grid = s.grid := rfl
@[simp] theorem keepF_fab (f : Fld) (v : Nat) : (s.keepF f v).fab = s.fab := rfl
@[simp] theorem keepF_plots (f : Fld) (v : Nat) : (s.keepF f v).plots = s.plots := rfl
@[simp] theorem keepF_mem (f : Fld) (v : Nat) : (s.keepF f v).mem = s.mem := rfl
@[simp] theorem keepF_ckpt (f : Fld) (v : Nat) : (s.keepF f v).ckpt = s.ckpt := rfl
@[simp] theorem keepF_twin (f : Fld) (v : Nat) : (s.keepF f v).twin = s.twin := rfl
@[simp] theorem keepF_plan (f : Fld) (v : Nat) : (s.keepF f v).plan = s.plan := rfl
@[simp] theorem keepF_sow (f : Fld) (v : Nat) : (s.keepF f v).sow = s.sow := rfl
@[simp] theorem keepF_hv (f : Fld) (v : Nat) : (s.keepF f v).hv = s.hv := rfl
@[simp] theorem keepF_obs (f : Fld) (v : Nat) : (s.keepF f v).obs = s.obs := rfl
@[simp] theorem keepF_power (f : Fld) (v : Nat) : (s.keepF f v).power = s.power := rfl
@[simp] theorem keepF_boot (f : Fld) (v : Nat) : (s.keepF f v).boot = s.boot := rfl
@[simp] theorem keepF_dusk (f : Fld) (v : Nat) : (s.keepF f v).dusk = s.dusk := rfl

/-! ### nowF -/

@[simp] theorem nowF_pending (f : Fld) (v : Nat) : (s.nowF f v).pending = s.pending := rfl
@[simp] theorem nowF_freeCtr (f : Fld) (v : Nat) : (s.nowF f v).freeCtr = s.freeCtr := rfl
@[simp] theorem nowF_shadow (f : Fld) (v : Nat) : (s.nowF f v).shadow = s.shadow := rfl
@[simp] theorem nowF_man (f : Fld) (v : Nat) : (s.nowF f v).man = s.man := rfl
@[simp] theorem nowF_time (f : Fld) (v : Nat) : (s.nowF f v).time = s.time := rfl
@[simp] theorem nowF_step (f : Fld) (v : Nat) : (s.nowF f v).step = s.step := rfl
@[simp] theorem nowF_recs (f : Fld) (v : Nat) : (s.nowF f v).recs = s.recs := rfl
@[simp] theorem nowF_sense (f : Fld) (v : Nat) : (s.nowF f v).sense = s.sense := rfl
@[simp] theorem nowF_hist (f : Fld) (v : Nat) : (s.nowF f v).hist = s.hist := rfl
@[simp] theorem nowF_queues (f : Fld) (v : Nat) : (s.nowF f v).queues = s.queues := rfl
@[simp] theorem nowF_ports (f : Fld) (v : Nat) : (s.nowF f v).ports = s.ports := rfl
@[simp] theorem nowF_win (f : Fld) (v : Nat) : (s.nowF f v).win = s.win := rfl
@[simp] theorem nowF_grid (f : Fld) (v : Nat) : (s.nowF f v).grid = s.grid := rfl
@[simp] theorem nowF_fab (f : Fld) (v : Nat) : (s.nowF f v).fab = s.fab := rfl
@[simp] theorem nowF_plots (f : Fld) (v : Nat) : (s.nowF f v).plots = s.plots := rfl
@[simp] theorem nowF_mem (f : Fld) (v : Nat) : (s.nowF f v).mem = s.mem := rfl
@[simp] theorem nowF_ckpt (f : Fld) (v : Nat) : (s.nowF f v).ckpt = s.ckpt := rfl
@[simp] theorem nowF_twin (f : Fld) (v : Nat) : (s.nowF f v).twin = s.twin := rfl
@[simp] theorem nowF_plan (f : Fld) (v : Nat) : (s.nowF f v).plan = s.plan := rfl
@[simp] theorem nowF_sow (f : Fld) (v : Nat) : (s.nowF f v).sow = s.sow := rfl
@[simp] theorem nowF_hv (f : Fld) (v : Nat) : (s.nowF f v).hv = s.hv := rfl
@[simp] theorem nowF_obs (f : Fld) (v : Nat) : (s.nowF f v).obs = s.obs := rfl
@[simp] theorem nowF_power (f : Fld) (v : Nat) : (s.nowF f v).power = s.power := rfl
@[simp] theorem nowF_boot (f : Fld) (v : Nat) : (s.nowF f v).boot = s.boot := rfl
@[simp] theorem nowF_dusk (f : Fld) (v : Nat) : (s.nowF f v).dusk = s.dusk := rfl

/-! ### incF -/

@[simp] theorem incF_pending (f : Fld) (n : Nat) : (s.incF f n).pending = s.pending := rfl
@[simp] theorem incF_freeCtr (f : Fld) (n : Nat) : (s.incF f n).freeCtr = s.freeCtr := rfl
@[simp] theorem incF_pub (f : Fld) (n : Nat) : (s.incF f n).pub = s.pub := rfl
@[simp] theorem incF_base (f : Fld) (n : Nat) : (s.incF f n).base = s.base := rfl
@[simp] theorem incF_shadow (f : Fld) (n : Nat) : (s.incF f n).shadow = s.shadow := rfl
@[simp] theorem incF_man (f : Fld) (n : Nat) : (s.incF f n).man = s.man := rfl
@[simp] theorem incF_time (f : Fld) (n : Nat) : (s.incF f n).time = s.time := rfl
@[simp] theorem incF_step (f : Fld) (n : Nat) : (s.incF f n).step = s.step := rfl
@[simp] theorem incF_recs (f : Fld) (n : Nat) : (s.incF f n).recs = s.recs := rfl
@[simp] theorem incF_sense (f : Fld) (n : Nat) : (s.incF f n).sense = s.sense := rfl
@[simp] theorem incF_hist (f : Fld) (n : Nat) : (s.incF f n).hist = s.hist := rfl
@[simp] theorem incF_queues (f : Fld) (n : Nat) : (s.incF f n).queues = s.queues := rfl
@[simp] theorem incF_ports (f : Fld) (n : Nat) : (s.incF f n).ports = s.ports := rfl
@[simp] theorem incF_win (f : Fld) (n : Nat) : (s.incF f n).win = s.win := rfl
@[simp] theorem incF_grid (f : Fld) (n : Nat) : (s.incF f n).grid = s.grid := rfl
@[simp] theorem incF_fab (f : Fld) (n : Nat) : (s.incF f n).fab = s.fab := rfl
@[simp] theorem incF_plots (f : Fld) (n : Nat) : (s.incF f n).plots = s.plots := rfl
@[simp] theorem incF_mem (f : Fld) (n : Nat) : (s.incF f n).mem = s.mem := rfl
@[simp] theorem incF_ckpt (f : Fld) (n : Nat) : (s.incF f n).ckpt = s.ckpt := rfl
@[simp] theorem incF_twin (f : Fld) (n : Nat) : (s.incF f n).twin = s.twin := rfl
@[simp] theorem incF_plan (f : Fld) (n : Nat) : (s.incF f n).plan = s.plan := rfl
@[simp] theorem incF_sow (f : Fld) (n : Nat) : (s.incF f n).sow = s.sow := rfl
@[simp] theorem incF_hv (f : Fld) (n : Nat) : (s.incF f n).hv = s.hv := rfl
@[simp] theorem incF_obs (f : Fld) (n : Nat) : (s.incF f n).obs = s.obs := rfl
@[simp] theorem incF_power (f : Fld) (n : Nat) : (s.incF f n).power = s.power := rfl
@[simp] theorem incF_boot (f : Fld) (n : Nat) : (s.incF f n).boot = s.boot := rfl
@[simp] theorem incF_dusk (f : Fld) (n : Nat) : (s.incF f n).dusk = s.dusk := rfl

/-! ### incSat -/

@[simp] theorem incSat_pending (f : Fld) (n : Nat) : (s.incSat f n).pending = s.pending := rfl
@[simp] theorem incSat_freeCtr (f : Fld) (n : Nat) : (s.incSat f n).freeCtr = s.freeCtr := rfl
@[simp] theorem incSat_pub (f : Fld) (n : Nat) : (s.incSat f n).pub = s.pub := rfl
@[simp] theorem incSat_base (f : Fld) (n : Nat) : (s.incSat f n).base = s.base := rfl
@[simp] theorem incSat_shadow (f : Fld) (n : Nat) : (s.incSat f n).shadow = s.shadow := rfl
@[simp] theorem incSat_man (f : Fld) (n : Nat) : (s.incSat f n).man = s.man := rfl
@[simp] theorem incSat_time (f : Fld) (n : Nat) : (s.incSat f n).time = s.time := rfl
@[simp] theorem incSat_step (f : Fld) (n : Nat) : (s.incSat f n).step = s.step := rfl
@[simp] theorem incSat_recs (f : Fld) (n : Nat) : (s.incSat f n).recs = s.recs := rfl
@[simp] theorem incSat_sense (f : Fld) (n : Nat) : (s.incSat f n).sense = s.sense := rfl
@[simp] theorem incSat_hist (f : Fld) (n : Nat) : (s.incSat f n).hist = s.hist := rfl
@[simp] theorem incSat_queues (f : Fld) (n : Nat) : (s.incSat f n).queues = s.queues := rfl
@[simp] theorem incSat_ports (f : Fld) (n : Nat) : (s.incSat f n).ports = s.ports := rfl
@[simp] theorem incSat_win (f : Fld) (n : Nat) : (s.incSat f n).win = s.win := rfl
@[simp] theorem incSat_grid (f : Fld) (n : Nat) : (s.incSat f n).grid = s.grid := rfl
@[simp] theorem incSat_fab (f : Fld) (n : Nat) : (s.incSat f n).fab = s.fab := rfl
@[simp] theorem incSat_plots (f : Fld) (n : Nat) : (s.incSat f n).plots = s.plots := rfl
@[simp] theorem incSat_mem (f : Fld) (n : Nat) : (s.incSat f n).mem = s.mem := rfl
@[simp] theorem incSat_ckpt (f : Fld) (n : Nat) : (s.incSat f n).ckpt = s.ckpt := rfl
@[simp] theorem incSat_twin (f : Fld) (n : Nat) : (s.incSat f n).twin = s.twin := rfl
@[simp] theorem incSat_plan (f : Fld) (n : Nat) : (s.incSat f n).plan = s.plan := rfl
@[simp] theorem incSat_sow (f : Fld) (n : Nat) : (s.incSat f n).sow = s.sow := rfl
@[simp] theorem incSat_hv (f : Fld) (n : Nat) : (s.incSat f n).hv = s.hv := rfl
@[simp] theorem incSat_obs (f : Fld) (n : Nat) : (s.incSat f n).obs = s.obs := rfl
@[simp] theorem incSat_power (f : Fld) (n : Nat) : (s.incSat f n).power = s.power := rfl
@[simp] theorem incSat_boot (f : Fld) (n : Nat) : (s.incSat f n).boot = s.boot := rfl
@[simp] theorem incSat_dusk (f : Fld) (n : Nat) : (s.incSat f n).dusk = s.dusk := rfl

/-! ### incLive -/

@[simp] theorem incLive_pending (f : Fld) (n : Nat) : (s.incLive f n).pending = s.pending := rfl
@[simp] theorem incLive_freeCtr (f : Fld) (n : Nat) : (s.incLive f n).freeCtr = s.freeCtr := rfl
@[simp] theorem incLive_pub (f : Fld) (n : Nat) : (s.incLive f n).pub = s.pub := rfl
@[simp] theorem incLive_shadow (f : Fld) (n : Nat) : (s.incLive f n).shadow = s.shadow := rfl
@[simp] theorem incLive_man (f : Fld) (n : Nat) : (s.incLive f n).man = s.man := rfl
@[simp] theorem incLive_time (f : Fld) (n : Nat) : (s.incLive f n).time = s.time := rfl
@[simp] theorem incLive_step (f : Fld) (n : Nat) : (s.incLive f n).step = s.step := rfl
@[simp] theorem incLive_recs (f : Fld) (n : Nat) : (s.incLive f n).recs = s.recs := rfl
@[simp] theorem incLive_sense (f : Fld) (n : Nat) : (s.incLive f n).sense = s.sense := rfl
@[simp] theorem incLive_hist (f : Fld) (n : Nat) : (s.incLive f n).hist = s.hist := rfl
@[simp] theorem incLive_queues (f : Fld) (n : Nat) : (s.incLive f n).queues = s.queues := rfl
@[simp] theorem incLive_ports (f : Fld) (n : Nat) : (s.incLive f n).ports = s.ports := rfl
@[simp] theorem incLive_win (f : Fld) (n : Nat) : (s.incLive f n).win = s.win := rfl
@[simp] theorem incLive_grid (f : Fld) (n : Nat) : (s.incLive f n).grid = s.grid := rfl
@[simp] theorem incLive_fab (f : Fld) (n : Nat) : (s.incLive f n).fab = s.fab := rfl
@[simp] theorem incLive_plots (f : Fld) (n : Nat) : (s.incLive f n).plots = s.plots := rfl
@[simp] theorem incLive_mem (f : Fld) (n : Nat) : (s.incLive f n).mem = s.mem := rfl
@[simp] theorem incLive_ckpt (f : Fld) (n : Nat) : (s.incLive f n).ckpt = s.ckpt := rfl
@[simp] theorem incLive_twin (f : Fld) (n : Nat) : (s.incLive f n).twin = s.twin := rfl
@[simp] theorem incLive_plan (f : Fld) (n : Nat) : (s.incLive f n).plan = s.plan := rfl
@[simp] theorem incLive_sow (f : Fld) (n : Nat) : (s.incLive f n).sow = s.sow := rfl
@[simp] theorem incLive_hv (f : Fld) (n : Nat) : (s.incLive f n).hv = s.hv := rfl
@[simp] theorem incLive_obs (f : Fld) (n : Nat) : (s.incLive f n).obs = s.obs := rfl
@[simp] theorem incLive_power (f : Fld) (n : Nat) : (s.incLive f n).power = s.power := rfl
@[simp] theorem incLive_boot (f : Fld) (n : Nat) : (s.incLive f n).boot = s.boot := rfl
@[simp] theorem incLive_dusk (f : Fld) (n : Nat) : (s.incLive f n).dusk = s.dusk := rfl

/-! ### winPut -/

@[simp] theorem winPut_pending (a : Nat) (bs : List Byte) : (s.winPut a bs).pending = s.pending := rfl
@[simp] theorem winPut_freeCtr (a : Nat) (bs : List Byte) : (s.winPut a bs).freeCtr = s.freeCtr := rfl
@[simp] theorem winPut_regs (a : Nat) (bs : List Byte) : (s.winPut a bs).regs = s.regs := rfl
@[simp] theorem winPut_pub (a : Nat) (bs : List Byte) : (s.winPut a bs).pub = s.pub := rfl
@[simp] theorem winPut_base (a : Nat) (bs : List Byte) : (s.winPut a bs).base = s.base := rfl
@[simp] theorem winPut_shadow (a : Nat) (bs : List Byte) : (s.winPut a bs).shadow = s.shadow := rfl
@[simp] theorem winPut_man (a : Nat) (bs : List Byte) : (s.winPut a bs).man = s.man := rfl
@[simp] theorem winPut_time (a : Nat) (bs : List Byte) : (s.winPut a bs).time = s.time := rfl
@[simp] theorem winPut_step (a : Nat) (bs : List Byte) : (s.winPut a bs).step = s.step := rfl
@[simp] theorem winPut_recs (a : Nat) (bs : List Byte) : (s.winPut a bs).recs = s.recs := rfl
@[simp] theorem winPut_sense (a : Nat) (bs : List Byte) : (s.winPut a bs).sense = s.sense := rfl
@[simp] theorem winPut_hist (a : Nat) (bs : List Byte) : (s.winPut a bs).hist = s.hist := rfl
@[simp] theorem winPut_queues (a : Nat) (bs : List Byte) : (s.winPut a bs).queues = s.queues := rfl
@[simp] theorem winPut_ports (a : Nat) (bs : List Byte) : (s.winPut a bs).ports = s.ports := rfl
@[simp] theorem winPut_grid (a : Nat) (bs : List Byte) : (s.winPut a bs).grid = s.grid := rfl
@[simp] theorem winPut_fab (a : Nat) (bs : List Byte) : (s.winPut a bs).fab = s.fab := rfl
@[simp] theorem winPut_plots (a : Nat) (bs : List Byte) : (s.winPut a bs).plots = s.plots := rfl
@[simp] theorem winPut_mem (a : Nat) (bs : List Byte) : (s.winPut a bs).mem = s.mem := rfl
@[simp] theorem winPut_ckpt (a : Nat) (bs : List Byte) : (s.winPut a bs).ckpt = s.ckpt := rfl
@[simp] theorem winPut_twin (a : Nat) (bs : List Byte) : (s.winPut a bs).twin = s.twin := rfl
@[simp] theorem winPut_plan (a : Nat) (bs : List Byte) : (s.winPut a bs).plan = s.plan := rfl
@[simp] theorem winPut_sow (a : Nat) (bs : List Byte) : (s.winPut a bs).sow = s.sow := rfl
@[simp] theorem winPut_hv (a : Nat) (bs : List Byte) : (s.winPut a bs).hv = s.hv := rfl
@[simp] theorem winPut_obs (a : Nat) (bs : List Byte) : (s.winPut a bs).obs = s.obs := rfl
@[simp] theorem winPut_power (a : Nat) (bs : List Byte) : (s.winPut a bs).power = s.power := rfl
@[simp] theorem winPut_boot (a : Nat) (bs : List Byte) : (s.winPut a bs).boot = s.boot := rfl
@[simp] theorem winPut_dusk (a : Nat) (bs : List Byte) : (s.winPut a bs).dusk = s.dusk := rfl

/-! ### winPutWord -/

@[simp] theorem winPutWord_pending (a v : Nat) : (s.winPutWord a v).pending = s.pending := rfl
@[simp] theorem winPutWord_freeCtr (a v : Nat) : (s.winPutWord a v).freeCtr = s.freeCtr := rfl
@[simp] theorem winPutWord_regs (a v : Nat) : (s.winPutWord a v).regs = s.regs := rfl
@[simp] theorem winPutWord_pub (a v : Nat) : (s.winPutWord a v).pub = s.pub := rfl
@[simp] theorem winPutWord_base (a v : Nat) : (s.winPutWord a v).base = s.base := rfl
@[simp] theorem winPutWord_shadow (a v : Nat) : (s.winPutWord a v).shadow = s.shadow := rfl
@[simp] theorem winPutWord_man (a v : Nat) : (s.winPutWord a v).man = s.man := rfl
@[simp] theorem winPutWord_time (a v : Nat) : (s.winPutWord a v).time = s.time := rfl
@[simp] theorem winPutWord_step (a v : Nat) : (s.winPutWord a v).step = s.step := rfl
@[simp] theorem winPutWord_recs (a v : Nat) : (s.winPutWord a v).recs = s.recs := rfl
@[simp] theorem winPutWord_sense (a v : Nat) : (s.winPutWord a v).sense = s.sense := rfl
@[simp] theorem winPutWord_hist (a v : Nat) : (s.winPutWord a v).hist = s.hist := rfl
@[simp] theorem winPutWord_queues (a v : Nat) : (s.winPutWord a v).queues = s.queues := rfl
@[simp] theorem winPutWord_ports (a v : Nat) : (s.winPutWord a v).ports = s.ports := rfl
@[simp] theorem winPutWord_grid (a v : Nat) : (s.winPutWord a v).grid = s.grid := rfl
@[simp] theorem winPutWord_fab (a v : Nat) : (s.winPutWord a v).fab = s.fab := rfl
@[simp] theorem winPutWord_plots (a v : Nat) : (s.winPutWord a v).plots = s.plots := rfl
@[simp] theorem winPutWord_mem (a v : Nat) : (s.winPutWord a v).mem = s.mem := rfl
@[simp] theorem winPutWord_ckpt (a v : Nat) : (s.winPutWord a v).ckpt = s.ckpt := rfl
@[simp] theorem winPutWord_twin (a v : Nat) : (s.winPutWord a v).twin = s.twin := rfl
@[simp] theorem winPutWord_plan (a v : Nat) : (s.winPutWord a v).plan = s.plan := rfl
@[simp] theorem winPutWord_sow (a v : Nat) : (s.winPutWord a v).sow = s.sow := rfl
@[simp] theorem winPutWord_hv (a v : Nat) : (s.winPutWord a v).hv = s.hv := rfl
@[simp] theorem winPutWord_obs (a v : Nat) : (s.winPutWord a v).obs = s.obs := rfl
@[simp] theorem winPutWord_power (a v : Nat) : (s.winPutWord a v).power = s.power := rfl
@[simp] theorem winPutWord_boot (a v : Nat) : (s.winPutWord a v).boot = s.boot := rfl
@[simp] theorem winPutWord_dusk (a v : Nat) : (s.winPutWord a v).dusk = s.dusk := rfl

/-! ### setFlag -/

@[simp] theorem setFlag_pending (p : Nat) (v : BitVec 4) : (s.setFlag p v).pending = s.pending := rfl
@[simp] theorem setFlag_freeCtr (p : Nat) (v : BitVec 4) : (s.setFlag p v).freeCtr = s.freeCtr := rfl
@[simp] theorem setFlag_regs (p : Nat) (v : BitVec 4) : (s.setFlag p v).regs = s.regs := rfl
@[simp] theorem setFlag_pub (p : Nat) (v : BitVec 4) : (s.setFlag p v).pub = s.pub := rfl
@[simp] theorem setFlag_base (p : Nat) (v : BitVec 4) : (s.setFlag p v).base = s.base := rfl
@[simp] theorem setFlag_shadow (p : Nat) (v : BitVec 4) : (s.setFlag p v).shadow = s.shadow := rfl
@[simp] theorem setFlag_man (p : Nat) (v : BitVec 4) : (s.setFlag p v).man = s.man := rfl
@[simp] theorem setFlag_time (p : Nat) (v : BitVec 4) : (s.setFlag p v).time = s.time := rfl
@[simp] theorem setFlag_step (p : Nat) (v : BitVec 4) : (s.setFlag p v).step = s.step := rfl
@[simp] theorem setFlag_recs (p : Nat) (v : BitVec 4) : (s.setFlag p v).recs = s.recs := rfl
@[simp] theorem setFlag_sense (p : Nat) (v : BitVec 4) : (s.setFlag p v).sense = s.sense := rfl
@[simp] theorem setFlag_hist (p : Nat) (v : BitVec 4) : (s.setFlag p v).hist = s.hist := rfl
@[simp] theorem setFlag_queues (p : Nat) (v : BitVec 4) : (s.setFlag p v).queues = s.queues := rfl
@[simp] theorem setFlag_ports (p : Nat) (v : BitVec 4) : (s.setFlag p v).ports = s.ports := rfl
@[simp] theorem setFlag_grid (p : Nat) (v : BitVec 4) : (s.setFlag p v).grid = s.grid := rfl
@[simp] theorem setFlag_fab (p : Nat) (v : BitVec 4) : (s.setFlag p v).fab = s.fab := rfl
@[simp] theorem setFlag_plots (p : Nat) (v : BitVec 4) : (s.setFlag p v).plots = s.plots := rfl
@[simp] theorem setFlag_mem (p : Nat) (v : BitVec 4) : (s.setFlag p v).mem = s.mem := rfl
@[simp] theorem setFlag_ckpt (p : Nat) (v : BitVec 4) : (s.setFlag p v).ckpt = s.ckpt := rfl
@[simp] theorem setFlag_twin (p : Nat) (v : BitVec 4) : (s.setFlag p v).twin = s.twin := rfl
@[simp] theorem setFlag_plan (p : Nat) (v : BitVec 4) : (s.setFlag p v).plan = s.plan := rfl
@[simp] theorem setFlag_sow (p : Nat) (v : BitVec 4) : (s.setFlag p v).sow = s.sow := rfl
@[simp] theorem setFlag_hv (p : Nat) (v : BitVec 4) : (s.setFlag p v).hv = s.hv := rfl
@[simp] theorem setFlag_obs (p : Nat) (v : BitVec 4) : (s.setFlag p v).obs = s.obs := rfl
@[simp] theorem setFlag_power (p : Nat) (v : BitVec 4) : (s.setFlag p v).power = s.power := rfl
@[simp] theorem setFlag_boot (p : Nat) (v : BitVec 4) : (s.setFlag p v).boot = s.boot := rfl
@[simp] theorem setFlag_dusk (p : Nat) (v : BitVec 4) : (s.setFlag p v).dusk = s.dusk := rfl

/-! ### zeroParcel -/

@[simp] theorem zeroParcel_pending (p : Nat) : (s.zeroParcel p).pending = s.pending := rfl
@[simp] theorem zeroParcel_freeCtr (p : Nat) : (s.zeroParcel p).freeCtr = s.freeCtr := rfl
@[simp] theorem zeroParcel_regs (p : Nat) : (s.zeroParcel p).regs = s.regs := rfl
@[simp] theorem zeroParcel_pub (p : Nat) : (s.zeroParcel p).pub = s.pub := rfl
@[simp] theorem zeroParcel_base (p : Nat) : (s.zeroParcel p).base = s.base := rfl
@[simp] theorem zeroParcel_shadow (p : Nat) : (s.zeroParcel p).shadow = s.shadow := rfl
@[simp] theorem zeroParcel_man (p : Nat) : (s.zeroParcel p).man = s.man := rfl
@[simp] theorem zeroParcel_time (p : Nat) : (s.zeroParcel p).time = s.time := rfl
@[simp] theorem zeroParcel_step (p : Nat) : (s.zeroParcel p).step = s.step := rfl
@[simp] theorem zeroParcel_recs (p : Nat) : (s.zeroParcel p).recs = s.recs := rfl
@[simp] theorem zeroParcel_sense (p : Nat) : (s.zeroParcel p).sense = s.sense := rfl
@[simp] theorem zeroParcel_hist (p : Nat) : (s.zeroParcel p).hist = s.hist := rfl
@[simp] theorem zeroParcel_queues (p : Nat) : (s.zeroParcel p).queues = s.queues := rfl
@[simp] theorem zeroParcel_ports (p : Nat) : (s.zeroParcel p).ports = s.ports := rfl
@[simp] theorem zeroParcel_grid (p : Nat) : (s.zeroParcel p).grid = s.grid := rfl
@[simp] theorem zeroParcel_fab (p : Nat) : (s.zeroParcel p).fab = s.fab := rfl
@[simp] theorem zeroParcel_plots (p : Nat) : (s.zeroParcel p).plots = s.plots := rfl
@[simp] theorem zeroParcel_mem (p : Nat) : (s.zeroParcel p).mem = s.mem := rfl
@[simp] theorem zeroParcel_ckpt (p : Nat) : (s.zeroParcel p).ckpt = s.ckpt := rfl
@[simp] theorem zeroParcel_twin (p : Nat) : (s.zeroParcel p).twin = s.twin := rfl
@[simp] theorem zeroParcel_plan (p : Nat) : (s.zeroParcel p).plan = s.plan := rfl
@[simp] theorem zeroParcel_sow (p : Nat) : (s.zeroParcel p).sow = s.sow := rfl
@[simp] theorem zeroParcel_hv (p : Nat) : (s.zeroParcel p).hv = s.hv := rfl
@[simp] theorem zeroParcel_obs (p : Nat) : (s.zeroParcel p).obs = s.obs := rfl
@[simp] theorem zeroParcel_power (p : Nat) : (s.zeroParcel p).power = s.power := rfl
@[simp] theorem zeroParcel_boot (p : Nat) : (s.zeroParcel p).boot = s.boot := rfl
@[simp] theorem zeroParcel_dusk (p : Nat) : (s.zeroParcel p).dusk = s.dusk := rfl

/-! ### setQueue -/

@[simp] theorem setQueue_pending (q : Nat) (x : QueueSt) : (s.setQueue q x).pending = s.pending := rfl
@[simp] theorem setQueue_freeCtr (q : Nat) (x : QueueSt) : (s.setQueue q x).freeCtr = s.freeCtr := rfl
@[simp] theorem setQueue_regs (q : Nat) (x : QueueSt) : (s.setQueue q x).regs = s.regs := rfl
@[simp] theorem setQueue_pub (q : Nat) (x : QueueSt) : (s.setQueue q x).pub = s.pub := rfl
@[simp] theorem setQueue_base (q : Nat) (x : QueueSt) : (s.setQueue q x).base = s.base := rfl
@[simp] theorem setQueue_shadow (q : Nat) (x : QueueSt) : (s.setQueue q x).shadow = s.shadow := rfl
@[simp] theorem setQueue_man (q : Nat) (x : QueueSt) : (s.setQueue q x).man = s.man := rfl
@[simp] theorem setQueue_time (q : Nat) (x : QueueSt) : (s.setQueue q x).time = s.time := rfl
@[simp] theorem setQueue_step (q : Nat) (x : QueueSt) : (s.setQueue q x).step = s.step := rfl
@[simp] theorem setQueue_recs (q : Nat) (x : QueueSt) : (s.setQueue q x).recs = s.recs := rfl
@[simp] theorem setQueue_sense (q : Nat) (x : QueueSt) : (s.setQueue q x).sense = s.sense := rfl
@[simp] theorem setQueue_hist (q : Nat) (x : QueueSt) : (s.setQueue q x).hist = s.hist := rfl
@[simp] theorem setQueue_ports (q : Nat) (x : QueueSt) : (s.setQueue q x).ports = s.ports := rfl
@[simp] theorem setQueue_win (q : Nat) (x : QueueSt) : (s.setQueue q x).win = s.win := rfl
@[simp] theorem setQueue_grid (q : Nat) (x : QueueSt) : (s.setQueue q x).grid = s.grid := rfl
@[simp] theorem setQueue_fab (q : Nat) (x : QueueSt) : (s.setQueue q x).fab = s.fab := rfl
@[simp] theorem setQueue_plots (q : Nat) (x : QueueSt) : (s.setQueue q x).plots = s.plots := rfl
@[simp] theorem setQueue_mem (q : Nat) (x : QueueSt) : (s.setQueue q x).mem = s.mem := rfl
@[simp] theorem setQueue_ckpt (q : Nat) (x : QueueSt) : (s.setQueue q x).ckpt = s.ckpt := rfl
@[simp] theorem setQueue_twin (q : Nat) (x : QueueSt) : (s.setQueue q x).twin = s.twin := rfl
@[simp] theorem setQueue_plan (q : Nat) (x : QueueSt) : (s.setQueue q x).plan = s.plan := rfl
@[simp] theorem setQueue_sow (q : Nat) (x : QueueSt) : (s.setQueue q x).sow = s.sow := rfl
@[simp] theorem setQueue_hv (q : Nat) (x : QueueSt) : (s.setQueue q x).hv = s.hv := rfl
@[simp] theorem setQueue_obs (q : Nat) (x : QueueSt) : (s.setQueue q x).obs = s.obs := rfl
@[simp] theorem setQueue_power (q : Nat) (x : QueueSt) : (s.setQueue q x).power = s.power := rfl
@[simp] theorem setQueue_boot (q : Nat) (x : QueueSt) : (s.setQueue q x).boot = s.boot := rfl
@[simp] theorem setQueue_dusk (q : Nat) (x : QueueSt) : (s.setQueue q x).dusk = s.dusk := rfl

/-! ### setPlot -/

@[simp] theorem setPlot_pending (lid : Nat) (x : PlotSt) : (s.setPlot lid x).pending = s.pending := rfl
@[simp] theorem setPlot_freeCtr (lid : Nat) (x : PlotSt) : (s.setPlot lid x).freeCtr = s.freeCtr := rfl
@[simp] theorem setPlot_regs (lid : Nat) (x : PlotSt) : (s.setPlot lid x).regs = s.regs := rfl
@[simp] theorem setPlot_pub (lid : Nat) (x : PlotSt) : (s.setPlot lid x).pub = s.pub := rfl
@[simp] theorem setPlot_base (lid : Nat) (x : PlotSt) : (s.setPlot lid x).base = s.base := rfl
@[simp] theorem setPlot_shadow (lid : Nat) (x : PlotSt) : (s.setPlot lid x).shadow = s.shadow := rfl
@[simp] theorem setPlot_man (lid : Nat) (x : PlotSt) : (s.setPlot lid x).man = s.man := rfl
@[simp] theorem setPlot_time (lid : Nat) (x : PlotSt) : (s.setPlot lid x).time = s.time := rfl
@[simp] theorem setPlot_step (lid : Nat) (x : PlotSt) : (s.setPlot lid x).step = s.step := rfl
@[simp] theorem setPlot_recs (lid : Nat) (x : PlotSt) : (s.setPlot lid x).recs = s.recs := rfl
@[simp] theorem setPlot_sense (lid : Nat) (x : PlotSt) : (s.setPlot lid x).sense = s.sense := rfl
@[simp] theorem setPlot_hist (lid : Nat) (x : PlotSt) : (s.setPlot lid x).hist = s.hist := rfl
@[simp] theorem setPlot_queues (lid : Nat) (x : PlotSt) : (s.setPlot lid x).queues = s.queues := rfl
@[simp] theorem setPlot_ports (lid : Nat) (x : PlotSt) : (s.setPlot lid x).ports = s.ports := rfl
@[simp] theorem setPlot_win (lid : Nat) (x : PlotSt) : (s.setPlot lid x).win = s.win := rfl
@[simp] theorem setPlot_grid (lid : Nat) (x : PlotSt) : (s.setPlot lid x).grid = s.grid := rfl
@[simp] theorem setPlot_fab (lid : Nat) (x : PlotSt) : (s.setPlot lid x).fab = s.fab := rfl
@[simp] theorem setPlot_mem (lid : Nat) (x : PlotSt) : (s.setPlot lid x).mem = s.mem := rfl
@[simp] theorem setPlot_ckpt (lid : Nat) (x : PlotSt) : (s.setPlot lid x).ckpt = s.ckpt := rfl
@[simp] theorem setPlot_twin (lid : Nat) (x : PlotSt) : (s.setPlot lid x).twin = s.twin := rfl
@[simp] theorem setPlot_plan (lid : Nat) (x : PlotSt) : (s.setPlot lid x).plan = s.plan := rfl
@[simp] theorem setPlot_sow (lid : Nat) (x : PlotSt) : (s.setPlot lid x).sow = s.sow := rfl
@[simp] theorem setPlot_hv (lid : Nat) (x : PlotSt) : (s.setPlot lid x).hv = s.hv := rfl
@[simp] theorem setPlot_obs (lid : Nat) (x : PlotSt) : (s.setPlot lid x).obs = s.obs := rfl
@[simp] theorem setPlot_power (lid : Nat) (x : PlotSt) : (s.setPlot lid x).power = s.power := rfl
@[simp] theorem setPlot_boot (lid : Nat) (x : PlotSt) : (s.setPlot lid x).boot = s.boot := rfl
@[simp] theorem setPlot_dusk (lid : Nat) (x : PlotSt) : (s.setPlot lid x).dusk = s.dusk := rfl

/-! ### modPlot -/

@[simp] theorem modPlot_pending (lid : Nat) (f : PlotSt → PlotSt) : (s.modPlot lid f).pending = s.pending := rfl
@[simp] theorem modPlot_freeCtr (lid : Nat) (f : PlotSt → PlotSt) : (s.modPlot lid f).freeCtr = s.freeCtr := rfl
@[simp] theorem modPlot_regs (lid : Nat) (f : PlotSt → PlotSt) : (s.modPlot lid f).regs = s.regs := rfl
@[simp] theorem modPlot_pub (lid : Nat) (f : PlotSt → PlotSt) : (s.modPlot lid f).pub = s.pub := rfl
@[simp] theorem modPlot_base (lid : Nat) (f : PlotSt → PlotSt) : (s.modPlot lid f).base = s.base := rfl
@[simp] theorem modPlot_shadow (lid : Nat) (f : PlotSt → PlotSt) : (s.modPlot lid f).shadow = s.shadow := rfl
@[simp] theorem modPlot_man (lid : Nat) (f : PlotSt → PlotSt) : (s.modPlot lid f).man = s.man := rfl
@[simp] theorem modPlot_time (lid : Nat) (f : PlotSt → PlotSt) : (s.modPlot lid f).time = s.time := rfl
@[simp] theorem modPlot_step (lid : Nat) (f : PlotSt → PlotSt) : (s.modPlot lid f).step = s.step := rfl
@[simp] theorem modPlot_recs (lid : Nat) (f : PlotSt → PlotSt) : (s.modPlot lid f).recs = s.recs := rfl
@[simp] theorem modPlot_sense (lid : Nat) (f : PlotSt → PlotSt) : (s.modPlot lid f).sense = s.sense := rfl
@[simp] theorem modPlot_hist (lid : Nat) (f : PlotSt → PlotSt) : (s.modPlot lid f).hist = s.hist := rfl
@[simp] theorem modPlot_queues (lid : Nat) (f : PlotSt → PlotSt) : (s.modPlot lid f).queues = s.queues := rfl
@[simp] theorem modPlot_ports (lid : Nat) (f : PlotSt → PlotSt) : (s.modPlot lid f).ports = s.ports := rfl
@[simp] theorem modPlot_win (lid : Nat) (f : PlotSt → PlotSt) : (s.modPlot lid f).win = s.win := rfl
@[simp] theorem modPlot_grid (lid : Nat) (f : PlotSt → PlotSt) : (s.modPlot lid f).grid = s.grid := rfl
@[simp] theorem modPlot_fab (lid : Nat) (f : PlotSt → PlotSt) : (s.modPlot lid f).fab = s.fab := rfl
@[simp] theorem modPlot_mem (lid : Nat) (f : PlotSt → PlotSt) : (s.modPlot lid f).mem = s.mem := rfl
@[simp] theorem modPlot_ckpt (lid : Nat) (f : PlotSt → PlotSt) : (s.modPlot lid f).ckpt = s.ckpt := rfl
@[simp] theorem modPlot_twin (lid : Nat) (f : PlotSt → PlotSt) : (s.modPlot lid f).twin = s.twin := rfl
@[simp] theorem modPlot_plan (lid : Nat) (f : PlotSt → PlotSt) : (s.modPlot lid f).plan = s.plan := rfl
@[simp] theorem modPlot_sow (lid : Nat) (f : PlotSt → PlotSt) : (s.modPlot lid f).sow = s.sow := rfl
@[simp] theorem modPlot_hv (lid : Nat) (f : PlotSt → PlotSt) : (s.modPlot lid f).hv = s.hv := rfl
@[simp] theorem modPlot_obs (lid : Nat) (f : PlotSt → PlotSt) : (s.modPlot lid f).obs = s.obs := rfl
@[simp] theorem modPlot_power (lid : Nat) (f : PlotSt → PlotSt) : (s.modPlot lid f).power = s.power := rfl
@[simp] theorem modPlot_boot (lid : Nat) (f : PlotSt → PlotSt) : (s.modPlot lid f).boot = s.boot := rfl
@[simp] theorem modPlot_dusk (lid : Nat) (f : PlotSt → PlotSt) : (s.modPlot lid f).dusk = s.dusk := rfl

/-! ### landLater -/

@[simp] theorem landLater_pending (lid due : Nat) (l : Landing) : (s.landLater lid due l).pending = s.pending := rfl
@[simp] theorem landLater_freeCtr (lid due : Nat) (l : Landing) : (s.landLater lid due l).freeCtr = s.freeCtr := rfl
@[simp] theorem landLater_regs (lid due : Nat) (l : Landing) : (s.landLater lid due l).regs = s.regs := rfl
@[simp] theorem landLater_pub (lid due : Nat) (l : Landing) : (s.landLater lid due l).pub = s.pub := rfl
@[simp] theorem landLater_base (lid due : Nat) (l : Landing) : (s.landLater lid due l).base = s.base := rfl
@[simp] theorem landLater_shadow (lid due : Nat) (l : Landing) : (s.landLater lid due l).shadow = s.shadow := rfl
@[simp] theorem landLater_man (lid due : Nat) (l : Landing) : (s.landLater lid due l).man = s.man := rfl
@[simp] theorem landLater_time (lid due : Nat) (l : Landing) : (s.landLater lid due l).time = s.time := rfl
@[simp] theorem landLater_step (lid due : Nat) (l : Landing) : (s.landLater lid due l).step = s.step := rfl
@[simp] theorem landLater_recs (lid due : Nat) (l : Landing) : (s.landLater lid due l).recs = s.recs := rfl
@[simp] theorem landLater_sense (lid due : Nat) (l : Landing) : (s.landLater lid due l).sense = s.sense := rfl
@[simp] theorem landLater_hist (lid due : Nat) (l : Landing) : (s.landLater lid due l).hist = s.hist := rfl
@[simp] theorem landLater_queues (lid due : Nat) (l : Landing) : (s.landLater lid due l).queues = s.queues := rfl
@[simp] theorem landLater_ports (lid due : Nat) (l : Landing) : (s.landLater lid due l).ports = s.ports := rfl
@[simp] theorem landLater_win (lid due : Nat) (l : Landing) : (s.landLater lid due l).win = s.win := rfl
@[simp] theorem landLater_grid (lid due : Nat) (l : Landing) : (s.landLater lid due l).grid = s.grid := rfl
@[simp] theorem landLater_fab (lid due : Nat) (l : Landing) : (s.landLater lid due l).fab = s.fab := rfl
@[simp] theorem landLater_mem (lid due : Nat) (l : Landing) : (s.landLater lid due l).mem = s.mem := rfl
@[simp] theorem landLater_ckpt (lid due : Nat) (l : Landing) : (s.landLater lid due l).ckpt = s.ckpt := rfl
@[simp] theorem landLater_twin (lid due : Nat) (l : Landing) : (s.landLater lid due l).twin = s.twin := rfl
@[simp] theorem landLater_plan (lid due : Nat) (l : Landing) : (s.landLater lid due l).plan = s.plan := rfl
@[simp] theorem landLater_sow (lid due : Nat) (l : Landing) : (s.landLater lid due l).sow = s.sow := rfl
@[simp] theorem landLater_hv (lid due : Nat) (l : Landing) : (s.landLater lid due l).hv = s.hv := rfl
@[simp] theorem landLater_obs (lid due : Nat) (l : Landing) : (s.landLater lid due l).obs = s.obs := rfl
@[simp] theorem landLater_power (lid due : Nat) (l : Landing) : (s.landLater lid due l).power = s.power := rfl
@[simp] theorem landLater_boot (lid due : Nat) (l : Landing) : (s.landLater lid due l).boot = s.boot := rfl
@[simp] theorem landLater_dusk (lid due : Nat) (l : Landing) : (s.landLater lid due l).dusk = s.dusk := rfl

/-! ### usePort -/

@[simp] theorem usePort_pending (lid p : Nat) (a : PadAccess) : (s.usePort lid p a).pending = s.pending := rfl
@[simp] theorem usePort_freeCtr (lid p : Nat) (a : PadAccess) : (s.usePort lid p a).freeCtr = s.freeCtr := rfl
@[simp] theorem usePort_regs (lid p : Nat) (a : PadAccess) : (s.usePort lid p a).regs = s.regs := rfl
@[simp] theorem usePort_pub (lid p : Nat) (a : PadAccess) : (s.usePort lid p a).pub = s.pub := rfl
@[simp] theorem usePort_base (lid p : Nat) (a : PadAccess) : (s.usePort lid p a).base = s.base := rfl
@[simp] theorem usePort_shadow (lid p : Nat) (a : PadAccess) : (s.usePort lid p a).shadow = s.shadow := rfl
@[simp] theorem usePort_man (lid p : Nat) (a : PadAccess) : (s.usePort lid p a).man = s.man := rfl
@[simp] theorem usePort_time (lid p : Nat) (a : PadAccess) : (s.usePort lid p a).time = s.time := rfl
@[simp] theorem usePort_step (lid p : Nat) (a : PadAccess) : (s.usePort lid p a).step = s.step := rfl
@[simp] theorem usePort_recs (lid p : Nat) (a : PadAccess) : (s.usePort lid p a).recs = s.recs := rfl
@[simp] theorem usePort_sense (lid p : Nat) (a : PadAccess) : (s.usePort lid p a).sense = s.sense := rfl
@[simp] theorem usePort_hist (lid p : Nat) (a : PadAccess) : (s.usePort lid p a).hist = s.hist := rfl
@[simp] theorem usePort_queues (lid p : Nat) (a : PadAccess) : (s.usePort lid p a).queues = s.queues := rfl
@[simp] theorem usePort_ports (lid p : Nat) (a : PadAccess) : (s.usePort lid p a).ports = s.ports := rfl
@[simp] theorem usePort_win (lid p : Nat) (a : PadAccess) : (s.usePort lid p a).win = s.win := rfl
@[simp] theorem usePort_grid (lid p : Nat) (a : PadAccess) : (s.usePort lid p a).grid = s.grid := rfl
@[simp] theorem usePort_fab (lid p : Nat) (a : PadAccess) : (s.usePort lid p a).fab = s.fab := rfl
@[simp] theorem usePort_mem (lid p : Nat) (a : PadAccess) : (s.usePort lid p a).mem = s.mem := rfl
@[simp] theorem usePort_ckpt (lid p : Nat) (a : PadAccess) : (s.usePort lid p a).ckpt = s.ckpt := rfl
@[simp] theorem usePort_twin (lid p : Nat) (a : PadAccess) : (s.usePort lid p a).twin = s.twin := rfl
@[simp] theorem usePort_plan (lid p : Nat) (a : PadAccess) : (s.usePort lid p a).plan = s.plan := rfl
@[simp] theorem usePort_sow (lid p : Nat) (a : PadAccess) : (s.usePort lid p a).sow = s.sow := rfl
@[simp] theorem usePort_hv (lid p : Nat) (a : PadAccess) : (s.usePort lid p a).hv = s.hv := rfl
@[simp] theorem usePort_obs (lid p : Nat) (a : PadAccess) : (s.usePort lid p a).obs = s.obs := rfl
@[simp] theorem usePort_power (lid p : Nat) (a : PadAccess) : (s.usePort lid p a).power = s.power := rfl
@[simp] theorem usePort_boot (lid p : Nat) (a : PadAccess) : (s.usePort lid p a).boot = s.boot := rfl
@[simp] theorem usePort_dusk (lid p : Nat) (a : PadAccess) : (s.usePort lid p a).dusk = s.dusk := rfl

/-! ### modMem -/

@[simp] theorem modMem_pending (f : MemSt → MemSt) : (s.modMem f).pending = s.pending := rfl
@[simp] theorem modMem_freeCtr (f : MemSt → MemSt) : (s.modMem f).freeCtr = s.freeCtr := rfl
@[simp] theorem modMem_regs (f : MemSt → MemSt) : (s.modMem f).regs = s.regs := rfl
@[simp] theorem modMem_pub (f : MemSt → MemSt) : (s.modMem f).pub = s.pub := rfl
@[simp] theorem modMem_base (f : MemSt → MemSt) : (s.modMem f).base = s.base := rfl
@[simp] theorem modMem_shadow (f : MemSt → MemSt) : (s.modMem f).shadow = s.shadow := rfl
@[simp] theorem modMem_man (f : MemSt → MemSt) : (s.modMem f).man = s.man := rfl
@[simp] theorem modMem_time (f : MemSt → MemSt) : (s.modMem f).time = s.time := rfl
@[simp] theorem modMem_step (f : MemSt → MemSt) : (s.modMem f).step = s.step := rfl
@[simp] theorem modMem_recs (f : MemSt → MemSt) : (s.modMem f).recs = s.recs := rfl
@[simp] theorem modMem_sense (f : MemSt → MemSt) : (s.modMem f).sense = s.sense := rfl
@[simp] theorem modMem_hist (f : MemSt → MemSt) : (s.modMem f).hist = s.hist := rfl
@[simp] theorem modMem_queues (f : MemSt → MemSt) : (s.modMem f).queues = s.queues := rfl
@[simp] theorem modMem_ports (f : MemSt → MemSt) : (s.modMem f).ports = s.ports := rfl
@[simp] theorem modMem_win (f : MemSt → MemSt) : (s.modMem f).win = s.win := rfl
@[simp] theorem modMem_grid (f : MemSt → MemSt) : (s.modMem f).grid = s.grid := rfl
@[simp] theorem modMem_fab (f : MemSt → MemSt) : (s.modMem f).fab = s.fab := rfl
@[simp] theorem modMem_plots (f : MemSt → MemSt) : (s.modMem f).plots = s.plots := rfl
@[simp] theorem modMem_ckpt (f : MemSt → MemSt) : (s.modMem f).ckpt = s.ckpt := rfl
@[simp] theorem modMem_twin (f : MemSt → MemSt) : (s.modMem f).twin = s.twin := rfl
@[simp] theorem modMem_plan (f : MemSt → MemSt) : (s.modMem f).plan = s.plan := rfl
@[simp] theorem modMem_sow (f : MemSt → MemSt) : (s.modMem f).sow = s.sow := rfl
@[simp] theorem modMem_hv (f : MemSt → MemSt) : (s.modMem f).hv = s.hv := rfl
@[simp] theorem modMem_obs (f : MemSt → MemSt) : (s.modMem f).obs = s.obs := rfl
@[simp] theorem modMem_power (f : MemSt → MemSt) : (s.modMem f).power = s.power := rfl
@[simp] theorem modMem_boot (f : MemSt → MemSt) : (s.modMem f).boot = s.boot := rfl
@[simp] theorem modMem_dusk (f : MemSt → MemSt) : (s.modMem f).dusk = s.dusk := rfl

/-! ### event -/

@[simp] theorem event_pending (c t i d e : Nat) : (s.event c t i d e).pending = s.pending := rfl
@[simp] theorem event_freeCtr (c t i d e : Nat) : (s.event c t i d e).freeCtr = s.freeCtr := rfl
@[simp] theorem event_regs (c t i d e : Nat) : (s.event c t i d e).regs = s.regs := rfl
@[simp] theorem event_pub (c t i d e : Nat) : (s.event c t i d e).pub = s.pub := rfl
@[simp] theorem event_base (c t i d e : Nat) : (s.event c t i d e).base = s.base := rfl
@[simp] theorem event_shadow (c t i d e : Nat) : (s.event c t i d e).shadow = s.shadow := rfl
@[simp] theorem event_man (c t i d e : Nat) : (s.event c t i d e).man = s.man := rfl
@[simp] theorem event_time (c t i d e : Nat) : (s.event c t i d e).time = s.time := rfl
@[simp] theorem event_step (c t i d e : Nat) : (s.event c t i d e).step = s.step := rfl
@[simp] theorem event_sense (c t i d e : Nat) : (s.event c t i d e).sense = s.sense := rfl
@[simp] theorem event_hist (c t i d e : Nat) : (s.event c t i d e).hist = s.hist := rfl
@[simp] theorem event_queues (c t i d e : Nat) : (s.event c t i d e).queues = s.queues := rfl
@[simp] theorem event_ports (c t i d e : Nat) : (s.event c t i d e).ports = s.ports := rfl
@[simp] theorem event_win (c t i d e : Nat) : (s.event c t i d e).win = s.win := rfl
@[simp] theorem event_grid (c t i d e : Nat) : (s.event c t i d e).grid = s.grid := rfl
@[simp] theorem event_fab (c t i d e : Nat) : (s.event c t i d e).fab = s.fab := rfl
@[simp] theorem event_plots (c t i d e : Nat) : (s.event c t i d e).plots = s.plots := rfl
@[simp] theorem event_mem (c t i d e : Nat) : (s.event c t i d e).mem = s.mem := rfl
@[simp] theorem event_ckpt (c t i d e : Nat) : (s.event c t i d e).ckpt = s.ckpt := rfl
@[simp] theorem event_twin (c t i d e : Nat) : (s.event c t i d e).twin = s.twin := rfl
@[simp] theorem event_plan (c t i d e : Nat) : (s.event c t i d e).plan = s.plan := rfl
@[simp] theorem event_sow (c t i d e : Nat) : (s.event c t i d e).sow = s.sow := rfl
@[simp] theorem event_hv (c t i d e : Nat) : (s.event c t i d e).hv = s.hv := rfl
@[simp] theorem event_obs (c t i d e : Nat) : (s.event c t i d e).obs = s.obs := rfl
@[simp] theorem event_power (c t i d e : Nat) : (s.event c t i d e).power = s.power := rfl
@[simp] theorem event_boot (c t i d e : Nat) : (s.event c t i d e).boot = s.boot := rfl
@[simp] theorem event_dusk (c t i d e : Nat) : (s.event c t i d e).dusk = s.dusk := rfl

/-! ### setPort -/

@[simp] theorem setPort_pending (p : Nat) (x : PortSt) : (s.setPort p x).pending = s.pending := rfl
@[simp] theorem setPort_freeCtr (p : Nat) (x : PortSt) : (s.setPort p x).freeCtr = s.freeCtr := rfl
@[simp] theorem setPort_regs (p : Nat) (x : PortSt) : (s.setPort p x).regs = s.regs := rfl
@[simp] theorem setPort_pub (p : Nat) (x : PortSt) : (s.setPort p x).pub = s.pub := rfl
@[simp] theorem setPort_base (p : Nat) (x : PortSt) : (s.setPort p x).base = s.base := rfl
@[simp] theorem setPort_shadow (p : Nat) (x : PortSt) : (s.setPort p x).shadow = s.shadow := rfl
@[simp] theorem setPort_man (p : Nat) (x : PortSt) : (s.setPort p x).man = s.man := rfl
@[simp] theorem setPort_time (p : Nat) (x : PortSt) : (s.setPort p x).time = s.time := rfl
@[simp] theorem setPort_step (p : Nat) (x : PortSt) : (s.setPort p x).step = s.step := rfl
@[simp] theorem setPort_recs (p : Nat) (x : PortSt) : (s.setPort p x).recs = s.recs := rfl
@[simp] theorem setPort_sense (p : Nat) (x : PortSt) : (s.setPort p x).sense = s.sense := rfl
@[simp] theorem setPort_hist (p : Nat) (x : PortSt) : (s.setPort p x).hist = s.hist := rfl
@[simp] theorem setPort_queues (p : Nat) (x : PortSt) : (s.setPort p x).queues = s.queues := rfl
@[simp] theorem setPort_win (p : Nat) (x : PortSt) : (s.setPort p x).win = s.win := rfl
@[simp] theorem setPort_grid (p : Nat) (x : PortSt) : (s.setPort p x).grid = s.grid := rfl
@[simp] theorem setPort_fab (p : Nat) (x : PortSt) : (s.setPort p x).fab = s.fab := rfl
@[simp] theorem setPort_plots (p : Nat) (x : PortSt) : (s.setPort p x).plots = s.plots := rfl
@[simp] theorem setPort_mem (p : Nat) (x : PortSt) : (s.setPort p x).mem = s.mem := rfl
@[simp] theorem setPort_ckpt (p : Nat) (x : PortSt) : (s.setPort p x).ckpt = s.ckpt := rfl
@[simp] theorem setPort_twin (p : Nat) (x : PortSt) : (s.setPort p x).twin = s.twin := rfl
@[simp] theorem setPort_plan (p : Nat) (x : PortSt) : (s.setPort p x).plan = s.plan := rfl
@[simp] theorem setPort_sow (p : Nat) (x : PortSt) : (s.setPort p x).sow = s.sow := rfl
@[simp] theorem setPort_hv (p : Nat) (x : PortSt) : (s.setPort p x).hv = s.hv := rfl
@[simp] theorem setPort_obs (p : Nat) (x : PortSt) : (s.setPort p x).obs = s.obs := rfl
@[simp] theorem setPort_power (p : Nat) (x : PortSt) : (s.setPort p x).power = s.power := rfl
@[simp] theorem setPort_boot (p : Nat) (x : PortSt) : (s.setPort p x).boot = s.boot := rfl
@[simp] theorem setPort_dusk (p : Nat) (x : PortSt) : (s.setPort p x).dusk = s.dusk := rfl

/-! ### setSummary -/

@[simp] theorem setSummary_pending (u : Nat × Nat) (x : Summary) : (s.setSummary u x).pending = s.pending := rfl
@[simp] theorem setSummary_freeCtr (u : Nat × Nat) (x : Summary) : (s.setSummary u x).freeCtr = s.freeCtr := rfl
@[simp] theorem setSummary_regs (u : Nat × Nat) (x : Summary) : (s.setSummary u x).regs = s.regs := rfl
@[simp] theorem setSummary_pub (u : Nat × Nat) (x : Summary) : (s.setSummary u x).pub = s.pub := rfl
@[simp] theorem setSummary_base (u : Nat × Nat) (x : Summary) : (s.setSummary u x).base = s.base := rfl
@[simp] theorem setSummary_shadow (u : Nat × Nat) (x : Summary) : (s.setSummary u x).shadow = s.shadow := rfl
@[simp] theorem setSummary_man (u : Nat × Nat) (x : Summary) : (s.setSummary u x).man = s.man := rfl
@[simp] theorem setSummary_time (u : Nat × Nat) (x : Summary) : (s.setSummary u x).time = s.time := rfl
@[simp] theorem setSummary_step (u : Nat × Nat) (x : Summary) : (s.setSummary u x).step = s.step := rfl
@[simp] theorem setSummary_recs (u : Nat × Nat) (x : Summary) : (s.setSummary u x).recs = s.recs := rfl
@[simp] theorem setSummary_sense (u : Nat × Nat) (x : Summary) : (s.setSummary u x).sense = s.sense := rfl
@[simp] theorem setSummary_queues (u : Nat × Nat) (x : Summary) : (s.setSummary u x).queues = s.queues := rfl
@[simp] theorem setSummary_ports (u : Nat × Nat) (x : Summary) : (s.setSummary u x).ports = s.ports := rfl
@[simp] theorem setSummary_win (u : Nat × Nat) (x : Summary) : (s.setSummary u x).win = s.win := rfl
@[simp] theorem setSummary_grid (u : Nat × Nat) (x : Summary) : (s.setSummary u x).grid = s.grid := rfl
@[simp] theorem setSummary_fab (u : Nat × Nat) (x : Summary) : (s.setSummary u x).fab = s.fab := rfl
@[simp] theorem setSummary_plots (u : Nat × Nat) (x : Summary) : (s.setSummary u x).plots = s.plots := rfl
@[simp] theorem setSummary_mem (u : Nat × Nat) (x : Summary) : (s.setSummary u x).mem = s.mem := rfl
@[simp] theorem setSummary_ckpt (u : Nat × Nat) (x : Summary) : (s.setSummary u x).ckpt = s.ckpt := rfl
@[simp] theorem setSummary_twin (u : Nat × Nat) (x : Summary) : (s.setSummary u x).twin = s.twin := rfl
@[simp] theorem setSummary_plan (u : Nat × Nat) (x : Summary) : (s.setSummary u x).plan = s.plan := rfl
@[simp] theorem setSummary_sow (u : Nat × Nat) (x : Summary) : (s.setSummary u x).sow = s.sow := rfl
@[simp] theorem setSummary_hv (u : Nat × Nat) (x : Summary) : (s.setSummary u x).hv = s.hv := rfl
@[simp] theorem setSummary_obs (u : Nat × Nat) (x : Summary) : (s.setSummary u x).obs = s.obs := rfl
@[simp] theorem setSummary_power (u : Nat × Nat) (x : Summary) : (s.setSummary u x).power = s.power := rfl
@[simp] theorem setSummary_boot (u : Nat × Nat) (x : Summary) : (s.setSummary u x).boot = s.boot := rfl
@[simp] theorem setSummary_dusk (u : Nat × Nat) (x : Summary) : (s.setSummary u x).dusk = s.dusk := rfl

/-! ### finish -/

@[simp] theorem finish_pending (q i st r : Nat) : (s.finish q i st r).pending = s.pending := rfl
@[simp] theorem finish_freeCtr (q i st r : Nat) : (s.finish q i st r).freeCtr = s.freeCtr := rfl
@[simp] theorem finish_regs (q i st r : Nat) : (s.finish q i st r).regs = s.regs := rfl
@[simp] theorem finish_pub (q i st r : Nat) : (s.finish q i st r).pub = s.pub := rfl
@[simp] theorem finish_base (q i st r : Nat) : (s.finish q i st r).base = s.base := rfl
@[simp] theorem finish_shadow (q i st r : Nat) : (s.finish q i st r).shadow = s.shadow := rfl
@[simp] theorem finish_man (q i st r : Nat) : (s.finish q i st r).man = s.man := rfl
@[simp] theorem finish_time (q i st r : Nat) : (s.finish q i st r).time = s.time := rfl
@[simp] theorem finish_step (q i st r : Nat) : (s.finish q i st r).step = s.step := rfl
@[simp] theorem finish_recs (q i st r : Nat) : (s.finish q i st r).recs = s.recs := rfl
@[simp] theorem finish_sense (q i st r : Nat) : (s.finish q i st r).sense = s.sense := rfl
@[simp] theorem finish_hist (q i st r : Nat) : (s.finish q i st r).hist = s.hist := rfl
@[simp] theorem finish_ports (q i st r : Nat) : (s.finish q i st r).ports = s.ports := rfl
@[simp] theorem finish_win (q i st r : Nat) : (s.finish q i st r).win = s.win := rfl
@[simp] theorem finish_grid (q i st r : Nat) : (s.finish q i st r).grid = s.grid := rfl
@[simp] theorem finish_fab (q i st r : Nat) : (s.finish q i st r).fab = s.fab := rfl
@[simp] theorem finish_plots (q i st r : Nat) : (s.finish q i st r).plots = s.plots := rfl
@[simp] theorem finish_mem (q i st r : Nat) : (s.finish q i st r).mem = s.mem := rfl
@[simp] theorem finish_ckpt (q i st r : Nat) : (s.finish q i st r).ckpt = s.ckpt := rfl
@[simp] theorem finish_twin (q i st r : Nat) : (s.finish q i st r).twin = s.twin := rfl
@[simp] theorem finish_plan (q i st r : Nat) : (s.finish q i st r).plan = s.plan := rfl
@[simp] theorem finish_sow (q i st r : Nat) : (s.finish q i st r).sow = s.sow := rfl
@[simp] theorem finish_hv (q i st r : Nat) : (s.finish q i st r).hv = s.hv := rfl
@[simp] theorem finish_obs (q i st r : Nat) : (s.finish q i st r).obs = s.obs := rfl
@[simp] theorem finish_power (q i st r : Nat) : (s.finish q i st r).power = s.power := rfl
@[simp] theorem finish_boot (q i st r : Nat) : (s.finish q i st r).boot = s.boot := rfl
@[simp] theorem finish_dusk (q i st r : Nat) : (s.finish q i st r).dusk = s.dusk := rfl

/-! ### takeEntry -/

@[simp] theorem takeEntry_pending (q : Nat) : (s.takeEntry q).pending = s.pending := rfl
@[simp] theorem takeEntry_freeCtr (q : Nat) : (s.takeEntry q).freeCtr = s.freeCtr := rfl
@[simp] theorem takeEntry_regs (q : Nat) : (s.takeEntry q).regs = s.regs := rfl
@[simp] theorem takeEntry_pub (q : Nat) : (s.takeEntry q).pub = s.pub := rfl
@[simp] theorem takeEntry_base (q : Nat) : (s.takeEntry q).base = s.base := rfl
@[simp] theorem takeEntry_shadow (q : Nat) : (s.takeEntry q).shadow = s.shadow := rfl
@[simp] theorem takeEntry_man (q : Nat) : (s.takeEntry q).man = s.man := rfl
@[simp] theorem takeEntry_time (q : Nat) : (s.takeEntry q).time = s.time := rfl
@[simp] theorem takeEntry_step (q : Nat) : (s.takeEntry q).step = s.step := rfl
@[simp] theorem takeEntry_recs (q : Nat) : (s.takeEntry q).recs = s.recs := rfl
@[simp] theorem takeEntry_sense (q : Nat) : (s.takeEntry q).sense = s.sense := rfl
@[simp] theorem takeEntry_hist (q : Nat) : (s.takeEntry q).hist = s.hist := rfl
@[simp] theorem takeEntry_ports (q : Nat) : (s.takeEntry q).ports = s.ports := rfl
@[simp] theorem takeEntry_win (q : Nat) : (s.takeEntry q).win = s.win := rfl
@[simp] theorem takeEntry_grid (q : Nat) : (s.takeEntry q).grid = s.grid := rfl
@[simp] theorem takeEntry_fab (q : Nat) : (s.takeEntry q).fab = s.fab := rfl
@[simp] theorem takeEntry_plots (q : Nat) : (s.takeEntry q).plots = s.plots := rfl
@[simp] theorem takeEntry_mem (q : Nat) : (s.takeEntry q).mem = s.mem := rfl
@[simp] theorem takeEntry_ckpt (q : Nat) : (s.takeEntry q).ckpt = s.ckpt := rfl
@[simp] theorem takeEntry_twin (q : Nat) : (s.takeEntry q).twin = s.twin := rfl
@[simp] theorem takeEntry_plan (q : Nat) : (s.takeEntry q).plan = s.plan := rfl
@[simp] theorem takeEntry_sow (q : Nat) : (s.takeEntry q).sow = s.sow := rfl
@[simp] theorem takeEntry_hv (q : Nat) : (s.takeEntry q).hv = s.hv := rfl
@[simp] theorem takeEntry_obs (q : Nat) : (s.takeEntry q).obs = s.obs := rfl
@[simp] theorem takeEntry_power (q : Nat) : (s.takeEntry q).power = s.power := rfl
@[simp] theorem takeEntry_boot (q : Nat) : (s.takeEntry q).boot = s.boot := rfl
@[simp] theorem takeEntry_dusk (q : Nat) : (s.takeEntry q).dusk = s.dusk := rfl

end Sys2Proof.Machine.State
end

