-- ==== Sys2Proof/Laws/Fields.lean ====
section
/-! SUPPORT. Register fields: what a read gives after a write of the same field and of another one. -/

namespace Sys2Proof.Machine

theorem fldGet_fldSet_same (m : SMap Nat) (f : Fld) (v : Nat) : fldGet (fldSet m f v) f = v % 2 ^ f.width := by
  by_cases h : v % 2 ^ f.width = f.reset <;> simp [fldGet, fldSet, h]

theorem fldGet_fldSet_other (m : SMap Nat) {f g : Fld} (v : Nat) (h : g.key ≠ f.key) : fldGet (fldSet m f v) g = fldGet m g := by
  by_cases hv : v % 2 ^ f.width = f.reset <;>
    simp [fldGet, fldSet, hv, SMap.find?_drop_other _ h, SMap.find?_ins_other _ _ h]

namespace State

variable (s : State) (f : Fld) (v : Nat)

@[simp] theorem getF_setF_same : (s.setF f v).getF f = v % 2 ^ f.width := fldGet_fldSet_same _ _ _
@[simp] theorem getF_keepF_same : (s.keepF f v).getF f = v % 2 ^ f.width := fldGet_fldSet_same _ _ _
@[simp] theorem getF_nowF_same : (s.nowF f v).getF f = v % 2 ^ f.width := fldGet_fldSet_same _ _ _
@[simp] theorem pubF_nowF_same : (s.nowF f v).pubF f = v % 2 ^ f.width := fldGet_fldSet_same _ _ _

theorem getF_setF_other {f g : Fld} (h : g.key ≠ f.key) : (s.setF f v).getF g = s.getF g := fldGet_fldSet_other _ _ h
theorem getF_keepF_other {f g : Fld} (h : g.key ≠ f.key) : (s.keepF f v).getF g = s.getF g := fldGet_fldSet_other _ _ h
theorem getF_nowF_other {f g : Fld} (h : g.key ≠ f.key) : (s.nowF f v).getF g = s.getF g := fldGet_fldSet_other _ _ h
theorem pubF_nowF_other {f g : Fld} (h : g.key ≠ f.key) : (s.nowF f v).pubF g = s.pubF g := fldGet_fldSet_other _ _ h

@[simp] theorem getF_incF_same (n : Nat) : (s.incF f n).getF f = (s.getF f + n) % 2 ^ f.width := getF_setF_same _ _ _
theorem getF_incF_other {f g : Fld} (n : Nat) (h : g.key ≠ f.key) : (s.incF f n).getF g = s.getF g := getF_setF_other _ _ h
@[simp] theorem getF_incLive_same (n : Nat) : (s.incLive f n).getF f = satAdd f.width (s.getF f) n % 2 ^ f.width :=
  getF_keepF_same _ _ _
theorem getF_incLive_other {f g : Fld} (n : Nat) (h : g.key ≠ f.key) : (s.incLive f n).getF g = s.getF g :=
  getF_keepF_other _ _ h

/-- A field's value depends on the register map alone. -/
theorem getF_congr {s t : State} (h : t.regs = s.regs) (f : Fld) : t.getF f = s.getF f := by simp only [getF, h]

@[simp] theorem getF_winPut (a : Nat) (bs : List Byte) : (s.winPut a bs).getF f = s.getF f := rfl
@[simp] theorem getF_winPutWord (a w : Nat) : (s.winPutWord a w).getF f = s.getF f := rfl
@[simp] theorem getF_setFlag (p : Nat) (x : BitVec 4) : (s.setFlag p x).getF f = s.getF f := rfl
@[simp] theorem getF_zeroParcel (p : Nat) : (s.zeroParcel p).getF f = s.getF f := rfl
@[simp] theorem getF_setQueue (q : Nat) (x : QueueSt) : (s.setQueue q x).getF f = s.getF f := rfl
@[simp] theorem getF_setPlot (lid : Nat) (x : PlotSt) : (s.setPlot lid x).getF f = s.getF f := rfl
@[simp] theorem getF_modPlot (lid : Nat) (g : PlotSt → PlotSt) : (s.modPlot lid g).getF f = s.getF f := rfl
@[simp] theorem getF_landLater (lid due : Nat) (l : Landing) : (s.landLater lid due l).getF f = s.getF f := rfl
@[simp] theorem getF_usePort (lid p : Nat) (a : PadAccess) : (s.usePort lid p a).getF f = s.getF f := rfl
@[simp] theorem getF_modMem (g : MemSt → MemSt) : (s.modMem g).getF f = s.getF f := rfl
@[simp] theorem getF_event (c t i d e : Nat) : (s.event c t i d e).getF f = s.getF f := rfl
@[simp] theorem getF_setPort (p : Nat) (x : PortSt) : (s.setPort p x).getF f = s.getF f := rfl
@[simp] theorem getF_setSummary (u : Nat × Nat) (x : Summary) : (s.setSummary u x).getF f = s.getF f := rfl
@[simp] theorem getF_finish (q i st r : Nat) : (s.finish q i st r).getF f = s.getF f := rfl
@[simp] theorem getF_takeEntry (q : Nat) : (s.takeEntry q).getF f = s.getF f := rfl

end State
end Sys2Proof.Machine
end

