-- ==== Sys2Proof/Laws/Stores.lean ====
section
/-! SUPPORT. Window bytes, parcel flags, queues, plots, ports and pads: what a read gives after a write. -/

namespace Sys2Proof.Machine.State

variable (s : State)

/-! ### The window -/

@[simp] theorem winGet_winPut_same (a : Nat) (bs : List Byte) : (s.winPut a bs).winGet a bs.length = bs :=
  SMap.getAll_setAll 0 _ _ _

theorem winGet_winPut_outside (a b n : Nat) (bs : List Byte) (h : b + n ≤ a ∨ a + bs.length ≤ b) :
    (s.winPut a bs).winGet b n = s.winGet b n := SMap.getAll_setAll_outside 0 _ _ h

@[simp] theorem flag_setFlag_same (p : Nat) (v : BitVec 4) : (s.setFlag p v).flag p = v := SMap.get_set_same 0 _ _ _
theorem flag_setFlag_other {p k : Nat} (v : BitVec 4) (h : k ≠ p) : (s.setFlag p v).flag k = s.flag k :=
  SMap.get_set_other 0 _ _ h
@[simp] theorem flag_winPut (a p : Nat) (bs : List Byte) : (s.winPut a bs).flag p = s.flag p := rfl
@[simp] theorem winGet_setFlag (p a n : Nat) (v : BitVec 4) : (s.setFlag p v).winGet a n = s.winGet a n := rfl

/-! ### Queues, plots and ports -/

@[simp] theorem queue_setQueue_same (q : Nat) (x : QueueSt) : (s.setQueue q x).queue q = x := SMap.get_set_same _ _ _ _
theorem queue_setQueue_other {q k : Nat} (x : QueueSt) (h : k ≠ q) : (s.setQueue q x).queue k = s.queue k :=
  SMap.get_set_other _ _ _ h
@[simp] theorem plot_setPlot_same (l : Nat) (x : PlotSt) : (s.setPlot l x).plot l = x := SMap.get_set_same _ _ _ _
theorem plot_setPlot_other {l k : Nat} (x : PlotSt) (h : k ≠ l) : (s.setPlot l x).plot k = s.plot k :=
  SMap.get_set_other _ _ _ h
@[simp] theorem plot_modPlot_same (l : Nat) (f : PlotSt → PlotSt) : (s.modPlot l f).plot l = f (s.plot l) :=
  plot_setPlot_same _ _ _
theorem plot_modPlot_other {l k : Nat} (f : PlotSt → PlotSt) (h : k ≠ l) : (s.modPlot l f).plot k = s.plot k :=
  plot_setPlot_other _ _ h
@[simp] theorem plot_landLater_same (l due : Nat) (x : Landing) :
    (s.landLater l due x).plot l = { s.plot l with land := (s.plot l).land ++ [(due, x)] } := plot_modPlot_same _ _ _
theorem plot_landLater_other {l k : Nat} (due : Nat) (x : Landing) (h : k ≠ l) : (s.landLater l due x).plot k = s.plot k :=
  plot_modPlot_other _ _ h
@[simp] theorem port_setPort_same (p : Nat) (x : PortSt) : (s.setPort p x).port p = x := SMap.get_set_same _ _ _ _
theorem port_setPort_other {p k : Nat} (x : PortSt) (h : k ≠ p) : (s.setPort p x).port k = s.port k :=
  SMap.get_set_other _ _ _ h

theorem plot_congr {s t : State} (h : t.plots = s.plots) (l : Nat) : t.plot l = s.plot l := by simp only [plot, h]
theorem queue_congr {s t : State} (h : t.queues = s.queues) (q : Nat) : t.queue q = s.queue q := by simp only [queue, h]
theorem port_congr {s t : State} (h : t.ports = s.ports) (p : Nat) : t.port p = s.port p := by simp only [port, h]

/-! ### Pads -/

theorem padGet_padPut_same (l a : Nat) (bs : List Byte) (h : s.padOk l a bs.length = true) :
    (s.padPut l a bs).padGet l a bs.length = bs := by
  simp [padPut, h, padGet, SMap.getAll_setAll]

theorem padPut_refused (l a : Nat) (bs : List Byte) (h : s.padOk l a bs.length = false) : s.padPut l a bs = s := by
  simp [padPut, h]

theorem padGet_padPut_outside (l a k b n : Nat) (bs : List Byte)
    (h : padKey k b + n ≤ padKey l a ∨ padKey l a + bs.length ≤ padKey k b) : (s.padPut l a bs).padGet k b n = s.padGet k b n := by
  unfold padPut
  split
  · rfl
  · exact SMap.getAll_setAll_outside 0 _ _ h

end Sys2Proof.Machine.State
end

