-- ==== Sys2Proof/Laws/Commands.lean ====
section
/-! SUPPORT. What a command answers, when it settles, and how a slot word issues. -/

namespace Sys2Proof.Machine.State

variable (s t u : State)

/-! ### Answers -/

@[simp] theorem answer_eq : s.answer t = .next (s.after t) := rfl

@[simp] theorem answerIf_true {ok : Bool} (h : ok = true) : s.answerIf ok t = .next (s.after t) := by simp [answerIf, h]

theorem answerIf_false {ok : Bool} (h : ok = false) : s.answerIf ok t = .fault .illFormed := by simp [answerIf, h]

@[simp] theorem after_pending : (s.after t).pending = s.pending := rfl
@[simp] theorem after_man : (s.after t).man = s.man := rfl

/-- Nothing settles while a step, a staging pass or a close runs. -/
theorem settle_waits (h : t.atPublication = false) : t.settle = t := by simp [settle, h]

/-- At any other moment a ready module publishes (R278), and one in bring-up gives its fault records to the history (R395). -/
theorem settle_ready (h : t.atPublication = true) (hr : t.isReady = true) : t.settle = t.publish := by simp [settle, h, hr]
theorem settle_booting (h : t.atPublication = true) (hr : t.isReady = false) : t.settle = t.historyOnly := by simp [settle, h, hr]

theorem atPublication_running (h : t.running = true) : t.atPublication = false := by
  simp only [running, beq_iff_eq] at h
  simp [atPublication, h]

theorem after_running (h : t.running = true) : s.after t = { t with pending := s.pending, man := s.man } := by
  simp [after, settle_waits t (atPublication_running t h)]

/-- A command answers a next state exactly when its operands can occur. -/
theorem answerIf_next_iff {ok : Bool} : (∃ v, s.answerIf ok t = .next v) ↔ ok = true := by
  cases ok <;> simp [answerIf]

theorem answer_shape : s.answer t = s.answerIf true t := rfl

/-- Every command answers a state that settles, if its operands can occur, and nothing else. -/
theorem exec_shape (c : Instr) : ∃ t, exec c s = s.answerIf c.wellFormed t := by
  cases c
  all_goals first
    | exact ⟨_, answer_shape _ _⟩
    | exact ⟨_, rfl⟩

/-! ### Slot words -/

/-- A word that can issue, on a core its fetch leaves in service, carries out its operation. -/
theorem issueWord_runs (i : Issue) (kind op operands : Nat) (live : State → Nat → Bool) (body : State → Nat → Nat → State)
    (hi : s.canIssue i = true) (hf : (s.fetched i kind op operands live).coreFenced i.lid.toNat = false) :
    s.issueWord i kind op operands live body =
      body (s.fetched i kind op operands live) i.lid.toNat (s.issueStep i) := by
  simp [issueWord, hi, hf]

/-- A word that cannot issue changes nothing. -/
theorem issueWord_idle (i : Issue) (kind op operands : Nat) (live : State → Nat → Bool) (body : State → Nat → Nat → State)
    (hi : s.canIssue i = false) : s.issueWord i kind op operands live body = s := by
  simp [issueWord, hi]

@[simp] theorem running_landLater (lid due : Nat) (l : Landing) : (t.landLater lid due l).running = t.running := rfl
@[simp] theorem running_incF (f : Fld) (n : Nat) : (t.incF f n).running = t.running := rfl
@[simp] theorem running_modPlot (lid : Nat) (f : PlotSt → PlotSt) : (t.modPlot lid f).running = t.running := rfl
@[simp] theorem running_usePort (lid p : Nat) (a : PadAccess) : (t.usePort lid p a).running = t.running := rfl

/-- A tile operation whose pipe is free and whose checks leave the core in service carries out its body and stays in its pipe. -/
theorem vecOp_runs (op slot : Nat) (o : VecWord) (ms : List Mishap) (body : State → Nat → Nat → BitVec 256 → State) (lid p : Nat)
    (hp : t.pipeTaken lid p = false) (hf : (vecBegun op slot o ms t lid p).coreFenced lid = false) :
    vecOp op slot o ms body t lid p =
      (vecBegun op slot o ms t lid p).inFlight (body (vecBegun op slot o ms t lid p) lid p (t.maskAt lid o.msk.toNat)) lid p := by
  simp [vecOp, hp, hf]

end Sys2Proof.Machine.State
end

