-- ==== Sys2Proof/Laws/Memory.lean ====
section
/-! SUPPORT. The canonical form of the memories: reset has it, and every operation that writes one of them keeps it. -/

namespace Sys2Proof.Machine

namespace SMap

variable {α : Type}

theorem rising_foldl_ins {β : Type} (k : β → Nat) (v : β → α) (xs : List β) {m : SMap α} (h : rising m = true) :
    rising (xs.foldl (fun m x => ins m (k x) (v x)) m) = true := by
  induction xs generalizing m with
  | nil => exact h
  | cons x xs ih => exact ih (rising_ins h _ _)

theorem rising_copyRange {m : SMap α} (h : rising m = true) (src dst n : Nat) : rising (copyRange m src dst n) = true := by
  unfold copyRange
  split
  · exact h
  · exact rising_foldl_ins _ _ _ (rising_filter h _)

variable [DecidableEq α] {d : α}

theorem wf_foldl_set {β : Type} (k : β → Nat) (v : β → α) (xs : List β) {m : SMap α} (h : wf d m = true) :
    wf d (xs.foldl (fun m x => set d m (k x) (v x)) m) = true := by
  induction xs generalizing m with
  | nil => exact h
  | cons x xs ih => exact ih (wf_set h _ _)

theorem wf_copyRange {m : SMap α} (h : wf d m = true) (src dst n : Nat) : wf d (copyRange m src dst n) = true := by
  unfold copyRange
  split
  · exact h
  · have base : wf d (clearRange m dst n) = true := wf_clearRange h _ _
    have moved : ∀ x ∈ List.filter (fun (x : Nat × α) => decide (src ≤ x.1) && decide (x.1 < src + n)) m, x.2 ≠ d :=
      fun x hx => (wf_iff.mp h).2 x (List.mem_filter.mp hx).1
    revert base moved
    generalize clearRange m dst n = c
    generalize List.filter (fun (x : Nat × α) => decide (src ≤ x.1) && decide (x.1 < src + n)) m = xs
    intro base moved
    induction xs generalizing c with
    | nil => exact base
    | cons x xs ih =>
      refine ih _ ?_ fun y hy => moved y (List.mem_cons_of_mem _ hy)
      have hx : x.2 ≠ d := moved x List.mem_cons_self
      simpa [set, ins, hx] using wf_set (d := d) base (dst + (x.1 - src)) x.2

end SMap

namespace Memory

variable {s : State}

/-- The form, store by store. -/
theorem wf_iff : wf s = true ↔
    (SMap.wf 0 s.win.bytes = true ∧ SMap.wf 0 s.win.flags = true) ∧
    (SMap.wf 0 s.mem.pad = true ∧ SMap.wf 0 s.mem.image = true ∧ SMap.wf 0 s.mem.loam = true ∧ SMap.rising s.mem.trans = true ∧
      SMap.wf 0 s.mem.slots = true ∧ SMap.wf 0 s.mem.consts = true ∧ SMap.wf 0 s.mem.routes = true) ∧
    SMap.wf 0 s.hv.residual = true := by
  simp only [wf, Bool.and_eq_true, and_assoc]

theorem wf_reset : wf State.reset = true := by decide

/-- The form depends on the window, the memories and the residual stores alone. -/
theorem wf_congr {t : State} (hw : t.win = s.win) (hm : t.mem = s.mem) (hr : t.hv = s.hv) : wf t = wf s := by
  simp only [wf, hw, hm, hr]

/-! ### One store replaced -/

theorem wf_withBytes (h : wf s = true) {m : SMap Byte} (hm : SMap.wf 0 m = true) (ls : NSet) :
    wf { s with win := { s.win with bytes := m, badLines := ls } } = true := by
  have := wf_iff.mp h; exact wf_iff.mpr ⟨⟨hm, this.1.2⟩, this.2⟩

theorem wf_withFlags (h : wf s = true) {m : SMap (BitVec 4)} (hm : SMap.wf 0 m = true) :
    wf { s with win := { s.win with flags := m } } = true := by
  have := wf_iff.mp h; exact wf_iff.mpr ⟨⟨this.1.1, hm⟩, this.2⟩

theorem wf_withPad (h : wf s = true) {m : SMap Byte} (hm : SMap.wf 0 m = true) (c : SMap (List Nat)) :
    wf { s with mem := { s.mem with pad := m, cache := c } } = true := by
  have := wf_iff.mp h; exact wf_iff.mpr ⟨this.1, ⟨hm, this.2.1.2⟩, this.2.2⟩

theorem wf_withImage (h : wf s = true) {m : SMap Byte} (hm : SMap.wf 0 m = true) :
    wf { s with mem := { s.mem with image := m } } = true := by
  have := wf_iff.mp h; exact wf_iff.mpr ⟨this.1, ⟨this.2.1.1, hm, this.2.1.2.2⟩, this.2.2⟩

theorem wf_withLoam (h : wf s = true) {m : SMap Byte} (hm : SMap.wf 0 m = true) (cur dirty : NSet) :
    wf { s with mem := { s.mem with loam := m, cur := cur, dirty := dirty } } = true := by
  have := wf_iff.mp h; exact wf_iff.mpr ⟨this.1, ⟨this.2.1.1, this.2.1.2.1, hm, this.2.1.2.2.2⟩, this.2.2⟩

theorem wf_withTrans (h : wf s = true) {m : SMap Byte} (hm : SMap.rising m = true) :
    wf { s with mem := { s.mem with trans := m } } = true := by
  have := wf_iff.mp h
  exact wf_iff.mpr ⟨this.1, ⟨this.2.1.1, this.2.1.2.1, this.2.1.2.2.1, hm, this.2.1.2.2.2.2⟩, this.2.2⟩

theorem wf_withResidual (h : wf s = true) {m : SMap Byte} (hm : SMap.wf 0 m = true) (cur dirty : NSet) :
    wf { s with hv := { s.hv with residual := m, resCur := cur, resDirty := dirty } } = true := by
  have := wf_iff.mp h; exact wf_iff.mpr ⟨this.1, this.2.1, hm⟩

theorem wf_foldl {β : Type} (f : State → β → State) (hf : ∀ (s : State) (x : β), wf s = true → wf (f s x) = true) (xs : List β)
    {s : State} (h : wf s = true) : wf (xs.foldl f s) = true := by
  induction xs generalizing s with
  | nil => exact h
  | cons x xs ih => exact ih (hf _ _ h)

/-! ### Registers -/

theorem wf_setF (f : Fld) (v : Nat) : wf (s.setF f v) = wf s := rfl
theorem wf_keepF (f : Fld) (v : Nat) : wf (s.keepF f v) = wf s := rfl
theorem wf_nowF (f : Fld) (v : Nat) : wf (s.nowF f v) = wf s := rfl

/-! ### The window (R275-R279) -/

theorem wf_winPut (h : wf s = true) (a : Nat) (bs : List Byte) : wf (s.winPut a bs) = true :=
  wf_withBytes h (SMap.wf_setAll (wf_iff.mp h).1.1 a bs) s.win.badLines

theorem wf_winPutWord (h : wf s = true) (a v : Nat) : wf (s.winPutWord a v) = true := wf_winPut h a _

theorem wf_setFlag (h : wf s = true) (p : Nat) (v : BitVec 4) : wf (s.setFlag p v) = true :=
  wf_withFlags h (SMap.wf_set (wf_iff.mp h).1.2 p v)

theorem wf_zeroParcel (h : wf s = true) (p : Nat) : wf (s.zeroParcel p) = true :=
  wf_withBytes h (SMap.wf_clearRange (wf_iff.mp h).1.1 _ _) _

theorem wf_hostPut (h : wf s = true) (a : Nat) (bs : List Byte) : wf (s.hostPut a bs) = true :=
  wf_withBytes (wf_winPut h a bs) (wf_iff.mp (wf_winPut h a bs)).1.1 _

/-- The window at the loss of every rail: its bytes go, and every listed parcel is VOID (R373). -/
theorem wf_lostWindow (h : wf s = true) :
    SMap.wf 0 ((s.win.flags.map fun (x : Nat × BitVec 4) => (x.1, (3 : BitVec 4)))) = true := by
  refine SMap.wf_iff.mpr ⟨?_, fun p hp => ?_⟩
  · have hr := (SMap.wf_iff.mp (wf_iff.mp h).1.2).1
    revert hr
    generalize s.win.flags = m
    intro hr
    induction m with
    | nil => rfl
    | cons x m ih =>
      obtain ⟨j, v⟩ := x
      obtain ⟨ha, hm⟩ := (SMap.rising_cons j v m).mp hr
      refine (SMap.rising_cons _ _ _).mpr ⟨fun p hp => ?_, ih hm⟩
      obtain ⟨q, hq, rfl⟩ := List.mem_map.mp hp
      exact ha q hq
  · obtain ⟨q, -, rfl⟩ := List.mem_map.mp hp
    exact (by decide : (3 : BitVec 4) ≠ 0)

/-! ### Pads and their images (R184, R188, R189) -/

theorem wf_padPut (h : wf s = true) (lid a : Nat) (bs : List Byte) : wf (s.padPut lid a bs) = true := by
  unfold State.padPut
  split
  · exact h
  · exact wf_withPad h (SMap.wf_setAll (wf_iff.mp h).2.1.1 _ _) s.mem.cache

theorem wf_clearBank (h : wf s = true) (lo n : Nat) (c : SMap (List Nat)) :
    wf { s with mem := { s.mem with pad := SMap.clearRange s.mem.pad lo n, cache := c } } = true :=
  wf_withPad h (SMap.wf_clearRange (wf_iff.mp h).2.1.1 lo n) c

theorem wf_startPads (h : wf s = true) (lid : Nat) : wf (s.startPads lid) = true := by
  unfold State.startPads
  extract_lets p half stale u v
  have h2 : wf u = true := by
    refine wf_foldl _ (fun t b ht => ?_) _ h
    split
    · split
      · exact wf_withPad ht (SMap.wf_foldl_set _ _ _ (SMap.wf_clearRange (wf_iff.mp ht).2.1.1 _ _)) t.mem.cache
      · exact ht
    · exact wf_clearBank ht _ _ t.mem.cache
  rw [wf_keepF]
  exact wf_withPad h2 (wf_iff.mp h2).2.1.1 _

theorem wf_writeImage (h : wf s = true) (lid : Nat) : wf (s.writeImage lid) = true := by
  unfold State.writeImage
  dsimp only
  split
  · exact h
  · simp only [wf_keepF]
    exact wf_foldl _ (fun t b ht =>
      wf_withImage ht (SMap.wf_foldl_set _ _ _ (SMap.wf_clearRange (wf_iff.mp ht).2.1.2.1 _ _))) _ h

/-! ### Loam (R192-R195, R206) -/

theorem wf_openGranule (h : wf s = true) (p off : Nat) : wf (s.openGranule p off) = true := by
  unfold State.openGranule
  dsimp only
  split
  · exact h
  · exact wf_withLoam h (SMap.wf_setAll (wf_iff.mp h).2.1.2.2.1 _ _) s.mem.cur _

theorem wf_committedPut (h : wf s = true) (p off : Nat) (bs : List Byte) : wf (s.committedPut p off bs) = true := by
  refine wf_foldl _ (fun t b ht => ?_) _ h
  have hg := wf_openGranule ht p (off + b.2)
  revert hg
  dsimp only
  generalize t.openGranule p (off + b.2) = u
  intro hu
  have := wf_iff.mp hu
  exact wf_iff.mpr ⟨this.1, ⟨this.2.1.1, this.2.1.2.1, SMap.wf_set this.2.1.2.2.1 _ _, this.2.1.2.2.2⟩, this.2.2⟩

theorem wf_transPut (h : wf s = true) (p off : Nat) (bs : List Byte) : wf (s.transPut p off bs) = true :=
  wf_withTrans h (SMap.rising_foldl_ins _ _ _ (wf_iff.mp h).2.1.2.2.2.1)

/-- The bookkeeping of blocks and chunks is not part of the form. -/
theorem wf_blocks (h : wf s = true) (w : NSet) (c n : SMap Nat) :
    wf { s with mem := { s.mem with blockWritten := w, chunk := c, chunkNext := n } } = true := by
  have := wf_iff.mp h; exact wf_iff.mpr ⟨this.1, this.2.1, this.2.2⟩

theorem wf_losslessPut (h : wf s = true) (p i off : Nat) (bs : List Byte) : wf (s.losslessPut p i off bs).1 = true := by
  have written (t : State) (ht : wf t = true) (w : NSet) :
      wf ((t.transPut p off bs).modMem fun m => { m with blockWritten := w }) = true :=
    wf_blocks (wf_transPut ht p off bs) w (t.transPut p off bs).mem.chunk (t.transPut p off bs).mem.chunkNext
  unfold State.losslessPut
  extract_lets key fits put
  split
  · exact written s h _
  · split
    · exact written _ (wf_blocks h s.mem.blockWritten _ _) _
    · exact h

theorem wf_loamPut (h : wf s = true) (p off : Nat) (bs : List Byte) : wf (s.loamPut p off bs).1 = true := by
  unfold State.loamPut
  split
  · exact h
  · rename_i i _
    split
    · exact wf_committedPut h p off bs
    · split
      · exact wf_transPut h p off _
      · split
        · suffices ∀ (xs : List (List Byte × Nat)) (r : State × LoamOutcome), wf r.1 = true →
              wf (xs.foldl (fun (r : State × LoamOutcome) b =>
                ((r.1.losslessPut p i (off + 1024 * b.2) b.1).1,
                  if (r.1.losslessPut p i (off + 1024 * b.2) b.1).2 then .overflow else r.2)) r).1 = true from this _ _ h
          intro xs
          induction xs with
          | nil => exact fun _ hr => hr
          | cons x xs ih => exact fun r hr => ih _ (wf_losslessPut hr p i _ _)
        · exact wf_transPut h p off bs

theorem wf_flipHorizonMap (h : wf s = true) : wf s.flipHorizonMap = true :=
  wf_withLoam h (wf_iff.mp h).2.1.2.2.1 _ _
theorem wf_clearDirty (h : wf s = true) : wf s.clearDirty = true := h

theorem wf_withStack (h : wf s = true) {l t i : SMap Byte} (hl : SMap.wf 0 l = true) (ht : SMap.rising t = true)
    (hi : SMap.wf 0 i = true) (c k : NSet) :
    wf { s with mem := { s.mem with loam := l, trans := t, image := i, cur := c }, ckpt := { s.ckpt with map := k } } = true := by
  have := wf_iff.mp h; exact wf_iff.mpr ⟨this.1, ⟨this.2.1.1, hi, hl, ht, this.2.1.2.2.2.2⟩, this.2.2⟩

/-- The copy of a loam stack to another site (R53). -/
theorem wf_copyStack (h : wf s = true) (a b : Nat) : wf (s.copyStack a b) = true := by
  have hm := (wf_iff.mp h).2.1
  unfold State.copyStack
  generalize 2 ^ 32 = x
  generalize 2 ^ 33 = y
  generalize 2 ^ 24 = z
  generalize 2 ^ 23 = w
  exact wf_withStack h (SMap.wf_copyRange hm.2.2.1 _ _ _) (SMap.rising_copyRange hm.2.2.2.1 _ _ _)
    (SMap.wf_copyRange hm.2.1 _ _ _) _ _

/-! ### The residual stores (R252) -/

theorem wf_resPut (h : wf s = true) (hd off : Nat) (bs : List Byte) : wf (s.resPut hd off bs) = true := by
  unfold State.resPut
  refine wf_foldl _ (fun t b ht => ?_) _ h
  extract_lets a g c base hv u
  have hu : wf u = true := by
    unfold u
    split
    · exact ht
    · exact wf_withResidual ht (SMap.wf_setAll (wf_iff.mp ht).2.2 _ _) t.hv.resCur _
  exact wf_withResidual hu (SMap.wf_set (wf_iff.mp hu).2.2 _ _) u.hv.resCur u.hv.resDirty

theorem wf_flipResidual (h : wf s = true) : wf s.flipResidual = true := wf_withResidual h (wf_iff.mp h).2.2 _ _

/-! ### A restore, and the dusk test (R336, R350) -/

theorem wf_restoreParcel (h : wf s = true) (k : Nat) (data : List Byte) : wf (s.restoreParcel k data) = true := by
  unfold State.restoreParcel
  dsimp only
  split
  · exact wf_foldl _ (fun t i ht => wf_withLoam ht (SMap.wf_setAll (wf_iff.mp ht).2.1.2.2.1 _ _) _ t.mem.dirty) _ h
  · split
    · exact wf_withImage h (SMap.wf_setAll (wf_iff.mp h).2.1.2.1 _ _)
    · exact wf_foldl _ (fun t i ht => wf_withResidual ht (SMap.wf_setAll (wf_iff.mp ht).2.2 _ _) _ t.hv.resDirty) _ h

theorem wf_zeroUnkept (h : wf s = true) : wf s.zeroUnkept = true := by
  refine wf_foldl _ (fun t i ht => ?_) _ h
  split
  · exact wf_foldl _ (fun u l hu =>
      wf_withLoam hu (SMap.wf_clearRange (SMap.wf_clearRange (wf_iff.mp hu).2.1.2.2.1 _ _) _ _) u.mem.cur u.mem.dirty) _ ht
  · exact ht

/-- What the dusk test overwrites is listed no more. -/
theorem wf_wiped (h : wf s = true) (c : SMap (List Nat)) (g : Option Nat) (n : Nat) :
    wf { s with mem := { s.mem with pad := [], image := [], loam := [], trans := [], cache := c, garbled := g, wipes := n } } = true := by
  have := wf_iff.mp h; exact wf_iff.mpr ⟨this.1, ⟨rfl, rfl, rfl, rfl, this.2.1.2.2.2.2⟩, this.2.2⟩

theorem wf_duskBegin (h : wf s = true) : wf s.duskBegin = true := by
  have parcels (t : State) (ks : List Nat) (f : ParcelSt → ParcelSt) (ht : wf t = true) :
      wf (ks.foldl (fun s k => s.modParcel k f) t) = true :=
    wf_foldl _ (fun u k hu => by unfold State.modParcel; split <;> exact hu) _ ht
  unfold State.duskBegin
  extract_lets n a t c u v w
  have ht : wf t = true := h
  have hu : wf u = true := by
    clear_value t
    exact wf_wiped ht [] (some n) (t.mem.wipes + 1)
  have hw : wf w = true := by
    clear_value u
    have hv : wf v = true := parcels _ _ _ hu
    clear_value v
    unfold w
    split <;> exact hv
  rw [wf_keepF]
  exact hw

/-! ### What power and the scrubbers take away (R187, R373, R379, R381) -/

theorem wf_padLineLost (h : wf s = true) (lid a : Nat) : wf (s.padLineLost lid a) = true := by
  unfold State.padLineLost
  split
  · exact h
  · exact wf_clearBank h _ _ s.mem.cache

theorem wf_loseRegionLoam (h : wf s = true) (n : Nat) : wf (s.loseRegionLoam n) = true := by
  have hm := (wf_iff.mp h).2.1
  unfold State.loseRegionLoam
  generalize 2 ^ 32 = x
  generalize 2 ^ 23 = w
  exact wf_withStack h (SMap.wf_clearRange hm.2.2.1 _ _) (SMap.rising_filter hm.2.2.2.1 _) (SMap.wf_clearRange hm.2.1 _ _) s.mem.cur s.ckpt.map

theorem wf_sleepRegion (h : wf s = true) (n : Nat) (between : Bool) : wf (s.sleepRegion n between) = true := by
  unfold State.sleepRegion
  extract_lets ls t p u
  refine wf_foldl _ (fun v l hv => ?_) _ (show wf u = true from h)
  extract_lets w
  have hw : wf w = true := by
    unfold w
    split <;> exact hv
  exact wf_clearBank hw _ _ _

theorem wf_emptied {u : State} {g : Option Nat} {n : Nat} (hb : u.win.bytes = []) (hf : SMap.wf 0 u.win.flags = true)
    (hm : u.mem = { MemSt.zero with garbled := g, wipes := n }) (hv : u.hv = HarvestSt.zero) : wf u = true := by
  rw [wf_iff, hb, hm, hv]
  exact ⟨⟨rfl, hf⟩, ⟨rfl, rfl, rfl, rfl, rfl, rfl, rfl⟩, rfl⟩

theorem wf_setStale (h : wf s = true) : wf s.setStale = true :=
  wf_foldl _ (fun t l ht => by rw [wf_keepF]; exact ht) _ h

theorem wf_horizonLost (h : wf s = true) (p : Option Nat) : wf (s.horizonLost p) = true := by
  unfold State.horizonLost
  cases p with
  | none => rw [wf_keepF]; exact h
  | some p => rw [wf_keepF, wf_keepF]; exact h

theorem wf_powerRegion (h : wf s = true) (n : Nat) (on : Bool) : wf (s.powerRegion n on) = true := by
  unfold State.powerRegion
  extract_lets a b c d e
  have hb : wf b = true := h
  have he : wf e = true := by
    clear_value b
    exact hb
  exact wf_foldl _ (fun t i ht => by rw [wf_keepF]; exact ht) _ he

theorem wf_loseLoam (h : wf s = true) : wf s.loseLoam = true := by
  unfold State.loseLoam
  extract_lets rings t a b c d e u v w x
  have ht : wf t = true := by
    refine wf_foldl _ (fun u q hu => ?_) _ h
    extract_lets v w x
    split <;> exact hu
  have hu : wf u = true := by
    clear_value t
    exact wf_emptied (g := some (2 ^ 65)) (n := t.mem.wipes + 1) rfl (wf_lostWindow ht) rfl rfl
  clear_value u
  exact wf_foldl _ (fun _ n hn => wf_powerRegion hn n false) _ (wf_horizonLost (wf_setStale (show wf x = true from hu)) none)

/-! ### The memories that a plan loads (R297, R299) -/

/-- Images at plots in rising order, none longer than its memory, of 64-bit words. -/
def ImageSec.fits (x : ImageSec) (size : Nat) (words : ProgImage → List Nat) : Prop :=
  x.plots.Pairwise (fun a b => a.1 < b.1) ∧ ∀ m ∈ x.images, (words m).length ≤ size ∧ ∀ w ∈ words m, w < 2 ^ 64

theorem rising_of_pairwise {α : Type} {m : SMap α} (h : m.Pairwise fun a b => a.1 < b.1) : SMap.rising m = true := by
  induction m with
  | nil => rfl
  | cons x m ih =>
    obtain ⟨j, v⟩ := x
    exact (SMap.rising_cons j v m).mpr ⟨(List.pairwise_cons.mp h).1, ih (List.pairwise_cons.mp h).2⟩

theorem zipIdx_rising (ws : List Nat) (k : Nat) : (List.zipIdx ws k).Pairwise fun a b => a.2 < b.2 := by
  induction ws generalizing k with
  | nil => exact List.Pairwise.nil
  | cons w ws ih =>
    refine List.pairwise_cons.mpr ⟨fun p hp => ?_, ih (k + 1)⟩
    have := List.le_snd_of_mem_zipIdx hp
    exact this

/-- The words of one image that are listed: in rising place, within its length, none zero. -/
theorem listed_words {ws : List Nat} {p : Nat × Nat} (h : p ∈ (List.zipIdx ws).filter fun w => w.1 != 0) :
    p.2 < ws.length ∧ p.1 ∈ ws ∧ p.1 ≠ 0 := by
  obtain ⟨hm, hz⟩ := List.mem_filter.mp h
  obtain ⟨-, hl, he⟩ := List.mem_zipIdx hm
  exact ⟨by simpa using hl, he ▸ List.getElem_mem _, by simpa using hz⟩

/-- What an image lists, by its number; nothing past the last one. -/
theorem image_words (x : ImageSec) (size : Nat) (words : ProgImage → List Nat) (h : ImageSec.fits x size words) (i : Nat) :
    let ws := (x.images.map fun m => (List.zipIdx (words m)).filter fun w => w.1 != 0).toArray.getD i []
    (∀ p ∈ ws, p.2 < size ∧ BitVec.ofNat 64 p.1 ≠ 0) ∧ ws.Pairwise fun a b => a.2 < b.2 := by
  intro ws
  by_cases hi : i < x.images.length
  · have hm : x.images[i] ∈ x.images := List.getElem_mem hi
    obtain ⟨hl, hb⟩ := h.2 _ hm
    have hw : ws = (List.zipIdx (words x.images[i])).filter fun w => w.1 != 0 := by simp [ws, hi]
    rw [hw]
    refine ⟨fun p hp => ?_, (zipIdx_rising _ 0).filter _⟩
    obtain ⟨h1, h2, h3⟩ := listed_words hp
    refine ⟨by omega, fun h0 => h3 ?_⟩
    have := congrArg BitVec.toNat h0
    rwa [BitVec.toNat_ofNat, Nat.mod_eq_of_lt (hb _ h2)] at this
  · have hw : ws = [] := by simp [ws, hi]
    simp [hw]

theorem wf_imageWords (x : ImageSec) (size : Nat) (words : ProgImage → List Nat) (h : ImageSec.fits x size words) :
    SMap.wf 0 (State.imageWords x size words) = true := by
  have image := image_words x size words h
  unfold State.imageWords
  extract_lets images
  refine SMap.wf_iff.mpr ⟨rising_of_pairwise ?_, fun p hp => ?_⟩
  · rw [List.pairwise_flatten]
    refine ⟨fun l hl => ?_, ?_⟩
    · obtain ⟨q, -, rfl⟩ := List.mem_map.mp hl
      exact List.pairwise_map.mpr ((image q.2).2.imp fun hab => by simpa using hab)
    · refine List.pairwise_map.mpr (h.1.imp fun {a b} hab u hu v hv => ?_)
      obtain ⟨w, hw, rfl⟩ := List.mem_map.mp hu
      obtain ⟨z, -, rfl⟩ := List.mem_map.mp hv
      have := ((image a.2).1 w hw).1
      show a.1 * size + w.2 < b.1 * size + z.2
      have : (a.1 + 1) * size ≤ b.1 * size := Nat.mul_le_mul_right _ hab
      rw [Nat.add_mul] at this
      omega
  · obtain ⟨l, hl, hp⟩ := List.mem_flatten.mp hp
    obtain ⟨q, -, rfl⟩ := List.mem_map.mp hl
    obtain ⟨w, hw, rfl⟩ := List.mem_map.mp hp
    exact ((image q.2).1 w hw).2

/-- A plan whose images fit leaves the form of every memory. -/
theorem wf_planLoad (h : wf s = true) (d : PlanDoc)
    (hp : ∀ x, d.plots = some x → ImageSec.fits x (2 ^ 15) (·.words) ∧ ImageSec.fits x (2 ^ 9) (·.consts))
    (hr : ∀ x, d.routes = some x → ImageSec.fits x (2 ^ 13) (·.words)) : wf (s.planLoad d) = true := by
  have hm := wf_iff.mp h
  have kept (o : Option ImageSec) (size : Nat) (f : ProgImage → List Nat) (now : SMap Word) (hn : SMap.wf 0 now = true)
      (ho : ∀ x, o = some x → ImageSec.fits x size f) (b : Bool) :
      SMap.wf 0 ((o.map fun x => State.imageWords x size f).getD (if b then [] else now)) = true := by
    cases o with
    | none => cases b
              · exact hn
              · exact SMap.wf_nil
    | some x => exact wf_imageWords x size f (ho x rfl)
  refine wf_iff.mpr ⟨hm.1, ⟨hm.2.1.1, hm.2.1.2.1, hm.2.1.2.2.1, hm.2.1.2.2.2.1, ?_, ?_, ?_⟩, hm.2.2⟩
  · exact kept d.plots (2 ^ 15) _ _ hm.2.1.2.2.2.2.1 (fun x hx => (hp x hx).1) _
  · exact kept d.plots (2 ^ 9) _ _ hm.2.1.2.2.2.2.2.1 (fun x hx => (hp x hx).2) _
  · exact kept d.routes (2 ^ 13) _ _ hm.2.1.2.2.2.2.2.2 hr _

end Memory
end Sys2Proof.Machine
end

