-- ==== Sys2Proof/Tests/Slice0.lean ====
section
/-! SUPPORT. Tests: an ill-formed command for each check, the hypotheses of each statement met by a concrete state, and results that
the spec gives. -/

namespace Sys2Proof.Tests

set_option Elab.async false -- one proof after another: each kernel evaluation takes a thread's stack

open Sys2Proof Sys2Proof.Machine

/-! ### Small states -/

/-- Registers set one after another. -/
def withF (s : State) (fs : List (Fld × Nat)) : State := fs.foldl (fun s f => s.nowF f.1 f.2) s

/-- A grid of 64 by 64 with locked time. -/
def grid : State := withF State.reset [(F.GRID_SHAPE.X_DIM, 64), (F.GRID_SHAPE.Y_DIM, 64), (F.MERIDIAN_STATUS.LOCKED, 1)]

/-- A running step of 100 furrows, in its first, whose program plots 0 to 7 run; banks 0 and 1 of plots 0 and 3 are pad, bank 2 is a
cache over loam's first 64 KiB; the seed is a loose address with pitch 64. -/
def stepping : State :=
  let s := withF grid [(F.PAD_CFG.MODE 0, 0x25), (F.PAD_CFG.MODE 3, 0x25), (F.CACHE_WIN.SIZE 0 2, 1), (F.CACHE_WIN.SIZE 3 2, 1),
    (F.LOAM_PART_ATTR.TYPE 0, 1), (F.LOAM_PART_SIZE.VALUE 0, 0x10000), (F.VOTE_CFG.ENABLE, 1)]
  { s with
    step := {
      s.step with
      phase := .running, granted := 1, judged := false, length := 100, stepS := 1, seed := 2 ^ 30 + 64 * 2 ^ 32, attempt := 1, begun := true }
    base := some s.regs
    mem := { s.mem with slots := (List.range 8).map fun l => (l * 2 ^ 15, 0x8010#64) } }

/-- Slot 2 of plot 0, an M-plot, and of plot 3, a V-plot. -/
def onM : Issue := ⟨0, 2, []⟩
def onV : Issue := ⟨3, 2, []⟩

def noCtl : CtlWord := ⟨0, 0, 0, 0, 0, 0, 0, false, 0⟩
def noVec : VecWord := ⟨0, 0, 0, 0, 0, false, 0⟩
def noArray : ArrayWord := ⟨0, 0, 0, 0, 0, 0, 0, false, false, false, false, 0⟩
def noMover : MoverWord := ⟨0, 0, 0, 0, 0, false, 0, false⟩

/-! ### Witnesses: control words -/

/-- A control word meets the hypotheses of its statement. -/
def ctlReady (s : State) (x : Instr × Nat × CtlLayout × CtlWord) : Prop :=
  x.1.wellFormed = true ∧ s.issues onM (s.ctlFetched onM x.2.1 x.2.2.1 x.2.2.2)

theorem witness_ControlRegisterWords : ∀ x ∈ [(Instr.cAdd onM noCtl, 1), (.cSub onM noCtl, 2), (.cAnd onM noCtl, 3), (.cOr onM noCtl, 4),
    (.cXor onM noCtl, 5), (.cShl onM noCtl, 6), (.cShr onM noCtl, 7), (.cShra onM noCtl, 8), (.cCmp onM noCtl, 9), (.cSel onM noCtl, 10),
    (.cMul onM noCtl, 11)], ctlReady stepping (x.1, x.2, .register, noCtl) := by
  unfold ctlReady State.issues; decide +kernel

theorem witness_ControlImmediateWords :
    (∀ x ∈ [(Instr.cAddi onM noCtl, 0x10), (.cAndi onM noCtl, 0x11), (.cOri onM noCtl, 0x12), (.cXori onM noCtl, 0x13),
      (.cShli onM noCtl, 0x14), (.cShri onM noCtl, 0x15), (.cShrai onM noCtl, 0x16), (.cCmpi onM noCtl, 0x17), (.cLil onM noCtl, 0x18),
      (.cLih onM noCtl, 0x19)], ctlReady stepping (x.1, x.2, .immediate, noCtl)) ∧
    ctlReady stepping (.cConst onM noCtl, 0x1A, .table, noCtl) := by
  unfold ctlReady State.issues; decide +kernel

/-- An address in the cache-mode bank. -/
def looseCtl : CtlWord := { noCtl with imm := 0x40000000 }

theorem witness_ControlLoads : ctlReady stepping (.cLd onM noCtl, 0x20, .load, noCtl) ∧
    (stepping.ctlFetched onM 0x20 .load noCtl).ctlAddress 0 noCtl % 8 = 0 ∧ ctlReady stepping (.cLdl onM looseCtl, 0x22, .load, looseCtl) ∧
    let u := stepping.ctlFetched onM 0x22 .load looseCtl
    let a := u.ctlAddress 0 looseCtl
    a % 8 = 0 ∧ u.looseOffset 0 a a 8 = some (2, 0) := by
  unfold ctlReady State.issues; decide +kernel

theorem witness_ControlStores : ctlReady stepping (.cSt onM noCtl, 0x21, .store, noCtl) ∧
    (stepping.ctlFetched onM 0x21 .store noCtl).ctlAddress 0 noCtl % 8 = 0 ∧
    ctlReady stepping (.cStl onM looseCtl, 0x23, .store, looseCtl) ∧
    let u := stepping.ctlFetched onM 0x23 .store looseCtl
    let a := u.ctlAddress 0 looseCtl
    a % 8 = 0 ∧ u.looseOffset 0 a a 8 = some (2, 0) ∧ u.loamWriteBad 0 8 = false := by
  unfold ctlReady State.issues; decide +kernel

/-- EXPECT of a register that holds the seed, between two zeros. -/
def expectSeed : CtlWord := { noCtl with rs1 := 2 }

theorem witness_ControlVotesAndChecks : ctlReady stepping (.cVote onM noCtl, 0x28, .vote, noCtl) ∧
    (stepping.ctlFetched onM 0x28 .vote noCtl).voteEnabled 0 = true ∧ ctlReady stepping (.cVread onM noCtl, 0x29, .vread, noCtl) ∧
    ctlReady stepping (.cExpect onM noCtl, 0x2C, .table, noCtl) ∧ ctlReady stepping (.cExpect onM expectSeed, 0x2C, .table, expectSeed) ∧
    (let u := stepping.ctlFetched onM 0x2C .table noCtl
     expectHolds false (u.gregAt 0 0) (u.constMem 0 0) (u.constMem 0 1) = true ∧
       expectHolds false (u.gregAt 0 2) (u.constMem 0 0) (u.constMem 0 1) = false) := by
  unfold ctlReady State.issues; decide +kernel

/-! ### Witnesses: vector words -/

/-- A tile word meets the hypotheses of its statement. -/
def vecReady (s : State) (x : Instr × Nat × VecWord) : Prop :=
  let u := s.vecFetched onM x.2.1 x.2.2
  let w := State.vecBegun x.2.1 2 x.2.2 [] u 0 2
  x.1.wellFormed = true ∧ s.issues onM u ∧ u.pipeTaken 0 2 = false ∧ w.coreFenced 0 = false ∧ w.running = true

/-- A word that writes mask register 1, and one of the second type. -/
def toMask : VecWord := { noVec with td := 1 }
def ofInts : VecWord := { noVec with ext := 1 }

theorem witness_VectorMovesAndMasks :
    (∀ x ∈ [(Instr.vcopy onM noVec, 1), (.vtrans onM noVec, 2), (.vbcrow onM noVec, 3), (.vbccol onM noVec, 4), (.veshift onM noVec, 5),
      (.vsel onM noVec, 6), (.vsplat onM noVec, 7)], vecReady stepping (x.1, x.2, noVec)) ∧
    (∀ x ∈ [(Instr.icmp onM toMask, 0x0C), (.fcmp onM toMask, 0x1C), (.mand onM toMask, 0x23), (.mor onM toMask, 0x24),
      (.mnot onM toMask, 0x25)], vecReady stepping (x.1, x.2, toMask)) := by
  unfold vecReady State.issues; decide +kernel

theorem witness_VectorIntegers : ∀ x ∈ [(Instr.iadd onM noVec, 0x08), (.isub onM noVec, 0x09), (.imin onM noVec, 0x0A), (.imax onM noVec, 0x0B),
    (.vecAnd onM noVec, 0x0D), (.vecOr onM noVec, 0x0E), (.vecXor onM noVec, 0x0F), (.vecShl onM noVec, 0x10), (.vecShr onM noVec, 0x11),
    (.vecShra onM noVec, 0x12), (.imul onM noVec, 0x13), (.imadd onM noVec, 0x14)], vecReady stepping (x.1, x.2, noVec) := by
  unfold vecReady State.issues; decide +kernel

theorem witness_VectorFloats : ∀ x ∈ [(Instr.fadd onM noVec, 0x18), (.fsub onM noVec, 0x19), (.fmin onM noVec, 0x1A), (.fmax onM noVec, 0x1B),
    (.fabs onM noVec, 0x1D), (.fneg onM noVec, 0x1E), (.fmul onM noVec, 0x1F), (.ffma onM noVec, 0x20), (.cvtfi onM noVec, 0x21),
    (.cvtif onM noVec, 0x22)], vecReady stepping (x.1, x.2, noVec) := by
  unfold vecReady State.issues; decide +kernel

theorem witness_VectorReductionsAndSummaries :
    (∀ x ∈ [(Instr.frowsum onM noVec, 0x28), (.fcolsum onM noVec, 0x29), (.frowmax onM noVec, 0x2A), (.fcolmax onM noVec, 0x2B),
      (.irowsum onM noVec, 0x2C), (.icolsum onM noVec, 0x2D), (.sum onM noVec, 0x30), (.sumsq onM noVec, 0x31), (.max onM noVec, 0x32),
      (.min onM noVec, 0x33), (.absmax onM noVec, 0x34), (.cntnf onM noVec, 0x35), (.cntnz onM noVec, 0x36), (.many onM noVec, 0x37),
      (.mall onM noVec, 0x38), (.mpop onM noVec, 0x39)], vecReady stepping (x.1, x.2, noVec)) ∧
    (∀ x ∈ [(Instr.sum onM ofInts, 0x30), (.sumsq onM ofInts, 0x31), (.max onM ofInts, 0x32), (.min onM ofInts, 0x33),
      (.absmax onM ofInts, 0x34), (.cntnz onM ofInts, 0x36)], vecReady stepping (x.1, x.2, ofInts)) ∧
    VecWordExt noVec 0 1 = 0 ∧ VecWordExt ofInts 0 1 = 1 := by
  unfold vecReady State.issues; decide +kernel

/-- A loose tile access at the address that the seed spells. -/
def looseVec : VecWord := { noVec with tb := 2 }

theorem witness_TileAccesses :
    (∀ x ∈ [(Instr.vld onM noVec, 0x3A), (.vst onM noVec, 0x3B)], vecReady stepping (x.1, x.2, noVec) ∧
      ((State.vecBegun x.2 2 noVec [] (stepping.vecFetched onM x.2 noVec) 0 2).tileAddress 0 noVec).2.2 = none) ∧
    (∀ x ∈ [(Instr.vldl onM looseVec, 0x3C), (.vstl onM looseVec, 0x3D)], vecReady stepping (x.1, x.2, looseVec) ∧
      let w := State.vecBegun x.2 2 looseVec [] (stepping.vecFetched onM x.2 looseVec) 0 2
      let a := w.tileAddress 0 looseVec
      let spans := ([0, 4, 8, 12].map fun r => tileSpans 0 0 a.1 a.2.1 r).flatten
      a.2.2 = none ∧ (VecWordExt looseVec 20 4, VecWordExt looseVec 18 2) = (0, 0) ∧
        ((w.looseSpans 0 (w.looseBase 0 looseVec) spans).elim false fun q => !(q.2.any fun q => w.loamWriteBad q.1 q.2)) = true) := by
  unfold vecReady State.issues; decide +kernel

/-- On a plot with nothing under way the conditions hold of the present state alone. -/
theorem witness_TileAccesses_atRest :
    stepping.canIssue onM = true ∧ State.quiet (stepping.plot 0) = true ∧ (stepping.plot 0).pipeFree ≤ stepping.issueStep onM ∧
    (∀ o ∈ [noVec, looseVec], (stepping.tileAddress 0 o).2.2 = none) ∧
    (∀ c ∈ [Instr.vld onM noVec, .vst onM noVec, .vldl onM looseVec, .vstl onM looseVec], c.wellFormed = true) ∧
    (let a := stepping.tileAddress 0 looseVec
     let spans := ([0, 4, 8, 12].map fun r => tileSpans 0 0 a.1 a.2.1 r).flatten
     ((stepping.looseSpans 0 (stepping.looseBase 0 looseVec) spans).elim false fun q =>
       !(q.2.any fun q => stepping.loamWriteBad q.1 q.2)) = true) := by
  decide +kernel

theorem witness_SpecialFunctions_atRest :
    stepping.canIssue onV = true ∧ State.quiet (stepping.plot 3) = true ∧ stepping.isV 3 = true ∧
      (stepping.plot 3).sfuFree ≤ stepping.issueStep onV ∧ (Instr.sfu onV noVec).wellFormed = true := by
  decide +kernel

theorem witness_SpecialFunctions :
    let u := stepping.vecFetched onV 0x3E noVec
    let w := State.sfuBegun 2 noVec [] u 3 2
    (Instr.sfu onV noVec).wellFormed = true ∧ stepping.isV 3 = true ∧ stepping.issues onV u ∧ (u.plot 3).sfuFree ≤ 2 ∧
      w.coreFenced 3 = false ∧ w.running = true := by
  unfold State.issues; decide +kernel

/-! ### Witnesses: array and mover words, and what falls due in a plot -/

/-- The plot's core, changed. -/
def withPlot (s : State) (f : PlotSt → PlotSt) : State := s.modPlot 0 f

/-- Both planes of plot 0 are READY, and its accumulator plane is valid. -/
def planes : State := withPlot stepping fun x => { x with
  active := { Plane.empty with state := 2 }, shadow := { Plane.empty with state := 2 }, accp := AccPlane.start 3 }

theorem witness_ArrayWords :
    ((Instr.wload onM noArray).wellFormed = true ∧ stepping.isV 0 = false ∧ stepping.issues onM (stepping.arrayFetched onM mWload noArray) ∧
      (stepping.arrayFetched onM mWload noArray).arrayRefusal 0 2 mWload noArray = none) ∧
    ((Instr.swap onM noArray).wellFormed = true ∧ planes.isV 0 = false ∧
      let u := planes.arrayFetched onM mSwap noArray
      planes.issues onM u ∧ (u.plot 0).shadow.state = 2 ∧ (u.plot 0).feedEnd = none ∧ 2 < 48 * u.step.length) ∧
    (∀ x ∈ [(Instr.rows onM noArray, mRows), (.trows onM noArray, mTrows), (.oacc onM noArray, mOacc), (.ediag onM noArray, mEdiag),
      (.odrain onM noArray, mOdrain)], x.1.wellFormed = true ∧ planes.issues onM (planes.arrayFetched onM x.2 noArray) ∧
        (planes.arrayFetched onM x.2 noArray).arrayRefusal 0 2 x.2 noArray = none) := by
  unfold State.issues; decide +kernel

/-- A copy of one grain within the pad, and one from loam. -/
def padCopy : MoverWord := { noMover with lsrc := true, len := 1 }
def loamCopy : MoverWord := { noMover with ssp := 1, lsrc := true, len := 1 }

theorem witness_MoverWords : ∀ x ∈ [(Instr.mcopy onM padCopy, 1, padCopy), (.mfill onM padCopy, 2, padCopy), (.mcopy onM loamCopy, 1, loamCopy)],
    x.1.wellFormed = true ∧ stepping.issues onM (stepping.moverFetched onM x.2.1 x.2.2) ∧
      (stepping.moverFetched onM x.2.1 x.2.2).moverRefusal 0 2 x.2.1 x.2.2 1 0 0 = none := by
  unfold State.issues; decide +kernel

/-- A plane that becomes READY in the present furrow; a row on its way; a loose access whose bound passes; a vote of four furrows ago. -/
def loading : State := withPlot stepping fun x => { x with shadow := { Plane.empty with state := 1, fmt := 3 }, readyAt := 10 }
def rowAt (bad : BitVec 32) : RowFlight := {
  due := 2, mode := mRows, slot := 0, row := 0, cls := 3, vals := [bad], cF := 0, aF := 0, cI := 0, empty := false, nonfin := false
  sat := false, m := 1, write := false, old := [], dst := 0, outFmt := 0, acc := false, rnd := false }
def rowDue (bad : BitVec 32) : State := withPlot stepping fun x => { x with now := 2, flight := [rowAt bad] }
def looseDue : State := withPlot { stepping with step := { stepping.step with granted := 2 } } fun x => { x with
  loosePend := [(0, 0, opControl, 0x22, 0)] }
def voteDue : State :=
  let s := withF stepping [(F.FURROW_INDEX.INDEX, 6)]
  { s with fab := { s.fab with votes := [⟨0, 0, true, false⟩] } }

/-- A state in which the row of plot 0 lands. -/
def rowLands (bad : BitVec 32) : Prop :=
  let s := rowDue bad
  s.atWork 0 2 = true ∧ (s.plot 0).now = 2 ∧ (s.plot 0).flight = [rowAt bad] ∧ s.rowOf 0 < 512 ∧ s.getF F.CHECK_CFG.ACTION = 0 ∧
    s.checkShift 3 = 0

theorem witness_PlotEvents :
    ((loading.plot 0).shadow.state = 1 ∧ loading.atWork 0 10 = true ∧ (loading.advanceTo 0 10).running = true) ∧
    (let s := withPlot loading fun x => { x with now := 10 }
     (s.plot 0).shadow.state = 1 ∧ (s.plot 0).now = (s.plot 0).readyAt ∧ s.atWork 0 10 = true) ∧
    (let s := withPlot looseDue fun x => { x with now := 48 }
     (s.plot 0).loosePend = [(0, 0, opControl, 0x22, 0)] ∧ s.atWork 0 48 = true ∧ (s.plot 0).now = 0 + 48) ∧
    ((looseDue.plot 0).loosePend = [(0, 0, opControl, 0x22, 0)] ∧ looseDue.atWork 0 48 = true ∧
      (looseDue.advance 0 48).coreFenced 0 = false ∧ (looseDue.advance 0 48).running = true) ∧
    (voteDue.running = true ∧ (voteDue.fab.votes.filter fun v => v.chan == 0) = [⟨0, 0, true, false⟩] ∧ furrowAdd 0 6 = voteDue.furrow) := by
  decide +kernel

theorem witness_PlotEvents_atRest : ((withPlot loading fun x => { x with now := 10 }).plot 0).atRest := by
  unfold PlotSt.atRest; decide +kernel

/-- A row whose check passes, and one whose check fails. -/
theorem witness_PlotEvents_pass : rowLands 0 ∧ (rowOutcome (rowAt 0) [0] 0 false).1 = 0 := by unfold rowLands; decide +kernel
theorem witness_PlotEvents_fail : rowLands 0x3F800000 ∧ (rowOutcome (rowAt 0) [0x3F800000] 0 false).1 = 2 := by
  unfold rowLands; decide +kernel

/-- Plot 0's program, from a first header on. -/
def program (ws : List Nat) : State :=
  { stepping with mem := { stepping.mem with slots := (0, 0x8010#64) :: ws.zipIdx.map fun w => (0x10 + w.2, BitVec.ofNat 64 w.1) } }

/-- A block of a hundred furrows without words; a block of one furrow before a fork of `n` variants that register 2, the seed, selects. -/
def oneBlock : State := program [7 * 2 ^ 60 + 100 * 2 ^ 8]
def beforeFork (n seed : Nat) : State :=
  let s := program [7 * 2 ^ 60 + 2 ^ 8, 8 * 2 ^ 60 + 2 ^ 8 + n * 2 ^ 5 + 2]
  { s with step := { s.step with seed := seed } }

/-- The end of slot 47 is due, and the signature matches or does not. -/
def slotsEnd (s : State) (good : Bool) (fork : Bool) : Prop :=
  let u := s.advance 0 48
  s.atWork 0 47 = true ∧ s.step.judged = false ∧ s.hasProgram 0 = true ∧ u.coreFenced 0 = false ∧ u.running = true ∧
    (crc32c (wordsBytes (u.furrowWords 0)) == (u.plot 0).crc ^^^ 0xFFFFFFFF) = good ∧
    (forkAhead (u.slotMem 0) 32768 (bitsOf (u.slotMem 0 u.step.program) 0 15) u.step.granted).isSome = fork

theorem witness_FurrowSlotsEnd : slotsEnd oneBlock true false ∧ slotsEnd (withPlot oneBlock fun x => { x with crc := 0 }) false false := by
  unfold slotsEnd; decide +kernel

/-- A fork that takes variant 1 of two, and one whose register names a variant past the last. -/
theorem witness_FurrowSlotsEnd_fork : slotsEnd (beforeFork 2 1) true true ∧ slotsEnd (beforeFork 2 3) true true ∧
    ((beforeFork 2 1).advance 0 48).gregAt 0 2 = 1 ∧ ((beforeFork 2 3).advance 0 48).gregAt 0 2 = 3 := by
  unfold slotsEnd; decide +kernel

theorem witness_CoreFault : stepping.inAttempt = true ∧ stepping.coreFenced 0 = false ∧
    ({ code := 0x0203, srcType := srcPlot, srcId := 0, detail := 0 } : FaultArgs).abandons = true := by decide +kernel

/-! ### Witnesses: time and the fabric -/

/-- A module in service with its clocks, at meridian count 100. -/
def timed : State :=
  let s := withF grid [(F.RAIL_MON.IN_TOL 4, 1), (F.MERIDIAN_COUNT.COUNT, 100)]
  { s with time := { s.time with refRunning := true } }

/-- An index frame with its SYNC and its CRC. -/
def frameOf (index : Nat) : BitVec 128 :=
  let body := index * 2 ^ 16
  BitVec.ofNat 128 (0xE5A3 + body + crc32 ((leBytes 16 body).drop 2 |>.take 10) * 2 ^ 96)

/-- Before the first of two frames that lock the counter, with one frame seen. -/
def unlocked : State :=
  let s := withF timed [(F.MERIDIAN_STATUS.LOCKED, 0)]
  { s with time := { s.time with firstFrame := some 1000 } }

theorem witness_Meridian :
    (∀ s ∈ [timed, unlocked], s.inTol 4 = true ∧ s.booting = false ∧ s.dusk = none ∧ s.inAttempt = false) ∧
    (timed.locked = true ∧ (Frame.read (frameOf 110)).ok = true ∧ (Frame.read (frameOf 110)).holdover = false ∧
      (Frame.read (frameOf 110)).index = (timed.elapse 10).meridian) ∧
    ((Frame.read (frameOf 111)).ok = true ∧ (Frame.read (frameOf 111)).index ≠ (timed.elapse 10).meridian) ∧
    ((Frame.read 0).ok = false ∧ timed.time.badFrames = 0 ∧
      0 < { timed with time := { timed.time with badFrames := 1 } }.time.badFrames) ∧
    (unlocked.locked = false ∧ unlocked.time.firstFrame = some 1000 ∧ (Frame.read (frameOf 5096)).ok = true ∧
      (Frame.read (frameOf 5096)).index = 1000 + 4096) := by
  decide +kernel

theorem witness_GrantSample : timed.time.refRunning = true ∧ timed.time.sampled = false ∧ timed.stepTerm = false ∧
    (timed.followsTwin && !timed.running) = false := by decide +kernel

/-- The boundary is near, its terms sampled. -/
def sampledWith (s : State) (terms : Nat) : State :=
  let s := withF s [(F.GRANT_STATUS.TERMS, terms)]
  { s with time := { s.time with refRunning := true, sampled := true }, step := { s.step with judged := true } }

/-- What the boundary meets first. -/
def boundaryFrom (s : State) : State :=
  ({ (s.keepF F.MERIDIAN_COUNT.COUNT s.nextBoundary) with time := { s.time with sampled := false } }).endSlots

theorem witness_FurrowBoundaries :
    (let s := sampledWith timed 0xFE
     s.time.refRunning = true ∧ s.time.sampled = true ∧ s.time.notices = [] ∧ s.inAttempt = false) ∧
    (∀ terms ∈ [0xFF, 0xFD],
      let s := sampledWith stepping terms
      let v := boundaryFrom s
      s.time.refRunning = true ∧ s.time.sampled = true ∧ s.time.notices = [] ∧ v.running = true ∧ v.step.fault = none ∧
        v.step.granted < v.step.length ∧ s.getF F.GRANT_STATUS.TERMS = terms ∧ bitOf terms 0 = true) ∧
    (let s := sampledWith { stepping with step := { stepping.step with granted := 100 } } 0xFE
     let v := boundaryFrom s
     v.running = true ∧ v.step.fault = none ∧ v.step.granted = v.step.length) ∧
    (40 ≤ timed.getF F.FURROW_CFG.FURROW_MT ∧
      timed.getF F.FURROW_CFG.FURROW_PHASE ≤ timed.meridian + timed.getF F.FURROW_CFG.FURROW_MT) := by
  decide +kernel

/-- TWIN has been false for one boundary more than HOLD_LIMIT. -/
def heldLong : State := withF { stepping with step := { stepping.step with holdRun := [(2, 6)], q0idx := some 3 } } [(F.HOLD_LIMIT.LIMIT, 5)]

theorem witness_HoldLimitAndAbandonment :
    (heldLong.running = true ∧ heldLong.step.q0idx = some 3 ∧ heldLong.getF F.HOLD_LIMIT.LIMIT < SMap.get 0 heldLong.step.holdRun 2) ∧
    (stepping.inAttempt = true ∧ stepping.base.isSome = true ∧
      F.CKPT_STATUS.STEPS_SINCE ∈ [F.HV_STATUS.COMMITTED_S, F.CKPT_STATUS.STEPS_SINCE, F.MEM_STATUS.CLOSE_NS]) := by decide +kernel

/-- Region 3 below its floor: in the first stretch, after a full one, with the derated clock, and above the floor. -/
theorem witness_LocalClocks :
    let s := withF stepping [(F.CLK_CFG.MARGIN_FLOOR 3, 20), (F.CLK_CFG.STRETCH_THRESH 3, 30)]
    let t := { s with time := { s.time with full := [(3, ())] } }
    s.getF F.FURROW_CFG.CLOCK_POLICY ≠ 1 ∧ (s.nowF F.FURROW_CFG.CLOCK_POLICY 1).getF F.FURROW_CFG.CLOCK_POLICY = 1 ∧ s.running = true ∧
      s.step.judged = false ∧ NSet.mem s.time.full 3 = false ∧ NSet.mem t.time.full 3 = true ∧
      10 < s.getF (F.CLK_CFG.MARGIN_FLOOR 3) ∧ 25 < s.getF (F.CLK_CFG.STRETCH_THRESH 3) := by decide +kernel

/-- Plot 0's router runs one group of one word, which takes one grain from the send page. -/
def routing (word : Nat) (sent : Bool) : State :=
  let s := withF stepping [(F.FURROW_INDEX.INDEX, 1)]
  let page : FPage := ⟨0, true, [(0, ⟨7, false⟩)]⟩
  { s with
    mem := { s.mem with routes := [(0, 0x2010#64), (0x10, BitVec.ofNat 64 (1 * 2 ^ 60 + 100 * 2 ^ 8 + 1)), (0x11, BitVec.ofNat 64 word)] }
    fab := { s.fab with send := if sent then [(0, page)] else [] } }
/-- One grain from the send page to an output; from the west link; from loam. -/
def routeWordOf (inp out : Nat) : Nat := 2 * 2 ^ 60 + 2 ^ 26 + inp * 2 ^ 3 + out

def routes (s : State) : Prop :=
  s.running = true ∧ 0 < s.step.granted ∧ s.step.judged = false ∧ NSet.mem s.fab.sent 0 = false ∧ s.siteState 0 ≠ 3 ∧ s.lidOfSite 0 = some 0 ∧
    s.routeGroup 0 (s.step.granted - 1) = some 0x10 ∧ 0 < bitsOf (s.routeMem 0 0x10) 0 8

theorem witness_RouteWords :
    (∀ out ∈ [0, 1, 4, 5], let s := routing (routeWordOf 4 out) true
      routes s ∧ (s.routeInput 0 0 4 0 1).2 = none ∧ bitsOf (s.routeMem 0 0x11) 26 10 = 1 ∧ bitsOf (s.routeMem 0 0x11) 3 3 = 4 ∧
        bitsOf (s.routeMem 0 0x11) 0 3 = out) ∧
    (routing 0 true).edgeLink 0 0 = some (0, 0) ∧ (routing 0 true).edgeLink 0 1 = none ∧ (routing 0 true).neighbour 0 1 = some 1 ∧
    (let s := (routing (routeWordOf 4 4) true).setSite 0 2
     routes s ∧ s.coreFenced 0 = true) ∧ (routing (routeWordOf 4 4) true).coreFenced 0 = false ∧
    (let s := routing (routeWordOf 4 4) false
     routes s ∧ (s.routeInput 0 0 4 0 1).2.isSome = true) ∧
    (let s := routing (routeWordOf 0 4) false
     routes s ∧ (s.routeInput 0 0 0 0 1).2.isSome = true) := by
  unfold routes; decide +kernel

/-! ### Witnesses: sowing and harvest -/

/-- All sixteen lanes of channel 0 are locked. -/
def laned : State := withF timed ((List.range 16).map fun k => (F.LANE_STATUS.LOCKED k, 1))

/-- The lane blocks of a superblock of zero grains: SB_SEQ 0 and its CRC in the control bytes. -/
def zeroBlocks : List (List Byte) :=
  let body : List Byte := List.replicate 44 0
  let ctl := body ++ leBytes 4 (crc32c body)
  (List.range 16).map fun k =>
    (BitVec.ofNat 8 (0xA0 + k) :: List.replicate 255 0) ++
      ((List.range 3).map fun i => ctl.getD (3 * k + i) 0 :: List.replicate 255 0).flatten

theorem witness_SowingLink :
    (laned.laneLocked 3 = true ∧ timed.laneLocked 3 = false ∧ timed.locked = true ∧ (timed.lane 3).good < 8 ∧ unlocked.locked = false) ∧
    (let s := timed.setLane 3 { timed.lane 3 with good := 8 }
     s.laneLocked 3 = false ∧ s.locked = true ∧ 8 ≤ (s.lane 3).good) ∧
    (let v := laned.elapse 5
     let r := readSb zeroBlocks
     zeroBlocks.length = 16 ∧ (∀ b ∈ zeroBlocks, b.length = 1024) ∧ v.chanUp 0 = true ∧ r.synced = true ∧
       (leNat ((r.ctl.drop 44).take 4) == crc32c (r.ctl.take 44)) = true ∧ (laned.chan 0).lastSb = none) ∧
    (timed.elapse 5).chanUp 0 = false := by
  decide +kernel

/-- A segment without payload of a kind, CODEC FP32, due in a furrow, as its header spells it. -/
def segOf (kind epoch sseq due : Nat) (payload : List Byte) (crc : Nat) : Seg := {
  hdr := wordsBytes [0x50D5 + kind * 2 ^ 16 + epoch * 2 ^ 32, sseq * 2 ^ 32, due, payload.length * 2 ^ 32, 0, 0, crc, 0]
  payload := payload, lost := false, doneAt := 0 }
def goodSeg (due : Nat) : Seg := segOf 1 0 0 due [] (crc64 [])
def withSeg (g : Seg) : State :=
  (withF timed [(F.SOW_CHAN_CFG.ENABLE 0, 1), (F.HL_PART.SOW_UNITS 0, 1)]).setChan 0 { ChanSt.zero with arrived := [g] }

/-- Each outcome of the checks: a wrong SSEQ, a lost grain, no credit, a wrong KIND, a furrow that has passed, accepted. -/
theorem witness_SegmentReceive :
    (let s := withSeg (segOf 1 0 1 5 [] (crc64 []))
     (s.chan 0).arrived = [segOf 1 0 1 5 [] (crc64 [])] ∧ (segOf 1 0 1 5 [] (crc64 [])).sseq ≠ s.getF (F.CHAN_STATUS.EXPECT_SSEQ 0)) ∧
    (let g := segOf 1 0 0 5 [] 7
     g.epoch = (withSeg g).epoch ∧ g.sseq = (withSeg g).getF (F.CHAN_STATUS.EXPECT_SSEQ 0) ∧ g.crc ≠ crc64 g.payload) ∧
    (let g := goodSeg 5
     let poor := timed.setChan 0 { ChanSt.zero with arrived := [g] }
     g.epoch = poor.epoch ∧ g.lost = false ∧ g.crc = crc64 g.payload ∧ g.kind ≠ 2 ∧ poor.creditFree 0 < g.blocks) ∧
    (let g := segOf 3 0 0 5 [] (crc64 [])
     g.lost = false ∧ g.crc = crc64 g.payload ∧ g.blocks ≤ (withSeg g).creditFree 0 ∧ (withSeg g).segOk g = false) ∧
    (∀ due ∈ [0, 5], let g := goodSeg due
     let s := withSeg g
     g.epoch = s.epoch ∧ g.sseq = s.getF (F.CHAN_STATUS.EXPECT_SSEQ 0) ∧ g.lost = false ∧ g.crc = crc64 g.payload ∧
       g.blocks ≤ s.creditFree 0 ∧ s.segOk g = true ∧ g.kind ≠ 2 ∧ furrowLater g.due s.furrow = decide (due = 5) ∧ s.inAttempt = false) := by
  decide +kernel

/-- Headland 0's program: one group of one word. -/
def headWordMem (w : Nat) : List (Nat × Word) :=
  [(0, BitVec.ofNat 64 (2 ^ 32 + 0x10)), (0x10, BitVec.ofNat 64 (1 * 2 ^ 60 + 100 * 2 ^ 8 + 1)), (0x11, BitVec.ofNat 64 w)]
def sowEntry : SowEntry := ⟨0, 0, 1, 0, 0, 0, 0, 0, 4, 16, 0⟩
def dispatchOne : Nat := 2 * 2 ^ 60 + 2 ^ 12

theorem witness_DispatchWords :
    let b : Buffered := ⟨goodSeg 5, some 0, false, none⟩
    let s := { stepping with plan := { stepping.plan with dispatch := headWordMem dispatchOne, sowTab := [(0, [sowEntry])] } }
    let s := s.setChan 0 { ChanSt.zero with buffer := [b] }
    s.running = true ∧ 0 < s.step.granted ∧ s.step.judged = false ∧ NSet.mem s.sow.sent 0 = false ∧ s.dispatchWord 0 0 = some dispatchOne ∧ s.sowEntries[0]? = some sowEntry ∧
      s.claimedBy 0 0 = some b ∧ wordKind dispatchOne = 2 ∧ sowEntry.chan / 8 = 0 ∧ 0 < bitsOf dispatchOne 12 6 := by
  decide +kernel

/-- A gleaner's word, over an edge page of one grain of two furrows ago. -/
def gleaning (w : Nat) (full : Bool) : State :=
  let s := withF stepping [(F.FURROW_INDEX.INDEX, 2)]
  let page : FPage := ⟨0, true, [(0, ⟨7, false⟩)]⟩
  { s with
    plan := { s.plan with gleaner := headWordMem w, hvTab := [(0, ⟨[⟨0, 0, 0, 0, false, 16, 0, 0, 0, 0⟩, ⟨0, 0, 4, 0, false, 0, 0, 0, 0, 1⟩], none⟩)] }
    fab := { s.fab with edge := if full then [(State.edgeKey 0 0 0, page)] else [] } }
def gatherOne (op : Nat) : Nat := 2 * 2 ^ 60 + op * 2 ^ 23 + 2 ^ 12
def emitOne (entry : Nat) : Nat := 5 * 2 ^ 60 + 2 ^ 39 + entry

theorem witness_GleanerWords :
    (∀ op ∈ [0, 1, 2], let s := gleaning (gatherOne op) true
      s.gleanTurn 0 0 = true ∧ s.gleanWord 0 0 = some (gatherOne op) ∧ wordKind (gatherOne op) = 2 ∧
        bitsOf (gatherOne op) 23 2 = op ∧ bitsOf (gatherOne op) 12 6 = 1 ∧ s.furrowBefore 2 = 0 ∧
        (SMap.get FPage.zero s.fab.edge (State.edgeKey 0 0 0)).tag = 0 ∧
        (SMap.get FPage.zero s.fab.edge (State.edgeKey 0 0 0)).complete = true ∧
        (SMap.find? (SMap.get FPage.zero s.fab.edge (State.edgeKey 0 0 0)).grains 0).isSome = true) ∧
    (let s := gleaning (gatherOne 0) false
     s.gleanTurn 0 0 = true ∧ s.gleanWord 0 0 = some (gatherOne 0) ∧ SMap.find? (SMap.get FPage.zero s.fab.edge (State.edgeKey 0 0 0)).grains 0 = none) ∧
    (∀ i ∈ [0, 1], let s := gleaning (emitOne i) true
      s.gleanTurn 0 0 = true ∧ s.gleanWord 0 0 = some (emitOne i) ∧ wordKind (emitOne i) = 5 ∧ bitsOf (emitOne i) 0 18 = i ∧
        (s.hvEntry i).map (·.codec) = some (if i = 0 then 0 else 4)) := by
  decide +kernel

theorem witness_OutboundSuperblock :
    timed.chanUp 0 = false ∧ (laned.chanUp 0 = true ∧ (laned.tx 0).cur = [] ∧ (laned.tx 0).resend = [] ∧ laned.hv.kept = [] ∧
      laned.ckpt.out = []) ∧
    (let s := laned.setTx 0 { TxSt.zero with cur := List.replicate 961 1 }
     s.chanUp 0 = true ∧ 960 < (s.tx 0).cur.length) := by
  decide +kernel

/-! ### Witnesses: ports, parcels and rings -/

/-- What a bring-up meets: nothing amiss. -/
def quiet : BootObs := ⟨true, 3, true, [], [], [], [], [], [], [], [], 0, [], false, [], 0, [], []⟩

/-- A ready module with both ports up and their exchanges completed; parcels 1 to 4 are DEVICE, SHARED-RO, VOID and a ring's. -/
def ready : State :=
  let s := withF timed [(F.BOOT_STATUS.STATE, 3), (F.PORT_STATUS.UP 0, 1), (F.PORT_STATUS.UP 1, 1), (F.PORT_STATUS.EXCHANGED 0, 1),
    (F.MGMT_STATUS.NORTH_ALIVE, 1), (F.MGMT_STATUS.SOUTH_ALIVE, 1)]
  { s with
    win := { s.win with flags := [(1, 1), (2, 2), (3, 3), (4, 10)] }
    boot := { s.boot with obs := some quiet } }

/-- Line 0 of the window is uncorrectable. -/
def badLine : State := { ready with win := { ready.win with badLines := [(0, ())] } }

theorem witness_PortReadsAndRefusals :
    (∀ s ∈ [timed.nowF (F.PORT_STATUS.UP 0) 1, ready, badLine], s.takes 0 9) ∧
    ((timed.nowF (F.PORT_STATUS.UP 0) 1).fullService 0 = false ∧ State.statusBlock 0 8 = false) ∧
    (∀ s ∈ [ready, badLine], s.fullService 0 = true) ∧
    (State.requestOk 4 8 = false ∧ State.requestOk 8 0 = true ∧ State.requestOk 0 8 = true ∧ State.requestOk 65536 8 = true) ∧
    (ready.owner 1 = 1 ∧ ready.owner 0 = 0 ∧ badLine.owner 0 = 0 ∧ ready.owner 2 = 2 ∧
      ({ ready with win := { ready.win with badLines := [(2048, ())] } }).hasBadLine 131072 8 = true ∧ badLine.hasBadLine 0 8 = true ∧ ready.hasBadLine 0 8 = false) ∧
    ((ready.wordsRead 0x100000000000 1).isSome = true ∧ ready.wordsRead 0x1FF000000000 1 = none) ∧
    (timed.portUp 0 = false ∧ let s := ready.setPort 0 { PortSt.zero with out := [⟨9, 3, 0, []⟩] }
      s.portUp 0 = true ∧ s.tagOut 0 9 = true) := by
  unfold State.takes; decide +kernel

/-- A configuration register, and one that is written directly. -/
theorem witness_PortWrites :
    (ready.takes 0 9 ∧ ready.fullService 0 = true ∧ State.requestOk 8 8 = true ∧ ready.owner 0 = 0 ∧ ready.owner 1 = 1) ∧
    (∀ x ∈ [(0x100000030010, true), (0x100000110000, false)],
      State.inFlags x.1 = false ∧ (findReg x.1).map (·.1.config) = some x.2 ∧ ready.absentBlock x.1 = false ∧
        State.deadQueueCfg x.1 = false) ∧
    (∀ x ∈ [F.HV_RELEASE.STEP_S.addr, F.HV_RESEND.CHANNEL.addr, F.APPLY_CTL.DISCARD.addr, F.LANE_REGATE.CHANNELS.addr,
      F.KEY_LOAD.PARCEL.addr, F.ATTEST_REQ.PARCEL.addr, (F.MGMT_RING.ENTRIES 0).addr, (F.MGMT_RING.ENTRIES 1).addr,
      (F.QUEUE_DOORBELL.GIVE 0).addr], 0x100000110000 ≠ x) := by
  unfold State.takes; decide +kernel

/-- A HELLO that lists version 1 of both interfaces, and one that lists none. -/
theorem witness_PortService :
    ready.takes 0 9 ∧ (bitsOf 0x0000000100000001 0 16 = 1 ∧ bitsOf (1 + 2 ^ 64) (16 * 4) 16 = 1) ∧ ready.portUp 0 = true ∧
      (ready.nowF (F.PORT_STATUS.UP 0) 0).portUp 0 = false ∧ ready.boot.obs.isSome = true := by
  unfold State.takes; decide +kernel

/-- One parcel of the owner that each change asks for, and of another. -/
theorem witness_ParcelDoorbells :
    (ready.takes 0 9 ∧ ready.fullService 0 = true) ∧
    (ready.owner 0 = 0 ∧ ready.owner 3 = 3 ∧ ready.owner 1 = 1 ∧ ready.owner 2 = 2 ∧ ready.isRing 2 = false) ∧
    (ready.owner 4 = 2 ∧ ready.isRing 4 = true) ∧ ready.isPending 1 = false ∧ ready.isPending 2 = false ∧
    ({ ready with win := { ready.win with flags := [(1, 5)] } }).isPending 1 = true ∧ 2 ^ 20 < (0xFFFFF#20).toNat + (2#21).toNat ∧
    (1#20).toNat + (0xFFFFF#21).toNat ≤ 2 ^ 20 ∧ (0#64).toNat / 2 ^ 20 % 2 ^ 21 = 0 ∧ (2 ^ 20 : BitVec 64).toNat / 2 ^ 20 % 2 ^ 21 ≠ 0 ∧
    (2 ^ 20 : BitVec 64).toNat / 2 ^ 41 % 8 = 0 ∧ (0xE0000100000#64).toNat / 2 ^ 20 % 2 ^ 21 = 1 ∧ (0xE0000100000#64).toNat / 2 ^ 41 % 8 = 7 := by
  unfold State.takes; decide +kernel

/-- Queue 0 has a ring of sixteen entries in parcel 4. -/
def ringed : State := withF ready [(F.MGMT_RING.BASE_PARCEL 0, 4), (F.MGMT_RING.ENTRIES 0, 16)]

theorem witness_QueueDoorbells :
    (ringed.takes 0 9 ∧ ringed.fullService 0 = true) ∧ ready.qEntries 0 = 0 ∧
    (ringed.qEntries 0 = 16 ∧ (17 + 2 ^ 32 - ringed.qDone 0) % 2 ^ 32 = 17 ∧ (2 + 2 ^ 32 - ringed.qDone 0) % 2 ^ 32 = 2 ∧
      (ringed.qGive 0 + 2 ^ 32 - ringed.qDone 0) % 2 ^ 32 = 0 ∧ ∀ i ∈ [0, 1], ringed.winWord (ringed.entryAddr 0 i) % 4 = 0 ∧
        ringed.hasBadLine (ringed.entryAddr 0 i) 64 = false) ∧
    (let s := { ringed with win := { ringed.win with badLines := [(4 * 1024, ())] } }
     s.takes 0 9 ∧ s.fullService 0 = true ∧ s.qEntries 0 = 16 ∧ (2 + 2 ^ 32 - s.qDone 0) % 2 ^ 32 = 2 ∧
       s.hasBadLine (s.entryAddr 0 0) 64 = true) ∧
    (State.ringSizeOk 16 = true ∧ ringed.unreturned 0 = [] ∧ ringed.owner 5 = 0 ∧ 4 ∈ ringed.markedRing 0) := by
  unfold State.takes; decide +kernel

/-! ### Witnesses: keys and leases -/

/-- The secret keys of an owner and of a lease authority. -/
def ownerSecret : List Byte := List.replicate 32 1
def leaseSecret : List Byte := List.replicate 32 2

/-- A key list of SEQ 1 with one plan key, the owner's, and one lease key. -/
def keyBody : List Byte :=
  wordsBytes [0x6B3ED0A1 + 2 ^ 32, 0, 1, 1 + 2 ^ 8] ++ Ed25519.publicKey ownerSecret ++ Ed25519.publicKey ownerSecret ++ zeroBytes 480 ++
    Ed25519.publicKey leaseSecret ++ zeroBytes 224
def keyImage : List Byte := keyBody ++ Ed25519.sign ownerSecret (sha512 keyBody)

/-- Parcel 1 holds the key list. -/
def keyReady : State := ready.winPut 65536 keyImage

theorem keyReady_image : keyReady.winGet 65536 896 = keyImage := by
  have h : keyImage.length = 896 := by decide +kernel
  rw [← h]; exact State.winGet_winPut_same _ _ _

theorem witness_ControlWrites_keyLoad : keyReady.owner 0 ≠ 1 ∧ keyReady.owner 1 = 1 ∧ keyReady.keyCheck (keyReady.winGet 65536 896) = 1 := by
  rw [keyReady_image]; decide +kernel

theorem witness_ControlWrites :
    (ready.takes 0 9 ∧ ready.fullService 0 = true ∧ ready.boot.regate = none ∧ ready.atPublication = true ∧
      ({ ready with step := { ready.step with phase := .running } }).atPublication = false) ∧
    (∃ g ∈ ({ ready with hv := { ready.hv with kept := [⟨0, 0, 0, 0, 0, 0, 0, 0, 0, 0, 0, 0, [], none, true, false⟩] } }).hv.kept,
      g.stepS = ready.getF F.HV_RESEND_STEP.STEP_S) ∧ ready.owner 0 ≠ 1 ∧ ready.owner 1 = 1 ∧
    ({ ready with obs := { ready.obs with keyPending := some [] } }).obs.keyPending = some [] := by
  unfold State.takes; decide +kernel

/-! ### Witnesses: queue 0 -/

/-- Entry 0 of queue 0 is given: OPCODE, and words from word 1 on. -/
def given (s : State) (op : Nat) (ws : List Nat) : State :=
  let s := withF s [(F.MGMT_RING.BASE_PARCEL 0, 4), (F.MGMT_RING.ENTRIES 0, 16), (F.QUEUE_STATE.GIVE 0, 1)]
  ((1 + op * 256) :: ws).zipIdx.foldl (fun s w => s.winPutWord (4 * 65536 + 8 * w.2) w.1) s

/-- A lease in force, of a key list with one plan key and one lease key of zeros. -/
def zeroLease : Lease := ⟨0, 1, 0, 1000, 0, [], zeroBytes 192⟩
def leased (s : State) : State :=
  { s with
    obs := { s.obs with
      keys := wordsBytes [0, 0, 0, 1 + 2 ^ 8] ++ zeroBytes 32 ++ Ed25519.publicKey ownerSecret ++ zeroBytes 800 }
    twin := { s.twin with north := some zeroLease, newest := some zeroLease } }

/-- A leased module that holds a training program 0 of 100 furrows and an evaluation program 1. -/
def planted : State :=
  let s := leased (withF ready [(F.GRID_SHAPE.X_DIM, 8), (F.GRID_SHAPE.Y_DIM, 1), (F.MODE_CFG.EVAL_PROGRAMS, 2)])
  { s with mem := { s.mem with slots := [(0, 0x6408010#64), (1, 0x6408010#64)] } }

/-- Step commands of both kinds, and training commands that meet each status of R284. -/
def stepCmd (s : State) (j : Nat) : State := given s (2 + j) [0, 0, 0, 77, j]
def unleased (s : State) : State := { s with twin := { s.twin with north := none, newest := none } }
/-- A pending substitution of row 0, whose site 0 is fenced; with a spare M-site 8, and with none left. -/
def pendingSub (states : Nat) : State :=
  let s := withF planted [(F.REPAIR_STATUS.SUBST_PENDING, 1), (F.ROW_MAP.POS_SITE 0, 0x76543210), (F.ROW_MAP.SITE_STATE 0, states)]
  { s with grid := { s.grid with fencedNow := [(0, ())] } }

theorem witness_QueueZeroCommands_simple :
    (∀ op ∈ [0, 1, 9], (given ready op []).front.turn = some 0 ∧ (given ready op []).front.opAt 0 0 = op) ∧
    (∀ j ∈ [0, 1], let v := (stepCmd planted j).front
      v.turn = some 0 ∧ v.opAt 0 0 = 2 + j ∧ v.mustWait = false ∧ v.stepRefusal (v.entryWord 0 0 5 % 16) (j == 1) = none ∧
        v.getF F.REPAIR_STATUS.SUBST_PENDING = 0 ∧ v.entryWord 0 0 4 = 77) := by
  decide +kernel

theorem witness_QueueZeroCommands_refused :
    ∀ x ∈ [(unleased planted, 0x0006), (planted.nowF F.REPAIR_STATUS.DEGRADED 1, 0x0007), (planted.nowF F.MEM_STATUS.HORIZON_LOST 1, 0x0008),
      (planted.nowF F.MODE_CFG.EVAL_PROGRAMS 1, 0x0009)],
      let v := (stepCmd x.1 0).front
      v.turn = some 0 ∧ v.opAt 0 0 = 2 ∧ v.mustWait = false ∧ v.stepRefusal (v.entryWord 0 0 5 % 16) false = some x.2 := by
  decide +kernel

theorem witness_QueueZeroCommands_pending : ∀ x ∈ [(0x50002, true), (0xA0002, false)],
    let v := (stepCmd (pendingSub x.1) 0).front
    v.turn = some 0 ∧ v.opAt 0 0 = 2 ∧ v.mustWait = false ∧ v.stepRefusal (v.entryWord 0 0 5 % 16) false = none ∧
      v.getF F.REPAIR_STATUS.SUBST_PENDING = 1 ∧
      if x.2 then (v.beginSubst (bits13 [])).step.phase = .substituting ∧ (v.beginSubst (bits13 [])).migrated = false
      else (v.beginSubst (bits13 [])).step.phase ≠ .substituting := by
  decide +kernel

/-- StepStartRegisters asks what the second clause of QueueZeroCommands asks. -/
theorem witness_StepStartRegisters : ∀ j ∈ [0, 1], let v := (stepCmd planted j).front
    v.turn = some 0 ∧ v.opAt 0 0 = 2 + j ∧ v.mustWait = false ∧ v.stepRefusal (v.entryWord 0 0 5 % 16) (j == 1) = none ∧
      v.getF F.REPAIR_STATUS.SUBST_PENDING = 0 := by
  decide +kernel

/-! ### Witnesses: staging and substitution -/

/-- Entry 0 of work queue `q`, of an endpoint, is given: OPCODE, and words from word 1 on. -/
def queued (s : State) (q type id op : Nat) (ws : List Nat) : State :=
  let s := withF s [(F.QUEUE_CFG.EP_TYPE q, type), (F.QUEUE_CFG.BASE_PARCEL q, 4), (F.QUEUE_CFG.ENTRIES q, 16), (F.QUEUE_EP.EP_ID q, id),
    (F.QUEUE_STATE.GIVE q, 1)]
  ((1 + op * 256) :: ws).zipIdx.foldl (fun s w => s.winPutWord (4 * 65536 + 8 * w.2) w.1) s

/-- A step whose staging pass meets a COPY_IN for plot 0's committed partition. -/
def copying (len window : Nat) : State :=
  let s := withF planted [(F.LOAM_PART_ATTR.TYPE 0, 3), (F.LOAM_PART_SIZE.VALUE 0, 0x10000)]
  queued { s with step := { s.step with phase := .staging } } 2 1 0 1 [len, window, 0]

theorem witness_StagingPass :
    (let s := { planted with step := { planted.step with phase := .staging } }
     s.step.phase = .staging ∧ s.plotQueues = [] ∧ ∀ q ∈ s.enabledQueues, s.qLedger q = false) ∧
    ∀ x ∈ [(copying 16 65536, 0), (copying 16 (9 * 65536), 4), (copying 0 65536, 0)], x.1.step.phase = .staging ∧ 2 ∈ x.1.plotQueues ∧
      x.1.nextEntry 2 = some 0 ∧ x.1.opAt 2 0 = 1 ∧ (x.1.copyIn 2 0).1 = x.2 := by
  decide +kernel

/-- A substitution of row 0 under way, with one copy to run; and one with a copy that waits for it. -/
def migrating (moves : List (Nat × Nat × Nat)) : State :=
  { planted with
    step := { planted.step with phase := .substituting }
    grid := { planted.grid with changes := [⟨0, [8, 1, 2, 3, 4, 5, 6, 7], moves⟩] } }

theorem witness_Substitution : ∀ x ∈ [(migrating [(0, 0, 8)], true), (migrating [(0, 0, 8), (1, 1, 0)], false)],
    x.1.step.phase = .substituting ∧ x.1.migrateStage.migrated = x.2 := by
  decide +kernel

/-! ### Witnesses: apply, leases, the dusk test -/

/-- A field plan of no section: an update of the plan in force with a PLAN_ID, for a full grid. -/
def planBody (id : Nat) : List Byte :=
  wordsBytes [0x9D3AF1E1 + 2 ^ 32, 256, 384, 0, 64 * 2 ^ 16 + 64 * 2 ^ 28, 0, 0, 0, 0, 0, 0] ++ zeroBytes 64 ++ wordsBytes [id] ++
    zeroBytes 96 ++ Ed25519.publicKey ownerSecret
def planImage (id : Nat) : List Byte :=
  let b := planBody id
  b ++ Ed25519.sign ownerSecret (sha512 b) ++ zeroBytes 32

/-- A configured module whose APPLY command names `bytes` at parcel 2, its doorbell written on port 0. -/
def applying (s : State) (len window : Nat) : State :=
  let s := given (withF s [(F.PLAN_STATUS.CONFIGURED, 1)]) 4 [len, window]
  let s := s.setQueue 0 { s.queue 0 with via := [(0, 0)] }
  s.setPort 0 { s.port 0 with plan := some (1, 0) }

theorem witness_ApplyAndCommit_front :
    ∀ x ∈ [(applying (leased ready) 384 (2 * 65536), true, true), (applying ready 384 (2 * 65536), false, true),
      (applying (leased ready) 384 65536, true, false)],
      let v := x.1.front
      v.turn = some 0 ∧ v.opAt 0 0 = 4 ∧ v.mustWait = false ∧ v.hasLease = x.2.1 ∧ v.entryLength 0 0 = 384 ∧
        (State.parcelsOf (v.entryWindow 0 0) 384).all (fun p => v.owner p == 2) = x.2.2 ∧ v.hasBadLine (v.entryWindow 0 0) 384 = false := by
  decide +kernel

/-- The image that an APPLY names: one that is no plan, one while DEGRADED is set, and one that authenticates. -/
theorem witness_ApplyAndCommit_image :
    (let v := applying (leased ready) 384 (2 * 65536)
     (match v.authenticate (zeroBytes 384).toArray (some (1, 0)) with | .error e => e.status == 0x000B && e.why.isSome | _ => false) = true ∧
     (match v.authenticate (planImage 5).toArray (some (1, 0)) with | .ok secs => secs.isEmpty | _ => false) = true) ∧
    (match (applying ((leased ready).nowF F.REPAIR_STATUS.DEGRADED 1) 384 (2 * 65536)).authenticate (planImage 5).toArray (some (1, 0)) with
      | .error e => e.status == 7 && e.why.isNone | _ => false) = true := by
  decide +kernel

/-- A small grid whose APPLY command names a plan that the window holds. -/
def planned : State :=
  (applying (leased (withF ready [(F.GRID_SHAPE.X_DIM, 8), (F.GRID_SHAPE.Y_DIM, 1)])) 384 (2 * 65536)).winPut (2 * 65536) (planImage 5)

/-- Its entry and its image meet every condition of an APPLY. -/
theorem witness_ApplyAndCommit_planned :
    planned.step.skip = [] ∧ planned.turn = some 0 ∧ planned.opAt 0 0 = 4 ∧ planned.mustWait = false ∧ planned.hasLease = true ∧
      planned.entryLength 0 0 = 384 ∧ planned.entryWindow 0 0 = 2 * 65536 ∧ (State.parcelsOf (2 * 65536) 384).all (fun p => planned.owner p == 2) = true ∧
      planned.hasBadLine (2 * 65536) 384 = false ∧ planned.winGet (2 * 65536) 384 = planImage 5 ∧
      planned.getF F.REPAIR_STATUS.SUBST_PENDING = 0 := by
  decide +kernel

/-- Its plan is authentic and valid. -/
theorem witness_ApplyAndCommit_valid :
    (let m : Img := (planImage 5).toArray
     match planned.authenticate m ((SMap.find? (planned.queue 0).via 0).bind fun p => (planned.port p).plan) with
     | .error _ => false
     | .ok secs => match decodePlan m secs (State.imageDigest m) with
       | .error _ => false
       | .ok d => match planned.planShadows d with
         | .error _ => false
         | .ok ov => match planned.validatePlan d ov with
           | .error _ => false
           | .ok _ => true) = true := by
  decide +kernel

/-- A lease of a solo module, signed with `secret`. -/
def leaseBytes (secret : List Byte) (role seq : Nat) : List Byte :=
  let b := wordsBytes [0x7E45A5E1 + 2 ^ 32 + role * 2 ^ 48, 0, seq, 0, 1000, 0] ++ zeroBytes 48 ++ Ed25519.publicKey secret
  b ++ Ed25519.sign secret b

/-- A module whose key list holds the lease authority's key. -/
def enrolled : State :=
  { ready with obs := { ready.obs with keys := wordsBytes [0, 0, 0, 2 ^ 8] ++ zeroBytes 544 ++ Ed25519.publicKey leaseSecret ++ zeroBytes 288 } }

/-- A LEASE command of a lease signed with `secret`, in parcel 5. -/
def leasing (secret : List Byte) : State :=
  let s := given { enrolled with win := { enrolled.win with flags := SMap.ins enrolled.win.flags 5 1 } } 5 [192, 5 * 65536]
  s.winPut (5 * 65536) (leaseBytes secret 0 1)

theorem leasing_front (secret : List Byte) (h : (leasing secret).turn = some 0) : (leasing secret).front = leasing secret := by
  simp only [State.front, h, Option.isSome_some, if_true]; rfl

theorem leasing_image (secret : List Byte) (h : (leaseBytes secret 0 1).length = 192) :
    (leasing secret).winGet (5 * 65536) 192 = leaseBytes secret 0 1 := by
  rw [← h]; exact State.winGet_winPut_same _ _ _

theorem witness_LeasesAndWitness_lease : ∀ x ∈ [(leaseSecret, none), (ownerSecret, some 2)],
    (leasing x.1).turn = some 0 ∧ (leasing x.1).opAt 0 0 = 5 ∧ (leasing x.1).entryLength 0 0 ≠ 0 ∧ (leasing x.1).entryWindow 0 0 = 5 * 65536 ∧
      (leasing x.1).rangeStatus (5 * 65536) 192 true = 0 ∧ (leaseBytes x.1 0 1).length = 192 ∧
      (leasing x.1).leaseRefusal (Lease.ofBytes (leaseBytes x.1 0 1)) = x.2 := by
  decide +kernel

/-- A WITNESS command for the witness of step 9, which is held or not; its WINDOW is DEVICE parcel 1. -/
def witnessing (held : Bool) : State :=
  let s := given (leased ready) 7 [640, 65536, 0, 9]
  { s with obs := { s.obs with witnesses := if held then [(9, List.replicate 640 0)] else [] } }

theorem witness_LeasesAndWitness_witness : ∀ h ∈ [true, false],
    let v := (witnessing h).front
    v.turn = some 0 ∧ v.opAt 0 0 = 7 ∧ v.hasLease = true ∧ v.entryLength 0 0 ≠ 0 ∧ (v.obs.witnesses.find? (fun w => w.1 == v.entryWord 0 0 4)).isSome = h ∧
      v.rangeStatus (v.entryWindow 0 0) 640 false = 0 := by
  decide +kernel

/-- A lease that has run out; and controllers of which one holds a lease, or a newer one. -/
def oldLease : Lease := { zeroLease with expiry := 100 }
def newLease : Lease := { zeroLease with seq := 2, raw := zeroBytes 191 ++ [1] }

theorem witness_LeasesAndWitness_time :
    (let s := { (leased ready) with twin := { (leased ready).twin with north := some oldLease } }
     s.newestHeld = some oldLease ∧ oldLease.expiry ≤ s.meridian ∧ s.twin.expiredPosted = false) ∧
    ∀ x ∈ [(none, zeroLease, true), (some zeroLease, newLease, false)],
      let s := { (leased ready) with twin := { (leased ready).twin with north := x.1, south := some x.2.1 } }
      s.controllerLost 0 = false ∧ s.controllerLost 1 = false ∧ s.validOf s.twin.south = some x.2.1 ∧
        (s.validOf s.twin.north = none ∨ zeroLease.raw ≠ x.2.1.raw ∧ zeroLease.seq < x.2.1.seq) ∧ (s.validOf s.twin.north).isNone = x.2.2 := by
  decide +kernel

theorem witness_LeasesAndWitness_none : ∀ op ∈ [5, 7], let v := (given (leased ready) op [0, 65536, 0, 9]).front
    v.turn = some 0 ∧ v.opAt 0 0 = op ∧ v.entryLength 0 0 = 0 ∧ v.hasLease = true := by
  decide +kernel

theorem witness_DuskTest :
    (∀ x ∈ [(planted, 0, true), (planted, 1, true), (unleased planted, 0, false)],
      let v := (given x.1 6 [0, 0, 0, x.2.1]).front
      v.turn = some 0 ∧ v.opAt 0 0 = 6 ∧ v.mustWait = false ∧ v.hasLease = x.2.2 ∧ v.entryWord 0 0 4 = x.2.1) ∧
    ({ planted with dusk := some { nominal := [] } }).dusk.isSome = true := by
  decide +kernel

/-- With no entry to skip the conditions of QueueZeroCompletes hold of the present state. -/
theorem witness_QueueZeroCompletes :
    ((given ready 1 []).step.skip = [] ∧ (given ready 1 []).turn = some 0 ∧ (given ready 1 []).opAt 0 0 = 1) ∧
    (∀ j ∈ [0, 1], let s := stepCmd planted j
      s.step.skip = [] ∧ s.turn = some 0 ∧ s.opAt 0 0 = 2 + j ∧ s.mustWait = false ∧
        s.stepRefusal (s.entryWord 0 0 5 % 16) (j == 1) = none ∧ s.getF F.REPAIR_STATUS.SUBST_PENDING = 0) ∧
    (∀ n ∈ [0, 1], let s := given planted 6 [0, 0, 0, n]
      s.step.skip = [] ∧ s.turn = some 0 ∧ s.opAt 0 0 = 6 ∧ s.mustWait = false ∧ s.hasLease = true ∧ s.entryWord 0 0 4 = n) ∧
    (let s := witnessing true
     s.step.skip = [] ∧ s.turn = some 0 ∧ s.opAt 0 0 = 7 ∧ s.hasLease = true ∧ s.entryLength 0 0 ≠ 0 ∧
       (s.obs.witnesses.find? (fun w => w.1 == s.entryWord 0 0 4)).isSome = true ∧ s.rangeStatus (s.entryWindow 0 0) 640 false = 0) ∧
    (leasing leaseSecret).step.skip = [] ∧ (leasing leaseSecret).entryLength 0 0 ≠ 0 ∧
    (let s := migrating [(0, 0, 8), (1, 1, 0)]
     s.step.phase = .substituting ∧ s.migrateStage.migrated = false) := by
  decide +kernel

/-- An entry that copies 16 bytes out, of plot 0's partition 0 of the type given, or of gleaner 0's residual share. -/
def copyingOut (ptype window : Nat) : State :=
  let s := withF planted [(F.LOAM_PART_ATTR.TYPE 0, ptype), (F.LOAM_PART_SIZE.VALUE 0, 0x10000)]
  queued s 2 1 0 2 [16, window, 0]
def residualOut (target : Nat) : State := queued (planted.nowF (F.HV_SEG_CFG.RES_UNITS 0) 1) 3 2 0 1 [16, 65536, target]

theorem witness_CopiesOut :
    (∀ x ∈ [(3, 65536, true, 0), (1, 65536, false, 0), (3, 0, true, 4)], let s := copyingOut x.1 x.2.1
      0 < s.entryLength 2 0 ∧ s.engineEntry 2 0 = none ∧ s.engineEntry 2 1 = some 0 ∧ s.opAt 2 0 = 2 ∧
        s.rangeStatus (s.entryWindow 2 0) (s.entryLength 2 0) false = x.2.2.2 ∧ s.partOf (s.entryWord 2 0 3) (s.entryLength 2 0) = some 0 ∧
        s.partCommitted 0 = x.2.2.1) ∧
    ∀ x ∈ [(0, true), (2 ^ 21 - 16, true), (2 ^ 21 - 15, false)], let s := residualOut x.1
      0 < s.entryLength 3 0 ∧ s.engineEntry 3 2 = some 0 ∧ s.opAt 3 0 = 1 ∧
        s.rangeStatus (s.entryWindow 3 0) (s.entryLength 3 0) false = 0 ∧
        decide (s.entryWord 3 0 3 + s.entryLength 3 0 ≤ s.resShare (s.qEpId 3 / 32)) = x.2 := by
  decide +kernel

/-- An entry of a checkpoint engine queue, in a configured module with a CHECKPOINT section. -/
def engine (mode op : Nat) (ws : List Nat) : State :=
  let s := queued (withF (leased ready) [(F.MODE_CFG.CKPT_MODE, mode), (F.HV_SEG_CFG.RES_UNITS 0, 1), (F.GRID_SHAPE.X_DIM, 0)]) 2 3 0 op ws
  { s with
    plan := { s.plan with ckpt := some ⟨[], 0, 0, 0, []⟩ }
    ckpt := { s.ckpt with manifests := [(7, List.replicate 320 0)], ledger := [(5, List.replicate 64 0)] } }

theorem witness_CheckpointEngine_simple :
    (∀ m ∈ [0, 1], let s := engine m 1 []
      s.ckptEntry 2 = some 0 ∧ s.opAt 2 0 = 1 ∧ s.getF F.MODE_CFG.CKPT_MODE = m ∧ s.plan.ckpt.isSome = true) ∧
    (∀ n ∈ [7, 8], let s := engine 1 3 [320, 65536, 0, n]
      s.ckptEntry 2 = some 0 ∧ s.opAt 2 0 = 3 ∧ (s.ckpt.manifests.find? (fun m => m.1 == s.entryWord 2 0 4)).isSome = (n == 7) ∧
        s.rangeStatus (s.entryWindow 2 0) 320 false = 0) ∧
    (let s := engine 1 4 [128, 65536, 0, 0]
     s.ckptEntry 2 = some 0 ∧ s.opAt 2 0 = 4 ∧ s.entryLength 2 0 ≠ 0 ∧ s.rangeStatus (s.entryWindow 2 0) (s.entryLength 2 0) false = 0) ∧
    (∀ d ∈ [0, 1], let s := (engine 1 6 []).nowF F.CKPT_STATUS.DRAINING d
      s.ckptEntry 2 = some 0 ∧ s.opAt 2 0 = 6 ∧ s.draining = (d == 1) ∧ s.lanesDrained = true) ∧
    (let s := { engine 1 2 [] with ckpt := { (engine 1 2 []).ckpt with restore := some ⟨0, 2, [], 50, 20, []⟩ } }
     (s.ckpt.restore.elim false fun r => decide (r.limit ≤ s.meridian - r.started)) = true) := by
  decide +kernel

/-- A RESTORE whose manifest in parcel 5 is of zeros, or signed and of this configuration, with a limit. -/
def goodManifest : List Byte :=
  let s := engine 1 2 [320, 5 * 65536]
  let b := wordsBytes [0xC4E70A11 + 2 ^ 32, 0, 0, 0, s.gridShape, 32, 0, 0] ++ zeroBytes 128 ++ s.layoutDigest
  b ++ Ed25519.sign s.man.secret b
def restoring (limit : Nat) (m : List Byte) : State :=
  let s := engine 1 2 [320, 5 * 65536, 0, 0, limit]
  ({ s with win := { s.win with flags := SMap.ins s.win.flags 5 1 } }).winPut (5 * 65536) m

theorem restoring_manifest (n : Nat) (m : List Byte) (h : m.length = 320) : (restoring n m).winGet (5 * 65536) 320 = m := by
  rw [← h]; exact State.winGet_winPut_same _ _ _

theorem witness_CheckpointEngine_restore : ∀ x ∈ [(zeroBytes 320, some 2, 9), (goodManifest, none, 0), (goodManifest, none, 9)],
    let s := restoring x.2.2 x.1
    x.1.length = 320 ∧ s.entryWord 2 0 5 = x.2.2 ∧ s.entryLength 2 0 ≠ 0 ∧ wordField goodManifest 5 0 64 ≠ 0 ∧ s.ckptEntry 2 = some 0 ∧ s.opAt 2 0 = 2 ∧ s.entryWindow 2 0 = 5 * 65536 ∧ s.step.phase = .idle ∧ s.dusk = none ∧
      s.mustWait = false ∧ s.rangeStatus (5 * 65536) 320 true = 0 ∧ s.getF F.REPAIR_STATUS.SUBST_PENDING = 0 ∧
      s.manifestFault x.1 = x.2.1 ∧ (s.keptKeys.isEmpty = false) := by
  decide +kernel

/-! ### Witnesses: horizons, the drain, the twin -/

/-- A step in its close: with a fault, held back by undrained image data, or free to commit; and an evaluation step. -/
def closing (fault : Option Nat) (eval blocked : Bool) : State :=
  let s := withF planted [(F.PAD_CFG.CARRY 0, 1), (F.PAD_STATUS.IMAGE_HALF 0, 1)]
  { s with
    step := { s.step with phase := .closing, fault := fault, eval := eval }
    ckpt := { s.ckpt with parcels := if blocked then [(parcelKey 8 0 0, ⟨false, false, false, false, false⟩)] else [] }
    mem := { s.mem with dirty := [(1, ()), (5, ())], cur := [(5, ())] } }

theorem witness_HorizonClose :
    ∀ x ∈ [(some 1, false, false), (none, false, true), (none, false, false), (none, true, true)],
      let s := closing x.1 x.2.1 x.2.2
      s.step.phase = .closing ∧ (7#13).toNat < 5120 ∧ s.step.fault = x.1 ∧ s.step.eval = x.2.1 ∧ s.imageBlocked = x.2.2 ∧ SMap.rising s.mem.dirty = true := by
  decide +kernel

/-- A module that drains one parcel, with staging units. -/
def drainingOne : State :=
  let s := withF ready [(F.CKPT_STATUS.DRAINING, 1), (F.HL_PART.STAGE_UNITS 0, 1)]
  { s with ckpt := { s.ckpt with parcels := [(parcelKey 0 0 0, ⟨false, true, false, false, false⟩)] } }

theorem witness_LoopbackAndDrain :
    (let s := { ready with grid := { ready.grid with loopbacks := [(4 * (7#13).toNat + (2#2).toNat, ())] } }
     s.inAttempt = false ∧ s.grid.loopbacks ≠ [] ∧ s.step.phase = .idle) ∧
    drainingOne.draining = true ∧ drainingOne.fabricFree = true ∧ drainingOne.stagingFull = false ∧
      drainingOne.nextParcel = some (parcelKey 0 0 0) := by
  decide +kernel

/-- A paired module that holds a lease of a role, with ledger units and one kept parcel in the residual store. -/
def twinned (role : Nat) : State :=
  let s := withF enrolled [(F.MODE_CFG.PAIRED, 1), (F.TWIN_STATUS.LINK_UP, 1), (F.HV_SEG_CFG.RES_UNITS 0, 1), (F.GRID_SHAPE.X_DIM, 0),
    (F.FURROW_CFG.TWIN_LOCK, 1), (F.TWIN_LOCK_STATUS.LOCKED, 1)]
  let l : Lease := { Lease.ofBytes (zeroBytes 96 ++ Ed25519.publicKey leaseSecret ++ zeroBytes 64) with role := role, seq := 1, expiry := 1000 }
  { s with
    twin := { s.twin with north := some l, newest := some l }
    plan := { s.plan with ckpt := some ⟨[], 0, 0, 1, []⟩ } }

theorem witness_TwinLink_acks :
    (twinned 2).followsTwin = true ∧ (twinned 2).getF F.TWIN_LOCK_STATUS.LOCKED = 1 ∧
    (((twinned 2).nowF F.FURROW_CFG.FURROW_MT 40).getF F.FURROW_CFG.FURROW_MT = (40#16).toNat ∧
      (BitVec.ofNat 16 ((twinned 2).nowF F.FURROW_CFG.FURROW_MT 40).furrowPhase).toNat =
        ((twinned 2).nowF F.FURROW_CFG.FURROW_MT 40).furrowPhase) ∧
    (let s := { twinned 2 with time := { (twinned 2).time with refRunning := true } }
     s.time.refRunning = true ∧ s.time.sampled = false ∧ (s.followsTwin && !s.running) = true) ∧ (twinned 1).role = 1 ∧ (twinned 2).role = 2 ∧
    (stepping.inAttempt = true ∧ (1#48).toNat = stepping.step.stepS) ∧
    (let s := { drainingOne with regs := SMap.drop drainingOne.regs F.CKPT_STATUS.DRAINING.key }
     s.parcel (parcelKey 0 0 0) = some ⟨false, true, false, false, false⟩ ∧ s.draining = false) := by
  decide +kernel

theorem witness_TwinLink_ledger :
    (twinned 2).role = 2 ∧ (zeroBytes 64).length = 64 ∧ (twinned 2).ckpt.ledger = [] ∧
      (twinned 2).ledgerUsed + 64 ≤ (twinned 2).ledgerArea ∧ parcelKey 9 0 0 ∈ (twinned 2).keptKeys := by
  decide +kernel

theorem replicate_length (n : Nat) : (List.replicate n (0 : Byte)).length = n := List.length_replicate
theorem witness_TwinLink_parcel : ∃ bs : List Byte, bs.length = 65536 := ⟨_, replicate_length 65536⟩

/-- A lead lease from the twin, of a module that holds none. -/
def paired : State := { twinned 1 with twin := { (twinned 1).twin with north := none, newest := none } }
def expiredLead : Lease := { Lease.ofBytes (zeroBytes 192) with role := 1, seq := 2, expiry := 1 }
theorem witness_TwinLink_lease :
    let raw := leaseBytes leaseSecret 1 3
    let l := Lease.ofBytes raw
    raw.length = 192 ∧ paired.isPaired = true ∧ l.formOk = true ∧ l.signed = true ∧ paired.leaseFits l = true ∧ l.role = 1 ∧
      paired.heldLease = none ∧ paired.newestHeld = none ∧ paired.twin.twinLease = none ∧
      (let s := { paired with twin := { paired.twin with north := some expiredLead } }
       s.heldLease = none ∧ s.newestHeld = some expiredLead ∧ expiredLead.role = 1 ∧ expiredLead.seq < l.seq ∧ s.leaseFits l = true ∧
         s.isPaired = true) := by
  decide +kernel

/-- A manifest of no parcel: its root is that of no leaves. -/
def standby : State := (twinned 2).nowF (F.HV_SEG_CFG.RES_UNITS 0) 0
def emptyManifest : List Byte :=
  let b := wordsBytes [0xC4E70A11 + 2 ^ 32, 0, 0, 0, standby.gridShape, 0, 0, 0] ++ sha512 [] ++ zeroBytes 64 ++ standby.layoutDigest
  b ++ Ed25519.sign standby.man.secret b
theorem witness_TwinLink_manifest :
    emptyManifest.length = 320 ∧ standby.role = 2 ∧ standby.manifestFault emptyManifest = none ∧
      standby.rootMatches emptyManifest standby.twin.parcels = true := by
  decide +kernel

theorem witness_TwinLink_sending :
    paired.isPaired = true ∧ paired.heldLease = none ∧ paired.getF F.TWIN_STATUS.LINK_UP = 1 ∧ paired.twin.queue = [] ∧
    (∀ left ∈ [240, 241], let m : TwinMsg := ⟨.ledger [], 0, left, none⟩
      let s := { paired with twin := { paired.twin with queue := [m] } }
      s.isPaired = true ∧ s.twin.queue = [m]) ∧
    (let s := ({ paired with twin := { paired.twin with unacked := [⟨.ledger [], 0, 0, some 0⟩] } }).nowF F.MERIDIAN_COUNT.COUNT 1250000
     0 + 2 * 625000 ≤ s.meridian) := by
  decide +kernel

/-! ### Witnesses: power, bring-up, observation -/

/-- A module whose rails come up: rail 0 waits for its permit, or every rail has risen. -/
def rising (risen : List Nat) (state : Nat) : State :=
  let s := withF ready [(F.BOOT_STATUS.STATE, state), (F.RAIL_MON.IN_TOL 0, 1), (F.RAIL_MON.IN_TOL 1, 1), (F.RAIL_MON.IN_TOL 2, 1),
    (F.RAIL_MON.IN_TOL 3, 1)]
  { s with power := { s.power with permit := true, risen := risen.map fun i => (i, ()) } }

theorem witness_BringUp :
    bootObsOk quiet = true ∧
    (let s := rising [0, 1, 2, 3, 4] 3
     s.boot.obs.isSome = true ∧ (∀ i < 5, NSet.mem s.power.risen i = true) ∧ s.power.faultN = true ∧ s.booting = false) ∧
    (let s := rising [4] 1
     (∀ i < 4, NSet.mem s.power.risen i = false ∧ s.railOrderOk i 4000000000 1000 true = false) ∧ s.booting = true) ∧
    (let s := rising [] 1
     NSet.mem s.power.risen 4 = false ∧ s.booting = true ∧ s.railOrderOk 4 20001 1000 true = false ∧ s.power.permit = true ∧
      s.boot.groups < 15 ∧ s.boot.obs.isSome = true) ∧
    (let s := ready.nowF F.BOOT_STATUS.STATE 1
     s.inTol 2 = false ∧ NSet.mem s.power.risen 4 = false ∧ s.booting = true ∧ s.bootPhase = 0 ∧
      s.railOrderOk 4 20000 200 true = true ∧ s.boot.obs.isSome = true) ∧
    (rising [] 3).booting = false ∧ ((rising [] 3).nowF F.COOLANT_STATUS.IN_RANGE 1).getF F.COOLANT_STATUS.IN_RANGE = 1 := by
  decide +kernel

theorem witness_RailFaults :
    (let s := rising [0, 1, 2, 3, 4] 3
     (∀ i < 5, s.getF (F.RAIL_MON.IN_TOL i) = 1) ∧ s.boot.obs.isSome = true ∧ s.power.permit = true ∧ s.power.bedWarnN = true ∧ s.controllersGrant = true ∧
      s.inTol 0 = true ∧ ∀ i ∈ [2, 3, 4], let t := s.keepF (F.RAIL_MON.IN_TOL i) 0
        NSet.mem t.power.risen i = true ∧ t.getF (F.RAIL_MON.IN_TOL i) = 0 ∧ t.power.faultN = true) ∧
    (let s := rising [] 1
     s.booting = true ∧ s.power.permit = true ∧ NSet.mem s.power.risen 0 = false) := by
  decide +kernel

/-- Region 9 is on; or wakes, after some stages. -/
def regioned : State := withF (rising [0, 1, 2, 3, 4] 3) [(F.REGION_PSTAT.SWITCH 9, 1)]
def waking (stages deferred : Nat) (running : Bool) : State :=
  let r := regioned
  let s := withF (if running then { r with step := { r.step with phase := .running, granted := 1 }, base := some r.regs } else r)
    [(F.REGION_PSTAT.SWITCH 8, 1), (F.GRANT_STATUS.GRANTED, 1), (F.REGION_PSTAT.WAKING 9, 1), (F.REGION_PSTAT.DEFERRED 9, deferred), (F.REGION_CFG.WAKE_DEFER 9, 4), (F.MERIDIAN_COUNT.COUNT, 1250)]
  { s with
    power := { s.power with wakes := [(9, ⟨stages, 0, none, 0, false⟩)] }
    plan := { s.plan with demand := [(8, [(0, 60000)])] } }

theorem witness_RegionPower :
    (regioned.boot.obs.isSome = true ∧ regioned.getF (F.REGION_PSTAT.SWITCH 9) = 1 ∧ bitOf (SMap.get 0 regioned.power.phaseOff 9) 7 = false ∧
      regioned.step.phase = .idle ∧ 250 < (251#16).toNat ∧ 200 < (201#16).toNat) ∧
    (∀ x ∈ [(false, none), (true, some 8)], let s := waking 3 0 x.1
      (SMap.find? s.power.wakes 9).isSome = true ∧ s.getF (F.REGION_PSTAT.WAKING 9) = 1 ∧ 0 + 1250 ≤ s.meridian ∧
        s.wakeRefuser 9 = x.2 ∧ s.step.granted ≠ 7) ∧
    (let s := waking 4 0 false
     (SMap.find? s.power.wakes 9).isSome = true ∧ 0 + 1250 ≤ s.meridian) ∧
    (let s := waking 1 4 true
     s.getF (F.REGION_PSTAT.WAKING 9) = 1 ∧ 0 < s.getF (F.REGION_PSTAT.DEFERRED 9) ∧
      s.getF (F.REGION_CFG.WAKE_DEFER 9) ≤ s.getF (F.REGION_PSTAT.DEFERRED 9) ∧ s.running = true) := by
  decide +kernel

/-- A pacing step each way: triggers active above the floor; none active below the target. -/
def paced (cause e : Nat) : State :=
  withF regioned [(F.POWER_STATUS.CAUSE, cause), (F.PACE_STATUS.EFFECTIVE, e), (F.PACE_CFG.PACE_FLOOR, 8), (F.POWER_CFG.P_LIMIT, 100)]

theorem witness_PacingAndControllers :
    (let s := paced 1 9
     s.isReady = true ∧ s.getF F.POWER_STATUS.CAUSE ≠ 0 ∧ s.getF F.PACE_CFG.PACE_FLOOR < s.getF F.PACE_STATUS.EFFECTIVE) ∧
    (let s := paced 0 9
     s.isReady = true ∧ s.getF F.POWER_STATUS.CAUSE = 0 ∧ s.triggersHeld = 0 ∧ s.getF F.PACE_STATUS.EFFECTIVE < s.paceTarget) ∧
    (regioned.power.permit = true ∧ regioned.inTol 0 = true ∧ 120 < (121#16).toInt ∧ SMap.find? regioned.power.contactAt 3 = none) ∧
    (let s := withF ready [(F.BOOT_STATUS.STATE, 1), (F.RAIL_MON.IN_TOL 4, 0)]
     s.boot.obs.isSome = true ∧ s.booting = true ∧ s.controllersGrant = true ∧ s.bootPhase = 0 ∧ s.inTol 4 = false) ∧
    (let s := { regioned with boot := { regioned.boot with misses := [(0, 10), (1, 10)] } }
     s.boot.obs.isSome = true ∧ s.booting = false ∧ ∀ h < 2, s.controllerLost h = false ∧ 10 ≤ SMap.get 0 s.boot.misses h) := by
  decide +kernel

/-- A module that scrubs, with a record that waits for a log and a counter sample that is due. -/
def observing : State :=
  let s := withF regioned [(F.LOAM_CFG.PAD_SCRUB_EN, 1), (F.LOAM_CFG.SCRUB_EN, 1), (F.PAD_CFG.MODE 0, 0x25), (F.LOAM_STATUS.POWERED 7, 1), (F.LOAM_STATUS.POWERED 0, 1),
    (F.TRACE_CFG.SAMPLE, 1), (F.TRACE_CFG.PERIOD, 1), (F.LOAM_PART_ATTR.TYPE 0, 3), (F.LOAM_PART_SIZE.VALUE 0, 0x10000)]
  { s with
    hist := { s.hist with wait := [(0, 1, 2)] }
    obs := { s.obs with sampled := 1 }
    boot := { s.boot with regate := some 5 } }

theorem witness_Observation_scrub :
    (observing.getF F.LOAM_CFG.PAD_SCRUB_EN = 1 ∧ observing.present 0 = true ∧ observing.coreFenced 0 = false ∧ observing.bankMode 0 0 = 1 ∧ observing.bankMode 0 2 = 2 ∧
      observing.inAttempt = false ∧ observing.bankCarried 0 0 = false) ∧
    (observing.getF F.LOAM_CFG.SCRUB_EN = 1 ∧ observing.isReady = true ∧ observing.scrubReaches (.committed 0 false 0) = true ∧
      NSet.mem observing.win.badLines 3 = false) := by
  decide +kernel

theorem witness_Observation_rest :
    observing.getF (F.LOAM_STATUS.POWERED 7) = 1 ∧
    (observing.controllerLost 0 = false ∧ observing.logRate 0 < 4096 ∧ observing.hist.wait = [(0, 1, 2)]) ∧
    (observing.getF F.TRACE_CFG.SAMPLE = 1 ∧ observing.getF F.TRACE_CFG.PERIOD = 1 ∧ 1 ≤ observing.obs.sampled ∧
      observing.obs.watch.length ≤ 4096) ∧
    observing.boot.regate = some 5 ∧ observing.boot.regateNext = 0 := by
  decide +kernel

/-! ### Witnesses: the machine as a whole -/

theorem witness_StepFront : ({ State.reset with pending := [.nop] }).pending = .nop :: [] := rfl
theorem witness_IdleTick : State.reset.pending = [] := rfl

/-- A ready module with nothing that waits, and a step from it. -/
theorem witness_PublicationInvariant :
    ready.settledOk ∧ ready.isReady = true ∧ ready.atPublication = true ∧ ∃ t, Sys2Proof.Machine.step ready = .next t := by
  refine ⟨fun _ _ => ⟨by decide +kernel, by decide +kernel, fun q => ?_⟩, by decide +kernel, by decide +kernel, _, rfl⟩
  have h : ready.queues = [] := by decide +kernel
  simp [State.queue, h, SMap.get, QueueSt.zero]

theorem witness_SettleFrame : State.reset.isReady = false ∧ State.reset.recs = [] ∧ State.reset.atPublication = true ∧
    stepping.atPublication = false := by decide +kernel

theorem witness_MemoryReadAfterWrite :
    stepping.padOk 0 0x1FFFC0 64 = true ∧ 0x1FFFC0 + 64 ≤ 2 ^ 23 ∧ 0x1FFFB0 + 16 ≤ 0x1FFFC0 ∧ Memory.wf stepping = true ∧ Memory.wf State.reset = true := by
  decide +kernel

/-- A unit below the limit, one that reaches it, and one whose count lies more than 30 days back. -/
theorem witness_Corrections :
    ∀ x ∈ [(0, 5, false, true), (3, 1, false, true), (3, 2, false, false), (3, 9, true, true)],
      let s := ready.nowF F.HIST_CFG.CORR_LIMIT x.1
      let s := { s with hist := { s.hist with sum := [(unitKey (unitCore, 0), { Summary.zero with corr := x.2.1, corrOld := x.2.2.1 })] } }
      let c := s.summary (unitCore, 0)
      let back := c.corrOld = true ∨ window30 < s.meridian - c.corrSince
      let n := min ((if back then 0 else c.corr) + 1) (2 ^ 16 - 1)
      s.getF F.HIST_CFG.CORR_LIMIT = x.1 ∧ decide (x.1 = 0 ∨ n < x.1) = x.2.2.2 := by
  decide +kernel

theorem witness_Corrections_other : (unitCore, 1) ≠ (unitCore, 0) ∧ unitKey (unitCore, 1) ≠ unitKey (unitCore, 0) := by decide +kernel

/-! ### Operands that cannot occur -/

/-- Each check of the operands of a slot word refuses a word that breaks it: a slot past 47, an unused field, a code out of range. -/
theorem test_illFormed_slotWords : ∀ c ∈ [
    Instr.cAdd ⟨0, 48, []⟩ noCtl, .cAdd onM { noCtl with imm := 1 }, .cAdd onM { noCtl with rs3 := 1 }, .cCmp onM { noCtl with cond := 6 },
    .cShli onM { noCtl with imm := 64 }, .cLil onM { noCtl with rs1 := 1 }, .cConst onM { noCtl with typ := true },
    .cLd onM { noCtl with rs2 := 1 }, .cSt onM { noCtl with rd := 1 }, .cVote onM { noCtl with rd := 1 },
    .cVread onM { noCtl with rs1 := 1 }, .cExpect onM { noCtl with chan := 1 },
    .rows onM { noArray with clr := true }, .rows onM { noArray with csrc := true, rc := 1 }, .rows onM { noArray with cimm := 1 }, .oacc onM { noArray with rd := 1 },
    .odrain onM { noArray with ra := 1 }, .wload onM { noArray with rb := 1 }, .swap onM { noArray with ra := 1 },
    .vcopy onV { noVec with ext := 1 }, .veshift onV { noVec with ext := 4 }, .iadd onV { noVec with tc := 1 },
    .vcopy onV { noVec with tb := 1 }, .icmp onV noVec, .mand onV { noVec with td := 1, ta := 8 }, .mand onV { noVec with td := 1, mz := true }, .many onV { noVec with ta := 8 },
    .vld onV { noVec with ta := 1 }, .vst onV { noVec with td := 1 }, .sum onV { noVec with mz := true }, .sfu onV { noVec with ext := 6 },
    .mcopy onM { noMover with ssp := 3 }, .mcopy onM { noMover with ssp := 1, dsp := 1 }, .mfill onM { noMover with ssp := 1 },
    .mcopy onM { noMover with lsrc := true, gl := 1 }, .mcopy onM { noMover with aprev := true }],
    c.wellFormed = false ∧ (exec c State.reset matches .fault .illFormed) = true := by
  decide +kernel

/-- The same of the other commands that name a unit or carry bytes. -/
theorem test_illFormed_others : ∀ c ∈ [
    Instr.arrayRowOutcome 0 48 0 [] false [], .routeWord 5120 0 [], .superblockReceive 0 0 [], .twinLease [], .ledger 0 (zeroBytes 63),
    .manifest 0 [], .parcel 0 0 0 0 [], .railFault 6, .regulatorPhaseLoss 0 0 3, .feedWithdrawn 3,
    .laneLockLoss 528, .laneLockRegain 528, .horizonClose ⟨0, [(5120, 0)]⟩, .bringUp { quiet with loamOut := [5120] },
    .bringUp { quiet with trained := [(.lane 528, 0)] }, .bringUp { quiet with cores := [5120] }, .bringUp { quiet with refreshMin := 3 }, .railInTolerance 6 0 0 true, .loamHotChange 5120 0 true],
    c.wellFormed = false ∧ (exec c State.reset matches .fault .illFormed) = true := by
  decide +kernel

theorem test_illFormed_write (bs : List Byte) (h : bs.length = 8192) :
    (Instr.write 0 0 0 bs).wellFormed = false ∧ exec (.write 0 0 0 bs) State.reset = .fault .illFormed := by
  simp [Instr.wellFormed, exec, execWrite, State.answerIf, h]

/-! ### Results that the spec gives -/

/-- 00_scope.md, the example of L(45,27): field 29, region 117, a V-plot in Narrow grade; 02_grid_and_repair.md, its row map. -/
theorem test_coordinates :
    (grid.regionOf 110637 = 117 ∧ grid.isV 110637 = false ∧ grid.posOf 110637 = 5 ∧ grid.rowOf 110637 = 235) ∧
    bestAssignment false (2 * 2 ^ 14 + 2 ^ 10 + 2 ^ 8) [0, 1, 2, 3, 6, 7, 8, 9] = some [0, 1, 2, 3, 4, 6, 8, 9] := by
  decide +kernel

/-- 15_power.md: the neighbours of region 117. -/
theorem test_neighbours : State.adjacent 117 = [116, 118, 113, 121] := by decide

/-- 01_furrows_and_time.md: with p = 12, boundaries 0, 4, 8 and 12 of every sixteen are withheld. -/
theorem test_pacing : (List.range 16).filter (fun k => !(grid.pacePermits 12 (grid.furrowPhase + k * grid.furrowMt))) = [0, 4, 8, 12] := by
  decide +kernel

/-- 05_number_formats.md: the B16 block of 0.75, −0.046875, 0.3 and zeros begins 0x04FE_B07F. -/
theorem test_b16 :
    (b16Encode (List.replicate 16 .rne) (([0x3F400000, 0xBD400000, 0x3E99999A].map (decodeF fBinary32)) ++
      List.replicate 13 (.fin false 0 0))).1 = 0x04FEB07F := by
  decide +kernel

/-- 05_number_formats.md: the MXFP8 E4M3 block of 500, 0.01 and zeros has scale 0x80 and elements 0x78 and 0x03. -/
theorem test_mx : let b := mxEncode 5 (List.replicate 32 .rne) (([0x43FA0000, 0x3C23D70A].map (decodeF fBinary32)) ++
    List.replicate 30 (.fin false 0 0))
    b.1 = 0x80 ∧ (b.2.map (·.bits)).take 3 = [0x78, 0x03, 0] := by
  decide +kernel

/-- 08_pad_and_loam.md: three bfloat16 elements as E5M2. -/
theorem test_e5m2 : ([0x4049, 0x447A, 0xBE9A].map fun x => (encodeF fE5M2 .rne (decodeF fBf16 x)).bits) = [0x42, 0x64, 0xB5] := by
  decide +kernel

/-- 07_plot_instructions.md: words of the example program. -/
theorem test_words :
    Issue.raw ⟨0, 0, []⟩ opControl 0x19 ({ noCtl with rd := 4, imm := 128 }.bits .immediate) = 0x4019200000000080 ∧
    Issue.raw ⟨0, 1, []⟩ opArray 6 { noArray with ra := 4, fmtA := 3 }.bits = 0x1046200003000000 ∧
    Issue.raw ⟨0, 42, []⟩ opArray 1 { noArray with ra := 5, rd := 6, fmtA := 3, outFmt := 2, csrc := true, cimm := 96 }.bits = 0x1A81280C03021060 ∧
    Issue.raw ⟨0, 0, []⟩ opMover 1 { noMover with gs := 6, dsp := 2, lsrc := true, len := 768 }.bits = 0x3001300053000000 := by
  decide +kernel

/-- Control words of plot 0 on given registers: C_ADD wraps, C_SHRA keeps the sign, C_MUL keeps the low half; the result lands in the destination, which may be a source (R176). -/
def ctlResult (c : Instr) : List Landing :=
  match exec c (stepping.modPlot 0 fun x => { x with gregs := [(5, -1), (6, 3)] }) with
  | .next t => (t.plot 0).land.map (·.2)
  | _ => []
theorem test_control :
    ctlResult (.cAdd onM { noCtl with rd := 5, rs1 := 5, rs2 := 6 }) = [.greg 5 2] ∧
    ctlResult (.cShra onM { noCtl with rd := 7, rs1 := 5, rs2 := 6 }) = [.greg 7 (-1)] ∧
    ctlResult (.cMul onM { noCtl with rd := 7, rs1 := 5, rs2 := 6 }) = [.greg 7 (-3)] := by
  decide +kernel

/-- A GIVE hands a parcel to the device and completes with OK; the same of a parcel that is not the host's with OWNER (R277). -/
theorem test_give :
    (match exec (.give 0 9 0 1) ready with
      | .next t => t.owner 0 == 1 && (t.port 0).out.map (fun c => (c.tag, c.status)) == [(9, 0)]
      | _ => false) = true ∧
    (match exec (.give 0 9 1 1) ready with
      | .next t => t.owner 1 == 1 && (t.port 0).out.map (fun c => (c.tag, c.status)) == [(9, 4)]
      | _ => false) = true := by
  decide +kernel

/-- A packet of TYPE 1 with its CRC is the READ that its header spells; one bit off it is dropped; TYPE 3 is refused (R267). -/
theorem test_packet :
    State.packetCommand 1 (State.packetBytes 1 9 16 0 0x100000 []) = some (.read 1 9 0x100000 16) ∧
    State.packetCommand 1 ((State.packetBytes 1 9 16 0 0x100000 []).set 2 0x0B) = none ∧
    State.packetCommand 1 (State.packetBytes 3 9 0 0 0 []) = some (.packetBadType 1) := by
  decide +kernel

/-- Public check values: CRC-32C of "123456789", SHA-512 of "abc", and the public key of the first Ed25519 test vector of RFC 8032. -/
theorem test_hashes :
    crc32c ([0x31, 0x32, 0x33, 0x34, 0x35, 0x36, 0x37, 0x38, 0x39].map (BitVec.ofNat 8)) = 0xE3069283 ∧
    (sha512 ([0x61, 0x62, 0x63].map (BitVec.ofNat 8))).take 4 = [0xDD, 0xAF, 0x35, 0xA1].map (BitVec.ofNat 8) := by
  decide +kernel
theorem test_ed25519 :
    leNat (Ed25519.publicKey (leBytes 32 0x607fae1c03ac3b701969327b69c54944c42cec92f44a84ba605afdef9db1619d)).reverse =
      0xd75a980182b10ab7d54bfed3c964073a0ee172f3daa62325af021a68f707511a := by
  decide +kernel

end Sys2Proof.Tests
end

namespace Sys2Proof.Machine.State

/-! ### What a step start leaves in the plots (R135, R148) -/

/-- `t` has the step record and the plots of `s`. -/
def SameCores (s t : State) : Prop := t.step = s.step ∧ t.plots = s.plots

namespace SameCores

variable {s t u : State}

theorem refl (s : State) : s.SameCores s := ⟨rfl, rfl⟩

theorem trans (h : s.SameCores t) (k : t.SameCores u) : s.SameCores u := ⟨k.1.trans h.1, k.2.trans h.2⟩

/-- A fold keeps step and plots when each of its steps does. -/
theorem foldl {β : Type} {f : State → β → State} (hf : ∀ (s : State) (x : β), s.SameCores (f s x)) (s : State) (xs : List β) :
    s.SameCores (xs.foldl f s) :=
  List.foldlRecOn xs f (refl s) fun t h x _ => h.trans (hf t x)

end SameCores

theorem sameCores_keepF (s : State) (f : Fld) (v : Nat) : s.SameCores (s.keepF f v) := ⟨rfl, rfl⟩

theorem sameCores_startPads (s : State) (lid : Nat) : s.SameCores (s.startPads lid) := by
  refine (SameCores.foldl (fun t b => ?_) s _).trans ⟨rfl, rfl⟩
  split
  · split <;> exact ⟨rfl, rfl⟩
  · exact ⟨rfl, rfl⟩

theorem sameCores_showGleaners (s : State) (on : Bool) : s.SameCores (s.showGleaners on) := by
  refine SameCores.foldl (fun t h => ?_) s _
  split
  · exact SameCores.foldl (fun v k => sameCores_keepF v _ _) t _
  · exact .refl t

theorem sameCores_tryClaim (s : State) (c : Nat) (b : Buffered) : s.SameCores (s.tryClaim c b) := by
  simp only [tryClaim]
  split
  · exact .refl s
  · split
    · exact .refl s
    · split
      · split <;> exact ⟨rfl, rfl⟩
      · exact ⟨rfl, rfl⟩

theorem sameCores_claimAll (s : State) : s.SameCores s.claimAll := by
  unfold claimAll
  split
  · exact .refl s
  · exact SameCores.foldl (fun t c => SameCores.foldl (fun v b => sameCores_tryClaim v c b) t _) s _

/-- A step start begins the attempt with the seed of its entry, and no plot holds anything. -/
theorem beginStep_cores (s : State) (i : Nat) (eval : Bool) :
    (s.beginStep i eval).step.begun = true ∧ (s.beginStep i eval).step.seed = s.entryWord 0 i 4 ∧ (s.beginStep i eval).plots = [] := by
  have hpeaks := SameCores.foldl (f := fun (t : State) n => t.keepF (F.REGION_DEMAND.MEAS_PEAK n) 0)
    fun t n => sameCores_keepF t (F.REGION_DEMAND.MEAS_PEAK n) 0
  have hclear (t : State) : t.SameCores t.clearFabric.startGleaners := ⟨rfl, rfl⟩
  have hpads := SameCores.foldl sameCores_startPads
  obtain ⟨hstep, hplots⟩ : SameCores _ (s.beginStep i eval) :=
    ((((hpeaks _ _).trans (hclear _)).trans (hpads _ _)).trans (sameCores_showGleaners _ true)).trans (sameCores_claimAll _)
  rw [hstep, hplots]
  exact ⟨rfl, rfl, rfl⟩

/-- A step command whose turn it is, that nothing holds back or refuses, begins its step. -/
theorem stepCommand_begins {s : State} {eval : Bool} {i : Nat} (kat : List Nat) (hturn : s.front.turn = some i)
    (hop : s.front.opAt 0 i = if eval then 3 else 2) (hwait : s.front.mustWait = false)
    (hok : s.front.stepRefusal (s.front.entryWord 0 i 5 % 16) eval = none)
    (hsub : s.front.getF F.REPAIR_STATUS.SUBST_PENDING = 0) :
    s.stepCommand eval kat = s.front.beginStep i eval := by
  simp [stepCommand, hturn, hop, hwait, hok, hsub]

section fresh
variable {u : State} (h : u.plots = []) (lid : Nat)
include h

theorem plot_of_noPlots : u.plot lid = PlotSt.zero := by simp [plot, h, SMap.get]

theorem gregAt_of_noPlots (r : Nat) :
    u.gregAt lid r = if r = 1 then BitVec.ofNat 64 lid else if r = 2 then BitVec.ofNat 64 u.step.seed else 0 := by
  rw [gregAt, plot_of_noPlots h]
  split
  · next h0 => simp [h0]
  · rfl

theorem tileAt_of_noPlots (r : Nat) : u.tileAt lid r = zeroTile := by rw [tileAt, plot_of_noPlots h]; rfl

theorem maskAt_of_noPlots {r : Nat} (hr : r ≠ 0) : u.maskAt lid r = 0 := by rw [maskAt, if_neg hr, plot_of_noPlots h]; rfl

end fresh

/-- STEP_START and EVAL_START differ in the kind of step they start. -/
theorem exec_stepCommand {kat : List (BitVec 13)} {c : Instr} {eval : Bool}
    (hc : (c, eval) ∈ [(.stepStart kat, false), (.evalStart kat, true)]) (s : State) :
    exec c s = .next (s.after (s.stepCommand eval (bits13 kat))) := by
  simp only [List.mem_cons, Prod.mk.injEq, List.not_mem_nil, or_false] at hc
  obtain ⟨rfl, rfl⟩ | ⟨rfl, rfl⟩ := hc <;> rfl

/-- Settles O59: a step start leaves no plot a content of its own, so that every register reads its start value. -/
theorem stepStartRegisters : Obligations.StepStartRegisters := by
  intro s kat c eval i hc v hturn hop hwait hok hsub
  obtain ⟨hbegun, hseed, hplots⟩ := beginStep_cores v i eval
  refine ⟨v.beginStep i eval, ?_, hbegun, fun lid => ⟨?_, ?_, ?_, ?_, ?_, ?_⟩⟩
  · rw [exec_stepCommand hc, stepCommand_begins _ hturn hop hwait hok hsub]
  · exact gregAt_of_noPlots hplots lid 0
  · exact gregAt_of_noPlots hplots lid 1
  · rw [← hseed]
    exact gregAt_of_noPlots hplots lid 2
  · intro r hlo _
    rw [gregAt_of_noPlots hplots, if_neg (by omega), if_neg (by omega)]
  · exact fun r _ => tileAt_of_noPlots hplots lid r
  · exact fun r hlo _ => maskAt_of_noPlots hplots lid (by omega)

end Sys2Proof.Machine.State

namespace Sys2Proof.Machine

/-! ### The little-endian bytes of a number (R10) -/

@[simp] theorem length_leBytes (n x : Nat) : (leBytes n x).length = n := by
  induction n generalizing x with
  | zero => rfl
  | succ n ih => rw [leBytes, List.length_cons, ih]

theorem leNat_leBytes (n x : Nat) : leNat (leBytes n x) = x % 256 ^ n := by
  induction n generalizing x with
  | zero => simp [leBytes, leNat, Nat.mod_one]
  | succ n ih => rw [leBytes, leNat, ih, Nat.pow_succ', Nat.mod_mul, BitVec.toNat_ofNat]

/-! ### A range of a store that is cleared -/

theorem SMap.find?_clearRange {α : Type} (m : SMap α) (lo n k : Nat) :
    find? (clearRange m lo n) k = if lo ≤ k ∧ k < lo + n then none else find? m k := by
  induction m with
  | nil => simp [clearRange]
  | cons x m ih =>
    obtain ⟨j, v⟩ := x
    rw [clearRange] at ih ⊢
    by_cases hj : j < lo ∨ lo + n ≤ j
    · rw [List.filter_cons_of_pos (by simpa using hj), find?_cons, find?_cons, ih]
      grind
    · rw [List.filter_cons_of_neg (by simpa using hj), find?_cons, ih]
      grind

namespace State

/-! ### Parcel changes (R276) -/

/-- The flag word that a change leaves in a parcel whose flag word was `x` (R276). -/
def changedFlag (op : Nat) (x : BitVec 4) : BitVec 4 :=
  if op = 1 then 1 else if op = 2 then 2 else if op = 3 then 3 else if op = 4 then 0 else x ||| 4

theorem changedFlag_idem (op : Nat) (x : BitVec 4) : changedFlag op (changedFlag op x) = changedFlag op x := by
  unfold changedFlag
  split_ifs <;> simp [BitVec.or_assoc]

section
variable (s : State) (op p : Nat)

@[simp] theorem flag_zeroParcel (k : Nat) : (s.zeroParcel p).flag k = s.flag k := rfl

theorem winGet_zeroParcel (a : Nat) : (s.zeroParcel p).winGet a 1 = if a / 65536 = p then [0] else s.winGet a 1 := by
  have hin : p * 65536 ≤ a ∧ a < p * 65536 + 65536 ↔ a / 65536 = p := by omega
  simp only [zeroParcel, winGet, SMap.getAll, SMap.get, SMap.find?_clearRange, hin]
  split <;> rfl

/-- A change writes one flag word, and zeros the parcel first where it makes it VOID. -/
theorem changeParcel_eq :
    changeParcel op s p = (if op = 3 then s.zeroParcel p else s).setFlag p (changedFlag op (s.flag p)) := by
  unfold changeParcel changedFlag
  by_cases h : op = 3
  · subst h
    rfl
  · simp only [if_neg h]
    split_ifs <;> rfl

theorem changeParcel_frame : { changeParcel op s p with win := s.win } = s := by
  rw [changeParcel_eq]
  split <;> rfl

theorem flag_changeParcel (k : Nat) :
    (changeParcel op s p).flag k = if k = p then changedFlag op (s.flag k) else s.flag k := by
  have hzero : (if op = 3 then s.zeroParcel p else s).flag k = s.flag k := by split <;> rfl
  rw [changeParcel_eq]
  by_cases h : k = p
  · rw [if_pos h, h, flag_setFlag_same]
  · rw [if_neg h, flag_setFlag_other _ _ h, hzero]

theorem winGet_changeParcel (a : Nat) :
    (changeParcel op s p).winGet a 1 = if op = 3 ∧ a / 65536 = p then [0] else s.winGet a 1 := by
  rw [changeParcel_eq, winGet_setFlag]
  by_cases h : op = 3
  · simp [h, winGet_zeroParcel]
  · simp [h]

theorem foldl_changeParcel_frame (ps : List Nat) : { ps.foldl (changeParcel op) s with win := s.win } = s := by
  induction ps generalizing s with
  | nil => rfl
  | cons p ps ih =>
    calc { ps.foldl (changeParcel op) (changeParcel op s p) with win := s.win }
        = { changeParcel op s p with win := s.win } :=
          congrArg (fun t : State => { t with win := s.win }) (ih (changeParcel op s p))
      _ = s := changeParcel_frame s op p

/-- A parcel that is named twice changes as one named once. -/
theorem flag_foldl_changeParcel (ps : List Nat) (k : Nat) :
    (ps.foldl (changeParcel op) s).flag k = if k ∈ ps then changedFlag op (s.flag k) else s.flag k := by
  induction ps generalizing s with
  | nil => rfl
  | cons p ps ih =>
    rw [List.foldl_cons, ih, flag_changeParcel]
    by_cases hp : k = p <;> by_cases hk : k ∈ ps <;> simp [hp, hk, changedFlag_idem]

theorem winGet_foldl_changeParcel (ps : List Nat) (a : Nat) :
    (ps.foldl (changeParcel op) s).winGet a 1 = if op = 3 ∧ a / 65536 ∈ ps then [0] else s.winGet a 1 := by
  induction ps generalizing s with
  | nil => simp
  | cons p ps ih =>
    rw [List.foldl_cons, ih, winGet_changeParcel]
    by_cases hop : op = 3 <;> by_cases hp : a / 65536 = p <;> simp [hop, hp]

end

/-! ### A write of PARCEL_DOORBELL (R277, R289) -/

theorem bitsOf_eq (x lo w : Nat) : bitsOf x lo w = x / 2 ^ lo % 2 ^ w := by rw [bitsOf, Nat.shiftRight_eq_div_pow]

/-- The fields of a value written to PARCEL_DOORBELL. -/
theorem bitsOf_doorbell {first count op : Nat} (hfirst : first < 2 ^ 20) (hcount : count < 2 ^ 21) (hop : op < 8) :
    bitsOf (first + count * 2 ^ 20 + op * 2 ^ 41) 0 20 = first ∧
    bitsOf (first + count * 2 ^ 20 + op * 2 ^ 41) 20 21 = count ∧
    bitsOf (first + count * 2 ^ 20 + op * 2 ^ 41) 41 3 = op := by
  simp only [bitsOf_eq]
  omega

/-- Bits 63 to 44 of PARCEL_DOORBELL are reserved (R13). -/
theorem parcelDoorbell_mod (s : State) (v : Nat) : s.parcelDoorbell (v % 2 ^ 44) = s.parcelDoorbell v := by
  have hfields : bitsOf (v % 2 ^ 44) 0 20 = bitsOf v 0 20 ∧ bitsOf (v % 2 ^ 44) 20 21 = bitsOf v 20 21 ∧
      bitsOf (v % 2 ^ 44) 41 3 = bitsOf v 41 3 := by
    simp only [bitsOf_eq]
    omega
  obtain ⟨hfirst, hcount, hop⟩ := hfields
  simp only [parcelDoorbell, hfirst, hcount, hop]

section
variable (s : State) {v first count op : Nat} (hfirst : bitsOf v 0 20 = first) (hcount : bitsOf v 20 21 = count)
  (hop : bitsOf v 41 3 = op)

include hcount in
theorem parcelDoorbell_empty (h0 : count = 0) : s.parcelDoorbell v = (0, s) := by
  simp [parcelDoorbell, hcount, h0]

include hcount hop in
theorem parcelDoorbell_unassigned (h0 : count ≠ 0) (h : op = 0 ∨ 6 < op) : s.parcelDoorbell v = (1, s) := by
  simp [parcelDoorbell, hcount, hop, h0, h]

include hfirst hcount hop

theorem parcelDoorbell_pastEnd (hlo : 1 ≤ op) (hhi : op ≤ 6) (h : 2 ^ 20 < first + count) :
    s.parcelDoorbell v = (3, s) := by
  have hlt : first < 2 ^ 20 := hfirst ▸ Nat.mod_lt _ (Nat.two_pow_pos 20)
  simp only [parcelDoorbell, hfirst, hcount, hop]
  rw [if_neg (by omega), if_neg (by omega), if_pos (by omega)]

/-- A run of parcels within the window changes whole if every parcel of it is eligible, and else not at all. -/
theorem parcelDoorbell_run (hlo : 1 ≤ op) (hhi : op ≤ 6) (h : first + count ≤ 2 ^ 20) :
    s.parcelDoorbell v = if ∀ k ∈ List.range' first count, s.eligible op k = true
      then (0, (List.range' first count).foldl (changeParcel op) s) else (4, s) := by
  simp only [parcelDoorbell, hfirst, hcount, hop, ← List.range'_eq_map_range, List.all_eq_true]
  by_cases h0 : count = 0
  · simp [h0]
  · rw [if_neg h0, if_neg (by omega), if_neg (by omega)]

end

/-- The condition under which a parcel may change, OP by OP (R276, R277). -/
theorem eligible_iff (s : State) (op k : Nat) :
    s.eligible op k = true ↔
      if op ≤ 3 then s.owner k = 0 else if op = 4 then s.owner k = 3
      else if op = 5 then s.owner k = 1 ∧ s.isPending k = false
      else s.owner k = 2 ∧ s.isRing k = false ∧ s.isPending k = false := by
  unfold eligible
  split_ifs <;> simp [and_assoc]

/-! ### Requests on a port (R268) -/

theorem reply_replied (s : State) (p tag type status : Nat) (payload : List Byte) :
    s.replied (s.reply p tag type status payload) p tag type status payload :=
  ⟨port_setPort_same .., fun _ hk => port_setPort_other _ _ hk, rfl⟩

theorem serve_taken {s : State} {p tag : Nat} (h : s.takes p tag) (act : State → State) : s.serve p tag act = act s := by
  obtain ⟨hup, htag⟩ := h
  simp [serve, hup, htag]

theorem regsWrite_singleton (s : State) (p addr : Nat) (w : List Byte) :
    regsWrite p s addr [w] = s.regWrite p addr (leNat w) := by
  rw [regsWrite]
  split
  · next h => rw [regsWrite, ← h]
  · rfl

theorem regWrite_parcelDoorbell (s : State) (p v : Nat) : s.regWrite p 0x300000100000 v = s.parcelDoorbell v := if_pos rfl

theorem writeAt_parcelDoorbell {s : State} {p : Nat} (h : s.fullService p = true) (v : Nat) :
    s.writeAt p 0x300000100000 (leBytes 8 v) = s.parcelDoorbell (v % 2 ^ 64) := by
  have hok : requestOk 0x300000100000 8 = true := by decide
  have hflags : inFlags 0x300000100000 = false := by decide
  have hempty : (leBytes 8 v).isEmpty = false := rfl
  have hchunk : chunks 8 (leBytes 8 v) = [leBytes 8 v] := rfl
  have hword : v % 2 ^ 64 = leNat (leBytes 8 v) := (leNat_leBytes 8 v).symm
  rw [hword, ← regWrite_parcelDoorbell s p, ← regsWrite_singleton, ← hchunk]
  simp [writeAt, h, hok, hempty, hflags]

/-- A write of PARCEL_DOORBELL with the value `v`. -/
abbrev parcelWrite (port : BitVec 1) (t : BitVec 8) (v : BitVec 64) : Instr := .registerWrite port t 0x300000100000#48 v

section
variable {s : State} {port : BitVec 1} {t : BitVec 8}

theorem exec_parcelWrite (v : BitVec 64) :
    exec (parcelWrite port t v) s = .next (s.after (s.portWrite64 port.toNat t.toNat 0x300000100000 v.toNat)) := rfl

theorem portWrite64_parcelDoorbell (htakes : s.takes port.toNat t.toNat) (hfull : s.fullService port.toNat = true)
    (v : BitVec 64) : s.portWrite64 port.toNat t.toNat 0x300000100000 v.toNat =
      (s.parcelDoorbell v.toNat).2.reply port.toNat t.toNat 4 (s.parcelDoorbell v.toNat).1 [] := by
  rw [portWrite64, portWrite, serve_taken htakes, writeAt_parcelDoorbell hfull, Nat.mod_eq_of_lt v.isLt]

theorem does_parcelWrite (htakes : s.takes port.toNat t.toNat) (hfull : s.fullService port.toNat = true) {v : BitVec 64}
    {status : Nat} {u : State} (h : s.parcelDoorbell v.toNat = (status, u)) {P : State → Prop}
    (hP : P (u.reply port.toNat t.toNat 4 status [])) : s.does (parcelWrite port t v) P :=
  ⟨_, by rw [exec_parcelWrite, portWrite64_parcelDoorbell htakes hfull, h], hP⟩

end

/-! ### The six parcel changes (R276, R277) -/

/-- The value that a parcel change writes fits its register. -/
theorem toNat_doorbell (first : BitVec 20) (count : BitVec 21) {op : Nat} (hop : op ≤ 6) :
    (BitVec.ofNat 64 (first.toNat + count.toNat * 2 ^ 20 + op * 2 ^ 41)).toNat =
      first.toNat + count.toNat * 2 ^ 20 + op * 2 ^ 41 := by
  rw [BitVec.toNat_ofNat, Nat.mod_eq_of_lt (by omega)]

section
variable {s : State} {port : BitVec 1} {t : BitVec 8} {first : BitVec 20} {count : BitVec 21} {c : Instr} {op : Nat}
  (hc : (c, op) ∈ [(.give port t first count, 1), (.share port t first count, 2), (.void port t first count, 3),
    (.claim port t first count, 4), (.reclaim port t first count, 5), (.recall port t first count, 6)])
include hc

theorem exec_parcelChange (s : State) :
    exec c s = .next (s.after (s.portParcels port.toNat t.toNat op first.toNat count.toNat)) ∧ 1 ≤ op ∧ op ≤ 6 := by
  simp only [List.mem_cons, Prod.mk.injEq, List.not_mem_nil, or_false] at hc
  obtain ⟨rfl, rfl⟩ | ⟨rfl, rfl⟩ | ⟨rfl, rfl⟩ | ⟨rfl, rfl⟩ | ⟨rfl, rfl⟩ | ⟨rfl, rfl⟩ := hc <;> exact ⟨rfl, by decide⟩

/-- The register write that each parcel change is (R277). -/
theorem exec_parcelChange_eq_parcelWrite (s : State) : exec c s =
    exec (parcelWrite port t (BitVec.ofNat 64 (first.toNat + count.toNat * 2 ^ 20 + op * 2 ^ 41))) s := by
  obtain ⟨hexec, -, hop⟩ := exec_parcelChange hc s
  rw [hexec, exec_parcelWrite, toNat_doorbell _ _ hop, portParcels]

theorem does_parcelChange (htakes : s.takes port.toNat t.toNat) (hfull : s.fullService port.toNat = true) {status : Nat}
    {u : State} (h : s.parcelDoorbell (first.toNat + count.toNat * 2 ^ 20 + op * 2 ^ 41) = (status, u)) {P : State → Prop}
    (hP : P (u.reply port.toNat t.toNat 4 status [])) : s.does c P := by
  obtain ⟨-, -, hop⟩ := exec_parcelChange hc s
  rw [does, exec_parcelChange_eq_parcelWrite hc]
  exact does_parcelWrite htakes hfull (by rw [toNat_doorbell _ _ hop, h]) hP

end

/-- Settles O31: each change is a write of PARCEL_DOORBELL, whose run changes parcel by parcel once all of it is
eligible (R276, R277, R289; a run of no parcels as log entry 47 has it). -/
theorem parcelDoorbells : Obligations.ParcelDoorbells := by
  intro s port t p written htakes hfull
  refine ⟨?_, fun v => ⟨?_, fun hempty => ?_, fun hcount hop => ?_⟩⟩
  · intro first count c op hc named may
    obtain ⟨-, hlo, hhi⟩ := exec_parcelChange hc s
    obtain ⟨hF, hC, hO⟩ := bitsOf_doorbell first.isLt count.isLt (Nat.lt_of_le_of_lt hhi (by decide))
    have hnamed (k : Nat) : k ∈ List.range' first.toNat count.toNat ↔ named k := List.mem_range'_1
    refine ⟨exec_parcelChange_eq_parcelWrite hc s, fun hend => ?_, fun hend hbad => ?_, fun hend hall => ?_⟩
    · exact does_parcelChange hc htakes hfull (parcelDoorbell_pastEnd s hF hC hO hlo hhi hend) (reply_replied ..)
    · obtain ⟨k, hk, hnot⟩ := hbad
      have hrefused : ¬ ∀ k ∈ List.range' first.toNat count.toNat, s.eligible op k = true :=
        fun h => hnot ((eligible_iff s op k).mp (h k ((hnamed k).mpr hk)))
      exact does_parcelChange hc htakes hfull ((parcelDoorbell_run s hF hC hO hlo hhi hend).trans (if_neg hrefused))
        (reply_replied ..)
    · have heligible : ∀ k ∈ List.range' first.toNat count.toNat, s.eligible op k = true :=
        fun k hk => (eligible_iff s op k).mpr (hall k ((hnamed k).mp hk))
      refine does_parcelChange hc htakes hfull ((parcelDoorbell_run s hF hC hO hlo hhi hend).trans (if_pos heligible))
        ⟨⟨_, reply_replied .., foldl_changeParcel_frame ..⟩, fun k hk => ?_, fun k hk => ?_, fun a => ?_⟩
      · exact (flag_foldl_changeParcel ..).trans (if_pos ((hnamed k).mpr hk))
      · exact (flag_foldl_changeParcel ..).trans (if_neg (mt (hnamed k).mp hk))
      · exact (winGet_foldl_changeParcel ..).trans (by simp only [hnamed])
  · have hmask : (v &&& 0xFFFFFFFFFFF#64).toNat = v.toNat % 2 ^ 44 := by
      rw [BitVec.toNat_and]
      exact Nat.and_two_pow_sub_one_eq_mod v.toNat 44
    rw [exec_parcelWrite, exec_parcelWrite, portWrite64_parcelDoorbell htakes hfull,
      portWrite64_parcelDoorbell htakes hfull, hmask, parcelDoorbell_mod]
  · exact does_parcelWrite htakes hfull (parcelDoorbell_empty s (bitsOf_eq ..) hempty) (reply_replied ..)
  · exact does_parcelWrite htakes hfull
      (parcelDoorbell_unassigned s (bitsOf_eq ..) (bitsOf_eq ..) hcount (by omega)) (reply_replied ..)

end State
end Sys2Proof.Machine

namespace Sys2Proof.Machine

/-! ### The count of corrections of a unit (R330) -/

namespace Summary

/-- The count of corrections lies back at `m`: its CORR_SINCE is more than 30 days old. -/
abbrev CorrBack (x : Summary) (m : Nat) : Prop := x.corrOld = true ∨ window30 < m - x.corrSince

/-- The summary that a correction at `m` counts in: one whose count lies back restarts at 0. -/
def corrWindow (x : Summary) (m : Nat) : Summary :=
  if x.corrOld || decide (window30 < m - x.corrSince) then { x with corr := 0, corrSince := m, corrOld := false } else x

variable {x : Summary} {m : Nat}

theorem corrWindow_eq :
    x.corrWindow m = if x.CorrBack m then { x with corr := 0, corrSince := m, corrOld := false } else x := by
  simp only [corrWindow, Bool.or_eq_true, decide_eq_true_eq]

theorem corrWindow_corr : (x.corrWindow m).corr = if x.CorrBack m then 0 else x.corr := by
  rw [corrWindow_eq]
  split <;> rfl

theorem corrWindow_corrSince : (x.corrWindow m).corrSince = if x.CorrBack m then m else x.corrSince := by
  rw [corrWindow_eq]
  split <;> rfl

theorem corrWindow_corrOld : (x.corrWindow m).corrOld = false := by
  rw [corrWindow_eq]
  split
  · rfl
  · next hkept => exact Bool.eq_false_iff.mpr fun hold => hkept (.inl hold)

end Summary

namespace State

theorem countFault_eq (s : State) (code : Nat) : ∃ st, s.countFault code = { s with step := st } := by
  unfold countFault
  split <;> exact ⟨_, rfl⟩

theorem countCorrections_eq (s : State) (n : Nat) : ∃ st, s.countCorrections n = { s with step := st } := by
  unfold countCorrections
  split <;> exact ⟨_, rfl⟩

/-- `t` is `s` with summary `x` stored for unit `u` and the records `more` behind those that wait, but for the counts of
the step. -/
def Recounted (s : State) (u : Nat × Nat) (x : Summary) (more : List PRec) (t : State) : Prop :=
  ∃ half st, t = { s with step := st, recs := s.recs ++ more, hist := s.hist.store half (unitKey u) x }

namespace Recounted

variable {s t : State} {u : Nat × Nat} {x : Summary} {more : List PRec}

theorem recs_eq (h : s.Recounted u x more t) : t.recs = s.recs ++ more := by
  obtain ⟨half, st, rfl⟩ := h
  rfl

theorem summary_same (h : s.Recounted u x more t) : t.summary u = x := by
  obtain ⟨half, st, rfl⟩ := h
  exact SMap.get_set_same ..

theorem summary_other (h : s.Recounted u x more t) {v : Nat × Nat} (hv : unitKey v ≠ unitKey u) :
    t.summary v = s.summary v := by
  obtain ⟨half, st, rfl⟩ := h
  exact SMap.get_set_other _ _ _ hv

theorem frame (h : s.Recounted u x more t) : t.regs = s.regs ∧ t.plots = s.plots ∧ t.mem = s.mem ∧ t.win = s.win := by
  obtain ⟨half, st, rfl⟩ := h
  exact ⟨rfl, rfl, rfl, rfl⟩

end Recounted

theorem recounted_without_record (s : State) (n : Nat) (u : Nat × Nat) (x : Summary) :
    s.Recounted u x [] ((s.countCorrections n).setSummary u x) := by
  obtain ⟨st, hcount⟩ := s.countCorrections_eq n
  rw [hcount]
  exact ⟨_, st, by rw [List.append_nil]; rfl⟩

theorem recounted_with_record (s : State) (n code : Nat) (u : Nat × Nat) (x : Summary) (r : PRec) :
    let t := ((s.countCorrections n).setSummary u x).countFault code
    s.Recounted u x [r] { t with recs := t.recs ++ [r] } := by
  obtain ⟨st, hcount⟩ := s.countCorrections_eq n
  obtain ⟨st', hfault⟩ := ((s.countCorrections n).setSummary u x).countFault_eq code
  rw [hfault, hcount]
  exact ⟨_, st', rfl⟩

section correct
variable (s : State) (u : Nat × Nat) (a : FaultArgs)

/-- The summary that a correction of the unit counts in. -/
def correcting : Summary := (s.summary u).corrWindow s.meridian

/-- CORR_COUNT with the correction, before a restart at the limit. -/
def corrected : Nat := satAdd 16 (s.correcting u).corr 1

/-- At the limit one classifiable record waits and the count restarts at 0. -/
theorem correct_atLimit (h : s.getF F.HIST_CFG.CORR_LIMIT ≠ 0 ∧ s.getF F.HIST_CFG.CORR_LIMIT ≤ s.corrected u) :
    ∃ r : PRec, (r.kind = 2 ∧ r.code = a.code ∧ r.unit = some u ∧ r.classifiable = true) ∧
      s.Recounted u { s.correcting u with corr := 0, corrSince := s.meridian, lastCorr := some (s.meridian / hourMt) } [r] (s.correct u a) := by
  rw [show s.correct u a = _ from if_pos h]
  exact ⟨_, ⟨rfl, rfl, rfl, rfl⟩, recounted_with_record ..⟩

/-- Below the limit, or with a limit of 0, the count goes up and no record that waits classifies: the first correction in an
hour of meridian time leaves one of the corrected class, a later one none (R323). -/
theorem correct_belowLimit (h : ¬ (s.getF F.HIST_CFG.CORR_LIMIT ≠ 0 ∧ s.getF F.HIST_CFG.CORR_LIMIT ≤ s.corrected u)) :
    ∃ more : List PRec, (∀ r ∈ more, r.classifiable = false) ∧ ∃ last,
      s.Recounted u { s.correcting u with corr := s.corrected u, lastCorr := last } more (s.correct u a) := by
  by_cases hrecorded : (s.correcting u).lastCorr = some (s.meridian / hourMt)
  · rw [show s.correct u a = _ from (if_neg h).trans (if_pos hrecorded)]
    exact ⟨[], by simp, _, recounted_without_record ..⟩
  · rw [show s.correct u a = _ from (if_neg h).trans (if_neg hrecorded)]
    exact ⟨[_], by simp, _, recounted_with_record ..⟩

theorem correct_recounted : ∃ x more, s.Recounted u x more (s.correct u a) := by
  by_cases h : s.getF F.HIST_CFG.CORR_LIMIT ≠ 0 ∧ s.getF F.HIST_CFG.CORR_LIMIT ≤ s.corrected u
  · obtain ⟨r, -, hstored⟩ := s.correct_atLimit u a h
    exact ⟨_, _, hstored⟩
  · obtain ⟨more, -, last, hstored⟩ := s.correct_belowLimit u a h
    exact ⟨_, _, hstored⟩

theorem corrected_eq :
    s.corrected u = min ((if (s.summary u).CorrBack s.meridian then 0 else (s.summary u).corr) + 1) (2 ^ 16 - 1) := by
  rw [corrected, correcting, satAdd, Summary.corrWindow_corr]

end correct

/-- Settles O58: a correction counts in the summary of the last 30 days, and the limit alone says whether its record
classifies and the count restarts (R330). -/
theorem corrections : Obligations.Corrections := by
  intro s unit a x m limit back n t
  have hn : s.corrected unit = n := s.corrected_eq unit
  obtain ⟨_, _, hstored⟩ := s.correct_recounted unit a
  refine ⟨fun hbelow => ?_, fun hlimit hreached => ?_, fun v _ hkey => hstored.summary_other hkey, hstored.frame⟩
  · have hnot : ¬ (limit ≠ 0 ∧ limit ≤ s.corrected unit) := by omega
    obtain ⟨more, hmore, last, hcounted⟩ := s.correct_belowLimit unit a hnot
    rw [hcounted.summary_same]
    exact ⟨hn, Summary.corrWindow_corrSince, Summary.corrWindow_corrOld, more, hcounted.recs_eq, hmore⟩
  · obtain ⟨r, hr, hrestarted⟩ := s.correct_atLimit unit a ⟨hlimit, hn ▸ hreached⟩
    rw [hrestarted.summary_same]
    exact ⟨rfl, rfl, r, hrestarted.recs_eq, hr⟩

end State
end Sys2Proof.Machine

namespace Sys2Proof.Machine.SMap

theorem mem_of_find? {α : Type} {m : SMap α} {k : Nat} {v : α} (h : find? m k = some v) : (k, v) ∈ m := by
  induction m with
  | nil => cases h
  | cons x m ih =>
    obtain ⟨j, w⟩ := x
    rw [find?_cons] at h
    split at h
    · next hj =>
      cases h
      exact hj ▸ List.mem_cons_self
    · exact List.mem_cons_of_mem _ (ih h)

end Sys2Proof.Machine.SMap

namespace Sys2Proof.Machine.State

/-! ### What a publication point may change (R278, R282, R287) -/

/-- `t` is `s` but for what a publication point may write: registers, window, queues, records, history and the watch
connector. -/
abbrev SameButPublished (s t : State) : Prop :=
  { t with regs := s.regs, pub := s.pub, base := s.base, win := s.win, queues := s.queues, recs := s.recs, hist := s.hist, obs := s.obs } = s

namespace SameButPublished

variable {s t u : State}

theorem refl (s : State) : s.SameButPublished s := rfl

theorem trans (h : s.SameButPublished t) (k : t.SameButPublished u) : s.SameButPublished u :=
  calc { u with regs := s.regs, pub := s.pub, base := s.base, win := s.win, queues := s.queues, recs := s.recs, hist := s.hist, obs := s.obs }
      = { t with regs := s.regs, pub := s.pub, base := s.base, win := s.win, queues := s.queues, recs := s.recs, hist := s.hist, obs := s.obs } :=
        congrArg (fun v : State => { v with regs := s.regs, pub := s.pub, base := s.base, win := s.win, queues := s.queues, recs := s.recs, hist := s.hist, obs := s.obs }) k
    _ = s := h

/-- A fold changes no more than its steps do. -/
theorem foldl {β : Type} {f : State → β → State} (hf : ∀ (s : State) (x : β), s.SameButPublished (f s x)) (s : State)
    (xs : List β) : s.SameButPublished (xs.foldl f s) :=
  List.foldlRecOn xs f (refl s) fun t h x _ => h.trans (hf t x)

theorem step_eq (h : s.SameButPublished t) : t.step = s.step := (congrArg State.step h :)

theorem atPublication_eq (h : s.SameButPublished t) : t.atPublication = s.atPublication := by
  rw [atPublication, atPublication, h.step_eq]

end SameButPublished

/-- `t` is `s` but for the registers and the history. -/
abbrev SameButHistory (s t : State) : Prop :=
  { t with regs := s.regs, pub := s.pub, base := s.base, hist := s.hist } = s

theorem SameButHistory.trans {s t u : State} (h : s.SameButHistory t) (k : t.SameButHistory u) : s.SameButHistory u :=
  calc { u with regs := s.regs, pub := s.pub, base := s.base, hist := s.hist }
      = { t with regs := s.regs, pub := s.pub, base := s.base, hist := s.hist } :=
        congrArg (fun v : State => { v with regs := s.regs, pub := s.pub, base := s.base, hist := s.hist }) k
    _ = s := h

theorem SameButHistory.published {s t : State} (h : s.SameButHistory t) : s.SameButPublished t :=
  congrArg (fun v : State => { v with win := s.win, queues := s.queues, recs := s.recs, obs := s.obs }) h

/-- What a posted record may do beside its delivery: registers but no queue, no window and no record. -/
theorem sameButHistory_nowF (s : State) (f : Fld) (v : Nat) : s.SameButHistory (s.nowF f v) := rfl

theorem sameButHistory_classify (s : State) (u : Nat × Nat) (m attempt : Nat) : s.SameButHistory (s.classify u m attempt) := by
  unfold classify
  dsimp only
  split <;> rfl

theorem sameButHistory_logWait (s : State) (h code entry : Nat) : s.SameButHistory (s.logWait h code entry) := by
  unfold logWait
  split <;> rfl

theorem sameButHistory_logRecord (s : State) (u : Option (Nat × Nat)) (code entry : Nat) :
    s.SameButHistory (s.logRecord u code entry) := by
  unfold logRecord
  dsimp only
  split
  · rfl
  · exact sameButHistory_logWait ..

/-- The unit of a classifiable record, as a record that posts or goes to the history counts it (R329). -/
def classified (s : State) (r : PRec) : State :=
  match r.unit with
  | some u => if r.classifiable then s.classify u r.meridian r.attempt else s
  | none => s

theorem sameButHistory_classified (s : State) (r : PRec) : s.SameButHistory (s.classified r) := by
  unfold classified
  split
  · split
    · exact sameButHistory_classify ..
    · rfl
  · rfl

theorem historyRecord_eq (s : State) (r : PRec) : s.historyRecord r =
    if r.kind = 2 then (s.classified r).logRecord r.unit r.code (leNat ((s.classified r).recBytes r 0 0)) else s := rfl

theorem sameButHistory_historyRecord (s : State) (r : PRec) : s.SameButHistory (s.historyRecord r) := by
  rw [historyRecord_eq]
  split
  · exact (sameButHistory_classified s r).trans (sameButHistory_logRecord ..)
  · rfl

/-- Without a publication point of the queues the records leave for the history alone. -/
theorem sameButHistory_historyOnly (s : State) : { s with recs := [] }.SameButHistory s.historyOnly :=
  List.foldlRecOn (motive := { s with recs := [] }.SameButHistory) s.recs _ rfl
    fun _ h r _ => h.trans (sameButHistory_historyRecord _ r)

/-! ### Delivery -/

/-- The queues and the window's VOID list after a record has been delivered: the entries that are finished stay, and no
record is added. -/
def KeepsWaiting (s t : State) : Prop :=
  s.SameButPublished t ∧ t.recs = s.recs ∧ t.win.toVoid = s.win.toVoid ∧ ∀ q, (t.queue q).fin = (s.queue q).fin

namespace KeepsWaiting

variable {s t u : State}

theorem refl (s : State) : s.KeepsWaiting s := ⟨rfl, rfl, rfl, fun _ => rfl⟩

theorem trans (h : s.KeepsWaiting t) (k : t.KeepsWaiting u) : s.KeepsWaiting u := by
  obtain ⟨hsame, hrecs, hvoid, hfin⟩ := h
  obtain ⟨ksame, krecs, kvoid, kfin⟩ := k
  exact ⟨hsame.trans ksame, krecs.trans hrecs, kvoid.trans hvoid, fun q => (kfin q).trans (hfin q)⟩

theorem foldl {β : Type} {f : State → β → State} (hf : ∀ (s : State) (x : β), s.KeepsWaiting (f s x)) (s : State)
    (xs : List β) : s.KeepsWaiting (xs.foldl f s) :=
  List.foldlRecOn xs f (refl s) fun t h x _ => h.trans (hf t x)

end KeepsWaiting

theorem SameButHistory.keepsWaiting {s t : State} (h : s.SameButHistory t) : s.KeepsWaiting t :=
  have hqueues : t.queues = s.queues := (congrArg State.queues h :)
  ⟨h.published, (congrArg State.recs h :), (congrArg (fun v : State => v.win.toVoid) h :), fun q => by rw [queue_congr hqueues]⟩

theorem queue_setQueue_fin (s : State) (q : Nat) (x : QueueSt) (h : x.fin = (s.queue q).fin) (k : Nat) :
    ((s.setQueue q x).queue k).fin = (s.queue k).fin := by
  by_cases hk : k = q
  · rw [hk, queue_setQueue_same, h]
  · rw [queue_setQueue_other _ _ hk]

theorem keepsWaiting_nowF (s : State) (f : Fld) (v : Nat) : s.KeepsWaiting (s.nowF f v) :=
  (sameButHistory_nowF s f v).keepsWaiting

theorem keepsWaiting_setQueue (s : State) (q : Nat) (x : QueueSt) (h : x.fin = (s.queue q).fin) :
    s.KeepsWaiting (s.setQueue q x) := ⟨rfl, rfl, rfl, queue_setQueue_fin s q x h⟩

theorem keepsWaiting_winPut (s : State) (a : Nat) (bs : List Byte) : s.KeepsWaiting (s.winPut a bs) :=
  ⟨rfl, rfl, rfl, fun _ => rfl⟩

theorem keepsWaiting_obs (s : State) (o : ObsSt) : s.KeepsWaiting { s with obs := o } := ⟨rfl, rfl, rfl, fun _ => rfl⟩

theorem keepsWaiting_deliver (s : State) (q : Nat) (r : PRec) : s.KeepsWaiting (s.deliver q r) := by
  unfold deliver
  dsimp only
  split
  · refine ((keepsWaiting_winPut s _ _).trans (keepsWaiting_setQueue _ q _ ?_)).trans (keepsWaiting_nowF ..)
    rfl
  · split <;>
    · refine (keepsWaiting_setQueue s q _ ?_).trans (keepsWaiting_nowF ..)
      rfl

theorem keepsWaiting_watchOut (s : State) (bs : List Byte) : s.KeepsWaiting (s.watchOut bs) := by
  unfold watchOut
  split
  · exact keepsWaiting_nowF ..
  · exact keepsWaiting_obs ..

theorem keepsWaiting_mirror (s : State) (r : PRec) : s.KeepsWaiting (s.mirror r) := by
  unfold mirror
  split
  · exact (keepsWaiting_obs ..).trans (keepsWaiting_watchOut ..)
  · exact .refl s

theorem post_fault (s : State) (r : PRec) (h : r.kind = 2) : s.post r =
    (((s.classified r).logRecord r.unit r.code (leNat ((s.classified r).recBytes r ((s.classified r).queue ((s.classified r).recQueue r)).seq
      ((s.classified r).queue ((s.classified r).recQueue r)).lost))).deliver ((s.classified r).recQueue r) r).mirror r :=
  if_pos h

theorem keepsWaiting_post (s : State) (r : PRec) : s.KeepsWaiting (s.post r) := by
  by_cases hfault : r.kind = 2
  · rw [post_fault s r hfault]
    exact (((sameButHistory_classified s r).trans (sameButHistory_logRecord ..)).keepsWaiting.trans
      (keepsWaiting_deliver ..)).trans (keepsWaiting_mirror ..)
  · unfold post
    rw [if_neg hfault]
    split
    · split
      · exact keepsWaiting_deliver ..
      · exact keepsWaiting_nowF ..
    · exact (keepsWaiting_deliver ..).trans (keepsWaiting_mirror ..)

/-- Every record posts, and posting raises none. -/
theorem keepsWaiting_postAll (s : State) : { s with recs := [] }.KeepsWaiting s.postAll :=
  KeepsWaiting.foldl keepsWaiting_post _ _

/-! ### Returned entries and parcel changes -/

/-- A parcel change takes effect in the window alone. -/
abbrev SameButWindow (s t : State) : Prop := { t with win := s.win } = s ∧ t.win.toVoid = s.win.toVoid

theorem SameButWindow.trans {s t u : State} (h : s.SameButWindow t) (k : t.SameButWindow u) : s.SameButWindow u :=
  ⟨(congrArg (fun v : State => { v with win := s.win }) k.1).trans h.1, k.2.trans h.2⟩

theorem SameButWindow.foldl {β : Type} {f : State → β → State} (hf : ∀ (s : State) (x : β), s.SameButWindow (f s x))
    (s : State) (xs : List β) : s.SameButWindow (xs.foldl f s) :=
  List.foldlRecOn xs f ⟨rfl, rfl⟩ fun t h x _ => h.trans (hf t x)

theorem sameButWindow_settleParcel (s : State) (p : Nat) : s.SameButWindow (s.settleParcel p) := by
  unfold settleParcel
  split <;> exact ⟨rfl, rfl⟩

theorem sameButWindow_voidParcel (s : State) (p : Nat) :
    s.SameButWindow (if s.owner p == 0 then s else (s.zeroParcel p).setFlag p 3) := by
  split <;> exact ⟨rfl, rfl⟩

/-- No parcel is on its way to VOID once the changes have taken effect. -/
theorem settleParcels_toVoid (s : State) : s.settleParcels.win.toVoid = [] :=
  (SameButWindow.foldl sameButWindow_settleParcel _ _).2

theorem settleParcels_frame (s : State) : { s.settleParcels with win := s.win } = s := by
  have hvoid := (SameButWindow.foldl sameButWindow_voidParcel s s.win.toVoid.toList).1
  have hpending (t : State) (ps : List Nat) := (SameButWindow.foldl sameButWindow_settleParcel t ps).1
  calc { s.settleParcels with win := s.win }
      = { s.win.toVoid.toList.foldl (fun s p => if s.owner p == 0 then s else (s.zeroParcel p).setFlag p 3) s with win := s.win } :=
        congrArg (fun v : State => { v with win := s.win }) (hpending _ _)
    _ = s := hvoid

/-- An entry that returns writes window bytes, DONE and perhaps a record, and no queue. -/
def Returns (s t : State) : Prop := s.SameButPublished t ∧ t.queues = s.queues

namespace Returns

variable {s t u : State}

theorem refl (s : State) : s.Returns s := ⟨rfl, rfl⟩

theorem trans (h : s.Returns t) (k : t.Returns u) : s.Returns u := ⟨h.1.trans k.1, k.2.trans h.2⟩

theorem foldl {β : Type} {f : State → β → State} (hf : ∀ (s : State) (x : β), s.Returns (f s x)) (s : State) (xs : List β) :
    s.Returns (xs.foldl f s) :=
  List.foldlRecOn xs f (refl s) fun t h x _ => h.trans (hf t x)

end Returns

theorem returns_winPutWord (s : State) (a v : Nat) : s.Returns (s.winPutWord a v) := ⟨rfl, rfl⟩
theorem returns_nowF (s : State) (f : Fld) (v : Nat) : s.Returns (s.nowF f v) := ⟨rfl, rfl⟩
theorem returns_event (s : State) (c t i d e : Nat) : s.Returns (s.event c t i d e) := ⟨rfl, rfl⟩

theorem returns_returnEntry (s : State) (q : Nat) (f : Finish) : s.Returns (s.returnEntry q f) := by
  unfold returnEntry
  extract_lets a w0 t1 t2 t3 t4
  have h3 : s.Returns t3 :=
    ((returns_winPutWord s _ _).trans (returns_winPutWord t1 _ _)).trans (returns_winPutWord t2 _ _)
  have h4 : t3.Returns t4 := by
    unfold t4
    split
    · exact .refl t3
    · exact returns_nowF ..
  clear_value t4
  split
  · exact h3.trans h4
  · exact (h3.trans h4).trans (returns_event ..)

theorem returnQueue_frame (s : State) (q : Nat) : s.SameButPublished (s.returnQueue q) ∧
    (s.returnQueue q).queues = (s.setQueue q { s.queue q with fin := [] }).queues := by
  unfold returnQueue
  extract_lets x t
  have ht : s.SameButPublished t := rfl
  split
  · exact ⟨ht, rfl⟩
  · obtain ⟨hsame, hqueues⟩ := Returns.foldl (f := fun s f => s.returnEntry q f) (fun t f => returns_returnEntry t q f) t x.fin
    exact ⟨ht.trans hsame, hqueues⟩

/-- The finished entries of a queue return; those of another queue stay. -/
theorem returnQueue_fin (s : State) (q k : Nat) :
    ((s.returnQueue q).queue k).fin = if k = q then [] else (s.queue k).fin := by
  rw [queue_congr (returnQueue_frame s q).2]
  split
  · next h => rw [h, queue_setQueue_same]
  · next h => rw [queue_setQueue_other _ _ h]

theorem foldl_returnQueue_fin (qs : List Nat) (s : State) (k : Nat) :
    ((qs.foldl returnQueue s).queue k).fin = if k ∈ qs then [] else (s.queue k).fin := by
  induction qs generalizing s with
  | nil => rfl
  | cons q qs ih =>
    rw [List.foldl_cons, ih, returnQueue_fin]
    by_cases hq : k = q <;> by_cases hk : k ∈ qs <;> simp [hq, hk]


/-- The finished entries of every queue return. -/
theorem returnAll_fin (s : State) (q : Nat) : (s.returnAll.queue q).fin = [] := by
  rw [returnAll, foldl_returnQueue_fin]
  split
  · rfl
  · next hq =>
    by_contra hfin
    obtain ⟨x, hx⟩ : ∃ x, SMap.find? s.queues q = some x := by
      cases h : SMap.find? s.queues q with
      | some x => exact ⟨x, rfl⟩
      | none => exact absurd (by rw [queue, SMap.get, h]; rfl) hfin
    have hne : x.fin ≠ [] := by simpa [queue, SMap.get, hx] using hfin
    refine hq (List.mem_map.mpr ⟨(q, x), List.mem_filter.mpr ⟨SMap.mem_of_find? hx, ?_⟩, rfl⟩)
    simpa using hne

theorem sameButPublished_returnAll (s : State) : s.SameButPublished s.returnAll :=
  SameButPublished.foldl (fun t q => (returnQueue_frame t q).1) s _

/-- What a ready module's publication point leaves: no record, no finished entry, no parcel on its way to VOID. -/
theorem publish_settled (s : State) : s.publish.recs = [] ∧ s.publish.win.toVoid = [] ∧ ∀ q, (s.publish.queue q).fin = [] := by
  obtain ⟨-, hrecs, hvoid, hfin⟩ := keepsWaiting_postAll s.returnAll.settleParcels
  have hqueues : s.returnAll.settleParcels.queues = s.returnAll.queues :=
    (congrArg State.queues (settleParcels_frame s.returnAll) :)
  refine ⟨hrecs, hvoid.trans (settleParcels_toVoid _), fun q => (hfin q).trans ?_⟩
  exact (congrArg QueueSt.fin (queue_congr (t := { s.returnAll.settleParcels with recs := [] }) hqueues q)).trans
    (returnAll_fin s q)

theorem sameButPublished_publish (s : State) : s.SameButPublished s.publish := by
  have hparcels : s.returnAll.SameButPublished s.returnAll.settleParcels :=
    (congrArg (fun v : State => { v with
      regs := s.returnAll.regs, pub := s.returnAll.pub, base := s.returnAll.base, queues := s.returnAll.queues
      recs := s.returnAll.recs, hist := s.returnAll.hist, obs := s.returnAll.obs }) (settleParcels_frame s.returnAll) :)
  have hposts : s.returnAll.settleParcels.SameButPublished s.publish :=
    SameButPublished.trans (t := { s.returnAll.settleParcels with recs := [] }) rfl (keepsWaiting_postAll _).1
  exact ((sameButPublished_returnAll s).trans hparcels).trans hposts

theorem sameButPublished_historyOnly (s : State) : s.SameButPublished s.historyOnly :=
  SameButPublished.trans (t := { s with recs := [] }) rfl (sameButHistory_historyOnly s).published

theorem sameButPublished_settle (s : State) : s.SameButPublished s.settle := by
  unfold settle
  split
  · split
    · exact sameButPublished_publish s
    · exact sameButPublished_historyOnly s
  · exact .refl s

/-- Settles O56: each part of settling writes what a publication point may (R278, R282, R287), and before readiness the
records leave for the history alone (R395). -/
theorem settleFrame : Obligations.SettleFrame := by
  intro s
  refine ⟨sameButPublished_settle s, fun h => ?_, fun hpoint hready => ?_⟩
  · obtain hwaits | ⟨hready, hrecs⟩ := h
    · exact settle_waits s hwaits
    · cases hpoint : s.atPublication with
      | false => exact settle_waits s hpoint
      | true =>
        rw [settle_booting s hpoint hready, historyOnly, hrecs]
        exact congrArg (fun r => { s with recs := r }) hrecs.symm
  · rw [settle_booting s hpoint hready]
    have h := sameButHistory_historyOnly s
    exact ⟨(congrArg State.recs h :), (congrArg State.win h :), (congrArg State.queues h :), (congrArg State.obs h :)⟩

/-! ### Every step keeps what a publication point leaves -/

/-- The log counts what it drops in a register of its own. -/
theorem isReady_logRecord (s : State) (u : Option (Nat × Nat)) (code entry : Nat) : (s.logRecord u code entry).isReady = s.isReady := by
  have hdropped (v : Nat) : (s.nowF F.LOG_DROPPED.COUNT v).isReady = s.isReady := by
    rw [isReady, isReady, getF_nowF_other _ _ (by decide)]
  unfold logRecord
  dsimp only
  split
  · exact hdropped _
  · unfold logWait
    split
    · exact hdropped _
    · rfl

theorem isReady_classified (s : State) (r : PRec) : (s.classified r).isReady = s.isReady := by
  unfold classified
  split
  · split
    · unfold classify
      dsimp only
      split <;> rfl
    · rfl
  · rfl

theorem isReady_historyOnly (s : State) : s.historyOnly.isReady = s.isReady := by
  refine List.foldlRecOn (motive := fun t => t.isReady = s.isReady) s.recs historyRecord (b := { s with recs := [] }) rfl fun t h r _ => ?_
  rw [historyRecord_eq]
  split
  · rw [isReady_logRecord, isReady_classified, h]
  · exact h

/-- Whatever a command's effect leaves, it has settled. -/
theorem settledOk_settle (s : State) : s.settle.settledOk := by
  intro hready hpoint
  rw [(sameButPublished_settle s).atPublication_eq] at hpoint
  cases hs : s.isReady with
  | true =>
    rw [settle_ready s hpoint hs]
    exact publish_settled s
  | false =>
    rw [settle_booting s hpoint hs, isReady_historyOnly, hs] at hready
    cases hready

/-- A tick writes the meridian count and empties the links. -/
theorem settledOk_tick {s : State} (h : s.settledOk) : s.tick.settledOk := by
  have hticked : s.tick.isReady = s.isReady ∧ s.tick.step = s.step ∧ s.tick.recs = s.recs ∧ s.tick.win = s.win ∧
      s.tick.queues = s.queues := by
    unfold tick elapse
    split
    · exact ⟨congrArg (· == 3) (getF_keepF_other _ _ (by decide)), rfl, rfl, rfl, rfl⟩
    · exact ⟨rfl, rfl, rfl, rfl, rfl⟩
  obtain ⟨hready, hstep, hrecs, hwin, hqueues⟩ := hticked
  intro hr hp
  rw [hready] at hr
  rw [atPublication, hstep] at hp
  obtain ⟨h1, h2, h3⟩ := h hr hp
  exact ⟨hrecs.trans h1, by rw [hwin, h2], fun q => by rw [queue_congr hqueues, h3]⟩

/-- A command that answers a next state answers a settled one. -/
theorem exec_settles {c : Instr} {s t : State} (h : exec c s = .next t) : ∃ u, t = s.after u := by
  obtain ⟨u, hu⟩ := exec_shape s c
  rw [hu] at h
  cases hok : c.wellFormed with
  | true => exact ⟨u, by rw [hok, answerIf_true _ _ rfl] at h; exact (Host.Outcome.next.inj h).symm⟩
  | false => rw [hok, answerIf_false _ _ rfl] at h; cases h

/-- Settles O54: a command's effect settles whatever it leaves, and a tick leaves nothing that waits (R278, R287). -/
theorem publicationInvariant : Obligations.PublicationInvariant := by
  intro s t hs hstep
  unfold Machine.step at hstep
  split at hstep
  · cases hstep
    exact settledOk_tick hs
  · obtain ⟨u, rfl⟩ := exec_settles hstep
    exact settledOk_settle u

/-- Settles O55: nothing waits at reset. -/
theorem publicationInvariantAtReset : Obligations.PublicationInvariantAtReset :=
  ⟨fun _ _ => ⟨rfl, rfl, fun _ => rfl⟩, rfl, rfl, fun _ => rfl⟩

/-! ### What a step carries out (R17) -/

/-- Settles O50: a step takes the command at the front of the queue. -/
theorem stepFront : Obligations.StepFront := by
  intro s c rest h
  rw [Machine.step, h]

/-- Settles O53: `exec` answers every command whose operands can occur with a state that settles, and stops at the others
(log entries 6 and 7). -/
theorem completesIffWellFormed : Obligations.CompletesIffWellFormed := by
  intro s c
  obtain ⟨u, hu⟩ := exec_shape s c
  refine ⟨by rw [hu]; exact answerIf_next_iff s u, fun r => ?_, fun t ht => ?_⟩
  · rw [hu, answerIf]
    split <;> exact nofun
  · obtain ⟨v, rfl⟩ := exec_settles ht
    exact ⟨rfl, rfl⟩

/-- Settles O51: a tick writes the meridian count alone and empties the links (log entry 4). -/
theorem idleTick : Obligations.IdleTick := by
  intro s hidle
  refine ⟨s.tick, by rw [Machine.step, hidle], ?_, fun x hx => ?_, rfl, fun f hf => ?_, ?_⟩
  · unfold tick elapse
    split
    · exact getF_keepF_same ..
    · rfl
  · obtain ⟨y, -, rfl⟩ := List.mem_map.mp (List.mem_filter.mp hx).1
    rfl
  · unfold tick elapse
    split
    · exact getF_keepF_other _ _ (hf _ (by simp))
    · rfl
  · unfold tick elapse
    split <;> rfl

/-- Settles O52: the maps of the reset state are empty, so every read returns its default. -/
theorem resetState : Obligations.ResetState := by
  refine ⟨rfl, fun f => ⟨rfl, rfl⟩, fun p => ⟨rfl, (by decide : (0 : BitVec 4).getLsbD 2 = false), (by decide : (0 : BitVec 4).getLsbD 3 = false)⟩,
    fun a n => ?_, by decide, by decide, by decide, by decide, by decide,
    by decide, by decide, by decide, by decide⟩
  induction n generalizing a with
  | zero => rfl
  | succ n ih => rw [List.replicate_succ, ← ih (a + 1)]; rfl

/-! ### Reads after writes of the memories -/

/-- Settles O57: the memories are finite maps; a store sets its keys and leaves the others. -/
theorem memoryReadAfterWrite : Obligations.MemoryReadAfterWrite := by
  intro s a bs
  refine ⟨winGet_winPut_same s a bs, fun b n h => winGet_winPut_outside s a b n bs h, fun k => rfl, fun p v =>
    ⟨flag_setFlag_same s p v, fun k h => flag_setFlag_other s v h, fun b n => rfl⟩, fun lid hok hend =>
    ⟨padGet_padPut_same s lid a bs hok, fun k b n houtside hb => padGet_padPut_outside s lid a k b n bs ?_⟩, fun hwf =>
    ⟨Memory.wf_winPut hwf a bs, fun lid => Memory.wf_padPut hwf lid a bs, fun p v => Memory.wf_setFlag hwf p v⟩⟩
  unfold padKey
  obtain hk | hbefore | hafter := houtside
  · obtain hlt | hgt := Nat.lt_or_gt_of_ne hk
    · exact .inl (by omega)
    · exact .inr (by omega)
  · by_cases hk : k = lid
    · exact .inl (by omega)
    · omega
  · by_cases hk : k = lid
    · exact .inr (by omega)
    · omega

end Sys2Proof.Machine.State

namespace Sys2Proof.Machine

/-! ### Bit fields -/

/-- A field that has been set reads as what was written. -/
theorem bitsOf_setBits_same (x lo w v : Nat) : bitsOf (setBits x lo w v) lo w = v % 2 ^ w := by
  have hlow : x % 2 ^ lo < 2 ^ lo := Nat.mod_lt _ (Nat.two_pow_pos lo)
  have hsplit : setBits x lo w v = x % 2 ^ lo + 2 ^ lo * (v % 2 ^ w + 2 ^ w * (x >>> (lo + w))) := by
    rw [setBits, Nat.pow_add]
    ring
  rw [State.bitsOf_eq, hsplit, Nat.add_mul_div_left _ _ (Nat.two_pow_pos lo), Nat.div_eq_of_lt hlow, Nat.zero_add,
    Nat.add_mul_mod_self_left, Nat.mod_mod]

namespace State

/-! ### What a fault leaves (R7, R321, R323) -/

/-- The record of a fault that arises in `s`. -/
def faultRecord (s : State) (a : FaultArgs) : PRec := {
  kind := 2, code := a.code, furrow := s.furrow, meridian := s.meridian, srcType := a.srcType
  srcId := a.srcId, phys := s.physOf a.srcType a.srcId, d4 := s.opWord a.opUnit a.op a.slot, d5 := s.envWord a.srcType a.srcId
  d6 := a.detail, unit := a.unit, ep := s.recEp a.srcType a.srcId
  attempt := (if s.inAttempt || a.dusk then s.step.attempt else 0)
  classifiable := a.classifiable && causeClassifies a.code && a.unit.isSome
  fenced := a.fenced, abandoned := a.abandons && s.inAttempt, recordedOnly := a.recordedOnly, degraded := a.degraded
  dusk := a.dusk }

/-- The step record with the fault: one that abandons marks an attempt, the first one names its class. -/
def faultStep (s : State) (a : FaultArgs) : StepSt :=
  if a.abandons && s.inAttempt then
    { (s.countFault a.code).step with fault := some (s.step.fault.getD (causeClass a.code)) } else (s.countFault a.code).step

theorem raise_eq (s : State) (a : FaultArgs) :
    s.raise a = { s with recs := s.recs ++ [s.faultRecord a], step := s.faultStep a } := by
  unfold raise faultStep countFault
  dsimp only
  split <;> split <;> rfl

theorem countFault_step (s : State) (code : Nat) : ∃ m, (s.countFault code).step = { s.step with faultCount := m } := by
  unfold countFault
  split <;> exact ⟨_, rfl⟩

/-- A fault counts in the step and may mark it; nothing else of the step changes. -/
theorem faultStep_eq (s : State) (a : FaultArgs) : ∃ m, s.faultStep a = { s.step with
    faultCount := m
    fault := if a.abandons && s.inAttempt then some (s.step.fault.getD (causeClass a.code)) else s.step.fault } := by
  obtain ⟨m, hm⟩ := s.countFault_step a.code
  refine ⟨m, ?_⟩
  unfold faultStep
  rw [hm]
  split <;> rfl

/-- Outside an attempt a fault leaves the step alone. -/
theorem faultStep_outside {s : State} (h : s.inAttempt = false) (a : FaultArgs) : s.faultStep a = s.step := by
  simp [faultStep, countFault, h]

@[simp] theorem faultStep_phase (s : State) (a : FaultArgs) : (s.faultStep a).phase = s.step.phase := by
  obtain ⟨m, hm⟩ := s.faultStep_eq a
  rw [hm]

theorem faultStep_fault (s : State) (a : FaultArgs) : (s.faultStep a).fault =
    if a.abandons && s.inAttempt then some (s.step.fault.getD (causeClass a.code)) else s.step.fault := by
  obtain ⟨m, hm⟩ := s.faultStep_eq a
  rw [hm]

@[simp] theorem inAttempt_raise (s : State) (a : FaultArgs) : (s.raise a).inAttempt = s.inAttempt := by
  simp [raise_eq, inAttempt]

@[simp] theorem getF_raise (s : State) (a : FaultArgs) (f : Fld) : (s.raise a).getF f = s.getF f := by
  rw [raise_eq]
  rfl

/-! ### A fenced core (R51, R60) -/

/-- The registers of `t` are those of `s` but for the two flags of the repair status. -/
def RepairFlagsOnly (s t : State) : Prop := s.fieldsBut t [F.REPAIR_STATUS.SUBST_PENDING, F.REPAIR_STATUS.DEGRADED]

namespace RepairFlagsOnly

variable {s t : State}

theorem getF_eq (h : s.RepairFlagsOnly t) {f : Fld} (h1 : f.key ≠ F.REPAIR_STATUS.SUBST_PENDING.key)
    (h2 : f.key ≠ F.REPAIR_STATUS.DEGRADED.key) : t.getF f = s.getF f := h f (by simp [h1, h2])

theorem rowMap_key (k lo w r : Nat) : (Fld.mk (0x100000021000 + 0x8 * k) lo w r).key ≠ F.REPAIR_STATUS.SUBST_PENDING.key ∧
    (Fld.mk (0x100000021000 + 0x8 * k) lo w r).key ≠ F.REPAIR_STATUS.DEGRADED.key := by
  simp only [Fld.key, F.REPAIR_STATUS.SUBST_PENDING, F.REPAIR_STATUS.DEGRADED]
  omega

/-- Which site a plot stands on is no matter of the repair status. -/
theorem siteOf_eq (h : s.RepairFlagsOnly t) (lid : Nat) : t.siteOf lid = s.siteOf lid := by
  have hnarrow : t.narrow = s.narrow := by rw [narrow, narrow, h.getF_eq (by decide) (by decide)]
  have hsites (k : Nat) : t.getF (F.ROW_MAP.POS_SITE k) = s.getF (F.ROW_MAP.POS_SITE k) :=
    h.getF_eq (rowMap_key k _ _ _).1 (rowMap_key k _ _ _).2
  simp only [siteOf, rowOf, posOf, rowLen, hnarrow, hsites]

theorem rowStates_eq (h : s.RepairFlagsOnly t) {k : Nat} (hgrid : SMap.find? t.grid.hidden k = SMap.find? s.grid.hidden k) :
    t.rowStates k = s.rowStates k := by
  have hstates : t.getF (F.ROW_MAP.SITE_STATE k) = s.getF (F.ROW_MAP.SITE_STATE k) :=
    h.getF_eq (rowMap_key k _ _ _).1 (rowMap_key k _ _ _).2
  rw [rowStates, rowStates, hgrid, hstates]

end RepairFlagsOnly

/-- The grid with the core of a site fenced in the running step. -/
def fencedGrid (s : State) (p : Nat) : GridSt := { s.grid with
  hidden := SMap.ins s.grid.hidden (p / 10) (setBits (s.rowStates (p / 10)) (2 * (p % 10)) 2 2)
  fencedNow := NSet.insert s.grid.fencedNow p }

/-- A fence in an attempt is hidden in the grid, a substitution is due, and a row left without an assignment is DEGRADED. -/
theorem fenceSite_inAttempt {s : State} {p : Nat} (hin : s.inAttempt = true) (hp : s.siteState p < 2) :
    let v := ({ s with grid := s.fencedGrid p }).keepF F.REPAIR_STATUS.SUBST_PENDING 1
    s.fenceSite p = v ∨ s.fenceSite p = v.degrade (p / 10) := by
  have hnot : ¬ 2 ≤ s.siteState p := by omega
  rw [fenceSite, if_neg hnot, setSite, hin, Bool.true_or, if_pos rfl]
  dsimp only
  split
  · exact .inl rfl
  · exact .inr rfl

/-- The fault that a detection attributes to the core of a plot (R334). -/
def coreArgs (s : State) (lid : Nat) (a : FaultArgs) : FaultArgs := { a with
  srcType := srcPlot, srcId := lid, unit := some (unitCore, s.siteOf lid), fenced := true
  degraded := s.rowLostBy (s.siteOf lid) }

/-- `t` is `s` after a core fault in an attempt: the record waits, the attempt is marked, the grid holds the fence, and of
the registers those of the repair status alone change. -/
def CoreFaulted (s : State) (lid : Nat) (a : FaultArgs) (t : State) : Prop :=
  ∃ (regs : SMap Nat) (base : Option (SMap Nat)) (more : List PRec),
    t = { s with
      regs := regs, base := base, recs := s.recs ++ s.faultRecord (s.coreArgs lid a) :: more
      step := s.faultStep (s.coreArgs lid a), grid := s.fencedGrid (s.siteOf lid) } ∧
    s.RepairFlagsOnly t ∧ t.getF F.REPAIR_STATUS.SUBST_PENDING = 1

theorem coreFaulted_coreFault {s : State} {lid : Nat} (a : FaultArgs) (hin : s.inAttempt = true)
    (hcore : s.coreFenced lid = false) : s.CoreFaulted lid a (s.coreFault lid a) := by
  have hsite : s.siteState (s.siteOf lid) < 2 := by simpa [coreFenced] using hcore
  let t : State := { s with recs := s.recs ++ [s.faultRecord (s.coreArgs lid a)], step := s.faultStep (s.coreArgs lid a) }
  have hraise : s.raise (s.coreArgs lid a) = t := s.raise_eq _
  have ht : t.inAttempt = true := by rw [← hraise, inAttempt_raise, hin]
  let v := ({ t with grid := t.fencedGrid (s.siteOf lid) }).keepF F.REPAIR_STATUS.SUBST_PENDING 1
  have hv : s.CoreFaulted lid a v :=
    ⟨v.regs, v.base, [], rfl, fun f hf => getF_keepF_other _ _ (hf _ (by simp)), getF_keepF_same ..⟩
  have hfence : s.coreFault lid a = v ∨ s.coreFault lid a = v.degrade (s.siteOf lid / 10) := by
    rw [show s.coreFault lid a = (s.raise (s.coreArgs lid a)).fenceSite (s.siteOf lid) from rfl, hraise]
    exact fenceSite_inAttempt ht hsite
  obtain h | h := hfence
  · rwa [h]
  · rw [h, degrade]
    split
    · exact hv
    · refine ⟨_, (v.keepF F.REPAIR_STATUS.DEGRADED 1).base, [_], congrArg (fun r => ({ (v.keepF F.REPAIR_STATUS.DEGRADED 1) with recs := r } : State)) (List.append_assoc ..), fun f hf => ?_, ?_⟩
      · rw [getF_event, getF_keepF_other v _ (hf F.REPAIR_STATUS.DEGRADED (by simp))]
        exact (getF_keepF_other _ _ (hf F.REPAIR_STATUS.SUBST_PENDING (by simp)))
      · rw [getF_event, getF_keepF_other v (f := F.REPAIR_STATUS.DEGRADED) _ (by decide)]
        exact getF_keepF_same ..

namespace CoreFaulted

variable {s t : State} {lid : Nat} {a : FaultArgs}

theorem siteState_fenced (h : s.CoreFaulted lid a t) : t.siteState (s.siteOf lid) = 2 := by
  obtain ⟨regs, base, more, rfl, -, -⟩ := h
  simp [siteState, rowStates, fencedGrid, bitsOf_setBits_same]

theorem siteState_other (h : s.CoreFaulted lid a t) {k : Nat} (hk : k / 10 ≠ s.siteOf lid / 10) : t.siteState k = s.siteState k := by
  obtain ⟨regs, base, more, rfl, hregs, -⟩ := h
  rw [siteState, siteState, hregs.rowStates_eq (SMap.find?_ins_other _ _ hk)]

/-- The core of the plot takes no further slot word. -/
theorem coreFenced_eq (h : s.CoreFaulted lid a t) : t.coreFenced lid = true := by
  have hsite := h.siteState_fenced
  obtain ⟨-, -, -, -, hregs, -⟩ := h
  rw [coreFenced, hregs.siteOf_eq, hsite]
  rfl

/-- What the statements say of a core fault, of one that abandons. -/
theorem coreFailed (h : s.CoreFaulted lid a t) (hin : s.inAttempt = true) (hab : a.abandons = true) : s.coreFailed t lid a.code := by
  have hfenced := h.coreFenced_eq
  have hmark : (s.faultStep (s.coreArgs lid a)).fault = some (s.step.fault.getD (causeClass a.code)) := by
    rw [faultStep_fault, if_pos (by simp [coreArgs, hab, hin])]
    rfl
  obtain ⟨regs, base, more, rfl, -, hsubst⟩ := h
  exact ⟨⟨_, more, rfl, rfl, rfl, rfl, by simp [faultRecord, coreArgs, hab, hin], rfl⟩, hmark, hfenced, hsubst⟩

end CoreFaulted

end State

/-- Settles O16: the fault's record waits, the attempt is marked and the core fenced in the grid; the registers that
change are those of the repair status (R51, R321, R334). -/
theorem coreFault : Obligations.CoreFault := by
  intro s lid a hin hcore hab t
  have h : s.CoreFaulted lid a t := State.coreFaulted_coreFault a hin hcore
  refine ⟨h.coreFailed hin hab, ?_, ?_⟩
  · obtain ⟨-, -, -, -, hregs, -⟩ := h
    exact hregs
  · have hsites : ∀ k, k / 10 ≠ s.siteOf lid / 10 → t.siteState k = s.siteState k := fun k hk => h.siteState_other hk
    obtain ⟨regs, base, more, ht, -, -⟩ := h
    clear_value t
    subst ht
    exact ⟨rfl, rfl, rfl, rfl, rfl, hsites⟩

end Sys2Proof.Machine

namespace Sys2Proof.Machine

namespace State

/-! ### Registers of the plots and what a plot stands on -/

/-- The lowest key of a register of a plot (R10): what the grid reads lies below. -/
def plotKeys : Nat := 0x200000000000 * 64

/-- The site behind a plot depends on the grade of the grid and on the assignments of the plot's row. -/
theorem siteOf_congr {s t : State} {lid : Nat} (hshape : t.getF F.GRID_SHAPE.CONFIG_GRADE = s.getF F.GRID_SHAPE.CONFIG_GRADE)
    (hsites : t.getF (F.ROW_MAP.POS_SITE (s.rowOf lid)) = s.getF (F.ROW_MAP.POS_SITE (s.rowOf lid))) : t.siteOf lid = s.siteOf lid := by
  have hnarrow : t.narrow = s.narrow := by rw [narrow, narrow, hshape]
  have hrow : t.rowOf lid = s.rowOf lid := by simp only [rowOf, rowLen, hnarrow]
  have hpos : t.posOf lid = s.posOf lid := by simp only [posOf, rowLen, hnarrow]
  rw [siteOf, siteOf, hrow, hpos, hsites]

/-- The site of a plot lies in its row or, by its bits, in the next one. -/
theorem siteOf_div (s : State) (lid : Nat) : s.siteOf lid / 10 ≤ s.rowOf lid + 1 := by
  have hbits : bitsOf (s.getF (F.ROW_MAP.POS_SITE (s.rowOf lid))) (4 * s.posOf lid) 4 < 16 := by
    rw [State.bitsOf_eq]
    exact Nat.mod_lt _ (by decide)
  simp only [siteOf]
  omega

/-- Whether the core of a plot takes slot words is a matter of the grid alone. -/
theorem coreFenced_congr {s t : State} {lid : Nat} (hgrid : t.grid = s.grid)
    (hshape : t.getF F.GRID_SHAPE.CONFIG_GRADE = s.getF F.GRID_SHAPE.CONFIG_GRADE)
    (hsites : t.getF (F.ROW_MAP.POS_SITE (s.rowOf lid)) = s.getF (F.ROW_MAP.POS_SITE (s.rowOf lid)))
    (hstates : t.getF (F.ROW_MAP.SITE_STATE (s.siteOf lid / 10)) = s.getF (F.ROW_MAP.SITE_STATE (s.siteOf lid / 10))) :
    t.coreFenced lid = s.coreFenced lid := by
  rw [coreFenced, coreFenced, siteOf_congr hshape hsites, siteState, siteState, rowStates, rowStates, hgrid, hstates]

/-- The grid of `t` is that of `s`: so are the registers below those of the plots. -/
def SameGrid (s t : State) : Prop := t.grid = s.grid ∧ ∀ f : Fld, f.key < plotKeys → t.getF f = s.getF f

namespace SameGrid

variable {s t u : State}

theorem refl (s : State) : s.SameGrid s := ⟨rfl, fun _ _ => rfl⟩

theorem trans (h : s.SameGrid t) (k : t.SameGrid u) : s.SameGrid u :=
  ⟨k.1.trans h.1, fun f hf => (k.2 f hf).trans (h.2 f hf)⟩

/-- The row of a logical id that 24 bits hold. -/
theorem rowOf_lt (s : State) {lid : Nat} (hlid : lid < 2 ^ 24) : s.rowOf lid < 40000 := by
  unfold rowOf rowLen lidY lidX
  split <;> omega

theorem rowMap_eq (h : s.SameGrid t) {k : Nat} (hk : k ≤ 40000) (lo w r : Nat) (hlo : lo < 64) :
    t.getF (Fld.mk (0x100000021000 + 0x8 * k) lo w r) = s.getF (Fld.mk (0x100000021000 + 0x8 * k) lo w r) := by
  refine h.2 _ ?_
  simp only [Fld.key, plotKeys]
  omega

theorem siteOf_eq (h : s.SameGrid t) {lid : Nat} (hlid : lid < 2 ^ 24) : t.siteOf lid = s.siteOf lid :=
  siteOf_congr (h.2 _ (by decide)) (h.rowMap_eq (Nat.le_of_lt (rowOf_lt s hlid)) _ _ _ (by decide))

theorem coreFenced_eq (h : s.SameGrid t) {lid : Nat} (hlid : lid < 2 ^ 24) : t.coreFenced lid = s.coreFenced lid :=
  coreFenced_congr h.1 (h.2 _ (by decide)) (h.rowMap_eq (Nat.le_of_lt (rowOf_lt s hlid)) _ _ _ (by decide))
    (h.rowMap_eq (Nat.le_trans (siteOf_div s lid) (rowOf_lt s hlid)) _ _ _ (by decide))

end SameGrid

theorem sameGrid_keepF (s : State) {f : Fld} (hf : plotKeys ≤ f.key) (v : Nat) : s.SameGrid (s.keepF f v) :=
  ⟨rfl, fun _ hg => getF_keepF_other s v (by omega)⟩

/-! ### Control words that write a register (R147, R176, R177) -/

/-- `t` with the queue of commands and the manufacture data of `s`: what a command that begins in `s` and leaves a running
step `t` answers. -/
def returned (s t : State) : State := { t with pending := s.pending, man := s.man }

@[simp] theorem returned_pending (s t : State) : (s.returned t).pending = s.pending := rfl
@[simp] theorem returned_man (s t : State) : (s.returned t).man = s.man := rfl
@[simp] theorem returned_step (s t : State) : (s.returned t).step = t.step := rfl
@[simp] theorem returned_recs (s t : State) : (s.returned t).recs = t.recs := rfl
@[simp] theorem returned_mem (s t : State) : (s.returned t).mem = t.mem := rfl
@[simp] theorem returned_win (s t : State) : (s.returned t).win = t.win := rfl
@[simp] theorem returned_fab (s t : State) : (s.returned t).fab = t.fab := rfl
@[simp] theorem returned_plots (s t : State) : (s.returned t).plots = t.plots := rfl
@[simp] theorem returned_plot (s t : State) (k : Nat) : (s.returned t).plot k = t.plot k := rfl
@[simp] theorem returned_getF (s t : State) (f : Fld) : (s.returned t).getF f = t.getF f := rfl
@[simp] theorem returned_coreFenced (s t : State) (lid : Nat) : (s.returned t).coreFenced lid = t.coreFenced lid := rfl
@[simp] theorem returned_running (s t : State) : (s.returned t).running = t.running := rfl

/-- A command whose effect leaves a running step leaves it as it stands. -/
theorem exec_running {c : Instr} {s t : State} (hc : exec c s = s.answerIf c.wellFormed t) (hwf : c.wellFormed = true)
    (hrun : t.running = true) : exec c s = .next (s.returned t) := by
  rw [hc, answerIf_true _ _ hwf, after_running _ _ hrun]
  rfl

/-- A control word that issues leaves what its operation does. -/
theorem ctlWord_issues {s : State} {i : Issue} {op : Nat} {l : CtlLayout} {o : CtlWord} (h : s.issues i (s.ctlFetched i op l o))
    (body : State → Nat → Nat → State) :
    s.ctlWord i op l o body = body (s.ctlFetched i op l o) i.lid.toNat (s.issueStep i) := by
  obtain ⟨hcan, hcore, -⟩ := h
  exact issueWord_runs s i opControl op (o.bits l) _ body hcan hcore

/-- A control word whose operation is a result in RD writes it after its latency. -/
theorem ctlLands_of {c : Instr} {i : Issue} {op : Nat} {l : CtlLayout} {o : CtlWord} {d : Nat} {v : State → Word}
    (w : State → Nat → Word) (hc : ∀ s, exec c s = s.answerIf c.wellFormed (s.ctlWord i op l o fun u lid p => u.ctlResult lid p d o (w u lid)))
    (hv : c.wellFormed = true → ∀ u, w u i.lid.toNat = v u) : ctlLands c i op l o d v := by
  intro s hwf hissues
  have hword := ctlWord_issues hissues fun u lid p => u.ctlResult lid p d o (w u lid)
  obtain ⟨-, -, hrun⟩ := hissues
  generalize s.ctlFetched i op l o = u at *
  rw [ctlResult, hv hwf] at hword
  have hexec := exec_running (hc s) hwf (by rw [hword, running_landLater, hrun])
  rw [hword] at hexec
  exact ⟨_, hexec, rfl, rfl, plot_landLater_same .., fun k hk => plot_landLater_other _ _ _ hk, rfl⟩

theorem ofNat_b2n (b : Bool) : BitVec.ofNat 64 (b2n b) = if b then 1 else 0 := by cases b <;> rfl

end State

open State in
/-- Settles O1: each word's function of its two registers lands in RD. -/
theorem controlRegisterWords : Obligations.ControlRegisterWords := by
  intro i o
  exact ⟨ctlLands_of _ (fun _ => rfl) fun _ _ => rfl, ctlLands_of _ (fun _ => rfl) fun _ _ => rfl,
    ctlLands_of _ (fun _ => rfl) fun _ _ => rfl, ctlLands_of _ (fun _ => rfl) fun _ _ => rfl,
    ctlLands_of _ (fun _ => rfl) fun _ _ => rfl, ctlLands_of _ (fun _ => rfl) fun _ _ => rfl,
    ctlLands_of _ (fun _ => rfl) fun _ _ => rfl, ctlLands_of _ (fun _ => rfl) fun _ _ => rfl,
    ctlLands_of _ (fun _ => rfl) fun _ _ => ofNat_b2n _, ctlLands_of _ (fun _ => rfl) fun _ _ => rfl,
    ctlLands_of _ (fun _ => rfl) fun _ _ => rfl⟩

namespace State

/-- A shift count that an immediate shift admits (R177). -/
theorem shiftCount {c : Instr} {i : Issue} {o : CtlWord} (hc : (c = .cShli i o) ∨ (c = .cShri i o) ∨ (c = .cShrai i o))
    (hwf : c.wellFormed = true) : (o.imm.signExtend 64).toNat % 64 = o.imm.toNat := by
  have hlt : o.imm.toNat < 64 := by
    obtain rfl | rfl | rfl := hc <;>
    · have hok := (Bool.and_eq_true_iff.mp hwf).2
      simp [CtlWord.ok] at hok
      omega
  have hmsb : o.imm.msb = false := by
    rw [BitVec.msb_eq_decide]
    simp
    omega
  rw [BitVec.signExtend_eq_setWidth_of_msb_false hmsb, BitVec.toNat_setWidth]
  omega

end State

open State in
/-- Settles O2: each word's function of its register and immediate lands in RD. -/
theorem controlImmediateWords : Obligations.ControlImmediateWords := by
  intro i o a n
  exact ⟨ctlLands_of _ (fun _ => rfl) fun _ _ => rfl, ctlLands_of _ (fun _ => rfl) fun _ _ => rfl,
    ctlLands_of _ (fun _ => rfl) fun _ _ => rfl, ctlLands_of _ (fun _ => rfl) fun _ _ => rfl,
    ctlLands_of _ (fun _ => rfl) fun h _ => congrArg (a _ <<< ·) (shiftCount (.inl rfl) h),
    ctlLands_of _ (fun _ => rfl) fun h _ => congrArg (a _ >>> ·) (shiftCount (.inr (.inl rfl)) h),
    ctlLands_of _ (fun _ => rfl) fun h _ => congrArg (a _).sshiftRight (shiftCount (.inr (.inr rfl)) h),
    ctlLands_of _ (fun _ => rfl) fun _ _ => ofNat_b2n _, ctlLands_of (fun _ _ => n) (fun _ => rfl) fun _ _ => rfl,
    ctlLands_of (fun u lid => o.imm ++ (u.gregAt lid o.rd.toNat).setWidth 32) (fun _ => rfl) fun _ _ => rfl,
    ctlLands_of (fun u lid => u.constMem lid o.index.toNat) (fun _ => rfl) fun _ _ => rfl⟩

namespace State

/-! ### Performance counters and the cache of a plot (R191, R427) -/

/-- `t` is `s` but for the registers in `fs` and the lines that caches hold. -/
def UsesCache (s t : State) (fs : List Fld) : Prop :=
  { t with regs := s.regs, pub := s.pub, base := s.base, mem := { t.mem with cache := s.mem.cache } } = s ∧ s.fieldsBut t fs

namespace UsesCache

variable {s t u : State} {fs gs : List Fld}

theorem refl (s : State) (fs : List Fld) : s.UsesCache s fs := ⟨rfl, fun _ _ => rfl⟩

theorem trans (h : s.UsesCache t fs) (k : t.UsesCache u fs) : s.UsesCache u fs :=
  ⟨(congrArg (fun v : State => { v with
      regs := s.regs, pub := s.pub, base := s.base, mem := { v.mem with cache := s.mem.cache } }) k.1).trans h.1,
    fun f hf => (k.2 f hf).trans (h.2 f hf)⟩

theorem mono (h : s.UsesCache t fs) (hsub : fs ⊆ gs) : s.UsesCache t gs := ⟨h.1, fun f hf => h.2 f fun g hg => hf g (hsub hg)⟩

theorem foldl {β : Type} {f : State → β → State} (xs : List β) (hf : ∀ (s : State), ∀ x ∈ xs, s.UsesCache (f s x) fs) (s : State) :
    s.UsesCache (xs.foldl f s) fs :=
  List.foldlRecOn (motive := fun t => s.UsesCache t fs) xs f (refl s fs) fun t h x hx => h.trans (hf t x hx)

theorem plots_eq (h : s.UsesCache t fs) : t.plots = s.plots := (congrArg State.plots h.1 :)
theorem win_eq (h : s.UsesCache t fs) : t.win = s.win := (congrArg State.win h.1 :)
theorem step_eq (h : s.UsesCache t fs) : t.step = s.step := (congrArg State.step h.1 :)
theorem recs_eq (h : s.UsesCache t fs) : t.recs = s.recs := (congrArg State.recs h.1 :)
theorem grid_eq (h : s.UsesCache t fs) : t.grid = s.grid := (congrArg State.grid h.1 :)
theorem mem_eq (h : s.UsesCache t fs) : { t.mem with cache := s.mem.cache } = s.mem := (congrArg State.mem h.1 :)
theorem running_eq (h : s.UsesCache t fs) : t.running = s.running := by rw [running, running, h.step_eq]
theorem plot_eq (h : s.UsesCache t fs) (l : Nat) : t.plot l = s.plot l := plot_congr h.plots_eq l

end UsesCache

section
variable (s : State) {f : Fld} {fs : List Fld} (hf : f ∈ fs) (v : Nat)
include hf

theorem usesCache_setF : s.UsesCache (s.setF f v) fs := ⟨rfl, fun _ hg => getF_setF_other s v (hg f hf)⟩
theorem usesCache_incF : s.UsesCache (s.incF f v) fs := usesCache_setF s hf _
theorem usesCache_nowF : s.UsesCache (s.nowF f v) fs := ⟨rfl, fun _ hg => getF_nowF_other s v (hg f hf)⟩

end

/-- An event of the performance unit adds to counters of the plot alone. -/
theorem usesCache_perf (s : State) (lid ev n : Nat) : s.UsesCache (s.perf lid ev n) (perfFields lid) := by
  unfold perf
  split
  · exact .refl s _
  · refine UsesCache.foldl _ (fun t i hi => ?_) s
    have hcounter : F.PERF_COUNT.COUNT lid i ∈ perfFields lid := List.mem_map_of_mem hi
    split
    · split
      · exact usesCache_nowF t hcounter _
      · exact usesCache_incF t hcounter _
    · exact .refl t _

theorem usesCache_cacheUse (s : State) (lid b off : Nat) (fill : Bool) :
    s.UsesCache (s.cacheUse lid b off fill) (F.CACHE_MISSES.COUNT lid :: perfFields lid) := by
  have hput (key : Nat) (xs : List Nat) :
      s.UsesCache (s.modMem fun m => { m with cache := SMap.set [] m.cache key xs }) (F.CACHE_MISSES.COUNT lid :: perfFields lid) :=
    ⟨rfl, fun _ _ => rfl⟩
  unfold cacheUse
  dsimp only
  split
  · exact hput _ _
  · split
    · exact ((hput _ _).trans (usesCache_incF _ List.mem_cons_self _)).trans
        ((usesCache_perf ..).mono (List.subset_cons_self _ _))
    · exact .refl s _

/-- A loose store fills no line, so no miss counts. -/
theorem usesCache_cacheUse_store (s : State) (lid b off : Nat) : s.UsesCache (s.cacheUse lid b off false) [] := by
  unfold cacheUse
  dsimp only
  split
  · exact ⟨rfl, fun _ _ => rfl⟩
  · exact .refl s _

theorem usesCache_looseRead (s : State) (lid p b off n : Nat) :
    s.UsesCache (s.looseRead lid p b off n).2 (F.CACHE_MISSES.COUNT lid :: perfFields lid) :=
  UsesCache.foldl _ (fun t _ _ => usesCache_cacheUse t ..) s

/-- A loose store uses the lines that are present, and its bytes wait in the plot. -/
theorem looseWrite_eq (s : State) (lid p b : Nat) (ws : List (Nat × List Byte × List Byte)) :
    ∃ t, s.UsesCache t [] ∧ s.looseWrite lid p b ws = t.modPlot lid fun x => { x with stores := x.stores ++ [⟨p + 48, ws⟩] } :=
  ⟨_, UsesCache.foldl _ (fun t _ _ => UsesCache.foldl _ (fun v _ _ => usesCache_cacheUse_store v ..) t) s, rfl⟩

/-- A pending loose access is noted in the plot. -/
theorem loosePending_eq (s : State) (lid p slot unit op a : Nat) :
    ∃ t n, s.UsesCache t (perfFields lid) ∧ s.loosePending lid p slot unit op a = t.modPlot lid fun x => { x with
      loose := max x.loose n, loosePend := x.loosePend ++ [(p, slot, unit, op, a)] } :=
  ⟨_, _, usesCache_perf s lid 0x0A 1, rfl⟩

/-! ### Control loads and stores (R143, R177, R186, R190) -/

/-- A control word that issues and leaves its core in a running step. -/
theorem exec_ctlWord {c : Instr} {s : State} {i : Issue} {op : Nat} {l : CtlLayout} {o : CtlWord} {body : State → Nat → Nat → State}
    (hc : exec c s = s.answerIf c.wellFormed (s.ctlWord i op l o body)) (hwf : c.wellFormed = true)
    (h : s.issues i (s.ctlFetched i op l o))
    (hrun : (body (s.ctlFetched i op l o) i.lid.toNat (s.issueStep i)).running = true) :
    exec c s = .next (s.returned (body (s.ctlFetched i op l o) i.lid.toNat (s.issueStep i))) := by
  rw [← ctlWord_issues h body] at hrun ⊢
  exact exec_running hc hwf hrun

variable {u : State} {lid p slot : Nat} {o : CtlWord}

theorem ctlLoad_aligned (h : u.ctlAddress lid o % 8 = 0) : ctlLoad slot o u lid p =
    (u.usePort lid p ⟨[(u.ctlAddress lid o, 8)], false, opControl, 0x20, slot⟩).landLater lid (p + 6)
      (.greg o.rd.toNat (BitVec.ofNat 64 (leNat (u.padRead lid p (u.ctlAddress lid o) 8)))) :=
  if_neg (not_not.mpr h)

theorem ctlStore_aligned (h : u.ctlAddress lid o % 8 = 0) : ctlStore slot o u lid p =
    (u.usePort lid p ⟨[(u.ctlAddress lid o, 8)], true, opControl, 0x21, slot⟩).landLater lid (p + 6)
      (.pad (u.ctlAddress lid o) (leBytes 8 (u.gregAt lid o.rs2.toNat).toNat)) :=
  if_neg (not_not.mpr h)

theorem ctlLoadLoose_aligned (h : u.ctlAddress lid o % 8 = 0) {b off : Nat}
    (hoff : u.looseOffset lid (u.ctlAddress lid o) (u.ctlAddress lid o) 8 = some (b, off)) : ctlLoadLoose slot o u lid p =
    ((u.looseRead lid p b off 8).2.loosePending lid p slot opControl 0x22 (u.ctlAddress lid o)).landLater lid (p + 48)
      (.greg o.rd.toNat (BitVec.ofNat 64 (leNat (u.loamRead lid p off 8)))) := by
  rw [ctlLoadLoose]
  exact (if_neg (not_not.mpr h)).trans (by rw [hoff]; rfl)

theorem ctlStoreLoose_aligned (h : u.ctlAddress lid o % 8 = 0) {b off : Nat}
    (hoff : u.looseOffset lid (u.ctlAddress lid o) (u.ctlAddress lid o) 8 = some (b, off)) (hgood : u.loamWriteBad off 8 = false) :
    ctlStoreLoose slot o u lid p =
    (u.looseWrite lid p b [(off, leBytes 8 (u.gregAt lid o.rs2.toNat).toNat, List.replicate 8 255)]).loosePending lid p slot opControl 0x23
      (u.ctlAddress lid o) := by
  rw [ctlStoreLoose]
  exact (if_neg (not_not.mpr h)).trans (by rw [hoff]; exact if_neg (by simp [hgood]))

end State

open State in
/-- Settles O3: LD reads at its issue, uses its port and lands; LDL reads loam at its issue, whatever the cache holds. -/
theorem controlLoads : Obligations.ControlLoads := by
  intro s i o lid p
  constructor
  · intro u a hwf hissues halign
    have hrun : u.running = true := hissues.2.2
    have hexec : (ctlLoad i.slot.toNat o u lid p).running = true →
        exec (.cLd i o) s = .next (s.returned (ctlLoad i.slot.toNat o u lid p)) :=
      exec_ctlWord rfl hwf hissues
    clear_value u
    rw [ctlLoad_aligned halign] at hexec
    refine ⟨_, hexec (by rw [running_landLater, running_usePort, hrun]), ?_, ?_, fun k hk => ?_, rfl⟩
    · rw [returned_plot, plot_landLater_same, usePort, plot_modPlot_same]
    · rw [returned_plot, plot_landLater_same, usePort, plot_modPlot_same]
    · rw [returned_plot, plot_landLater_other _ _ _ hk, usePort, plot_modPlot_other _ _ hk]
  · intro u a b off hwf hissues halign hoff
    have hrun : u.running = true := hissues.2.2
    have hexec : (ctlLoadLoose i.slot.toNat o u lid p).running = true →
        exec (.cLdl i o) s = .next (s.returned (ctlLoadLoose i.slot.toNat o u lid p)) :=
      exec_ctlWord rfl hwf hissues
    clear_value u
    rw [ctlLoadLoose_aligned halign hoff] at hexec
    have hread := usesCache_looseRead u lid p b off 8
    obtain ⟨v, n, hv, hpend⟩ := loosePending_eq (u.looseRead lid p b off 8).2 lid p i.slot.toNat opControl 0x22 a
    rw [hpend] at hexec
    have hused := hread.trans (hv.mono (List.subset_cons_self _ _))
    refine ⟨_, hexec (by rw [running_landLater, running_modPlot, hused.running_eq, hrun]), ?_, ?_, fun k hk => ?_, hused.win_eq, hused.mem_eq⟩
    · rw [returned_plot, plot_landLater_same, plot_modPlot_same, hused.plot_eq]
    · rw [returned_plot, plot_landLater_same, plot_modPlot_same, hused.plot_eq]
    · rw [returned_plot, plot_landLater_other _ _ _ hk, plot_modPlot_other _ _ hk, hused.plot_eq]

open State in
/-- Settles O4: ST uses its port and lands; STL waits in the plot, and of the memories the cache alone changes. -/
theorem controlStores : Obligations.ControlStores := by
  intro s i o lid p
  constructor
  · intro u a hwf hissues halign
    have hrun : u.running = true := hissues.2.2
    have hexec : (ctlStore i.slot.toNat o u lid p).running = true →
        exec (.cSt i o) s = .next (s.returned (ctlStore i.slot.toNat o u lid p)) :=
      exec_ctlWord rfl hwf hissues
    clear_value u
    rw [ctlStore_aligned halign] at hexec
    refine ⟨_, hexec (by rw [running_landLater, running_usePort, hrun]), ?_, ?_, fun k hk => ?_, rfl⟩
    · rw [returned_plot, plot_landLater_same, usePort, plot_modPlot_same]
    · rw [returned_plot, plot_landLater_same, usePort, plot_modPlot_same]
    · rw [returned_plot, plot_landLater_other _ _ _ hk, usePort, plot_modPlot_other _ _ hk]
  · intro u a b off hwf hissues halign hoff hgood
    have hrun : u.running = true := hissues.2.2
    have hexec : (ctlStoreLoose i.slot.toNat o u lid p).running = true →
        exec (.cStl i o) s = .next (s.returned (ctlStoreLoose i.slot.toNat o u lid p)) :=
      exec_ctlWord rfl hwf hissues
    clear_value u
    rw [ctlStoreLoose_aligned halign hoff hgood] at hexec
    obtain ⟨v, hv, hwrite⟩ := looseWrite_eq u lid p b [(off, leBytes 8 (u.gregAt lid o.rs2.toNat).toNat, List.replicate 8 255)]
    rw [hwrite] at hexec
    obtain ⟨w, n, hw, hpend⟩ := loosePending_eq (v.modPlot lid fun x => { x with stores := x.stores ++ [⟨p + 48, [(off, leBytes 8 (u.gregAt lid o.rs2.toNat).toNat, List.replicate 8 255)]⟩] }) lid p i.slot.toNat opControl 0x23 a
    rw [hpend] at hexec
    refine ⟨_, hexec (by rw [running_modPlot, hw.running_eq, running_modPlot, hv.running_eq, hrun]), ?_, ?_, fun k hk => ?_,
      hw.win_eq.trans hv.win_eq, ?_⟩
    · rw [returned_plot, plot_modPlot_same, hw.plot_eq, plot_modPlot_same, hv.plot_eq]
    · rw [returned_plot, plot_modPlot_same, hw.plot_eq, plot_modPlot_same, hv.plot_eq]
    · rw [returned_plot, plot_modPlot_other _ _ hk, hw.plot_eq, plot_modPlot_other _ _ hk, hv.plot_eq]
    · exact (congrArg (fun m : MemSt => { m with cache := u.mem.cache }) hw.mem_eq).trans hv.mem_eq

end Sys2Proof.Machine

namespace Sys2Proof.Machine
namespace State

/-! ### A core fault in a running step, behind its counter -/

theorem inAttempt_of_running {s : State} (h : s.running = true) : s.inAttempt = true := by
  rw [running] at h
  rw [inAttempt, h, Bool.true_or, Bool.true_or]

theorem CoreFaulted.running_eq {s t : State} {lid : Nat} {a : FaultArgs} (h : s.CoreFaulted lid a t) : t.running = s.running := by
  obtain ⟨regs, base, more, rfl, -, -⟩ := h
  rw [running, running, faultStep_phase]

theorem plotKeys_ne {f : Fld} (hf : plotKeys ≤ f.key) : f.key ≠ F.REPAIR_STATUS.SUBST_PENDING.key ∧ f.key ≠ F.REPAIR_STATUS.DEGRADED.key := by
  simp only [plotKeys, Fld.key, F.REPAIR_STATUS.SUBST_PENDING, F.REPAIR_STATUS.DEGRADED] at hf ⊢
  omega

/-- A fault of the core that first counts in a saturating register of its plot. -/
theorem countedCoreFault {u : State} {lid : Nat} {f : Fld} (a : FaultArgs) (hf : plotKeys ≤ f.key) (hlid : lid < 2 ^ 24)
    (hrun : u.running = true) (hcore : u.coreFenced lid = false) (hab : a.abandons = true) :
    let t := (u.incLive f 1).coreFault lid a
    t.running = true ∧ u.coreFailed t lid a.code ∧ t.getF f = min (u.getF f + 1) (2 ^ f.width - 1) := by
  have hcore' : (u.incLive f 1).coreFenced lid = false := by rw [incLive, (sameGrid_keepF u hf _).coreFenced_eq hlid, hcore]
  have hin : (u.incLive f 1).inAttempt = true := inAttempt_of_running hrun
  have h := coreFaulted_coreFault a hin hcore'
  refine ⟨h.running_eq.trans hrun, h.coreFailed hin hab, ?_⟩
  obtain ⟨-, -, -, -, hregs, -⟩ := h
  have hlt : satAdd f.width (u.getF f) 1 < 2 ^ f.width := by
    have := Nat.two_pow_pos f.width
    rw [satAdd]
    omega
  rw [hregs.getF_eq (plotKeys_ne hf).1 (plotKeys_ne hf).2, getF_incLive_same, Nat.mod_eq_of_lt hlt, satAdd]

/-! ### Votes (R75, R151) -/

/-- What a vote of value `b` makes of the result so far (R75). -/
def voted (s : State) (c lid : Nat) (b x : Bool) : Bool :=
  if s.voteIsAnd c then x && (if s.isVoter c lid then b else s.voteIsAnd c) else x || (if s.isVoter c lid then b else s.voteIsAnd c)

/-- A vote of the channel in the furrow `n`. -/
def voteOf (c n : Nat) (v : VoteSt) : Bool := v.chan == c && v.furrow == n

theorem castVote_eq (s : State) (c lid : Nat) (b : Bool) : s.castVote c lid b = { s with fab := { s.fab with
    votes := if s.fab.votes.any (voteOf c s.furrow) then
        s.fab.votes.map fun v => if v.chan = c ∧ v.furrow = s.furrow then { v with acc := s.voted c lid b v.acc } else v
      else s.fab.votes ++ [⟨c, s.furrow, s.voted c lid b (s.voteIsAnd c), false⟩] } } := rfl

section
variable (vs : List VoteSt) (c n : Nat) (g : Bool → Bool)

/-- The votes of a channel in a furrow are combined, the others stay. -/
theorem filter_map_voted : ((vs.map fun v => if v.chan = c ∧ v.furrow = n then { v with acc := g v.acc } else v).filter (voteOf c n)).map (·.acc) =
      (vs.filter (voteOf c n)).map (fun v => g v.acc) ∧
    (vs.map fun v => if v.chan = c ∧ v.furrow = n then { v with acc := g v.acc } else v).filter (fun v => !voteOf c n v) =
      vs.filter fun v => !voteOf c n v := by
  induction vs with
  | nil => exact ⟨rfl, rfl⟩
  | cons v vs ih =>
    obtain ⟨ih1, ih2⟩ := ih
    by_cases h : v.chan = c ∧ v.furrow = n
    · simp [h, voteOf] at ih1 ih2 ⊢
      exact ⟨ih1, ih2⟩
    · have hno : voteOf c n v = false := by simpa [voteOf] using h
      simp [h, hno, ih1, ih2]

theorem filter_append_voted (h : vs.any (voteOf c n) = false) (x : Bool) :
    ((vs ++ [(⟨c, n, x, false⟩ : VoteSt)]).filter (voteOf c n)).map (·.acc) = [x] ∧
    (vs ++ [(⟨c, n, x, false⟩ : VoteSt)]).filter (fun v => !voteOf c n v) = vs.filter fun v => !voteOf c n v := by
  have hnone : vs.filter (voteOf c n) = [] := List.filter_eq_nil_iff.mpr fun v hv => by simpa using List.any_eq_false.mp h v hv
  rw [List.filter_append, List.filter_append, hnone]
  simp [voteOf]

end

theorem readable_word (r : Option (Bool × Bool × Nat)) :
    BitVec.ofNat 64 (b2n (r.getD (false, false, 0)).1 + b2n (r.getD (false, false, 0)).2.1 * 2 ^ 63) =
      r.elim 0 fun r => (if r.1 then 1 else 0) + (if r.2.1 then 0x8000000000000000 else 0) := by
  match r with
  | none => rfl
  | some (x, y, n) =>
    change BitVec.ofNat 64 (b2n x + b2n y * 2 ^ 63) = (if x then 1 else 0) + (if y then 0x8000000000000000 else 0)
    revert x y
    decide

/-- The votes of a channel whose results are readable in the present furrow (R75). -/
def voteDue (s : State) (c : Nat) (v : VoteSt) : Bool :=
  v.chan == c && (furrowAdd v.furrow 6 == s.furrow || furrowLater s.furrow (furrowAdd v.furrow 6))

/-- The result of one vote becomes readable, in the fabric and in its register (R75, R76). -/
def deliverVote (c : Nat) (s : State) (v : VoteSt) : State :=
  let t := { s with fab := { s.fab with readable := SMap.ins s.fab.readable c (v.acc, s.votePoisoned c, furrowAdd v.furrow 6) } }
  ((t.setF (F.VOTE_RESULT.VALUE c) (b2n v.acc)).setF (F.VOTE_RESULT.POISONED c) (b2n (s.votePoisoned c))).setF
    (F.VOTE_RESULT.FURROW c) (furrowAdd v.furrow 6)

theorem deliverVotes_eq (s : State) (c : Nat) :
    let t := (s.fab.votes.filter (s.voteDue c)).foldl (deliverVote c) s
    s.deliverVotes c = { t with fab := { t.fab with votes := t.fab.votes.filter fun v => !s.voteDue c v } } := rfl

theorem deliverVotes_running (s : State) (c : Nat) : (s.deliverVotes c).running = s.running := by
  rw [deliverVotes_eq]
  exact List.foldlRecOn (motive := fun t : State => t.running = s.running) _ (deliverVote c) rfl fun _ h _ _ => h

end State

open State in
/-- Settles O5: a cast vote combines with those of its channel and furrow; VREAD reads what has become readable; a value
outside its bounds faults the core behind the count (R75, R151, R154, log entry 18). -/
theorem controlVotesAndChecks : Obligations.ControlVotesAndChecks := by
  refine ⟨fun s i o => ⟨?_, ?_⟩, fun s i o => ?_⟩
  · intro u bit cast mine hwf hissues henabled
    have hrun : u.running = true := hissues.2.2
    have hexec : (ctlVote i.slot.toNat o u i.lid.toNat (s.issueStep i)).running = true →
        exec (.cVote i o) s = .next (s.returned (ctlVote i.slot.toNat o u i.lid.toNat (s.issueStep i))) := exec_ctlWord rfl hwf hissues
    have hmine : mine = voteOf o.chan.toNat u.furrow := rfl
    have hcast : cast = u.voted o.chan.toNat i.lid.toNat ((u.gregAt i.lid.toNat o.rs1.toNat).getLsbD 0) := rfl
    clear_value u mine cast
    subst hmine hcast
    have hbody : ctlVote i.slot.toNat o u i.lid.toNat (s.issueStep i) =
        u.castVote o.chan.toNat i.lid.toNat ((u.gregAt i.lid.toNat o.rs1.toNat).getLsbD 0) := if_pos henabled
    rw [hbody, castVote_eq] at hexec
    refine ⟨_, hexec hrun, ?_, ?_, rfl, rfl⟩
    · rw [returned_fab]
      cases h : u.fab.votes.any (voteOf o.chan.toNat u.furrow) with
      | true => exact (filter_map_voted ..).1
      | false => exact (filter_append_voted _ _ _ h _).1
    · rw [returned_fab]
      cases h : u.fab.votes.any (voteOf o.chan.toNat u.furrow) with
      | true => exact (filter_map_voted ..).2
      | false => exact (filter_append_voted _ _ _ h _).2
  · intro u w hwf hissues
    have hrun : u.running = true := hissues.2.2
    have hexec : (ctlVoteRead o u i.lid.toNat (s.issueStep i)).running = true →
        exec (.cVread i o) s = .next (s.returned (ctlVoteRead o u i.lid.toNat (s.issueStep i))) := exec_ctlWord rfl hwf hissues
    have hbody : ctlVoteRead o u i.lid.toNat (s.issueStep i) = w.landLater i.lid.toNat (s.issueStep i + 1) (.greg o.rd.toNat
        ((SMap.find? w.fab.readable o.chan.toNat).elim 0 fun r => (if r.1 then 1 else 0) + (if r.2.1 then 0x8000000000000000 else 0))) :=
      congrArg (fun v => w.landLater i.lid.toNat (s.issueStep i + 1) (.greg o.rd.toNat v)) (readable_word _)
    have hw : w.running = true := (deliverVotes_running u _).trans hrun
    rw [hbody] at hexec
    clear_value w
    refine ⟨_, hexec (by rw [running_landLater, hw]), ?_, fun k hk => ?_, rfl⟩
    · rw [returned_plot, plot_landLater_same]
    · rw [returned_plot, plot_landLater_other _ _ _ hk]
  · intro lid u k inside hwf hissues
    obtain ⟨-, hcore, hrun⟩ := id hissues
    have hexec : (ctlExpect i.slot.toNat o u lid (s.issueStep i)).running = true →
        exec (.cExpect i o) s = .next (s.returned (ctlExpect i.slot.toNat o u lid (s.issueStep i))) := exec_ctlWord rfl hwf hissues
    have hbody : ctlExpect i.slot.toNat o u lid (s.issueStep i) = if inside then u else (u.incLive (F.EXPECT_FAIL.COUNT lid) 1).coreFault lid {
        code := 0x0206, srcType := srcPlot, srcId := lid, opUnit := opControl, op := 0x2C, slot := i.slot.toNat, detail := k } := rfl
    change u.running = true at hrun
    change u.coreFenced lid = false at hcore
    rw [hbody] at hexec
    clear_value u inside
    refine ⟨fun h => ?_, fun h => ?_⟩
    · rw [if_pos h] at hexec
      exact hexec hrun
    · rw [if_neg (by simp [h])] at hexec
      have hkey : plotKeys ≤ (F.EXPECT_FAIL.COUNT lid).key := by
        simp only [plotKeys, Fld.key, F.EXPECT_FAIL.COUNT]
        omega
      obtain ⟨hrunning, hfailed, hcount⟩ := countedCoreFault (lid := lid) {
        code := 0x0206, srcType := srcPlot, srcId := lid, opUnit := opControl, op := 0x2C, slot := i.slot.toNat, detail := k }
        hkey i.lid.isLt hrun hcore rfl
      exact ⟨_, hexec hrunning, hcount, hfailed⟩

end Sys2Proof.Machine

namespace Sys2Proof.Machine
namespace State

/-! ### Tile words that land a result (R136, R137, R170) -/

@[simp] theorem running_setF (s : State) (f : Fld) (v : Nat) : (s.setF f v).running = s.running := rfl

theorem usesCache_countConv (s : State) (lid : Nat) (cs : List Conv) :
    s.UsesCache (s.countConv lid cs) [F.CONV_SAT_COUNT.COUNT lid, F.CONV_NONFINITE_COUNT.COUNT lid] := by
  have hinc (t : State) {f : Fld} (hf : f ∈ [F.CONV_SAT_COUNT.COUNT lid, F.CONV_NONFINITE_COUNT.COUNT lid]) (n : Nat) :
      t.UsesCache (if n = 0 then t else t.incF f n) [F.CONV_SAT_COUNT.COUNT lid, F.CONV_NONFINITE_COUNT.COUNT lid] := by
    split
    · exact .refl t _
    · exact usesCache_incF t hf n
  exact (hinc s (by simp) _).trans (hinc _ (by simp) _)

/-- A tile operation that issues with its pipe free and its checks passed leaves its body's state, in flight (R136, R158). -/
theorem exec_vecWord {c : Instr} {s : State} {i : Issue} {op : Nat} {o : VecWord} {body : State → Nat → Nat → BitVec 256 → State}
    (hc : exec c s = s.answerIf c.wellFormed (s.vecWord i op o body)) (hwf : c.wellFormed = true)
    (h : s.issues i (s.vecFetched i op o)) (hpipe : (s.vecFetched i op o).pipeTaken i.lid.toNat (s.issueStep i) = false)
    (hcore : (vecBegun op i.slot.toNat o i.mis (s.vecFetched i op o) i.lid.toNat (s.issueStep i)).coreFenced i.lid.toNat = false)
    (hrun : (body (vecBegun op i.slot.toNat o i.mis (s.vecFetched i op o) i.lid.toNat (s.issueStep i)) i.lid.toNat (s.issueStep i)
      ((s.vecFetched i op o).maskAt i.lid.toNat o.msk.toNat)).running = true) :
    let w := vecBegun op i.slot.toNat o i.mis (s.vecFetched i op o) i.lid.toNat (s.issueStep i)
    exec c s = .next (s.returned (w.inFlight (body w i.lid.toNat (s.issueStep i)
      ((s.vecFetched i op o).maskAt i.lid.toNat o.msk.toNat)) i.lid.toNat (s.issueStep i))) := by
  intro w
  obtain ⟨hcan, hfetched, -⟩ := h
  have hword : s.vecWord i op o body = w.inFlight (body w i.lid.toNat (s.issueStep i)
      ((s.vecFetched i op o).maskAt i.lid.toNat o.msk.toNat)) i.lid.toNat (s.issueStep i) :=
    (issueWord_runs s i opVector op o.bits _ _ hcan hfetched).trans (vecOp_runs _ op i.slot.toNat o i.mis body _ _ hpipe hcore)
  rw [← hword]
  exact exec_running hc hwf (by rw [hword, inFlight, running_modPlot]; exact hrun)

/-- A result that lands after `d` steps keeps its plot's tile operations in flight until then. -/
theorem inFlight_landLater {w v : State} (hplots : v.plots = w.plots) (lid p : Nat) {d : Nat} (hd : 4 ≤ d) (l : Landing) :
    v.tileLandsOn (w.inFlight (v.landLater lid (p + d) l) lid p) lid (p + d) l := by
  have hplot : v.plot lid = w.plot lid := plot_congr hplots lid
  have hmax : max (p + 4) (p + d) = p + d := by omega
  refine ⟨?_, fun k hk => ?_, rfl⟩
  · rw [inFlight, plot_modPlot_same, plot_landLater_same, hplot]
    simp [hmax]
  · rw [inFlight, plot_modPlot_other _ _ hk, plot_landLater_other _ _ _ hk]

theorem tileLandsOn_returned {s u t : State} {lid due : Nat} {l : Landing} (h : u.tileLandsOn t lid due l) :
    u.tileLandsOn (s.returned t) lid due l := h

/-- A tile word whose body counts with `g` and lands `r`. -/
theorem vecLands_of {c : Instr} {i : Issue} {op : Nat} {o : VecWord} {d : Nat} {g : State → BitVec 256 → State}
    {r : State → BitVec 256 → Landing} (body : State → Nat → Nat → BitVec 256 → State) (hd : 4 ≤ d)
    (hc : ∀ s, exec c s = s.answerIf c.wellFormed (s.vecWord i op o body))
    (hbody : ∀ w p m, body w i.lid.toNat p m = (g w m).landLater i.lid.toNat (p + d) (r w m))
    (hg : ∀ w m, (g w m).plots = w.plots ∧ (g w m).step = w.step) : vecLands c i op o d g r := by
  intro s hwf u p w m hissues hpipe hcore hrun
  have hgrun : (g w m).running = true := by rw [running, (hg w m).2]; exact hrun
  have hexec := exec_vecWord (hc s) hwf hissues hpipe hcore (by rw [hbody, running_landLater]; exact hgrun)
  change exec c s = .next (s.returned (w.inFlight (body w i.lid.toNat p m) i.lid.toNat p)) at hexec
  clear_value w m
  rw [hbody] at hexec
  exact ⟨_, hexec, rfl, rfl, tileLandsOn_returned (inFlight_landLater (hg w m).1 _ _ hd _)⟩

/-- A tile word that counts nothing. -/
theorem vecLands_plain {c : Instr} {i : Issue} {op : Nat} {o : VecWord} {d : Nat} {r : State → BitVec 256 → Landing}
    (body : State → Nat → Nat → BitVec 256 → State) (hd : 4 ≤ d) (hc : ∀ s, exec c s = s.answerIf c.wellFormed (s.vecWord i op o body))
    (hbody : ∀ w p m, body w i.lid.toNat p m = w.landLater i.lid.toNat (p + d) (r w m)) : vecLands c i op o d (fun u _ => u) r :=
  vecLands_of body hd hc hbody fun _ _ => ⟨rfl, rfl⟩

end State

/-! ### Masks and shifted tiles -/

/-- The bits below `n` that a test sets. -/
def maskSum (f : Nat → Bool) (n : Nat) : Nat := ((List.range n).filter f).foldl (fun a i => a + 2 ^ i) 0

theorem maskSum_succ (f : Nat → Bool) (n : Nat) : maskSum f (n + 1) = 2 ^ n * b2n (f n) + maskSum f n := by
  rw [maskSum, List.range_succ, List.filter_append, List.foldl_append, ← maskSum]
  cases h : f n <;> simp [h, b2n, Nat.add_comm]

theorem maskSum_lt (f : Nat → Bool) (n : Nat) : maskSum f n < 2 ^ n := by
  induction n with
  | zero => simp [maskSum]
  | succ n ih =>
    rw [maskSum_succ, Nat.pow_succ]
    have hle : 2 ^ n * b2n (f n) ≤ 2 ^ n := by cases f n <;> simp [b2n]
    omega

theorem testBit_maskSum (f : Nat → Bool) (n k : Nat) : (maskSum f n).testBit k = (decide (k < n) && f k) := by
  induction n with
  | zero => simp [maskSum]
  | succ n ih =>
    rw [maskSum_succ, Nat.testBit_two_pow_mul_add _ (maskSum_lt f n), ih]
    obtain h | rfl | h := Nat.lt_trichotomy k n
    · simp [h, Nat.lt_succ_of_lt h]
    · cases hk : f k <;> simp [b2n]
    · have hbit : (b2n (f n)).testBit (k - n) = false := by
        have hle : b2n (f n) ≤ 1 := by cases f n <;> decide
        have hpow : 2 ^ 1 ≤ 2 ^ (k - n) := Nat.pow_le_pow_right (by decide) (by omega)
        exact Nat.testBit_lt_two_pow (by omega)
      simp [show ¬ k < n by omega, show ¬ k < n + 1 by omega, hbit]

/-- Bit `k` of a mask is the test of element `k` (R134). -/
theorem getLsbD_maskOf (f : Nat → Bool) {k : Nat} (hk : k < 256) : (maskOf f).getLsbD k = f k := by
  rw [maskOf, BitVec.getLsbD_ofNat, ← maskSum, testBit_maskSum]
  simp [hk]

/-- The element of a shifted tile (R171). -/
theorem shiftTile_eq (dir amt : Nat) (t : Tile) : shiftTile dir amt t = (List.range 256).map fun k =>
    if dir = 0 then (if k % 16 < amt then 0 else t.getD (k - amt) 0)
    else if dir = 1 then (if 16 ≤ k % 16 + amt then 0 else t.getD (k + amt) 0)
    else if dir = 2 then (if k / 16 < amt then 0 else t.getD (k - 16 * amt) 0)
    else if 16 ≤ k / 16 + amt then 0 else t.getD (k + 16 * amt) 0 := by
  refine List.map_congr_left fun k _ => ?_
  match dir with
  | 0 =>
    change (if k % 16 < amt then 0 else t.getD (16 * (k / 16) + (k % 16 - amt)) 0) = if k % 16 < amt then 0 else t.getD (k - amt) 0
    refine if_ctx_congr Iff.rfl (fun _ => rfl) fun h => congrArg (t.getD · 0) ?_
    omega
  | 1 =>
    change (if 16 ≤ k % 16 + amt then 0 else t.getD (16 * (k / 16) + (k % 16 + amt)) 0) = if 16 ≤ k % 16 + amt then 0 else t.getD (k + amt) 0
    refine if_ctx_congr Iff.rfl (fun _ => rfl) fun h => congrArg (t.getD · 0) ?_
    omega
  | 2 =>
    change (if k / 16 < amt then 0 else t.getD (16 * (k / 16 - amt) + k % 16) 0) = if k / 16 < amt then 0 else t.getD (k - 16 * amt) 0
    refine if_ctx_congr Iff.rfl (fun _ => rfl) fun h => congrArg (t.getD · 0) ?_
    omega
  | n + 3 =>
    rw [if_neg (by omega), if_neg (by omega), if_neg (by omega)]
    change (if 16 ≤ k / 16 + amt then 0 else t.getD (16 * (k / 16 + amt) + k % 16) 0) = if 16 ≤ k / 16 + amt then 0 else t.getD (k + 16 * amt) 0
    refine if_ctx_congr Iff.rfl (fun _ => rfl) fun h => congrArg (t.getD · 0) ?_
    omega

theorem zipIdx_map_range {α : Type} (f : Nat → α) (n : Nat) :
    List.zipIdx ((List.range n).map f) = (List.range n).map fun k => (f k, k) :=
  List.ext_getElem (by simp) fun k _ _ => by simp

theorem replicate_eq_map_range {α : Type} (n : Nat) (x : α) : List.replicate n x = (List.range n).map fun _ => x :=
  List.ext_getElem (by simp) fun k _ _ => by simp

/-- The saturated value of an INT32 result, and whether it saturated (R139). -/
theorem satI32_eq (x : Int) : satI32 x = (BitVec.ofInt 32 (max (-2147483648) (min 2147483647 x)), max (-2147483648) (min 2147483647 x) != x) := by
  unfold satI32
  split
  · next h =>
    rw [max_eq_left (by omega)]
    refine Prod.ext (by decide : BitVec.ofNat 32 0x80000000 = BitVec.ofInt 32 (-2147483648)) ?_
    simp
    omega
  · split
    · next h =>
      rw [max_eq_right (by omega), min_eq_left (by omega)]
      refine Prod.ext (by decide : BitVec.ofNat 32 0x7FFFFFFF = BitVec.ofInt 32 2147483647) ?_
      simp
      omega
    · rw [min_eq_right (by omega), max_eq_right (by omega)]
      simp

open State in
/-- Settles O6: each word lands its elements; a mask's bit is the comparison of its element. -/
theorem vectorMovesAndMasks : Obligations.VectorMovesAndMasks := by
  refine ⟨fun i o => ?_, fun i o => ?_⟩
  · intro same a b put idx amt
    exact ⟨vecLands_plain _ (by decide) (fun _ => rfl) fun _ _ _ => rfl, vecLands_plain _ (by decide) (fun _ => rfl) fun _ _ _ => rfl,
      vecLands_plain _ (by decide) (fun _ => rfl) fun _ _ _ => rfl, vecLands_plain _ (by decide) (fun _ => rfl) fun _ _ _ => rfl,
      vecLands_plain _ (by decide) (fun _ => rfl) fun w p m => congrArg (fun t => w.tileResult i.lid.toNat p 6 o m i.mis t) (shiftTile_eq ..),
      vecLands_plain _ (by decide) (fun _ => rfl) fun _ _ _ => rfl,
      vecLands_plain _ (by decide) (fun _ => rfl) fun w p m =>
        congrArg (fun t => w.tileResult i.lid.toNat p 6 o m i.mis t) (replicate_eq_map_range 256 _)⟩
  · intro lid same cond logic
    refine ⟨fun f k => getLsbD_maskOf f, ?_, ?_, ?_, ?_, ?_⟩
    all_goals exact vecLands_plain _ (by decide) (fun _ => rfl) fun _ _ _ => rfl

namespace State

/-- An INT32 operation clips its results and counts the unmasked ones that it clipped (R139, R144). -/
theorem satTile_eq (d : Nat) (f : Nat → Int) (o : VecWord) (ms : List Mishap) (s : State) (lid p : Nat) (m : BitVec 256) :
    let clip (x : Int) : Int := max (-2147483648) (min 2147483647 x)
    let n := ((List.range 256).filter fun k => m.getLsbD k && clip (f k) != f k).length
    satTile d f o ms s lid p m = (if n = 0 then s else s.incF (F.VEC_SAT_COUNT.COUNT lid) n).landLater lid (p + d)
      (.tile o.td.toNat (flipped ms ((List.range 256).map fun k => BitVec.ofInt 32 (clip (f k)))) m o.mz) := by
  have hn : ((List.zipIdx ((List.range 256).map fun i => satI32 (f i))).filter fun r => r.1.2 && m.getLsbD r.2).length =
      ((List.range 256).filter fun k => m.getLsbD k && max (-2147483648) (min 2147483647 (f k)) != f k).length := by
    rw [zipIdx_map_range, List.filter_map, List.length_map]
    simp only [Function.comp_def, satI32_eq, Bool.and_comm]
  have hmap : ((List.range 256).map fun i => satI32 (f i)).map (·.1) =
      (List.range 256).map fun k => BitVec.ofInt 32 (max (-2147483648) (min 2147483647 (f k))) := by
    simp only [List.map_map, Function.comp_def, satI32_eq]
  intro clip n
  unfold satTile
  dsimp only
  rw [hn, hmap]
  rfl

/-- An INT32 reduction, likewise, of sixteen rows or columns. -/
theorem reduceInts_eq (byRow : Bool) (o : VecWord) (ms : List Mishap) (s : State) (lid p : Nat) (m : BitVec 256) :
    let xs (k : Nat) := if byRow then rowElems m (s.tileAt lid o.ta.toNat) k else colElems m (s.tileAt lid o.ta.toNat) k
    let clip (x : Int) : Int := max (-2147483648) (min 2147483647 x)
    let n := ((List.range 16).filter fun k => m.getLsbD (if byRow then 16 * k else k) && clip (sumInts (xs k)) != sumInts (xs k)).length
    let ints := (List.range 16).map fun k => BitVec.ofInt 32 (clip (sumInts (xs k)))
    reduceInts byRow o ms s lid p m = (if n = 0 then s else s.incF (F.VEC_SAT_COUNT.COUNT lid) n).landLater lid (p + 10)
      (.tile o.td.toNat (flipped ms (if byRow then inColumn0 ints else inRow0 ints)) m o.mz) := by
  intro xs clip n ints
  have hn : ((List.zipIdx ((List.range 16).map fun k => satI32 (sumInts (xs k)))).filter fun r =>
      r.1.2 && m.getLsbD (if byRow then 16 * r.2 else r.2)).length = n := by
    rw [zipIdx_map_range, List.filter_map, List.length_map]
    simp only [Function.comp_def, satI32_eq, Bool.and_comm]
    rfl
  have hmap : ((List.range 16).map fun k => satI32 (sumInts (xs k))).map (·.1) = ints := by
    simp only [List.map_map, Function.comp_def, satI32_eq]
    rfl
  unfold reduceInts
  dsimp only
  change State.tileResult (if ((List.zipIdx ((List.range 16).map fun k => satI32 (sumInts (xs k)))).filter fun r =>
      r.1.2 && m.getLsbD (if byRow then 16 * r.2 else r.2)).length = 0 then s else s.incF (F.VEC_SAT_COUNT.COUNT lid) _) lid p dReduce o m ms
    (if byRow then inColumn0 (((List.range 16).map fun k => satI32 (sumInts (xs k))).map (·.1))
      else inRow0 (((List.range 16).map fun k => satI32 (sumInts (xs k))).map (·.1))) = _
  rw [hn, hmap]
  rfl

/-- A count in a register moves no plot and no step. -/
theorem counted_frame (s : State) (f : Fld) (n : Nat) :
    (if n = 0 then s else s.incF f n).plots = s.plots ∧ (if n = 0 then s else s.incF f n).step = s.step := by
  split <;> exact ⟨rfl, rfl⟩

theorem countConv_frame (s : State) (lid : Nat) (cs : List Conv) :
    (s.countConv lid cs).plots = s.plots ∧ (s.countConv lid cs).step = s.step :=
  ⟨(usesCache_countConv s lid cs).plots_eq, (usesCache_countConv s lid cs).step_eq⟩

end State

open State in
/-- Settles O7: sums and products land clipped and counted, the other words as they are. -/
theorem vectorIntegers : Obligations.VectorIntegers := by
  intro i o lid same a b c clip count sat two one sh
  refine ⟨?_, ?_, ?_, ?_, ?_, ?_, ?_, ?_, ?_, ?_, ?_, ?_⟩
  iterate 4 exact vecLands_of _ (by decide) (fun _ => rfl) (fun w p m => satTile_eq ..) fun w m => counted_frame ..
  all_goals exact vecLands_plain _ (by decide) (fun _ => rfl) fun _ _ _ => rfl

namespace State

/-- A conversion counts over the unmasked elements and lands the converted bits (R121). -/
theorem convTile_eq (f : BitVec 32 → Conv) (o : VecWord) (ms : List Mishap) (s : State) (lid p : Nat) (m : BitVec 256) :
    convTile f o ms s lid p m = (s.countConv lid ((List.zipIdx ((s.tileAt lid o.ta.toNat).map f)).filter (fun c => m.getLsbD c.2) |>.map (·.1))).landLater
      lid (p + 6) (.tile o.td.toNat (flipped ms ((s.tileAt lid o.ta.toNat).map fun x => BitVec.ofNat 32 (f x).bits)) m o.mz) := by
  unfold convTile
  simp only [List.map_map]
  rfl

end State

open State in
/-- Settles O8: each word lands its function of the elements; the two conversions count what saturated or was not finite. -/
theorem vectorFloats : Obligations.VectorFloats := by
  intro i o lid same two one conv toInt toFloat
  refine ⟨?_, ?_, ?_, ?_, ?_, ?_, ?_, ?_, ?_, ?_⟩
  iterate 8 exact vecLands_plain _ (by decide) (fun _ => rfl) fun _ _ _ => rfl
  all_goals exact vecLands_of _ (by decide) (fun _ => rfl) (fun w p m => convTile_eq ..) fun w m => countConv_frame ..

namespace State

variable (k slot : Nat) (o : VecWord) (s : State) (lid p : Nat) (m : BitVec 256)

theorem summaryOp_float (h : VecWordExt o 0 1 = 0) :
    summaryOp k slot o s lid p m = s.landLater lid (p + 12) (.greg o.td.toNat (summaryF32 k (unmasked m (s.tileAt lid o.ta.toNat)))) :=
  if_pos h

theorem summaryOp_int (h : VecWordExt o 0 1 = 1) (hk : k ≠ 5) :
    summaryOp k slot o s lid p m = s.landLater lid (p + 12) (.greg o.td.toNat (summaryI32 k (unmasked m (s.tileAt lid o.ta.toNat)))) :=
  (if_neg (by omega)).trans (if_neg hk)

end State

open State in
/-- Settles O9: a reduction or a summary lands what its class computes; TYPE picks the summary's arithmetic (R141, R171). -/
theorem vectorReductionsAndSummaries : Obligations.VectorReductionsAndSummaries := by
  refine ⟨fun i o => ?_, fun i o => ?_⟩
  · intro lid same row col put clip count ints
    exact ⟨vecLands_plain _ (by decide) (fun _ => rfl) fun _ _ _ => rfl, vecLands_plain _ (by decide) (fun _ => rfl) fun _ _ _ => rfl,
      vecLands_plain _ (by decide) (fun _ => rfl) fun _ _ _ => rfl, vecLands_plain _ (by decide) (fun _ => rfl) fun _ _ _ => rfl,
      vecLands_of _ (by decide) (fun _ => rfl) (fun w p m => reduceInts_eq true ..) fun w m => counted_frame ..,
      vecLands_of _ (by decide) (fun _ => rfl) (fun w p m => reduceInts_eq false ..) fun w m => counted_frame ..⟩
  · intro lid same xs reg typ wide n k
    refine ⟨fun h => ?_, fun h => ?_, ?_, ?_, ?_⟩
    · refine ⟨?_, ?_, ?_, ?_, ?_, ?_, ?_⟩
      all_goals exact vecLands_plain _ (by decide) (fun _ => rfl) fun _ _ _ => summaryOp_float (h := h) ..
    · refine ⟨?_, ?_, ?_, ?_, ?_, ?_⟩
      all_goals exact vecLands_plain _ (by decide) (fun _ => rfl) fun _ _ _ => summaryOp_int (h := h) (hk := by decide) ..
    · exact vecLands_plain _ (by decide) (fun _ => rfl) fun _ _ _ => rfl
    · exact vecLands_plain _ (by decide) (fun _ => rfl) fun _ _ _ => rfl
    · exact vecLands_plain _ (by decide) (fun _ => rfl) fun _ _ _ => rfl

end Sys2Proof.Machine

namespace Sys2Proof.Machine.NSet

/-! ### Sets of numbers -/

@[simp] theorem mem_insert_self (s : NSet) (k : Nat) : NSet.mem (NSet.insert s k) k = true := by
  simp [NSet.mem, NSet.insert, SMap.find?_put_same _ _ _ (SMap.find?_drop_same s k)]

theorem mem_insert_other (s : NSet) {j k : Nat} (h : j ≠ k) : NSet.mem (NSet.insert s k) j = NSet.mem s j := by
  simp [NSet.mem, NSet.insert, SMap.find?_put_other _ _ h, SMap.find?_drop_other _ h]

@[simp] theorem mem_erase_self (s : NSet) (k : Nat) : NSet.mem (NSet.erase s k) k = false := by simp [NSet.mem, NSet.erase]

theorem mem_erase_other (s : NSet) {j k : Nat} (h : j ≠ k) : NSet.mem (NSet.erase s k) j = NSet.mem s j := by
  simp [NSet.mem, NSet.erase, SMap.find?_drop_other _ h]

end Sys2Proof.Machine.NSet

namespace Sys2Proof.Machine
namespace State

/-! ### The clocks of the regions (R28, R29, R32) -/

section
variable (s : State) (a : FaultArgs)

@[simp] theorem raise_time : (s.raise a).time = s.time := by rw [raise_eq]
@[simp] theorem raise_recs : (s.raise a).recs = s.recs ++ [s.faultRecord a] := by rw [raise_eq]
@[simp] theorem raise_step : (s.raise a).step = s.faultStep a := by rw [raise_eq]
@[simp] theorem running_raise : (s.raise a).running = s.running := by simp [running]

end

/-- The eighths of a period by which the generator stretches it, from the lowest code it has read. -/
def periodAdd (s : State) (n : Nat) : Nat :=
  if s.getF (F.MARGIN_NOW.LOWEST n) < s.getF (F.CLK_CFG.MARGIN_FLOOR n) then 8
  else if s.getF (F.MARGIN_NOW.LOWEST n) < s.getF (F.CLK_CFG.STRETCH_THRESH n) then 4 else 0

/-- A stretch counts, marks a full one, and delays the plots of a furrow whose slots run. -/
theorem stretchPeriod_eq (s : State) (n : Nat) : s.stretchPeriod n =
    { (if s.periodAdd n = 0 then s else s.incF (F.STRETCH_COUNT.COUNT n) 1) with
      time := { s.time with full := if s.periodAdd n = 8 then NSet.insert s.time.full n else NSet.erase s.time.full n }
      step := if s.periodAdd n ≠ 0 ∧ (s.running && !s.step.judged) = true then
          { s.step with stretch := SMap.modify 0 s.step.stretch n (· + s.periodAdd n) } else s.step } := by
  have hunfold : s.stretchPeriod n =
      let add := s.periodAdd n
      let t : State := { s with time := { s.time with full := if add = 8 then NSet.insert s.time.full n else NSet.erase s.time.full n } }
      if add = 0 then t
      else
        let t := t.incF (F.STRETCH_COUNT.COUNT n) 1
        if s.running && !s.step.judged then { t with step := { t.step with stretch := SMap.modify 0 t.step.stretch n (· + add) } }
        else t := rfl
  rw [hunfold]
  by_cases h0 : s.periodAdd n = 0
  · rw [if_pos h0, if_pos h0, if_neg (fun h : s.periodAdd n ≠ 0 ∧ (s.running && !s.step.judged) = true => h.1 h0)]
  · by_cases hslots : (s.running && !s.step.judged) = true
    · rw [if_neg h0, if_neg h0, if_pos (And.intro h0 hslots)]
      exact if_pos hslots
    · rw [if_neg h0, if_neg h0, if_neg (fun h : s.periodAdd n ≠ 0 ∧ (s.running && !s.step.judged) = true => hslots h.2)]
      exact if_neg hslots

theorem get_modify_same (m : SMap Nat) (k : Nat) (f : Nat → Nat) : SMap.get 0 (SMap.modify 0 m k f) k = f (SMap.get 0 m k) :=
  SMap.get_set_same ..

/-- What the registers read after the monitors of region `n` (which has an 8-bit number) have been read. -/
theorem getF_readMonitors (s : State) {n : Nat} (codes : BitVec 32) {low : Nat}
    (hlow : ([0, 8, 16, 24].map fun i => bitsOf codes.toNat i 8).foldl min 255 = low) :
    (s.readMonitors n codes).getF (F.MARGIN_NOW.CODES n) = codes.toNat ∧ (s.readMonitors n codes).getF (F.MARGIN_NOW.LOWEST n) = low ∧
      s.fieldsBut (s.readMonitors n codes) [F.MARGIN_NOW.CODES n, F.MARGIN_NOW.LOWEST n] := by
  have hleast : low < 2 ^ 8 := by
    subst hlow
    simp only [List.map_cons, List.map_nil, List.foldl_cons, List.foldl_nil]
    omega
  have hread : s.readMonitors n codes = { ((s.keepF (F.MARGIN_NOW.CODES n) codes.toNat).keepF (F.MARGIN_NOW.LOWEST n) low) with
      step := (s.readMonitors n codes).step } := by
    subst hlow
    rfl
  have hkeep (f : Fld) : (s.readMonitors n codes).getF f =
      ((s.keepF (F.MARGIN_NOW.CODES n) codes.toNat).keepF (F.MARGIN_NOW.LOWEST n) low).getF f := by
    rw [hread]
    rfl
  refine ⟨?_, ?_, fun f hf => ?_⟩
  · rw [hkeep, getF_keepF_other _ _ (by simp only [Fld.key, F.MARGIN_NOW.CODES, F.MARGIN_NOW.LOWEST]; omega), getF_keepF_same]
    exact Nat.mod_eq_of_lt codes.isLt
  · rw [hkeep, getF_keepF_same]
    exact Nat.mod_eq_of_lt hleast
  · rw [hkeep, getF_keepF_other _ _ (hf _ (by simp)), getF_keepF_other _ _ (hf _ (by simp))]

theorem periodAdd_congr {s t : State} (h : ∀ f, t.getF f = s.getF f) (n : Nat) : t.periodAdd n = s.periodAdd n := by
  simp only [periodAdd, h]

/-- A margin fault leaves its record, and marks an attempt. -/
theorem raiseMargin_eq (s : State) (n : Nat) : ∃ a : FaultArgs, s.raiseMargin n = s.raise a ∧ a.code = 0x0501 ∧
    a.unit = some (unitRegion, n) ∧ a.abandons = true ∧ ∃ m < 4, a.detail = s.getF (F.MARGIN_NOW.LOWEST n) + m * 256 := by
  refine ⟨_, rfl, rfl, rfl, rfl, _, ?_, rfl⟩
  cases hfind : (List.range 4).find? fun i => bitsOf (s.getF (F.MARGIN_NOW.CODES n)) (8 * i) 8 == s.getF (F.MARGIN_NOW.LOWEST n) with
  | none => decide
  | some i => exact List.mem_range.1 (List.mem_of_find?_eq_some hfind)

end State

open State in
/-- Settles O21: the monitors are read into the registers of the region, a bad reading raises its fault, and the stretch
counts and delays plots only while the slots of a furrow run (R28, R29, R32). -/
theorem localClocks : Obligations.LocalClocks := by
  intro s n codes k low floor thresh add derated bad counts c hc
  have hexec : exec c s = .next (s.after (s.beforePeriod k codes)) := by
    simp only [List.mem_cons, List.not_mem_nil, or_false] at hc
    rcases hc with rfl | rfl <;> rfl
  refine ⟨_, hexec, ?_⟩
  have hk : k < 256 := n.isLt
  obtain ⟨hcodes, hlowest, hkept⟩ := s.getF_readMonitors codes (low := low) (n := k) rfl
  have hr : (s.readMonitors k codes).time = s.time ∧ (s.readMonitors k codes).recs = s.recs ∧
      (s.readMonitors k codes).step.fault = s.step.fault ∧ (s.readMonitors k codes).step.stretch = s.step.stretch ∧
      (s.readMonitors k codes).step.judged = s.step.judged ∧ (s.readMonitors k codes).step.phase = s.step.phase := ⟨rfl, rfl, rfl, rfl, rfl, rfl⟩
  have hbefore : s.beforePeriod k codes =
      let m := if (s.readMonitors k codes).marginBad k then (s.readMonitors k codes).raiseMargin k else s.readMonitors k codes
      if m.getF F.FURROW_CFG.CLOCK_POLICY = 1 then m else m.stretchPeriod k := rfl
  rw [hbefore]
  generalize s.readMonitors k codes = r at *
  obtain ⟨htime, hrecs, hfault, hstretch, hjudged, hphase⟩ := hr
  have hfloor : r.getF (F.CLK_CFG.MARGIN_FLOOR k) = floor := hkept _ (by simp [Fld.key, F.CLK_CFG.MARGIN_FLOOR, F.MARGIN_NOW.CODES, F.MARGIN_NOW.LOWEST]; omega)
  have hthresh : r.getF (F.CLK_CFG.STRETCH_THRESH k) = thresh := hkept _ (by simp [Fld.key, F.CLK_CFG.STRETCH_THRESH, F.MARGIN_NOW.CODES, F.MARGIN_NOW.LOWEST]; omega)
  have hpolicy : r.getF F.FURROW_CFG.CLOCK_POLICY = s.getF F.FURROW_CFG.CLOCK_POLICY := hkept _ (by simp [Fld.key, F.FURROW_CFG.CLOCK_POLICY, F.MARGIN_NOW.CODES, F.MARGIN_NOW.LOWEST]; omega)
  have hcount : r.getF (F.STRETCH_COUNT.COUNT k) = s.getF (F.STRETCH_COUNT.COUNT k) := hkept _ (by simp [Fld.key, F.STRETCH_COUNT.COUNT, F.MARGIN_NOW.CODES, F.MARGIN_NOW.LOWEST]; omega)
  have hadd : r.periodAdd k = add := by rw [periodAdd, hlowest, hfloor, hthresh]
  have hbad : r.marginBad k = true ↔ bad := by simp [marginBad, hlowest, hfloor, hpolicy, htime, bad, derated]
  have hlow : low < 256 := by
    simp only [low, List.map_cons, List.map_nil, List.foldl_cons, List.foldl_nil]
    omega
  have hin : r.inAttempt = s.inAttempt := by simp [inAttempt, hphase]
  obtain ⟨m, hm, hmF, hmtime, hmrun, hmjudged, hmstretch, hmbad, hmgood⟩ : ∃ m : State,
      (if r.marginBad k then r.raiseMargin k else r) = m ∧ (∀ f, m.getF f = r.getF f) ∧ m.time = s.time ∧
      m.running = s.running ∧ m.step.judged = s.step.judged ∧ m.step.stretch = s.step.stretch ∧
      (bad → ∃ x, m.recs = s.recs ++ [x] ∧ x.code = 0x0501 ∧ x.unit = some (unitRegion, k) ∧ bitsOf x.d6 0 8 = low ∧
        (s.inAttempt = true → x.abandoned = true ∧ m.step.fault.isSome = true)) ∧
      (¬ bad → m.recs = s.recs ∧ m.step.fault = s.step.fault) := by
    by_cases hb : bad
    · obtain ⟨a, ha, hcode, hunit, hab, i, hi, hdetail⟩ := r.raiseMargin_eq k
      obtain ⟨fc, hstep⟩ := r.faultStep_eq a
      refine ⟨r.raise a, by rw [if_pos (hbad.2 hb), ha], by simp, by simp [htime], by simp [running, hphase], by simp [hstep, hjudged],
        by simp [hstep, hstretch], fun _ => ⟨r.faultRecord a, by simp [hrecs], hcode, hunit, ?_, fun h => ?_⟩, fun h => absurd hb h⟩
      · have hd6 : (r.faultRecord a).d6 = low + i * 256 := hdetail.trans (by rw [hlowest])
        rw [hd6, bitsOf_eq]
        omega
      · simp [faultRecord, hstep, hab, hin, h]
    · exact ⟨r, by rw [if_neg (mt hbad.1 hb)], fun _ => rfl, htime, by simp [running, hphase], hjudged, hstretch, fun h => absurd h hb,
        fun _ => ⟨hrecs, hfault⟩⟩
  simp only [hm]
  have hmadd : m.periodAdd k = add := by rw [periodAdd_congr hmF, hadd]
  have hmpolicy : m.getF F.FURROW_CFG.CLOCK_POLICY = s.getF F.FURROW_CFG.CLOCK_POLICY := by rw [hmF, hpolicy]
  have hcodes' : m.getF (F.MARGIN_NOW.CODES k) = codes.toNat := by rw [hmF, hcodes]
  have hlowest' : m.getF (F.MARGIN_NOW.LOWEST k) = low := by rw [hmF, hlowest]
  have hcount' : m.getF (F.STRETCH_COUNT.COUNT k) = s.getF (F.STRETCH_COUNT.COUNT k) := by rw [hmF, hcount]
  by_cases hd : derated
  · rw [if_pos (hmpolicy.trans hd)]
    exact ⟨hcodes', hlowest', hmbad, hmgood, by simp [counts, hd, hmstretch], by simp [hd, hmtime], by simp [hd, hcount']⟩
  · rw [if_neg (fun h => hd (hmpolicy.symm.trans h)), stretchPeriod_eq, hmadd]
    have hfull : add = 8 ↔ low < floor := by
      simp only [add]
      split_ifs <;> simp_all
    obtain ⟨v, hv, hvrecs, hvF, hvcount⟩ : ∃ v : State, (if add = 0 then m else m.incF (F.STRETCH_COUNT.COUNT k) 1) = v ∧ v.recs = m.recs ∧
        (∀ f : Fld, f.key ≠ (F.STRETCH_COUNT.COUNT k).key → v.getF f = m.getF f) ∧
        v.getF (F.STRETCH_COUNT.COUNT k) = if add = 0 then s.getF (F.STRETCH_COUNT.COUNT k) else (s.getF (F.STRETCH_COUNT.COUNT k) + 1) % 2 ^ 48 := by
      by_cases h0 : add = 0
      · exact ⟨m, if_pos h0, rfl, fun _ _ => rfl, by rw [if_pos h0, hcount']⟩
      · exact ⟨_, if_neg h0, rfl, fun f hf => getF_incF_other _ _ hf, by rw [if_neg h0, getF_incF_same, hcount']; rfl⟩
    rw [hv, hmrun, hmjudged]
    refine ⟨(hvF _ (by simp only [Fld.key, F.STRETCH_COUNT.COUNT, F.MARGIN_NOW.CODES]; omega)).trans hcodes',
      (hvF _ (by simp only [Fld.key, F.STRETCH_COUNT.COUNT, F.MARGIN_NOW.LOWEST]; omega)).trans hlowest', ?_, ?_, ?_, ?_, ?_⟩
    · intro hb
      obtain ⟨x, hx, hcode, hunit, hd6, hab⟩ := hmbad hb
      refine ⟨x, hvrecs.trans hx, hcode, hunit, hd6, fun h => ⟨(hab h).1, ?_⟩⟩
      split_ifs <;> exact (hab h).2
    · intro hb
      refine ⟨hvrecs.trans (hmgood hb).1, ?_⟩
      split_ifs <;> exact (hmgood hb).2
    · by_cases hslots : s.running = true ∧ s.step.judged = false
      · rw [if_pos (show counts from ⟨hd, hslots⟩)]
        by_cases h0 : add = 0
        · simp [h0, hmstretch]
        · rw [if_pos (And.intro h0 (by simp [hslots.1, hslots.2])), get_modify_same, hmstretch]
      · rw [if_neg (show ¬ counts from fun h => hslots h.2), if_neg (fun h : add ≠ 0 ∧ (s.running && !s.step.judged) = true =>
          hslots (by simpa using h.2)), hmstretch, Nat.add_zero]
    · rw [if_neg hd, hmtime, ← hfull]
      split_ifs with h8 <;> simp [h8]
    · exact hvcount.trans (by simp [hd])

namespace State

/-! ### The sampling of the grant (R24) -/

/-- A predicate that every step of a fold keeps holds of its result. -/
theorem foldl_keeps {β : Type} (P : State → Prop) {f : State → β → State} (hf : ∀ s x, P s → P (f s x)) (xs : List β) (s : State) (h : P s) :
    P (xs.foldl f s) := by
  induction xs generalizing s with
  | nil => exact h
  | cons x xs ih => exact ih _ (hf s x h)

/-- The keys below those of the sowing channels. -/
def sowKeys : Nat := 0x100000090000 * 64

/-- `t` is `s` but for counts of the sowing channels, records that wait and messages to the twin. -/
def SowCounted (s t : State) : Prop :=
  { t with regs := s.regs, base := s.base, recs := s.recs, twin := s.twin } = s ∧ ∀ f : Fld, f.key < sowKeys → t.getF f = s.getF f

theorem SowCounted.trans {s t u : State} (h : s.SowCounted t) (k : t.SowCounted u) : s.SowCounted u :=
  ⟨(congrArg (fun v : State => { v with regs := s.regs, base := s.base, recs := s.recs, twin := s.twin }) k.1).trans h.1,
    fun f hf => (k.2 f hf).trans (h.2 f hf)⟩

theorem sowCounted_measureLate (s : State) (m k : Nat) : s.SowCounted (s.measureLate m k) := by
  refine foldl_keeps (fun t => s.SowCounted t) (fun t e ht => ?_) _ s ⟨rfl, fun _ _ => rfl⟩
  split
  · exact ht
  · dsimp only
    split
    · exact ht.trans ⟨rfl, fun f hf => getF_incLive_other _ _ (by simp only [sowKeys, Fld.key, F.LATE.COUNT] at *; omega)⟩
    · exact ht

theorem sowCounted_twinSend (s : State) (b : TwinBody) : s.SowCounted (s.twinSend b) := by
  unfold twinSend
  split <;> exact ⟨rfl, fun _ _ => rfl⟩

theorem sowCounted_announce (s : State) (b : Nat) : s.SowCounted (s.announce b) := by
  unfold announce
  split
  · exact sowCounted_twinSend ..
  · exact ⟨rfl, fun _ _ => rfl⟩

/-- The terms that are sampled stand in the register, and what the step waits for beside. -/
def termsLatched (s : State) : State := { s.keepF F.GRANT_STATUS.TERMS (s.terms s.nextBoundary) with
  time := { s.time with sampled := true }
  step := { s.step with
    copyHeld := s.stepTerm && !bitOf (s.terms s.nextBoundary) 3
    wakeHeld := if s.stepTerm then (s.keepF F.GRANT_STATUS.TERMS (s.terms s.nextBoundary)).wakeHolders s.step.granted else [] } }

theorem sowCounted_granted (s : State) (m k b : Nat) : s.SowCounted ((s.measureLate m k).announce b) :=
  (sowCounted_measureLate ..).trans (sowCounted_announce ..)

/-- A grant is announced and what it sows is timed. -/
theorem sowCounted_sampleTerms {s : State} (h : (s.followsTwin && !s.running) = false) : s.termsLatched.SowCounted s.sampleTerms := by
  have hunfold : s.sampleTerms = if s.followsTwin && !s.running then { s with time := { s.time with sampled := true } } else
      if s.terms s.nextBoundary = 255 then
        (s.termsLatched.measureLate s.termsLatched.meridian s.step.granted).announce s.nextBoundary else s.termsLatched := rfl
  rw [hunfold, if_neg (by simp [h])]
  split
  · exact sowCounted_granted ..
  · exact ⟨rfl, fun _ _ => rfl⟩

theorem terms_lt (s : State) (b : Nat) : s.terms b < 256 := by
  have h (x : Bool) : b2n x ≤ 1 := by cases x <;> decide
  unfold terms
  dsimp only
  have h0 := h s.stepTerm
  have h1 := h (!s.stepTerm || s.sownTerm s.meridian s.step.granted)
  have h2 := h (!s.stepTerm || s.twinTerm s.step.granted)
  have h3 := h (!s.stepTerm || s.copyTerm)
  have h4 := h (!s.stepTerm || (s.wakeHolders s.step.granted).isEmpty)
  have h5 := h (s.pacePermits (s.getF F.PACE_STATUS.EFFECTIVE) b)
  have h6 := h s.locked
  omega

end State

open State in
/-- Settles O18: with the counter at the sampling point, the terms of the coming boundary are latched in GRANT_STATUS
(R23, R24, R27). -/
theorem grantSample : Obligations.GrantSample := by
  intro s href hsampled at0 v
  have hexec : exec .grantSample s = .next (s.after v.sampleTerms) := by
    have hgrant : s.grantSample = v.sampleTerms := by
      rw [State.grantSample, if_pos (by simp [href, hsampled])]
    rw [← hgrant]
    rfl
  have hv : v.step = s.step ∧ ∀ f : Fld, f.key ≠ F.MERIDIAN_COUNT.COUNT.key → v.getF f = s.getF f := by
    simp only [v]
    split
    · exact ⟨rfl, fun f hf => getF_keepF_other _ _ hf⟩
    · exact ⟨rfl, fun _ _ => rfl⟩
  clear_value v
  obtain ⟨hstep, hregs⟩ := hv
  refine ⟨fun h => ⟨_, hexec, ?_⟩, fun h => ⟨_, hexec, ?_⟩⟩
  · rw [sampleTerms, if_pos h]
  · obtain ⟨hframe, hF⟩ := sowCounted_sampleTerms h
    have hterms : v.sampleTerms.getF F.GRANT_STATUS.TERMS = v.terms v.nextBoundary := by
      rw [hF _ (by decide)]
      exact (getF_keepF_same ..).trans (Nat.mod_eq_of_lt (terms_lt ..))
    have hreg (f : Fld) (hf : f.key < sowKeys) (hf' : f.key ≠ F.GRANT_STATUS.TERMS.key) : v.sampleTerms.getF f = v.getF f :=
      (hF f hf).trans (getF_keepF_other _ _ hf')
    have hstep' := (congrArg State.step hframe :)
    refine ⟨(congrArg (fun t => t.time.sampled) hframe :), ?_, ?_, hreg _ (by decide) (by decide), ?_, hterms, fun hon => ?_⟩
    · exact (congrArg StepSt.phase hstep').trans (congrArg StepSt.phase hstep : v.step.phase = _)
    · exact (congrArg StepSt.granted hstep').trans (congrArg StepSt.granted hstep : v.step.granted = _)
    · exact (hreg _ (by decide) (by decide)).trans (hregs _ (by decide))
    · have hoff : v.stepTerm = false := by rw [← hon, stepTerm, stepTerm, running, running, hstep]
      have hlocked : v.locked = s.locked := by rw [locked, locked, hregs _ (by decide)]
      rw [hterms, terms, hoff, hlocked, hregs F.PACE_STATUS.EFFECTIVE (by decide)]
      cases s.locked <;> cases v.pacePermits (s.getF F.PACE_STATUS.EFFECTIVE) v.nextBoundary <;> rfl

namespace State

/-! ### The lanes of the links (R213, R218, R237, R359) -/

/-- A live count saturates. -/
theorem getF_incLive_one (s : State) (f : Fld) : (s.incLive f 1).getF f = min (s.getF f + 1) (2 ^ f.width - 1) := by
  have h : min (s.getF f + 1) (2 ^ f.width - 1) < 2 ^ f.width := by
    have := Nat.two_pow_pos f.width
    omega
  rw [getF_incLive_same, satAdd, Nat.mod_eq_of_lt h]

/-- The keys of the registers that show the lanes and the twin link. -/
def linkKey (k : Nat) : Prop :=
  (F.LANE_STATUS.LOCKED 0).key ≤ k ∧ k < (F.LANE_STATUS.LOCKED 512).key ∨ k = F.SOW_STATUS.CHAN_UP.key ∨
    k = F.TWIN_STATUS.LINK_UP.key ∨ k = F.TWIN_LOCK_STATUS.LOCKED.key

/-- `t` is `s` but for the lanes, the twin link, and the registers that show them. -/
def LinksOnly (s t : State) : Prop :=
  { t with regs := s.regs, pub := s.pub, base := s.base, sow := { t.sow with lanes := s.sow.lanes }, twin := { t.twin with down := s.twin.down }, boot := { t.boot with gate := s.boot.gate, fallen := s.boot.fallen } } = s ∧
    ∀ f : Fld, ¬ linkKey f.key → t.getF f = s.getF f

namespace LinksOnly

variable {s t u : State}

theorem refl (s : State) : s.LinksOnly s := ⟨rfl, fun _ _ => rfl⟩

theorem trans (h : s.LinksOnly t) (k : t.LinksOnly u) : s.LinksOnly u :=
  ⟨(congrArg (fun v : State => { v with regs := s.regs, pub := s.pub, base := s.base, sow := { v.sow with lanes := s.sow.lanes }, twin := { v.twin with down := s.twin.down }, boot := { v.boot with gate := s.boot.gate, fallen := s.boot.fallen } }) k.1).trans h.1,
    fun f hf => (k.2 f hf).trans (h.2 f hf)⟩

theorem foldl {β : Type} {f : State → β → State} (xs : List β) (hf : ∀ (s : State), ∀ x ∈ xs, s.LinksOnly (f s x)) (s : State) :
    s.LinksOnly (xs.foldl f s) := by
  induction xs generalizing s with
  | nil => exact refl s
  | cons x xs ih => exact (hf s x (by simp)).trans (ih (fun s y hy => hf s y (by simp [hy])) _)

end LinksOnly

theorem linksOnly_nowF (s : State) {f : Fld} (hf : linkKey f.key) (v : Nat) : s.LinksOnly (s.nowF f v) :=
  ⟨rfl, fun _ hg => getF_nowF_other _ _ fun h => hg (h ▸ hf)⟩

theorem linksOnly_incLive (s : State) {f : Fld} (hf : linkKey f.key) (n : Nat) : s.LinksOnly (s.incLive f n) :=
  ⟨rfl, fun _ hg => getF_incLive_other _ _ fun h => hg (h ▸ hf)⟩

theorem linksOnly_setLane (s : State) (l : Nat) (x : LaneSt) : s.LinksOnly (s.setLane l x) := ⟨rfl, fun _ _ => rfl⟩

theorem linksOnly_leaveGate (s : State) (l : Nat) : s.LinksOnly (s.leaveGate l) := by
  unfold leaveGate
  split <;> exact ⟨rfl, fun _ _ => rfl⟩

theorem linksOnly_showChan (s : State) (c : Nat) : s.LinksOnly (s.showChan c) := linksOnly_nowF s (.inr (.inl rfl)) _

theorem linkKey_lane {l : Nat} (hl : l < 512) : linkKey (F.LANE_STATUS.LOCKED l).key ∧ linkKey (F.LANE_STATUS.RETRAINS l).key := by
  simp only [linkKey, Fld.key, F.LANE_STATUS.LOCKED, F.LANE_STATUS.RETRAINS]
  omega

theorem linksOnly_loseLane (s : State) {l : Nat} (hl : l < 512) : s.LinksOnly (s.loseLane l) := by
  unfold loseLane
  split
  · exact ((((linksOnly_leaveGate s l).trans (linksOnly_nowF _ (linkKey_lane hl).1 _)).trans (linksOnly_incLive _ (linkKey_lane hl).2 _)).trans
      (linksOnly_setLane ..)).trans (linksOnly_showChan ..)
  · exact .refl s

theorem linksOnly_showTwinLink (s : State) : s.LinksOnly s.showTwinLink := by
  have hup := linksOnly_nowF s (f := F.TWIN_STATUS.LINK_UP) (.inr (.inr (.inl rfl)))
  unfold showTwinLink
  dsimp only
  split
  · exact hup _
  · exact (hup _).trans (linksOnly_nowF _ (.inr (.inr (.inr rfl))) _)

theorem linksOnly_loseTwinLanes (s : State) (ks : List Nat) : s.LinksOnly (s.loseTwinLanes ks) := by
  have hleave := LinksOnly.foldl ks (fun s k _ => linksOnly_leaveGate s (512 + k)) s
  have hdown (v : State) (x : NSet) : v.LinksOnly { v with twin := { v.twin with down := x } } := ⟨rfl, fun _ _ => rfl⟩
  exact hleave.trans ((hdown _ _).trans (linksOnly_showTwinLink _))

theorem linksOnly_loseLanes (s : State) : s.LinksOnly s.loseLanes :=
  (LinksOnly.foldl _ (fun s _ hl => linksOnly_loseLane s (List.mem_range.1 hl)) s).trans (linksOnly_loseTwinLanes ..)

/-! ### The loss of the meridian (R17-R19) -/

/-- The fault of a meridian loss. -/
def lossArgs (trigger : Nat) : FaultArgs := {
  code := 0x0405, srcType := srcModule, srcId := 0, detail := trigger, unit := some (unitHeadland, 0), classifiable := false }

/-- The loss is marked in the meridian domain. -/
def markLoss (s : State) : State :=
  { s with time := { s.time with loss := true, lossAt := s.meridian, refused := false, badFrames := 0, firstFrame := none } }

theorem meridianLoss_eq (s : State) (trigger : Nat) : s.meridianLoss trigger =
    if s.locked then
      ((((((s.keepF F.MERIDIAN_STATUS.LOCKED 0).incLive F.MERIDIAN_STATUS.LOSS_COUNT 1).markLoss).raise
        (lossArgs trigger)).loseLanes).endRestore outIncomplete).abandonAtOnce else s := by
  unfold meridianLoss lossArgs markLoss
  rfl

/-- What a module outside an attempt shows of a meridian that it has lost by a trigger. -/
structure MeridianLost (s t : State) (trigger : Nat) : Prop where
  unlocked : t.locked = false
  loss : t.time.loss = true
  count : t.getF F.MERIDIAN_STATUS.LOSS_COUNT = min (s.getF F.MERIDIAN_STATUS.LOSS_COUNT + 1) (2 ^ 16 - 1)
  record : ∃ r, t.recs = s.recs ++ [r] ∧ r.code = 0x0405 ∧ r.d6 = trigger ∧ r.classifiable = false
  refRunning : t.time.refRunning = s.time.refRunning
  dusk : t.dusk = s.dusk
  step : t.step = s.step
  booting : t.booting = s.booting
  crcErrors : t.getF F.MERIDIAN_STATUS.CRC_ERR_COUNT = s.getF F.MERIDIAN_STATUS.CRC_ERR_COUNT

theorem endRestore_frame (s : State) (o : Nat) : { s.endRestore o with queues := s.queues, ckpt := s.ckpt } = s := by
  unfold endRestore
  split <;> rfl

/-- What the fall of the lanes and the end of a restore leave. -/
structure LanesLost (u t : State) : Prop where
  step : t.step = u.step
  time : t.time = u.time
  recs : t.recs = u.recs
  dusk : t.dusk = u.dusk
  obs : t.boot.obs = u.boot.obs
  other : ∀ f : Fld, ¬ linkKey f.key → t.getF f = u.getF f

theorem LinksOnly.lanesLost {u v t : State} (h : u.LinksOnly v) (ht : { t with queues := v.queues, ckpt := v.ckpt } = v) : u.LanesLost t := by
  obtain ⟨hv, hvF⟩ := h
  have htregs : t.regs = v.regs := (congrArg State.regs ht :)
  exact ⟨(congrArg State.step ht :).trans (congrArg State.step hv :), (congrArg State.time ht :).trans (congrArg State.time hv :),
    (congrArg State.recs ht :).trans (congrArg State.recs hv :), (congrArg State.dusk ht :).trans (congrArg State.dusk hv :),
    (congrArg (fun x => x.boot.obs) ht :).trans (congrArg (fun x => x.boot.obs) hv :),
    fun f hf => (getF_congr htregs f).trans (hvF f hf)⟩

theorem lanesLost (u : State) : u.LanesLost (u.loseLanes.endRestore outIncomplete) :=
  (linksOnly_loseLanes u).lanesLost (endRestore_frame ..)

/-- Outside an attempt the meridian's loss marks it, leaves its record, and takes the lanes and a restore that runs. -/
theorem meridianLost {s : State} (hlocked : s.locked = true) (hout : s.inAttempt = false) (trigger : Nat) :
    s.MeridianLost (s.meridianLoss trigger) trigger := by
  rw [meridianLoss_eq, if_pos hlocked]
  obtain ⟨c, hc⟩ : ∃ c, (s.keepF F.MERIDIAN_STATUS.LOCKED 0).incLive F.MERIDIAN_STATUS.LOSS_COUNT 1 = c := ⟨_, rfl⟩
  have hcount : c.getF F.MERIDIAN_STATUS.LOSS_COUNT = min (s.getF F.MERIDIAN_STATUS.LOSS_COUNT + 1) (2 ^ 16 - 1) := by
    rw [← hc, getF_incLive_one, getF_keepF_other _ _ (by decide)]
    rfl
  have hlock : c.getF F.MERIDIAN_STATUS.LOCKED = 0 := by
    rw [← hc, getF_incLive_other _ _ (by decide), getF_keepF_same]
    rfl
  have hother (f : Fld) (h1 : f.key ≠ F.MERIDIAN_STATUS.LOSS_COUNT.key) (h2 : f.key ≠ F.MERIDIAN_STATUS.LOCKED.key) :
      c.getF f = s.getF f := by rw [← hc, getF_incLive_other _ _ h1, getF_keepF_other _ _ h2]
  have hrest : { c with regs := s.regs, base := s.base } = s := by rw [← hc]; rfl
  rw [hc]
  clear hc
  have hcin : c.markLoss.inAttempt = false := by
    rw [inAttempt, show c.markLoss.step = s.step from (congrArg State.step hrest :)]
    exact hout
  obtain ⟨u, hu⟩ : ∃ u, c.markLoss.raise (lossArgs trigger) = u := ⟨_, rfl⟩
  have huframe : u = { c.markLoss with recs := c.recs ++ [c.markLoss.faultRecord (lossArgs trigger)] } := by
    rw [← hu, raise_eq, faultStep_outside hcin]
    rfl
  have hu' : u.inAttempt = false := by rw [← hu, inAttempt_raise, hcin]
  rw [hu]
  clear hu
  obtain ⟨htstep, httime, htrecs, htdusk, htobs, htF⟩ := u.lanesLost
  generalize u.loseLanes.endRestore outIncomplete = t at *
  have ht : t.abandonAtOnce = t := by
    rw [abandonAtOnce, show t.inAttempt = false by rw [inAttempt, htstep]; exact hu', Bool.false_and, if_neg Bool.false_ne_true]
  rw [ht]
  have hregs (f : Fld) (hf : ¬ linkKey f.key) : t.getF f = c.getF f := (htF f hf).trans (by rw [huframe]; rfl)
  have hrecs : t.recs = s.recs ++ [c.markLoss.faultRecord (lossArgs trigger)] := by
    rw [htrecs, huframe, ← show c.recs = s.recs from (congrArg State.recs hrest :)]
  refine ⟨?_, by rw [httime, huframe]; rfl, ?_, ⟨_, hrecs, rfl, rfl, rfl⟩, ?_, ?_, ?_, ?_, ?_⟩
  · rw [locked, hregs _ (by unfold linkKey; decide), hlock]
    rfl
  · rw [hregs _ (by unfold linkKey; decide), hcount]
  · rw [httime, huframe, ← show c.time = s.time from (congrArg State.time hrest :)]
    rfl
  · rw [htdusk, huframe, ← show c.dusk = s.dusk from (congrArg State.dusk hrest :)]
    rfl
  · rw [htstep, huframe, ← show c.step = s.step from (congrArg State.step hrest :)]
    rfl
  · rw [booting, booting, htobs, huframe, ← show c.boot.obs = s.boot.obs from (congrArg (fun x => x.boot.obs) hrest :),
      hregs _ (by unfold linkKey; decide), hother _ (by decide) (by decide)]
    rfl
  · rw [hregs _ (by unfold linkKey; decide), hother _ (by decide) (by decide)]

/-- The frame's epoch edge is reached; a holdover frame is noted. -/
def frameHeard (s : State) (n : Nat) (f : Frame) : State :=
  let s := ({ s with time := { s.time with refRunning := true } }).elapse n
  if f.ok && f.holdover then
    { (s.keepF F.MERIDIAN_STATUS.HOLDOVER_SEEN 1) with time := { s.time with holdoverFrames := s.time.holdoverFrames + 1 } }
  else s

theorem frameHeard_frame (s : State) (n : Nat) (f : Frame) :
    let t := s.frameHeard n f
    (∀ g : Fld, g.key ≠ F.MERIDIAN_COUNT.COUNT.key → g.key ≠ F.MERIDIAN_STATUS.HOLDOVER_SEEN.key → t.getF g = s.getF g) ∧
      t.time.badFrames = s.time.badFrames ∧ t.time.firstFrame = s.time.firstFrame ∧
      { t with regs := s.regs, base := s.base, time := s.time } = s := by
  obtain ⟨r, hr⟩ : ∃ r : State, r = { s with time := { s.time with refRunning := true } } := ⟨_, rfl⟩
  have hrF (g : Fld) : r.getF g = s.getF g := by rw [hr]; rfl
  have hrframe : { r with time := s.time } = s ∧ r.time = { s.time with refRunning := true } := by rw [hr]; exact ⟨rfl, rfl⟩
  have hunfold : s.frameHeard n f =
      let s := r.elapse n
      if f.ok && f.holdover then
        { (s.keepF F.MERIDIAN_STATUS.HOLDOVER_SEEN 1) with time := { s.time with holdoverFrames := s.time.holdoverFrames + 1 } }
      else s := by rw [hr]; rfl
  have helapse : r.elapse n = r.keepF F.MERIDIAN_COUNT.COUNT (r.meridian + n) := by rw [elapse, if_pos (by rw [hrframe.2])]
  rw [hunfold, helapse]
  dsimp only
  obtain ⟨hsame, htime⟩ := hrframe
  have hF (g : Fld) (h1 : g.key ≠ F.MERIDIAN_COUNT.COUNT.key) :
      (r.keepF F.MERIDIAN_COUNT.COUNT (r.meridian + n)).getF g = s.getF g := (getF_keepF_other _ _ h1).trans (hrF g)
  split
  · exact ⟨fun g h1 h2 => (getF_keepF_other _ 1 h2).trans (hF g h1), congrArg (·.badFrames) htime, congrArg (·.firstFrame) htime, 
      (congrArg (fun t : State => { t with regs := s.regs, base := s.base }) hsame :)⟩
  · exact ⟨fun g h1 _ => hF g h1, congrArg (·.badFrames) htime, congrArg (·.firstFrame) htime,
      (congrArg (fun t : State => { t with regs := s.regs, base := s.base }) hsame :)⟩

theorem lossStops_quiet (s : State) {t : State} (hdusk : t.dusk = none) (hboot : t.booting = false) : s.lossStops t = t := by
  have habort : s.lossAborts t = t := by simp [lossAborts, duskAbort, hdusk]
  have hrepeat : t.repeatPhase = t := by simp [repeatPhase, hboot]
  have hadvance : t.advanceBoot = t := by simp [advanceBoot, hboot]
  simp only [lossStops, habort, hrepeat, hadvance, ite_self]

theorem acquire_frame (s : State) : { s.acquire with boot := s.boot, hist := s.hist } = s ∧ s.acquire.boot.obs = s.boot.obs := by
  unfold acquire
  split
  · dsimp only
    split <;> exact ⟨rfl, rfl⟩
  · exact ⟨rfl, rfl⟩

/-- Outside bring-up and a dusk test a frame is heard, and the first count that is acquired is noted. -/
theorem meridianFrame_eq {s t : State} {n : Nat} {w : BitVec 128} (htol : s.inTol 4 = true) (ht : s.frame n w = t)
    (hdusk : t.dusk = none) (hboot : t.booting = false) : s.meridianFrame n w = t.acquire := by
  obtain ⟨hframe, hobs⟩ := t.acquire_frame
  have hboot' : t.acquire.booting = false := by
    have hregs : t.acquire.regs = t.regs := (congrArg State.regs hframe :)
    rw [booting, hobs, getF_congr hregs]
    exact hboot
  rw [meridianFrame, if_pos htol, ht, lossStops_quiet s hdusk hboot, advanceBoot, hboot', if_neg Bool.false_ne_true]

end State

open State in
/-- The index frames of a module outside bring-up, a dusk test and an attempt (R16-R19). -/
theorem meridianFrames (s : State) (n : BitVec 32) (w : BitVec 128) : 
    let v := ({ s with time := { s.time with refRunning := true } }).elapse n.toNat
    let f := Frame.read w
    let lost (u : State) : Prop := u.locked = false ∧ u.time.loss = true ∧
      u.getF F.MERIDIAN_STATUS.LOSS_COUNT = min (s.getF F.MERIDIAN_STATUS.LOSS_COUNT + 1) (2 ^ 16 - 1)
    s.inTol 4 = true → s.booting = false → s.dusk = none → s.inAttempt = false →
    (s.locked = true → f.ok = true → f.holdover = false → f.index = v.meridian →
      s.does (.meridianFrame n w) fun u =>
        { u with boot := v.boot, hist := v.hist } = { v with time := { v.time with badFrames := 0 } }) ∧
    (s.locked = true → f.ok = true → f.index ≠ v.meridian → s.does (.meridianFrame n w) lost) ∧
    (s.locked = true → f.ok = false →
      s.does (.meridianFrame n w) fun u =>
        u.getF F.MERIDIAN_STATUS.CRC_ERR_COUNT = min (s.getF F.MERIDIAN_STATUS.CRC_ERR_COUNT + 1) (2 ^ 16 - 1) ∧
        (s.time.badFrames = 0 → u.locked = true ∧ u.time.badFrames = 1) ∧ (0 < s.time.badFrames → lost u)) ∧
    (s.locked = false → f.ok = true → ∀ a, s.time.firstFrame = some a → f.index = a + 4096 →
      s.does (.meridianFrame n w) fun u => u.meridian = f.index ∧ u.locked = true ∧ u.time.loss = false ∧ u.time.firstFrame = none) := by
  intro v f lost htol hboot hdusk hout
  have hdoes (t : State) (ht : s.frame n.toNat w = t) (htdusk : t.dusk = none) (htboot : t.booting = false) (P : State → Prop)
      (hP : P t.acquire) : s.does (.meridianFrame n w) P := ⟨t.acquire, by rw [← meridianFrame_eq htol ht htdusk htboot]; rfl, hP⟩
  have hkept (t : State) (g : Fld) : t.acquire.getF g = t.getF g ∧ t.acquire.time = t.time := by
    have hframe := t.acquire_frame.1
    have hregs : t.acquire.regs = t.regs := (congrArg State.regs hframe :)
    exact ⟨getF_congr hregs g, (congrArg State.time hframe :)⟩
  obtain ⟨hF, hbad, hfirst, hframe⟩ := s.frameHeard_frame n.toNat f
  have hheard : s.frame n.toNat w =
      if !f.ok then
        let s := (s.frameHeard n.toNat f).incLive F.MERIDIAN_STATUS.CRC_ERR_COUNT 1
        if s.locked then
          let bad := s.time.badFrames + 1
          let s := { s with time := { s.time with badFrames := bad } }
          if 2 ≤ bad then s.meridianLoss 2 else s
        else { s with time := { s.time with firstFrame := none } }
      else if (s.frameHeard n.toNat f).locked then
        let s := { s.frameHeard n.toNat f with time := { (s.frameHeard n.toNat f).time with badFrames := 0 } }
        if f.index = s.meridian then s else s.meridianLoss 3
      else
        match (s.frameHeard n.toNat f).time.firstFrame with
        | some a => if f.index = a + 4096 then (s.frameHeard n.toNat f).relock f.index else (s.frameHeard n.toNat f).frameFirst f
        | none => (s.frameHeard n.toNat f).frameFirst f := rfl
  have hplain (hno : (f.ok && f.holdover) = false) : s.frameHeard n.toNat f = v := by
    rw [frameHeard, if_neg (by simp [hno])]
  have hmeridian : (s.frameHeard n.toNat f).meridian = v.meridian := by
    rw [frameHeard]
    split
    · exact getF_keepF_other (g := F.MERIDIAN_COUNT.COUNT) (f := F.MERIDIAN_STATUS.HOLDOVER_SEEN) _ 1 (by decide)
    · rfl
  generalize s.frameHeard n.toNat f = h at *
  have hlock : h.locked = s.locked := by rw [State.locked, State.locked, hF F.MERIDIAN_STATUS.LOCKED (by decide) (by decide)]
  have hrest : h.dusk = none ∧ h.inAttempt = false ∧ h.booting = false := by
    refine ⟨(congrArg State.dusk hframe :).trans hdusk, ?_, ?_⟩
    · rw [inAttempt, show h.step = s.step from (congrArg State.step hframe :)]
      exact hout
    · rw [booting, show h.boot = s.boot from (congrArg State.boot hframe :), hF _ (by decide) (by decide)]
      exact hboot
  obtain ⟨hhdusk, hhout, hhboot⟩ := hrest
  have hlost (m : State) (trigger : Nat) (hm : s.frame n.toNat w = m.meridianLoss trigger) (hmlock : m.locked = true)
      (hmout : m.inAttempt = false) (hmdusk : m.dusk = none) (hmboot : m.booting = false)
      (hmcount : m.getF F.MERIDIAN_STATUS.LOSS_COUNT = s.getF F.MERIDIAN_STATUS.LOSS_COUNT) :
      s.does (.meridianFrame n w) fun u => lost u ∧ u.getF F.MERIDIAN_STATUS.CRC_ERR_COUNT = m.getF F.MERIDIAN_STATUS.CRC_ERR_COUNT := by
    have hl := meridianLost hmlock hmout trigger
    refine hdoes _ hm (hl.dusk.trans hmdusk) (hl.booting.trans hmboot) _ ⟨⟨?_, ?_, ?_⟩, ?_⟩
    · rw [locked, (hkept _ _).1]
      exact hl.unlocked
    · rw [(hkept _ F.MERIDIAN_STATUS.LOCKED).2]
      exact hl.loss
    · rw [(hkept _ _).1, hl.count, hmcount]
    · rw [(hkept _ _).1]
      exact hl.crcErrors
  have hcalm (m : State) (hm : s.frame n.toNat w = m) (hmdusk : m.dusk = none) (hmobs : m.boot = s.boot)
      (hmstate : m.getF F.BOOT_STATUS.STATE = s.getF F.BOOT_STATUS.STATE) (P : State → Prop) (hP : P m.acquire) :
      s.does (.meridianFrame n w) P := hdoes m hm hmdusk (by rw [booting, hmobs, hmstate]; exact hboot) P hP
  refine ⟨fun hl hok hno hidx => ?_, fun hl hok hidx => ?_, fun hl hbadf => ?_, fun hl hok a ha hidx => ?_⟩
  · have hv : h = v := hplain (by simp [hno])
    refine hcalm { h with time := { h.time with badFrames := 0 } } ?_ hhdusk (congrArg (fun x => x.boot) hframe :)
      (hF F.BOOT_STATUS.STATE (by decide) (by decide)) _ ?_
    · rw [hheard, if_neg (by simp [hok]), if_pos (hlock.trans hl)]
      exact if_pos (hidx.trans hmeridian.symm)
    · rw [hv]
      exact (acquire_frame _).1
  · have hm : s.frame n.toNat w = meridianLoss { h with time := { h.time with badFrames := 0 } } 3 := by
      rw [hheard, if_neg (by simp [hok]), if_pos (hlock.trans hl)]
      exact if_neg fun he => hidx (he.trans hmeridian)
    obtain ⟨u, hu, hP, -⟩ := hlost _ 3 hm (hlock.trans hl) hhout hhdusk hhboot (hF F.MERIDIAN_STATUS.LOSS_COUNT (by decide) (by decide))
    exact ⟨u, hu, hP⟩
  · have hcount : (h.incLive F.MERIDIAN_STATUS.CRC_ERR_COUNT 1).getF F.MERIDIAN_STATUS.CRC_ERR_COUNT =
        min (s.getF F.MERIDIAN_STATUS.CRC_ERR_COUNT + 1) (2 ^ 16 - 1) := by
      rw [getF_incLive_one, hF _ (by decide) (by decide)]
      rfl
    have hother (g : Fld) (h1 : g.key ≠ F.MERIDIAN_STATUS.CRC_ERR_COUNT.key) :
        (h.incLive F.MERIDIAN_STATUS.CRC_ERR_COUNT 1).getF g = h.getF g := getF_incLive_other _ _ h1
    have hrest : { h.incLive F.MERIDIAN_STATUS.CRC_ERR_COUNT 1 with regs := h.regs, base := h.base } = h := rfl
    rw [if_pos (by simp [hbadf])] at hheard
    generalize h.incLive F.MERIDIAN_STATUS.CRC_ERR_COUNT 1 = c at *
    have hclock : c.locked = true := by rw [locked, hother _ (by decide)]; exact hlock.trans hl
    have hcbad : c.time.badFrames = s.time.badFrames := (congrArg (fun x => x.time.badFrames) hrest :).trans hbad
    have hcdusk : c.dusk = none := (congrArg State.dusk hrest :).trans hhdusk
    have hcboot : c.boot = s.boot := (congrArg (fun x => x.boot) hrest :).trans (congrArg (fun x => x.boot) hframe :)
    have hcstep : c.step = h.step := (congrArg State.step hrest :)
    have hstate : c.getF F.BOOT_STATUS.STATE = s.getF F.BOOT_STATUS.STATE := (hother _ (by decide)).trans (hF _ (by decide) (by decide))
    have hframe' : s.frame n.toNat w = if 2 ≤ c.time.badFrames + 1 then
        meridianLoss { c with time := { c.time with badFrames := c.time.badFrames + 1 } } 2 else
        { c with time := { c.time with badFrames := c.time.badFrames + 1 } } := hheard.trans (if_pos hclock)
    by_cases hfirstBad : s.time.badFrames = 0
    · refine hcalm { c with time := { c.time with badFrames := c.time.badFrames + 1 } } ?_ hcdusk hcboot hstate _ ⟨?_, fun _ => ⟨?_, ?_⟩, fun h => ?_⟩
      · rw [hframe', if_neg (by omega)]
      · rw [(hkept _ _).1]
        exact hcount
      · rw [locked, (hkept _ _).1]
        exact hclock
      · rw [(hkept _ F.MERIDIAN_STATUS.LOCKED).2, show c.time.badFrames = 0 from hcbad.trans hfirstBad]
      · omega
    · obtain ⟨u, hu, hP, herr⟩ := hlost _ 2 (hframe'.trans (if_pos (by omega))) hclock (by rw [inAttempt, hcstep]; exact hhout) hcdusk
        (by rw [booting, hcboot]; exact (congrArg (fun x => s.boot.obs.isSome && decide (x < 2)) hstate).trans hboot)
        ((hother _ (by decide)).trans (hF _ (by decide) (by decide)))
      exact ⟨u, hu, herr.trans hcount, fun h0 => absurd h0 hfirstBad, fun _ => hP⟩
  · have hidx64 : f.index < 2 ^ 64 := by
      rw [show f.index = bitsOf w.toNat 16 64 from rfl, bitsOf_eq]
      exact Nat.mod_lt _ (by decide)
    have hm : s.frame n.toNat w = h.relock f.index := by
      rw [hheard, if_neg (by simp [hok]), if_neg (by simp [hlock, hl]), hfirst, ha]
      exact if_pos hidx
    have hrelock (g : Fld) : (h.relock f.index).getF g =
        ((h.keepF F.MERIDIAN_COUNT.COUNT f.index).keepF F.MERIDIAN_STATUS.LOCKED 1).getF g := rfl
    have hcount : (h.relock f.index).getF F.MERIDIAN_COUNT.COUNT = f.index := by
      rw [hrelock, getF_keepF_other _ _ (by decide), getF_keepF_same]
      exact Nat.mod_eq_of_lt hidx64
    have hlocked : (h.relock f.index).locked = true := by
      rw [locked, hrelock, getF_keepF_same]
      rfl
    have hstate : (h.relock f.index).getF F.BOOT_STATUS.STATE = s.getF F.BOOT_STATUS.STATE := by
      rw [hrelock, getF_keepF_other _ _ (by decide), getF_keepF_other _ _ (by decide), hF _ (by decide) (by decide)]
    have hrest : (h.relock f.index).dusk = none ∧ (h.relock f.index).boot = s.boot ∧ (h.relock f.index).time.loss = false ∧
        (h.relock f.index).time.firstFrame = none := ⟨hhdusk, (congrArg (fun x => x.boot) hframe :), rfl, rfl⟩
    generalize h.relock f.index = r at *
    obtain ⟨hrdusk, hrboot, hrloss, hrfirst⟩ := hrest
    refine hcalm r hm hrdusk hrboot hstate _ ⟨?_, ?_, ?_, ?_⟩
    · exact (hkept _ _).1.trans hcount
    · rw [locked, (hkept _ _).1]
      exact hlocked
    · rw [(hkept _ F.MERIDIAN_STATUS.LOCKED).2, hrloss]
    · rw [(hkept _ F.MERIDIAN_STATUS.LOCKED).2, hrfirst]

namespace State

/-! ### Bring-up that shows where it stands (R394) -/

/-- `t` is `s` but for the permit, the repeat of a phase, and what BOOT_STATUS shows of the phase. -/
def BootShown (s t : State) : Prop :=
  { t with regs := s.regs, base := s.base, power := { t.power with permit := s.power.permit }, boot := { t.boot with repeats := s.boot.repeats } } = s ∧
    s.fieldsBut t [F.BOOT_STATUS.PHASE, F.BOOT_STATUS.STATE, F.BOOT_STATUS.CODE]

theorem BootShown.trans {s t u : State} (h : s.BootShown t) (k : t.BootShown u) : s.BootShown u :=
  ⟨(congrArg (fun v : State => { v with regs := s.regs, base := s.base, power := { v.power with permit := s.power.permit }, boot := { v.boot with repeats := s.boot.repeats } }) k.1).trans h.1,
    fun f hf => (k.2 f hf).trans (h.2 f hf)⟩

theorem bootShown_bootAt (s : State) (phase code : Nat) : s.BootShown (s.bootAt phase code) := by
  refine ⟨rfl, fun f hf => ?_⟩
  rw [bootAt, getF_keepF_other _ _ (hf _ (by simp)), getF_keepF_other _ _ (hf _ (by simp)), getF_keepF_other _ _ (hf _ (by simp))]

theorem bootShown_advanceBoot (s : State) : s.BootShown s.advanceBoot := by
  unfold advanceBoot
  split
  · dsimp only
    refine BootShown.trans ?_ (bootShown_bootAt ..)
    split <;> exact ⟨rfl, fun _ _ => rfl⟩
  · exact ⟨rfl, fun _ _ => rfl⟩

theorem bootShown_repeatPhase (s : State) : s.BootShown s.repeatPhase := by
  unfold repeatPhase
  split <;> exact ⟨rfl, fun _ _ => rfl⟩

/-- With no dusk test to stop, a command that loses the meridian touches bring-up alone. -/
theorem bootShown_lossStops (s : State) {t : State} (hdusk : t.dusk = none) : t.BootShown (s.lossStops t) := by
  have habort : s.lossAborts t = t := by simp [lossAborts, duskAbort, hdusk]
  simp only [lossStops, habort]
  split
  · exact (bootShown_repeatPhase t).trans (bootShown_advanceBoot _)
  · exact ⟨rfl, fun _ _ => rfl⟩

end State

open State in
/-- Settles O17: index frames, and the loss of the reference or of the multiplier's lock (R16-R19). -/
theorem meridian : Obligations.Meridian := by
  refine ⟨meridianFrames, ?_⟩
  intro s hlocked hout hdusk lost
  have hlost (v : State) (trigger : Nat) (hv : s.getF F.MERIDIAN_STATUS.LOSS_COUNT = v.getF F.MERIDIAN_STATUS.LOSS_COUNT)
      (hvlocked : v.locked = true) (hvout : v.inAttempt = false) (hvdusk : v.dusk = none) :
      lost trigger (s.lossStops (v.meridianLoss trigger)) ∧
        (s.lossStops (v.meridianLoss trigger)).time.refRunning = v.time.refRunning := by
    have hl := meridianLost hvlocked hvout trigger
    obtain ⟨hframe, hF⟩ := bootShown_lossStops s (hl.dusk.trans hvdusk)
    generalize s.lossStops (v.meridianLoss trigger) = t at *
    generalize v.meridianLoss trigger = m at *
    have htime : t.time = m.time := (congrArg State.time hframe :)
    have htrecs : t.recs = m.recs := (congrArg State.recs hframe :)
    obtain ⟨r, hr, hcode, hd6, hclass⟩ := hl.record
    refine ⟨⟨?_, by rw [htime, hl.loss], ?_, r, by rw [htrecs, hr]; simp, hcode, hd6, hclass⟩, by rw [htime, hl.refRunning]⟩
    · rw [locked, hF _ (by decide)]
      exact hl.unlocked
    · rw [hF _ (by decide), hl.count, hv]
  refine ⟨?_, ?_⟩
  · obtain ⟨h1, h2⟩ := hlost { s with time := { s.time with refRunning := false } } 0 rfl hlocked hout hdusk
    exact ⟨_, rfl, h2, h1⟩
  · exact ⟨_, rfl, (hlost s 1 rfl hlocked hout hdusk).1⟩

end Sys2Proof.Machine

namespace Sys2Proof.Machine
namespace State

/-- A command does what its effect is equal to. -/
theorem does_of_eq {s t u : State} {c : Instr} {P : State → Prop} (hexec : exec c s = .next (s.after t)) (ht : t = u) (hu : P u) :
    s.does c P := ⟨u, ht ▸ hexec, hu⟩

/-! ### Counts of a port (R267, R268) -/

/-- A port's count is written as the number it saturates to. -/
theorem getF_nowF_satAdd (s : State) (f : Fld) {n : Nat} (hn : f.width = n) (x : Nat) :
    (s.nowF f (satAdd n x 1)).getF f = min (x + 1) (2 ^ n - 1) := by
  have hlt : min (x + 1) (2 ^ n - 1) < 2 ^ n := by
    have := Nat.two_pow_pos n
    omega
  rw [getF_nowF_same, satAdd, hn, Nat.mod_eq_of_lt hlt]

/-! ### The capability exchange (R271, R272) -/

/-- The module's one version is chosen where either listed major names it. -/
theorem chooseVersion_eq (a b : Nat × Nat) : chooseVersion a b = if a.1 = 1 ∨ b.1 = 1 then some (1, 0) else none := by
  by_cases ha : a.1 = 1 <;> by_cases hb : b.1 = 1 <;> simp [chooseVersion, ha, hb]

theorem port_reply_same (s : State) (p tag type status : Nat) (bs : List Byte) :
    (s.reply p tag type status bs).port p = { s.port p with out := (s.port p).out ++ [⟨tag, type, status, bs⟩] } :=
  port_setPort_same ..

@[simp] theorem getF_reply (s : State) (p tag type status : Nat) (bs : List Byte) (f : Fld) :
    (s.reply p tag type status bs).getF f = s.getF f := rfl

@[simp] theorem port_nowF (s : State) (f : Fld) (v p : Nat) : (s.nowF f v).port p = s.port p := rfl

end State

open State in
/-- Settles O30: the exchange, bad packets, and a port that goes down or comes up (R267, R269, R271, R272). -/
theorem portService : Obligations.PortService := by
  intro s port t x p tag h common v
  have hhello (htakes : s.takes p tag) : exec (.hello port t x) s = .next (s.after
      (match chooseVersion (h 0, h 1) (h 2, h 3), chooseVersion (h 4, h 5) (h 6, h 7) with
      | some a, some b =>
        let s := (s.setPort p { s.port p with proto := some a, plan := some b }).nowF (F.PORT_STATUS.EXCHANGED p) 1
        s.reply p tag 6 0 (s.capsPayload a b)
      | _, _ =>
        let s := (s.setPort p { s.port p with proto := none, plan := none }).nowF (F.PORT_STATUS.EXCHANGED p) 0
        s.reply p tag 6 0x0011 [])) :=
    congrArg (fun t => Host.Outcome.next (s.after t)) (serve_taken htakes _)
  refine ⟨fun htakes hcommon => ?_, fun htakes hcommon => ?_, fun hup => ?_, fun hup => ?_, fun hup hobs => ?_⟩
  · refine ⟨_, hhello htakes, ?_⟩
    rw [chooseVersion_eq, chooseVersion_eq, if_pos hcommon.1, if_pos hcommon.2]
    exact ⟨reply_replied .., (getF_nowF_same v (F.PORT_STATUS.EXCHANGED p) 1 :)⟩
  · refine ⟨_, hhello htakes, ?_⟩
    have hnone : chooseVersion (h 0, h 1) (h 2, h 3) = none ∨ chooseVersion (h 4, h 5) (h 6, h 7) = none := by
      rw [chooseVersion_eq, chooseVersion_eq]
      by_cases h1 : h 0 = 1 ∨ h 2 = 1
      · exact .inr (if_neg fun h2 => hcommon ⟨h1, h2⟩)
      · exact .inl (if_neg h1)
    have hrefused (u : State) (hu : u = ((s.setPort p { s.port p with proto := none, plan := none }).nowF
        (F.PORT_STATUS.EXCHANGED p) 0).reply p tag 6 0x0011 []) :
        u.port p = { s.port p with proto := none, plan := none, out := (s.port p).out ++ [⟨tag, 6, 0x0011, []⟩] } ∧
          u.getF (F.PORT_STATUS.EXCHANGED p) = 0 ∧ u.fullService p = false := by
      have hexchanged : u.getF (F.PORT_STATUS.EXCHANGED p) = 0 := by
        rw [hu, getF_reply, getF_nowF_same]
        rfl
      refine ⟨?_, hexchanged, ?_⟩
      · rw [hu, port_reply_same, port_nowF, port_setPort_same]
      · rw [fullService, hexchanged]
        simp
    obtain h1 | h2 := hnone
    · rw [h1]
      exact hrefused _ rfl
    · rw [h2]
      cases chooseVersion (h 0, h 1) (h 2, h 3) <;> exact hrefused _ rfl
  · exact does_of_eq rfl (if_pos hup) ⟨getF_nowF_satAdd _ _ rfl _, rfl⟩
  · have hkeys : (F.PORT_STATUS.UP p).key ≠ (F.PORT_STATUS.DOWN_COUNT p).key ∧ (F.PORT_STATUS.DOWN_COUNT p).key ≠ (F.PORT_STATUS.UP p).key := by
      simp [Fld.key, F.PORT_STATUS.UP, F.PORT_STATUS.DOWN_COUNT]
    let w := (s.setPort p { s.port p with out := [] }).nowF (F.PORT_STATUS.UP p) 0
    refine does_of_eq rfl (if_pos hup) ⟨?_, port_setPort_same .., ?_, _, rfl, rfl, rfl⟩
    · have hdown : (w.nowF (F.PORT_STATUS.DOWN_COUNT p) (satAdd 16 (w.getF (F.PORT_STATUS.DOWN_COUNT p)) 1)).getF (F.PORT_STATUS.UP p) = 0 :=
        (getF_nowF_other _ _ hkeys.1).trans (getF_nowF_same ..)
      exact congrArg (· == 1) hdown
    · have hcount : w.getF (F.PORT_STATUS.DOWN_COUNT p) = s.getF (F.PORT_STATUS.DOWN_COUNT p) := getF_nowF_other _ _ hkeys.2
      exact (getF_nowF_satAdd w (F.PORT_STATUS.DOWN_COUNT p) rfl _).trans (by rw [hcount]; rfl)
  · have hback : ¬ ((s.portUp p || s.boot.obs.isNone) = true) := by cases h : s.boot.obs <;> simp_all
    refine does_of_eq rfl (if_neg hback) ⟨?_, rfl, _, rfl, rfl, rfl⟩
    exact congrArg (· == 1) (getF_nowF_same s (F.PORT_STATUS.UP p) 1)

namespace State

/-! ### READ requests (R268, R270, R275, R279) -/

/-- A request's bytes lie in the parcel of its first one, and so do its lines. -/
theorem parcel_of_line {addr len l : Nat} (hok : requestOk addr len = true) (h1 : l * 64 < addr + len) (h2 : addr < l * 64 + 64) :
    l / 1024 = addr / 65536 := by
  simp only [requestOk, Bool.and_eq_true, beq_iff_eq, decide_eq_true_eq] at hok
  omega

/-- Lines of a parcel of the host matter to no one else. -/
theorem meetBadLines_host {s : State} {addr len : Nat} (hok : requestOk addr len = true) (howner : s.owner (addr / 65536) = 0) :
    s.meetBadLines addr len = s := by
  have hnone : ((((s.win.badLines.toList.filter fun l => decide (l * 64 < addr + len) && decide (addr < l * 64 + 64)).map
      (· / 1024)).eraseDups).filter fun p => !NSet.mem s.win.toVoid p && s.owner p != 0 && s.owner p != 3) = [] := by
    refine List.filter_eq_nil_iff.2 fun p hp => ?_
    rw [List.mem_eraseDups, List.mem_map] at hp
    obtain ⟨l, hl, rfl⟩ := hp
    simp only [List.mem_filter, Bool.and_eq_true, decide_eq_true_eq] at hl
    rw [parcel_of_line hok hl.2.1 hl.2.2, howner]
    simp
  rw [meetBadLines]
  rw [hnone]
  rfl

section
variable {s : State} {port : BitVec 1} {t : BitVec 8} {a : BitVec 48} {l : BitVec 13} {st : Nat} {bs : List Byte}

theorem exec_read (htakes : s.takes port.toNat t.toNat) (hr : s.readAt port.toNat a.toNat l.toNat = (st, bs)) :
    exec (.read port t a l) s = .next (s.after
      ((if st = 0x000E then s.meetBadLines a.toNat l.toNat else s).reply port.toNat t.toNat 3 st bs)) := by
  change Host.Outcome.next (s.after (s.portRead port.toNat t.toNat a.toNat l.toNat)) = _
  rw [portRead, serve_taken htakes, hr]

/-- A READ that meets no uncorrectable line answers and changes nothing else. -/
theorem does_read (htakes : s.takes port.toNat t.toNat) (hr : s.readAt port.toNat a.toNat l.toNat = (st, bs)) (hst : st ≠ 0x000E) :
    s.does (.read port t a l) fun u => s.replied u port.toNat t.toNat 3 st bs := by
  refine ⟨_, exec_read htakes hr, ?_⟩
  rw [if_neg hst]
  exact reply_replied ..

end

/-- With full service and a well-formed range, what a READ of window bytes answers. -/
theorem readAt_window {s : State} {p addr len : Nat} (hfull : s.fullService p = true) (hok : requestOk addr len = true) (hlen : 0 < len)
    (hwin : addr < 2 ^ 36) : s.readAt p addr len =
      if s.owner (addr / 65536) = 1 ∨ s.owner (addr / 65536) = 3 then (0x0004, []) else
        if s.hasBadLine addr len then (0x000E, []) else (0, s.winGet addr len) := by
  rw [readAt, if_neg (by simp [hfull]), if_neg (by simp [hok]), if_neg (by omega), if_pos hwin]

theorem readAt_words {s : State} {p addr len : Nat} (hfull : s.fullService p = true) (hok : requestOk addr len = true) (hlen : 0 < len)
    (hwin : 2 ^ 36 ≤ addr) : s.readAt p addr len = (s.wordsRead addr (len / 8)).elim (0x0002, []) fun bs => (0, bs) := by
  rw [readAt, if_neg (by simp [hfull]), if_neg (by simp [hok]), if_neg (by omega), if_neg (by omega)]
  cases s.wordsRead addr (len / 8) <;> rfl

/-- The requests that a port serves by their tag. -/
theorem exec_request {s : State} {port : BitVec 1} {t : BitVec 8} {c : Instr}
    (hc : (∃ a l, c = .read port t a l) ∨ (∃ a bs, c = .write port t a bs ∧ bs.length < 8192) ∨ (∃ x, c = .hello port t x) ∨
      (∃ a v, c = .registerWrite port t a v) ∨ (∃ q g, c = .queueDoorbell port t q g)) :
    ∃ act, exec c s = .next (s.after (s.serve port.toNat t.toNat act)) := by
  obtain ⟨a, l, rfl⟩ | ⟨a, bs, rfl, hlen⟩ | ⟨x, rfl⟩ | ⟨a, v, rfl⟩ | ⟨q, g, rfl⟩ := hc
  · exact ⟨_, rfl⟩
  · exact ⟨_, if_pos (decide_eq_true hlen)⟩
  · exact ⟨_, rfl⟩
  · exact ⟨_, rfl⟩
  · exact ⟨_, rfl⟩

end State

open State in
/-- Settles O28: what READ requests answer, and the requests that are not taken (R268-R270, R273, R275, R276, R279). -/
theorem portReadsAndRefusals : Obligations.PortReadsAndRefusals := by
  refine ⟨?_, ?_⟩
  · intro s port t a l p tag addr len owner answers htakes
    have hanswers {st : Nat} {bs : List Byte} (hr : s.readAt p addr len = (st, bs)) (hst : st ≠ 0x000E) : answers st bs :=
      does_read htakes hr hst
    refine ⟨fun hfull hstatus => hanswers ?_ (by decide), fun hfull => ⟨fun hok => hanswers ?_ (by decide),
      fun hok hlen => hanswers ?_ (by decide), fun hok hlen hwin => ?_, fun hok hlen hwin => ?_⟩⟩
    · rw [readAt, if_pos (by simp [hfull, hstatus])]
    · rw [readAt, if_neg (by simp [hfull]), if_pos (by simp [hok])]
    · rw [readAt, if_neg (by simp [hfull]), if_neg (by simp [hok]), if_pos hlen]
    · have hread := readAt_window hfull hok hlen hwin
      refine ⟨fun ho => hanswers (hread.trans (if_pos ho)) (by decide), fun ho hbad => ?_, fun ho hbad => ?_, fun ho hgood =>
        hanswers ?_ (by decide)⟩
      · have hr : s.readAt p addr len = (0x000E, []) := by
          rw [hread, if_neg (by rw [show s.owner (addr / 65536) = 0 from ho]; omega), if_pos hbad]
        refine ⟨_, exec_read htakes hr, ?_⟩
        rw [if_pos rfl, meetBadLines_host hok ho]
        exact reply_replied ..
      · have hr : s.readAt p addr len = (0x000E, []) := by
          rw [hread, if_neg (by rw [show s.owner (addr / 65536) = 2 from ho]; omega), if_pos hbad]
        exact ⟨_, exec_read htakes hr, reply_replied ..⟩
      · rw [hread, if_neg (show ¬ (owner = 1 ∨ owner = 3) by omega), if_neg (by simp [hgood])]
    · have hread := readAt_words hfull hok hlen hwin
      exact ⟨fun bs hbs => hanswers (by rw [hread, hbs]; rfl) (by decide), fun hnone => hanswers (by rw [hread, hnone]; rfl) (by decide)⟩
  · intro s port t c hc
    obtain ⟨act, hexec⟩ := exec_request (s := s) hc
    refine ⟨fun hdown => does_of_eq hexec (if_pos (by simp [hdown])) rfl, fun hup htag => ?_⟩
    have hserve : s.serve port.toNat t.toNat act =
        s.nowF (F.PORT_STATUS.TAG_ERRORS port.toNat) (satAdd 16 (s.getF (F.PORT_STATUS.TAG_ERRORS port.toNat)) 1) := by
      rw [serve, if_neg (by simp [hup]), if_pos htag]
    exact does_of_eq hexec hserve ⟨getF_nowF_satAdd _ _ rfl _, rfl⟩

namespace State

/-! ### WRITE requests (R268, R275, R307) -/

/-- With full service, a write of one assigned register is a write of that register and its completion. -/
theorem portWrite64_register {s : State} {p tag addr : Nat} (htakes : s.takes p tag) (hfull : s.fullService p = true)
    (hal : addr % 8 = 0) (hwin : 2 ^ 36 ≤ addr) (hflags : inFlags addr = false) (hreg : (findReg addr).isSome = true) (v : Nat) :
    s.portWrite64 p tag addr v = (s.regWrite p addr (v % 2 ^ 64)).2.reply p tag 4 (s.regWrite p addr (v % 2 ^ 64)).1 [] := by
  have hok : requestOk addr (leBytes 8 v).length = true := by
    rw [length_leBytes]
    simp only [requestOk, Bool.and_eq_true, beq_iff_eq, decide_eq_true_eq]
    exact ⟨⟨⟨hal, trivial⟩, by decide⟩, by omega⟩
  have hempty : (leBytes 8 v).isEmpty = false := rfl
  have hchunk : chunks 8 (leBytes 8 v) = [leBytes 8 v] := rfl
  have hall : ((List.range ((leBytes 8 v).length / 8)).all fun i => decide (addr + 8 * i = 0x300000100000) || (findReg (addr + 8 * i)).isSome) = true := by
    rw [length_leBytes]
    simp [hreg]
  have hword : s.writeAt p addr (leBytes 8 v) = s.regWrite p addr (v % 2 ^ 64) := by
    rw [writeAt, if_neg (by simp [hfull]), if_neg (by rw [hok]; decide), if_neg (by simp [hempty]), if_neg (by omega), if_neg (by simp [hflags]),
      if_neg (by rw [hall]; decide), hchunk, regsWrite_singleton, leNat_leBytes]
    rfl
  rw [portWrite64, portWrite, serve_taken htakes]
  dsimp only
  rw [hword]

/-- The addresses of the registers whose write does something, for a register of a table's index. -/
def actingAddrs (idx : List Nat) : List Nat :=
  [F.HV_RELEASE.STEP_S.addr, F.HV_RESEND.CHANNEL.addr, F.APPLY_CTL.DISCARD.addr, F.LANE_REGATE.CHANNELS.addr,
    F.KEY_LOAD.PARCEL.addr, F.ATTEST_REQ.PARCEL.addr, (F.MGMT_RING.ENTRIES 0).addr, (F.MGMT_RING.ENTRIES 1).addr,
    (F.QUEUE_DOORBELL.GIVE (idx.headD 0)).addr]

theorem regWrite_config {s : State} {p addr : Nat} {r : RegRow} {idx : List Nat} (hbell : addr ≠ 0x300000100000)
    (hreg : findReg addr = some (r, idx)) (habsent : s.absentBlock addr = false) (hdead : deadQueueCfg addr = false)
    (hconfig : r.config = true) (v : Nat) : s.regWrite p addr v = (0, s.shadowWrite r addr v) := by
  simp [regWrite, hbell, hreg, habsent, hdead, hconfig]

theorem regWrite_direct {s : State} {p addr : Nat} {r : RegRow} {idx : List Nat} (hbell : addr ≠ 0x300000100000)
    (hreg : findReg addr = some (r, idx)) (habsent : s.absentBlock addr = false) (hdead : deadQueueCfg addr = false)
    (hconfig : r.config = false) (hacts : ∀ x ∈ actingAddrs idx, addr ≠ x) (v : Nat) :
    s.regWrite p addr v = (0, s.directWrite r addr v) := by
  simp only [actingAddrs, List.forall_mem_cons] at hacts
  obtain ⟨h1, h2, h3, h4, h5, h6, h7, h8, h9, -⟩ := hacts
  rw [regWrite, if_neg hbell, hreg]
  dsimp only
  rw [if_neg (by simp [habsent, hdead]), if_neg (by simp [hconfig]), if_neg h1, if_neg h2, if_neg h3, if_neg h4, if_neg h5, if_neg h6,
    if_neg h7, if_neg h8, if_neg h9]

/-- The window parcels of the host take a write whole. -/
theorem portWrite_window {s : State} {p tag addr : Nat} {bs : List Byte} (htakes : s.takes p tag) (hfull : s.fullService p = true)
    (hok : requestOk addr bs.length = true) (hbs : bs ≠ []) (hwin : addr < 2 ^ 36) :
    s.portWrite p tag addr bs = (s.windowWrite addr bs).2.reply p tag 4 (s.windowWrite addr bs).1 [] := by
  have hwrite : s.writeAt p addr bs = s.windowWrite addr bs := by
    rw [writeAt, if_neg (by simp [hfull]), if_neg (by simp [hok]), if_neg (by simp [hbs]), if_pos hwin]
  rw [portWrite, serve_taken htakes]
  dsimp only
  rw [hwrite]

end State

open State in
/-- Settles O29: bytes of the host's parcels land whole, configuration registers take shadows, other registers are written
directly (R11, R268, R275, R276, R307). -/
theorem portWrites : Obligations.PortWrites := by
  intro s port t a p tag addr htakes hfull
  refine ⟨fun bs hok hbs hwin => ?_, fun v r idx hal hwin hflags hbell hreg habsent hdead => ?_⟩
  · have hlen : bs.length < 8192 := by
      simp only [requestOk, Bool.and_eq_true, decide_eq_true_eq] at hok
      omega
    have hexec : exec (.write port t a bs) s =
        .next (s.after ((s.windowWrite addr bs).2.reply p tag 4 (s.windowWrite addr bs).1 [])) := by
      rw [← portWrite_window htakes hfull hok hbs hwin]
      exact if_pos (decide_eq_true hlen)
    refine ⟨fun ho => ⟨_, hexec, ?_⟩, fun ho => ⟨_, hexec, ?_⟩⟩
    · rw [windowWrite]
      dsimp only
      rw [if_pos (.inl ho)]
      exact ⟨⟨s.hostPut addr bs, reply_replied .., rfl, rfl⟩, winGet_winPut_same s addr bs, fun b n hout => winGet_winPut_outside s addr b n bs hout⟩
    · rw [windowWrite]
      dsimp only
      rw [if_neg (by omega)]
      exact reply_replied ..
  · have hwrite {u : State} (hu : s.regWrite p addr v.toNat = (0, u)) : s.does (.registerWrite port t a v) fun w => u.replied w p tag 4 0 [] := by
      refine does_of_eq rfl (portWrite64_register htakes hfull hal hwin hflags (by simp [hreg]) v.toNat) ?_
      rw [Nat.mod_eq_of_lt v.isLt, hu]
      exact reply_replied ..
    exact ⟨fun hconfig => hwrite (regWrite_config hbell hreg habsent hdead hconfig _),
      fun hconfig hacts => hwrite (regWrite_direct hbell hreg habsent hdead hconfig hacts _)⟩

end Sys2Proof.Machine

namespace Sys2Proof.Machine
namespace State

/-! ### The registers of the map (R273) -/

/-- No register of the row lies at an address from `lo` up to `hi`. -/
def rowClear (lo hi : Nat) (r : RegRow) : Bool :=
  decide (hi ≤ r.base) || (match r.dims with
    | [] => decide (r.base < lo)
    | d :: _ => decide (0 < d.stride) && decide (r.base + d.limit * d.stride ≤ lo))

theorem at?_clear {r : RegRow} {lo hi addr : Nat} (h : rowClear lo hi r = true) (hlo : lo ≤ addr) (hhi : addr < hi) : r.at? addr = none := by
  unfold RegRow.at?
  split
  · rfl
  · next hbase =>
    have hdims : (match r.dims with
        | [] => decide (r.base < lo)
        | d :: _ => decide (0 < d.stride) && decide (r.base + d.limit * d.stride ≤ lo)) = true := by
      rw [rowClear, Bool.or_eq_true] at h
      obtain h | h := h
      · have := of_decide_eq_true h
        omega
      · exact h
    cases hd : r.dims with
    | nil =>
      rw [hd] at hdims
      have := of_decide_eq_true hdims
      exact if_neg (by omega)
    | cons d ds =>
      rw [hd] at hdims
      obtain ⟨hstride, hend⟩ := Bool.and_eq_true_iff.1 hdims
      have hdiv : d.limit ≤ (addr - r.base) / d.stride := by
        rw [Nat.le_div_iff_mul_le (of_decide_eq_true hstride)]
        have := of_decide_eq_true hend
        omega
      exact if_pos (.inr hdiv)

/-- The row of the queue doorbells, and the rows before it. -/
def bellRow : RegRow := ⟨"QUEUE_DOORBELL", 0x300000200000, [⟨0x10, 0, 32768⟩], false, [⟨"GIVE", 0, 32, .wo, false, 0x0⟩]⟩

def beforeBells : List RegRow := regRows.takeWhile (· != bellRow)

theorem regRows_split : regRows = beforeBells ++ bellRow :: (regRows.dropWhile (· != bellRow)).tail := by
  have hdrop : regRows.dropWhile (· != bellRow) = bellRow :: (regRows.dropWhile (· != bellRow)).tail := by decide +kernel
  rw [← hdrop]
  exact List.takeWhile_append_dropWhile.symm

theorem beforeBells_clear : beforeBells.all (rowClear 0x300000200000 0x300000280000) = true := by decide +kernel

/-- The register of a queue's doorbell. -/
theorem findReg_bell {q : Nat} (hq : q < 2 ^ 15) : findReg (F.QUEUE_DOORBELL.GIVE q).addr = some (bellRow, [q]) := by
  have haddr : (F.QUEUE_DOORBELL.GIVE q).addr = 0x300000200000 + 0x10 * q := rfl
  have hbefore : (beforeBells.findSome? fun r => (r.at? (0x300000200000 + 0x10 * q)).map (r, ·)) = none := by
    rw [List.findSome?_eq_none_iff]
    intro r hr
    rw [at?_clear (List.all_eq_true.1 beforeBells_clear r hr) (by omega) (by omega)]
    rfl
  have hown : bellRow.at? (0x300000200000 + 0x10 * q) = some [q] := by
    have hoff : 0x300000200000 + 0x10 * q - 0x300000200000 = 0x10 * q := by omega
    have hpeel : Dim.peel [⟨0x10, 0, 32768⟩] (0x10 * q) = some [q] := by
      have hdiv : 0x10 * q / 0x10 = q := by omega
      have hmod : 0x10 * q % 0x10 = 0 := by omega
      simp [Dim.peel, hdiv, hmod]
      omega
    rw [RegRow.at?, bellRow, if_neg (by simp), hoff, hpeel]
  rw [findReg, haddr, regRows_split, List.findSome?_append, hbefore, Option.none_or, List.findSome?_cons, hown]
  rfl

theorem absentBlock_low (s : State) {addr : Nat} (h : addr < 0x100000200000) : s.absentBlock addr = false := by
  have h1 : decide (0x200000000000 ≤ addr) = false := decide_eq_false (by omega)
  have h2 : decide (0x100000200000 ≤ addr) = false := decide_eq_false (by omega)
  have h3 : decide (0x100000400000 ≤ addr) = false := decide_eq_false (by omega)
  simp only [absentBlock, darkBlock, h1, h2, h3, Bool.false_and, Bool.or_false]

theorem absentBlock_high (s : State) {addr : Nat} (h : 0x300000000000 ≤ addr) : s.absentBlock addr = false := by
  have h1 : decide (addr < 0x300000000000) = false := decide_eq_false (by omega)
  have h2 : decide ((addr - 0x100000200000) / 0x100 < 5120) = false := decide_eq_false (by omega)
  have h3 : decide ((addr - 0x100000400000) / 0x100 < 5120) = false := decide_eq_false (by omega)
  simp only [absentBlock, darkBlock, h1, h2, h3, Bool.false_and, Bool.and_false, Bool.or_false]

/-! ### Registers whose write does something (R256, R291, R307, R404, R420, R421) -/

/-- The registers whose write does something, the queue doorbells apart. -/
def actingRegs : List Nat :=
  [F.HV_RELEASE.STEP_S.addr, F.HV_RESEND.CHANNEL.addr, F.APPLY_CTL.DISCARD.addr, F.LANE_REGATE.CHANNELS.addr,
    F.KEY_LOAD.PARCEL.addr, F.ATTEST_REQ.PARCEL.addr, (F.MGMT_RING.ENTRIES 0).addr, (F.MGMT_RING.ENTRIES 1).addr]

theorem actingRegs_assigned : ∀ a ∈ actingRegs, (findReg a).map (·.1.config) = some false ∧ a % 8 = 0 ∧ 2 ^ 36 ≤ a ∧
    inFlags a = false ∧ a < 0x100000200000 ∧ a ≠ 0x300000100000 := by decide +kernel

/-- What the write of an acting register does, by its address. -/
def actingWrite (s : State) (a v : Nat) : Nat × State :=
  if a = F.HV_RELEASE.STEP_S.addr then (0, s.releaseSteps (v % 2 ^ 48))
  else if a = F.HV_RESEND.CHANNEL.addr then (0, s.resendSegs (bitsOf v 0 5) (bitsOf v 32 32))
  else if a = F.APPLY_CTL.DISCARD.addr then (0, s.discardShadows v)
  else if a = F.LANE_REGATE.CHANNELS.addr then (0, s.laneRegate (v % 2 ^ 33))
  else if a = F.KEY_LOAD.PARCEL.addr then (0, s.keyLoad (v % 2 ^ 20))
  else if a = F.ATTEST_REQ.PARCEL.addr then (0, s.attestReq (v % 2 ^ 20))
  else if a = (F.MGMT_RING.ENTRIES 0).addr then s.mgmtRing 0 (bitsOf v 0 20) (bitsOf v 20 21)
  else s.mgmtRing 1 (bitsOf v 0 20) (bitsOf v 20 21)

theorem regWrite_acting (s : State) (p : Nat) {a : Nat} (ha : a ∈ actingRegs) (v : Nat) : s.regWrite p a v = s.actingWrite a v := by
  obtain ⟨hreg, -, -, -, hlow, hbell⟩ := actingRegs_assigned a ha
  obtain ⟨⟨r, idx⟩, hfind, hconfig⟩ := Option.map_eq_some_iff.1 hreg
  have hdead : deadQueueCfg a = false := by
    rw [deadQueueCfg, decide_eq_false (by omega : ¬ 0x100001000000 ≤ a), Bool.false_and]
  rw [regWrite, if_neg hbell, hfind]
  dsimp only
  rw [if_neg (by rw [absentBlock_low s hlow, hdead]; decide), if_neg (by rw [hconfig]; decide), actingWrite]
  refine ite_congr rfl (fun _ => rfl) fun h1 => ite_congr rfl (fun _ => rfl) fun h2 => ite_congr rfl (fun _ => rfl) fun h3 =>
    ite_congr rfl (fun _ => rfl) fun h4 => ite_congr rfl (fun _ => rfl) fun h5 => ite_congr rfl (fun _ => rfl) fun h6 =>
    ite_congr rfl (fun _ => rfl) fun h7 => if_pos ?_
  simpa only [actingRegs, List.mem_cons, h1, h2, h3, h4, h5, h6, h7, false_or, List.not_mem_nil, or_false] using ha

section
variable (s : State) (v : Nat)

theorem actingWrite_release : s.actingWrite F.HV_RELEASE.STEP_S.addr v = (0, s.releaseSteps (v % 2 ^ 48)) := if_pos rfl

theorem actingWrite_resend : s.actingWrite F.HV_RESEND.CHANNEL.addr v = (0, s.resendSegs (bitsOf v 0 5) (bitsOf v 32 32)) := by
  rw [actingWrite, if_neg (by decide), if_pos rfl]

theorem actingWrite_discard : s.actingWrite F.APPLY_CTL.DISCARD.addr v = (0, s.discardShadows v) := by
  rw [actingWrite, if_neg (by decide), if_neg (by decide), if_pos rfl]

theorem actingWrite_regate : s.actingWrite F.LANE_REGATE.CHANNELS.addr v = (0, s.laneRegate (v % 2 ^ 33)) := by
  rw [actingWrite, if_neg (by decide), if_neg (by decide), if_neg (by decide), if_pos rfl]

theorem actingWrite_keys : s.actingWrite F.KEY_LOAD.PARCEL.addr v = (0, s.keyLoad (v % 2 ^ 20)) := by
  rw [actingWrite, if_neg (by decide), if_neg (by decide), if_neg (by decide), if_neg (by decide), if_pos rfl]

theorem actingWrite_attest : s.actingWrite F.ATTEST_REQ.PARCEL.addr v = (0, s.attestReq (v % 2 ^ 20)) := by
  rw [actingWrite, if_neg (by decide), if_neg (by decide), if_neg (by decide), if_neg (by decide), if_neg (by decide), if_pos rfl]

theorem actingWrite_ring (i : BitVec 1) : s.actingWrite (F.MGMT_RING.ENTRIES i.toNat).addr v =
    s.mgmtRing i.toNat (bitsOf v 0 20) (bitsOf v 20 21) := by
  obtain hi | hi : i.toNat = 0 ∨ i.toNat = 1 := by omega
  · rw [hi, actingWrite, if_neg (by decide), if_neg (by decide), if_neg (by decide), if_neg (by decide), if_neg (by decide),
      if_neg (by decide), if_pos rfl]
  · rw [hi, actingWrite, if_neg (by decide), if_neg (by decide), if_neg (by decide), if_neg (by decide), if_neg (by decide),
      if_neg (by decide), if_neg (by decide)]

end

section
variable {s : State} {port : BitVec 1} {t : BitVec 8} {c : Instr} {a v : Nat}

/-- A command that writes an acting register does what that write does, and its completion goes. -/
theorem does_acting (hexec : exec c s = .next (s.after (s.portWrite64 port.toNat t.toNat a v))) (ha : a ∈ actingRegs)
    (htakes : s.takes port.toNat t.toNat) (hfull : s.fullService port.toNat = true) (hv : v < 2 ^ 64) {st : Nat} {u : State}
    (hw : s.actingWrite a v = (st, u)) {P : State → Prop} (hP : P (u.reply port.toNat t.toNat 4 st [])) : s.does c P := by
  obtain ⟨hreg, hal, hwin, hflags, -, -⟩ := actingRegs_assigned a ha
  refine does_of_eq hexec (portWrite64_register htakes hfull hal hwin hflags (by rw [← Option.isSome_map, hreg]; rfl) v) ?_
  rw [regWrite_acting s _ ha, Nat.mod_eq_of_lt hv, hw]
  exact hP

end

end State

open State in
/-- Settles O33: the control registers whose write does something (R256, R307, R404, R420, R421). -/
theorem controlWrites : Obligations.ControlWrites := by
  intro s port t p after
  refine ⟨fun htakes hfull => ⟨fun st => ?_, fun c n hkept => ?_, ?_, fun cs twin hsome hidle => ?_, fun k => ⟨fun ho => ?_, fun ho hkey => ?_⟩,
    fun k => ⟨fun ho => ?_, fun ho hpub => ?_, fun ho hpub => ?_⟩⟩, fun img himg hpub => ?_⟩
  · have hlt : st.toNat < 2 ^ 48 := st.isLt
    refine does_acting rfl (by simp [actingRegs]) htakes hfull (by omega) (actingWrite_release ..) ⟨⟨_, reply_replied ..⟩, ?_⟩
    rw [Nat.mod_eq_of_lt hlt]
    rfl
  · have hc : bitsOf (c.toNat + n.toNat * 2 ^ 32) 0 5 = c.toNat := by
      rw [bitsOf_eq]
      omega
    have hn : bitsOf (c.toNat + n.toNat * 2 ^ 32) 32 32 = n.toNat := by
      rw [bitsOf_eq]
      omega
    have hany : (s.hv.kept.any fun g => g.stepS == s.getF F.HV_RESEND_STEP.STEP_S) = true := by simpa using hkept
    refine does_acting rfl (by simp [actingRegs]) htakes hfull (by omega) (actingWrite_resend ..) ?_
    rw [hc, hn, resendSegs]
    dsimp only
    rw [if_pos hany]
    refine (congrArg TxSt.resend (SMap.get_set_same ..)).trans ?_
    refine congrArg (fun gs => (s.tx c.toNat).resend ++ List.map _ gs) (List.filter_congr fun g _ => congrArg _ ?_)
    cases g.hseq <;> rfl
  · exact does_acting rfl (by simp [actingRegs]) htakes hfull (by omega) (actingWrite_discard ..) (reply_replied ..)
  · have htwin : b2n twin * 2 ^ 32 = if twin then 2 ^ 32 else 0 := by cases twin <;> rfl
    have hle : (if twin then 2 ^ 32 else 0) ≤ 2 ^ 32 := by split <;> omega
    have hlt : cs.toNat + b2n twin * 2 ^ 32 < 2 ^ 64 := by omega
    have hmask : (cs.toNat + b2n twin * 2 ^ 32) % 2 ^ 33 = cs.toNat + if twin then 2 ^ 32 else 0 := by
      rw [htwin]
      exact Nat.mod_eq_of_lt (by omega)
    refine does_acting rfl (by simp [actingRegs]) htakes hfull hlt (actingWrite_regate ..) ?_
    have hset : (cs.toNat + if twin then 2 ^ 32 else 0) ≠ 0 := by
      obtain h | h := hsome
      · have : cs.toNat ≠ 0 := fun h0 => h (BitVec.eq_of_toNat_eq h0)
        omega
      · simp [h]
    rw [hmask, laneRegate, if_neg hset, hidle]
    dsimp only
    exact ⟨by rw [getF_reply, getF_nowF_same]; rfl, rfl⟩
  · have hk : k.toNat % 2 ^ 20 = k.toNat := Nat.mod_eq_of_lt k.isLt
    refine does_acting rfl (by simp [actingRegs]) htakes hfull (by omega) (actingWrite_keys ..) ?_
    rw [hk, keyLoad, if_pos ho]
    exact ⟨by rw [getF_reply, getF_nowF_same]; rfl, rfl⟩
  · have hk : k.toNat % 2 ^ 20 = k.toNat := Nat.mod_eq_of_lt k.isLt
    refine does_acting rfl (by simp [actingRegs]) htakes hfull (by omega) (actingWrite_keys ..) ?_
    have hgood : ¬ s.keyCheck (s.winGet (k.toNat * 65536) 896) ≠ keyAccepted := not_not.2 hkey
    rw [hk, keyLoad, if_neg (not_not.2 ho)]
    dsimp only
    rw [if_neg hgood]
    refine ⟨fun hpub => ?_, fun hpub => ?_⟩
    · rw [if_pos hpub]
      exact ⟨rfl, by rw [getF_reply, takeKeys, getF_nowF_same]; rfl⟩
    · rw [if_neg (by simp [hpub])]
      rfl
  · have hk : k.toNat % 2 ^ 20 = k.toNat := Nat.mod_eq_of_lt k.isLt
    refine does_acting rfl (by simp [actingRegs]) htakes hfull (by omega) (actingWrite_attest ..) ?_
    rw [hk, attestReq, if_pos ho]
    exact ⟨by rw [getF_reply, getF_keepF_same]; rfl, rfl⟩
  · have hk : k.toNat % 2 ^ 20 = k.toNat := Nat.mod_eq_of_lt k.isLt
    refine does_acting rfl (by simp [actingRegs]) htakes hfull (by omega) (actingWrite_attest ..) ?_
    rw [hk, attestReq, if_neg (not_not.2 ho)]
    dsimp only
    rw [if_neg (by rw [atPublication] at hpub; simp [atPublication, hpub])]
    rfl
  · have hk : k.toNat % 2 ^ 20 = k.toNat := Nat.mod_eq_of_lt k.isLt
    refine does_acting rfl (by simp [actingRegs]) htakes hfull (by omega) (actingWrite_attest ..) ?_
    rw [hk, attestReq, if_neg (not_not.2 ho)]
    dsimp only
    rw [if_pos (by rw [atPublication] at hpub; simpa [atPublication] using hpub)]
    exact ⟨rfl, by rw [getF_reply, attestPoint]; exact getF_keepF_same ..⟩
  · refine does_of_eq rfl (?_ : s.keyTakeEffect = s.takeKeys img) ⟨rfl, getF_nowF_same ..⟩
    rw [keyTakeEffect, himg]
    exact if_pos hpub

namespace State

/-! ### Words of the window -/

/-- A word that has been written is read back. -/
theorem winWord_winPutWord_same (s : State) (a : Nat) {v : Nat} (hv : v < 2 ^ 64) : (s.winPutWord a v).winWord a = v := by
  have hget : (s.winPut a (leBytes 8 v)).winGet a 8 = leBytes 8 v := by
    have h := winGet_winPut_same s a (leBytes 8 v)
    rwa [length_leBytes] at h
  rw [winWord, winPutWord, hget, leNat_leBytes]
  exact Nat.mod_eq_of_lt hv

theorem winWord_winPutWord_outside (s : State) {a b : Nat} (v : Nat) (h : b + 8 ≤ a ∨ a + 8 ≤ b) :
    (s.winPutWord a v).winWord b = s.winWord b := by
  rw [winWord, winPutWord, winGet_winPut_outside _ _ _ _ _ (by rwa [length_leBytes])]
  rfl

theorem leNat_lt (bs : List Byte) : leNat bs < 256 ^ bs.length := by
  induction bs with
  | nil => simp [leNat]
  | cons b bs ih =>
    have hb : b.toNat < 256 := b.isLt
    rw [leNat, List.length_cons, Nat.pow_succ]
    omega

theorem length_winGet (s : State) (a n : Nat) : (s.winGet a n).length = n := by
  rw [winGet]
  induction n generalizing a with
  | zero => rfl
  | succ n ih => rw [SMap.getAll, List.length_cons, ih]

theorem winWord_lt (s : State) (a : Nat) : s.winWord a < 2 ^ 64 := by
  have h := leNat_lt (s.winGet a 8)
  rwa [length_winGet] at h

/-! ### Doorbells of the queues (R282) -/

/-- An entry that the host has given is the module's. -/
def giveEntry (a : Nat) (s : State) : State := s.winPutWord a (setBits (s.winWord a) 0 2 1)

theorem winWord_giveEntry (s : State) (a : Nat) : (s.giveEntry a).winWord a % 4 = 1 := by
  have hlt := s.winWord_lt a
  have hset : setBits (s.winWord a) 0 2 1 = 1 + s.winWord a / 4 * 4 := by
    rw [setBits, Nat.shiftRight_eq_div_pow]
    omega
  rw [giveEntry, winWord_winPutWord_same _ _ (by omega), hset]
  omega

/-- Giving entries of a ring changes the bytes of the window alone, and each one given is the module's. -/
theorem foldl_giveEntry (is : List Nat) (f : Nat → Nat) (hf : ∀ i ∈ is, ∀ j ∈ is, f i = f j ∨ f i + 8 ≤ f j ∨ f j + 8 ≤ f i) (s : State) :
    let t := is.foldl (fun s i => giveEntry (f i) s) s
    { t with win := s.win } = s ∧ t.win.flags = s.win.flags ∧ ∀ i ∈ is, t.winWord (f i) % 4 = 1 := by
  refine List.reverseRecOn (motive := fun js => js ⊆ is → let t := js.foldl (fun s i => giveEntry (f i) s) s
    { t with win := s.win } = s ∧ t.win.flags = s.win.flags ∧ ∀ i ∈ js, t.winWord (f i) % 4 = 1) is ?_ ?_ (List.Subset.refl is)
  · exact fun _ => ⟨rfl, rfl, fun i hi => absurd hi (List.not_mem_nil)⟩
  · intro js j ih hsub
    obtain ⟨hframe, hflags, hgiven⟩ := ih fun i hi => hsub (List.mem_append_left _ hi)
    simp only [List.foldl_append, List.foldl_cons, List.foldl_nil]
    generalize js.foldl (fun s i => giveEntry (f i) s) s = t at *
    refine ⟨hframe, hflags, fun i hi => ?_⟩
    have hj : j ∈ is := hsub (by simp)
    obtain heq | hout := hf i (hsub hi) j hj
    · rw [heq]
      exact winWord_giveEntry ..
    · obtain hi | hi := List.mem_append.1 hi
      · rw [giveEntry, winWord_winPutWord_outside _ _ (by omega)]
        exact hgiven i hi
      · rw [List.mem_singleton.1 hi]
        exact winWord_giveEntry ..

theorem foldl_entryAddr (q : Nat) (f : Nat → Nat) (is : List Nat) (s : State) (hf : ∀ i, s.entryAddr q i = f i) :
    is.foldl (fun s i => s.winPutWord (s.entryAddr q i) (setBits (s.winWord (s.entryAddr q i)) 0 2 1)) s =
      is.foldl (fun s i => giveEntry (f i) s) s := by
  induction is generalizing s with
  | nil => rw [List.foldl_nil, List.foldl_nil]
  | cons i is ih =>
    have hkeep (a v j : Nat) : (s.winPutWord a v).entryAddr q j = f j := hf j
    rw [List.foldl_cons, List.foldl_cons, giveEntry, hf i]
    exact ih _ (hkeep _ _)

/-- Entries of one ring are the same or apart. -/
theorem entryAddr_apart (s : State) (q i j : Nat) :
    s.entryAddr q i = s.entryAddr q j ∨ s.entryAddr q i + 8 ≤ s.entryAddr q j ∨ s.entryAddr q j + 8 ≤ s.entryAddr q i := by
  unfold entryAddr
  omega

/-- The indices that a write of GIVE gives. -/
def freshEntries (s : State) (q give : Nat) : List Nat :=
  (List.range ((give + 2 ^ 32 - s.qDone q) % 2 ^ 32 - (s.qGive q + 2 ^ 32 - s.qDone q) % 2 ^ 32)).map fun k => (s.qGive q + k) % 2 ^ 32

/-- The window once these entries are the module's. -/
def entriesGiven (s : State) (q give : Nat) : State :=
  (s.freshEntries q give).foldl (fun s i => s.winPutWord (s.entryAddr q i) (setBits (s.winWord (s.entryAddr q i)) 0 2 1)) s

/-- Queue 0 keeps the port through which each of its entries came. -/
def entriesVia (t : State) (q p : Nat) (is : List Nat) : State :=
  if q = 0 then t.setQueue 0 { t.queue q with via := is.foldl (fun m i => SMap.ins m i p) (t.queue q).via } else t

/-- A doorbell of an enabled queue, by the entries that it gives. -/
theorem queueDoorbell_eq {s : State} {q : Nat} (hon : s.qEntries q ≠ 0) (p give : Nat) : s.queueDoorbell p q give =
    if s.qEntries q < (give + 2 ^ 32 - s.qDone q) % 2 ^ 32 ∨
        (give + 2 ^ 32 - s.qDone q) % 2 ^ 32 < (s.qGive q + 2 ^ 32 - s.qDone q) % 2 ^ 32 then (0x0004, s)
    else if (s.freshEntries q give).any fun i => s.hasBadLine (s.entryAddr q i) 64 then
      (0x000F, (s.freshEntries q give).foldl (fun t i => t.meetBadLines (s.entryAddr q i) 64) s)
    else if !((s.freshEntries q give).all fun i => s.winWord (s.entryAddr q i) % 4 == 0) then (0x0004, s)
    else (0, ((s.entriesGiven q give).entriesVia q p (s.freshEntries q give)).nowF (F.QUEUE_STATE.GIVE q) give) := by
  have hfold : (List.range ((give + 2 ^ 32 - s.qDone q) % 2 ^ 32 - (s.qGive q + 2 ^ 32 - s.qDone q) % 2 ^ 32)).map
      (fun k => (s.qGive q + k) % 2 ^ 32) = s.freshEntries q give := rfl
  rw [queueDoorbell, if_neg hon]
  dsimp only
  rw [hfold, entriesVia, entriesGiven]

theorem entriesGiven_frame (s : State) (q give : Nat) :
    { s.entriesGiven q give with win := s.win } = s ∧ (s.entriesGiven q give).win.flags = s.win.flags ∧
      ∀ i ∈ s.freshEntries q give, (s.entriesGiven q give).winWord (s.entryAddr q i) % 4 = 1 := by
  have h := foldl_giveEntry (s.freshEntries q give) (s.entryAddr q) (fun i _ j _ => s.entryAddr_apart q i j) s
  rwa [← foldl_entryAddr q (s.entryAddr q) _ s fun _ => rfl] at h

theorem entriesVia_frame (t : State) (q p : Nat) (is : List Nat) :
    { t.entriesVia q p is with queues := t.queues } = t ∧ ((t.entriesVia q p is).queue q).next = (t.queue q).next := by
  unfold entriesVia
  split
  · next h0 =>
    subst h0
    exact ⟨rfl, (congrArg QueueSt.next (queue_setQueue_same t 0 _) :)⟩
  · exact ⟨rfl, rfl⟩

/-- What both leave. -/
theorem givenAndVia {s t v : State} {q : Nat} {is : List Nat} (hframe : { t with win := s.win } = s) (hvia : { v with queues := t.queues } = t)
    (hflags : t.win.flags = s.win.flags) (hnext : (v.queue q).next = (t.queue q).next)
    (hgiven : ∀ i ∈ is, t.winWord (s.entryAddr q i) % 4 = 1) :
    { v with win := s.win, queues := s.queues } = s ∧ v.win.flags = s.win.flags ∧ (v.queue q).next = (s.queue q).next ∧
      ∀ i ∈ is, v.winWord (s.entryAddr q i) % 4 = 1 := by
  have hwin : v.win = t.win := (congrArg State.win hvia :)
  refine ⟨(congrArg (fun v : State => { v with win := s.win, queues := s.queues }) hvia :).trans
    (congrArg (fun v : State => { v with queues := s.queues }) hframe :), by rw [hwin, hflags],
    hnext.trans (congrArg QueueSt.next (queue_congr (congrArg State.queues hframe :) q)), fun i hi => ?_⟩
  rw [winWord, winGet, hwin]
  exact hgiven i hi

section
variable {s : State} {p q give : Nat} (hon : s.qEntries q ≠ 0)
  (hroom : (give + 2 ^ 32 - s.qDone q) % 2 ^ 32 ≤ s.qEntries q)
  (hmore : (s.qGive q + 2 ^ 32 - s.qDone q) % 2 ^ 32 ≤ (give + 2 ^ 32 - s.qDone q) % 2 ^ 32)
include hon hroom hmore

theorem queueDoorbell_lost (hbad : ∃ i ∈ s.freshEntries q give, s.hasBadLine (s.entryAddr q i) 64 = true) :
    (s.queueDoorbell p q give).1 = 0x000F := by
  have hany : ((s.freshEntries q give).any fun i => s.hasBadLine (s.entryAddr q i) 64) = true := by simpa using hbad
  rw [queueDoorbell_eq hon, if_neg (by omega), if_pos hany]

theorem queueDoorbell_given
    (hgood : ∀ i ∈ s.freshEntries q give, s.winWord (s.entryAddr q i) % 4 = 0 ∧ s.hasBadLine (s.entryAddr q i) 64 = false) :
    ∃ v : State, s.queueDoorbell p q give = (0, v.nowF (F.QUEUE_STATE.GIVE q) give) ∧
      { v with win := s.win, queues := s.queues } = s ∧ v.win.flags = s.win.flags ∧ (v.queue q).next = (s.queue q).next ∧
      ∀ i ∈ s.freshEntries q give, v.winWord (s.entryAddr q i) % 4 = 1 := by
  have hany : ¬ ((s.freshEntries q give).any fun i => s.hasBadLine (s.entryAddr q i) 64) = true := by
    simpa using fun i hi => (hgood i hi).2
  have hall : ¬ (!((s.freshEntries q give).all fun i => s.winWord (s.entryAddr q i) % 4 == 0)) = true := by
    simpa using fun i hi => (hgood i hi).1
  obtain ⟨hframe, hflags, hgiven⟩ := s.entriesGiven_frame q give
  obtain ⟨hvia, hnext⟩ := (s.entriesGiven q give).entriesVia_frame q p (s.freshEntries q give)
  rw [queueDoorbell_eq hon, if_neg (by omega), if_neg hany, if_neg hall]
  exact ⟨_, rfl, givenAndVia hframe hvia hflags hnext hgiven⟩

end

/-- A command that rings a queue's doorbell does what the doorbell does, and its completion goes. -/
theorem does_bell {s : State} {port : BitVec 1} {t : BitVec 8} {queue : BitVec 15} {give : BitVec 32} (htakes : s.takes port.toNat t.toNat)
    (hfull : s.fullService port.toNat = true) {r : Nat × State} (hr : s.queueDoorbell port.toNat queue.toNat give.toNat = r)
    {P : State → Prop} (hP : P (r.2.reply port.toNat t.toNat 4 r.1 [])) : s.does (.queueDoorbell port t queue give) P := by
  have hq : queue.toNat < 2 ^ 15 := queue.isLt
  have haddr : (F.QUEUE_DOORBELL.GIVE queue.toNat).addr = 0x300000200000 + 0x10 * queue.toNat := rfl
  have hflags : inFlags (F.QUEUE_DOORBELL.GIVE queue.toNat).addr = false := by
    rw [inFlags, haddr, decide_eq_false (by omega : ¬ 0x300000200000 + 0x10 * queue.toNat < 0x300000080000), Bool.and_false]
  have hdead : deadQueueCfg (F.QUEUE_DOORBELL.GIVE queue.toNat).addr = false := by
    rw [deadQueueCfg, haddr, decide_eq_false (by omega : ¬ 0x300000200000 + 0x10 * queue.toNat < 0x100001000020), Bool.and_false]
  have hwrite : s.regWrite port.toNat (F.QUEUE_DOORBELL.GIVE queue.toNat).addr give.toNat = r := by
    have hother : ∀ a ∈ actingRegs, (F.QUEUE_DOORBELL.GIVE queue.toNat).addr ≠ a := fun a ha h => by
      have := (actingRegs_assigned a ha).2.2.2.2.1
      omega
    simp only [actingRegs, List.forall_mem_cons] at hother
    obtain ⟨h1, h2, h3, h4, h5, h6, h7, h8, -⟩ := hother
    rw [regWrite, if_neg (by omega), findReg_bell hq]
    dsimp only
    rw [if_neg (by rw [absentBlock_high s (by omega), hdead]; decide), if_neg (by decide), if_neg h1, if_neg h2, if_neg h3, if_neg h4,
      if_neg h5, if_neg h6, if_neg h7, if_neg h8, List.headD_cons, if_pos rfl, Nat.mod_eq_of_lt give.isLt]
    exact hr
  refine does_of_eq rfl (portWrite64_register htakes hfull (by omega) (by omega) hflags (by rw [findReg_bell hq]; rfl) give.toNat) ?_
  rw [Nat.mod_eq_of_lt (by omega), hwrite]
  exact hP

theorem mem_freshEntries {s : State} {q give i : Nat} : i ∈ s.freshEntries q give ↔
    ∃ k, k < (give + 2 ^ 32 - s.qDone q) % 2 ^ 32 - (s.qGive q + 2 ^ 32 - s.qDone q) % 2 ^ 32 ∧ i = (s.qGive q + k) % 2 ^ 32 := by
  simp only [freshEntries, List.mem_map, List.mem_range, eq_comm]

/-! ### The management rings (R276, R280, R291) -/

/-- A run of parcels takes a flag; the rest keep theirs. -/
theorem foldl_setFlag (x : BitVec 4) (ps : List Nat) (s : State) :
    let t := ps.foldl (fun s p => s.setFlag p x) s
    { t with win := s.win } = s ∧ t.win.bytes = s.win.bytes ∧ ∀ k, t.flag k = if k ∈ ps then x else s.flag k := by
  induction ps generalizing s with
  | nil => exact ⟨rfl, rfl, fun k => (if_neg (List.not_mem_nil)).symm⟩
  | cons p ps ih =>
    obtain ⟨hframe, hbytes, hflag⟩ := ih (s.setFlag p x)
    refine ⟨(congrArg (fun v : State => { v with win := s.win }) hframe :), hbytes, fun k => ?_⟩
    rw [List.foldl_cons, hflag]
    by_cases hp : k = p
    · subst hp
      simp
    · rw [flag_setFlag_other _ _ hp]
      simp [hp]

theorem freeRing_frame (s : State) (ps : List Nat) : { s.freeRing ps with win := s.win } = s ∧ (s.freeRing ps).win.bytes = s.win.bytes ∧
    ∀ k, (s.freeRing ps).flag k = if k ∈ ps then 0 else s.flag k := foldl_setFlag 0 ps s

theorem claimRing_frame (s : State) (ps : List Nat) : { s.claimRing ps with win := s.win } = s ∧ (s.claimRing ps).win.bytes = s.win.bytes ∧
    ∀ k, (s.claimRing ps).flag k = if k ∈ ps then 10 else s.flag k := foldl_setFlag 10 ps s

/-- A ring set up on parcels that the host owns or that are its own. -/
theorem mgmtRing_sets {s : State} {i base entries : Nat} (hi : i < 2) (hbase : base < 2 ^ 20) (hentries : entries < 2 ^ 21)
    (hsize : ringSizeOk entries = true) (hroom : base + ceilDiv entries 1024 ≤ 2 ^ 20) (hun : s.unreturned i = [])
    (hfree : ∀ k ∈ (List.range (ceilDiv entries 1024)).map (base + ·), s.owner k = 0 ∨ k ∈ s.markedRing i) :
    ∃ u : State, s.mgmtRing i base entries = (0, u) ∧ u.getF (F.MGMT_RING.BASE_PARCEL i) = base ∧
      u.getF (F.MGMT_RING.ENTRIES i) = entries ∧ u.qGive i = 0 ∧ u.qDone i = 0 ∧ u.queue i = QueueSt.zero ∧
      (∀ k, u.flag k = if k ∈ (List.range (ceilDiv entries 1024)).map (base + ·) then 10
        else if k ∈ s.markedRing i then 0 else s.flag k) ∧ u.win.bytes = s.win.bytes := by
  obtain ⟨-, hbytes, hflag⟩ := s.freeRing_frame (s.markedRing i)
  let a := ((s.freeRing (s.markedRing i)).nowF (F.MGMT_RING.BASE_PARCEL i) base).nowF (F.MGMT_RING.ENTRIES i) entries
  obtain ⟨hcl, hclBytes, hclFlag⟩ := (a.restartQueue i).claimRing_frame ((List.range (ceilDiv entries 1024)).map (base + ·))
  have hregs : ((a.restartQueue i).claimRing ((List.range (ceilDiv entries 1024)).map (base + ·))).regs = (a.restartQueue i).regs :=
    (congrArg State.regs hcl :)
  have hqueues : ((a.restartQueue i).claimRing ((List.range (ceilDiv entries 1024)).map (base + ·))).queues = (a.restartQueue i).queues :=
    (congrArg State.queues hcl :)
  have hrestart (f : Fld) : (a.restartQueue i).getF f = ((a.nowF (F.QUEUE_STATE.GIVE i) 0).nowF (F.QUEUE_STATE.DONE i) 0).getF f := rfl
  have hkept {f : Fld} (hg : f.key ≠ (F.QUEUE_STATE.GIVE i).key) (hd : f.key ≠ (F.QUEUE_STATE.DONE i).key) :
      (a.restartQueue i).getF f = a.getF f := by
    rw [hrestart, getF_nowF_other _ _ hd, getF_nowF_other _ _ hg]
  refine ⟨_, ?_, ?_, ?_, ?_, ?_, ?_, fun k => (hclFlag k).trans (ite_congr rfl (fun _ => rfl) fun _ => hflag k), hclBytes.trans hbytes⟩
  · rw [mgmtRing]
    dsimp only
    rw [if_neg (by simp [hsize]; omega), if_neg (by simp [hun]), if_neg (by simpa [or_iff_not_imp_left] using hfree)]
  · rw [getF_congr hregs, hkept (by simp only [Fld.key, F.MGMT_RING.BASE_PARCEL, F.QUEUE_STATE.GIVE]; omega)
      (by simp only [Fld.key, F.MGMT_RING.BASE_PARCEL, F.QUEUE_STATE.DONE]; omega),
      getF_nowF_other _ _ (by simp only [Fld.key, F.MGMT_RING.BASE_PARCEL, F.MGMT_RING.ENTRIES]; omega), getF_nowF_same]
    exact Nat.mod_eq_of_lt hbase
  · rw [getF_congr hregs, hkept (by simp only [Fld.key, F.MGMT_RING.ENTRIES, F.QUEUE_STATE.GIVE]; omega)
      (by simp only [Fld.key, F.MGMT_RING.ENTRIES, F.QUEUE_STATE.DONE]; omega), getF_nowF_same]
    exact Nat.mod_eq_of_lt hentries
  · rw [qGive, getF_congr hregs, hrestart, getF_nowF_other _ _ (by simp only [Fld.key, F.QUEUE_STATE.GIVE, F.QUEUE_STATE.DONE]; omega),
      getF_nowF_same, Nat.zero_mod]
  · rw [qDone, getF_congr hregs, hrestart, getF_nowF_same, Nat.zero_mod]
  · exact (queue_congr hqueues i).trans ((queue_congr (s := a.setQueue i QueueSt.zero) rfl i).trans (queue_setQueue_same a i _))

end State

open State in
/-- Settles O32: entries that a doorbell gives, and the management rings (R276, R280, R282, R291). -/
theorem queueDoorbells : Obligations.QueueDoorbells := by
  intro s port t p htakes hfull
  refine ⟨?_, ?_⟩
  · intro queue give q had has fresh
    have hfresh {i : Nat} : i ∈ s.freshEntries q give.toNat ↔ fresh i := mem_freshEntries
    refine ⟨fun hoff => ?_, fun hon hfew => ?_, fun hon hroom hmore hbad => ?_, fun hon hroom hmore hgood => ?_⟩
    · exact does_bell htakes hfull (if_pos hoff) (reply_replied ..)
    · exact does_bell htakes hfull ((queueDoorbell_eq hon p give.toNat).trans (if_pos hfew)) (reply_replied ..)
    · obtain ⟨i, hi, hline⟩ := hbad
      have hlost := queueDoorbell_lost (p := p) hon hroom hmore ⟨i, hfresh.2 hi, hline⟩
      refine does_bell htakes hfull rfl ⟨(s.queueDoorbell p q give.toNat).2, ?_⟩
      rw [hlost]
      exact reply_replied ..
    · obtain ⟨v, hbell, hframe, hflags, hnext, hgiven⟩ := queueDoorbell_given (p := p) hon hroom hmore fun i hi => hgood i (hfresh.1 hi)
      have hgive : (v.nowF (F.QUEUE_STATE.GIVE q) give.toNat).getF (F.QUEUE_STATE.GIVE q) = give.toNat := by
        rw [getF_nowF_same]
        exact Nat.mod_eq_of_lt give.isLt
      have hdone : (v.nowF (F.QUEUE_STATE.GIVE q) give.toNat).getF (F.QUEUE_STATE.DONE q) = s.getF (F.QUEUE_STATE.DONE q) := by
        rw [getF_nowF_other _ _ (by simp [Fld.key, F.QUEUE_STATE.DONE, F.QUEUE_STATE.GIVE]),
          getF_congr (s := s) (t := v) (congrArg State.regs hframe :)]
      exact does_bell htakes hfull hbell ⟨⟨_, reply_replied ..⟩, hgive, hdone, fun i hi => hgiven i (hfresh.2 hi), hflags, hnext⟩
  · intro w base entries i n mine ring hsize hroom hun hfree
    have hbase := base.isLt
    have hentries := entries.isLt
    have hi : i < 2 := w.isLt
    have hceil : ceilDiv entries.toNat 1024 = n := rfl
    have hmem (k : Nat) : k ∈ (List.range n).map (base.toNat + ·) ↔ ring k := by
      simp only [List.mem_map, List.mem_range, ring]
      exact ⟨fun ⟨j, hj, hk⟩ => by omega, fun h => ⟨k - base.toNat, by omega, by omega⟩⟩
    obtain ⟨u, hset, hbp, hent, hgive, hdone, hqueue, hflag, hbytes⟩ := mgmtRing_sets (s := s) (i := i) (base := base.toNat)
      (entries := entries.toNat) hi hbase hentries hsize (by omega) hun fun k hk => by
        simpa using hfree k ((hmem k).1 (by rwa [← hceil]))
    have hlow : bitsOf (base.toNat + entries.toNat * 2 ^ 20) 0 20 = base.toNat := by rw [bitsOf_eq]; omega
    have hhigh : bitsOf (base.toNat + entries.toNat * 2 ^ 20) 20 21 = entries.toNat := by rw [bitsOf_eq]; omega
    rw [hceil] at hflag
    have hact : (F.MGMT_RING.ENTRIES i).addr ∈ actingRegs := by
      obtain h | h : i = 0 ∨ i = 1 := by omega
      all_goals simp [actingRegs, h]
    refine does_acting rfl hact htakes hfull (by omega)
      ((actingWrite_ring _ _ w).trans (by rw [hlow, hhigh]; exact hset))
      ⟨⟨u, reply_replied ..⟩, hbp, hent, hgive, hdone, hqueue, fun k hk => ?_, fun k hm hr => ?_, fun k hm hr => ?_, hbytes⟩
    · have h := (hflag k).trans (if_pos ((hmem k).2 hk))
      exact ⟨congrArg (fun x : BitVec 4 => x.toNat % 4) h, congrArg (fun x : BitVec 4 => x.getLsbD 3) h⟩
    · exact (hflag k).trans ((if_neg fun h => hr ((hmem k).1 h)).trans (if_pos hm))
    · exact (hflag k).trans ((if_neg fun h => hr ((hmem k).1 h)).trans (if_neg hm))

end Sys2Proof.Machine

namespace Sys2Proof.Machine
namespace State

/-! ### The checks of a segment (R220) -/

/-- The oldest segment that has arrived leaves the channel's queue and is checked. -/
theorem segmentReceive_eq {s : State} {c : Nat} {g : Seg} {rest : List Seg} (h : (s.chan c).arrived = g :: rest) :
    s.segmentReceive c = (s.setChan c { s.chan c with arrived := rest }).checkSeg c g := by
  rw [segmentReceive]
  dsimp only
  rw [h]

/-- A count of a channel that goes up by one leaves every other field. -/
theorem fieldsBut_incLive (s : State) (f : Fld) : s.fieldsBut (s.incLive f 1) [f] := fun _ h =>
  getF_incLive_other s 1 (h f (List.mem_singleton_self f))

/-- The channel expects the next sequence number (R220). -/
theorem getF_advanceSseq (s : State) (c : Nat) :
    (s.advanceSseq c).getF (F.CHAN_STATUS.EXPECT_SSEQ c) = (s.getF (F.CHAN_STATUS.EXPECT_SSEQ c) + 1) % 2 ^ 32 :=
  (getF_keepF_same ..).trans (Nat.mod_mod ..)

section
variable (s : State) {f : Fld} {c : Nat} (hf : f.key ≠ (F.CHAN_STATUS.EXPECT_SSEQ c).key)
include hf

theorem getF_advanceSseq_other : (s.advanceSseq c).getF f = s.getF f := getF_keepF_other _ _ hf

theorem advanceSseq_counted : ((s.incLive f 1).advanceSseq c).getF f = min (s.getF f + 1) (2 ^ f.width - 1) :=
  (getF_advanceSseq_other _ hf).trans (getF_incLive_one s f)

theorem advanceSseq_expects :
    ((s.incLive f 1).advanceSseq c).getF (F.CHAN_STATUS.EXPECT_SSEQ c) = (s.getF (F.CHAN_STATUS.EXPECT_SSEQ c) + 1) % 2 ^ 32 := by
  rw [getF_advanceSseq, getF_incLive_other _ _ hf.symm]

end

section
variable {w : State} {c : Nat} {g : Seg} (h2 : g.epoch = w.epoch ∧ g.sseq = w.getF (F.CHAN_STATUS.EXPECT_SSEQ c))
  (h3 : g.lost = false ∧ g.crc = crc64 g.payload) (h4 : g.kind = 2 ∨ g.blocks ≤ w.creditFree c) (h5 : w.segOk g = true) (hk : g.kind ≠ 2)

theorem checkSeg_order (h : ¬ (g.epoch = w.epoch ∧ g.sseq = w.getF (F.CHAN_STATUS.EXPECT_SSEQ c))) :
    w.checkSeg c g = w.incLive (F.SEQ_DISCARD.COUNT c) 1 := if_pos (by tauto)

include h2

theorem checkSeg_lost (h : ¬ (g.lost = false ∧ g.crc = crc64 g.payload)) : w.checkSeg c g = w.incLive (F.SEG_LOST.COUNT c) 1 := by
  rw [checkSeg, if_neg (by tauto), if_pos]
  simp only [Bool.or_eq_true, bne_iff_ne]
  by_cases hl : g.lost = true
  · exact .inl hl
  · exact .inr fun hc => h ⟨by simpa using hl, hc⟩

include h3

theorem checkSeg_credit (h : ¬ (g.kind = 2 ∨ g.blocks ≤ w.creditFree c)) :
    w.checkSeg c g = (w.incLive (F.CREDIT_VIOL.COUNT c) 1).event 0x000C srcChannel c g.sseq := by
  rw [checkSeg, if_neg (by tauto), if_neg (by simp [h3.1, h3.2]), if_pos (by omega)]

include h4

theorem checkSeg_form (h : ¬ w.segOk g = true) :
    w.checkSeg c g = ((w.incLive (F.MALFORMED.COUNT c) 1).event 0x000B srcChannel c g.sseq).advanceSseq c := by
  rw [checkSeg, if_neg (by tauto), if_neg (by simp [h3.1, h3.2]), if_neg (by omega), if_pos (by simpa using h)]

include h5 hk

theorem checkSeg_stale (h : furrowLater g.due w.furrow = false) :
    w.checkSeg c g = (w.incLive (F.STALE.COUNT c) 1).advanceSseq c := by
  rw [checkSeg, if_neg (by tauto), if_neg (by simp [h3.1, h3.2]), if_neg (by omega), if_neg (by simp [h5]), if_neg hk,
    if_pos (by simp [h])]

/-- A segment that passes every check, outside an attempt: counted, and its credit held (R221). -/
def takeSeg (w : State) (c : Nat) (g : Seg) : State :=
  let v := (w.incLive (F.SEG_ACCEPTED.COUNT c) 1).advanceSseq c
  let v := v.keepF (F.CHAN_STATUS.HELD_BLOCKS c) (v.getF (F.CHAN_STATUS.HELD_BLOCKS c) + g.blocks)
  v.setChan c { v.chan c with buffer := (v.chan c).buffer ++ [⟨g, none, false, none⟩] }

theorem checkSeg_taken (h : furrowLater g.due w.furrow = true) (hout : w.inAttempt = false) : w.checkSeg c g = w.takeSeg c g := by
  rw [checkSeg, if_neg (by tauto), if_neg (by simp [h3.1, h3.2]), if_neg (by omega), if_neg (by simp [h5]), if_neg hk,
    if_neg (by simp [h])]
  exact if_neg fun hin => Bool.false_ne_true (hout.symm.trans hin)

end

section
variable (w : State) (c : Nat) (g : Seg)

theorem takeSeg_counted : (w.takeSeg c g).getF (F.SEG_ACCEPTED.COUNT c) = min (w.getF (F.SEG_ACCEPTED.COUNT c) + 1) (2 ^ 48 - 1) :=
  (getF_keepF_other ((w.incLive (F.SEG_ACCEPTED.COUNT c) 1).advanceSseq c) _
    (by simp only [Fld.key, F.SEG_ACCEPTED.COUNT, F.CHAN_STATUS.HELD_BLOCKS]; omega)).trans
    (advanceSseq_counted w (by simp only [Fld.key, F.SEG_ACCEPTED.COUNT, F.CHAN_STATUS.EXPECT_SSEQ]; omega))

theorem takeSeg_expects :
    (w.takeSeg c g).getF (F.CHAN_STATUS.EXPECT_SSEQ c) = (w.getF (F.CHAN_STATUS.EXPECT_SSEQ c) + 1) % 2 ^ 32 :=
  (getF_keepF_other ((w.incLive (F.SEG_ACCEPTED.COUNT c) 1).advanceSseq c) _
    (by simp [Fld.key, F.CHAN_STATUS.EXPECT_SSEQ, F.CHAN_STATUS.HELD_BLOCKS])).trans
    (advanceSseq_expects w (by simp only [Fld.key, F.SEG_ACCEPTED.COUNT, F.CHAN_STATUS.EXPECT_SSEQ]; omega))

theorem takeSeg_holds :
    (w.takeSeg c g).getF (F.CHAN_STATUS.HELD_BLOCKS c) = (w.getF (F.CHAN_STATUS.HELD_BLOCKS c) + g.blocks) % 2 ^ 21 := by
  have h : ((w.incLive (F.SEG_ACCEPTED.COUNT c) 1).advanceSseq c).getF (F.CHAN_STATUS.HELD_BLOCKS c) =
      w.getF (F.CHAN_STATUS.HELD_BLOCKS c) := by
    rw [getF_advanceSseq_other _ (by simp [Fld.key, F.CHAN_STATUS.EXPECT_SSEQ, F.CHAN_STATUS.HELD_BLOCKS]),
      getF_incLive_other _ _ (by simp only [Fld.key, F.SEG_ACCEPTED.COUNT, F.CHAN_STATUS.HELD_BLOCKS]; omega)]
  exact (getF_keepF_same ..).trans (by rw [h]; rfl)

theorem takeSeg_buffers : (w.takeSeg c g).chan c = { w.chan c with buffer := (w.chan c).buffer ++ [⟨g, none, false, none⟩] } :=
  SMap.get_set_same ..

end

end State

open State in
/-- Settles O24: a segment that has arrived, by the first check that it fails (R220, R221). -/
theorem segmentReceive : Obligations.SegmentReceive := by
  intro s chan g rest c w expect up next c2 c3 c4 c5 harrived
  have hseg := segmentReceive_eq harrived
  refine ⟨fun h2 => ?_, fun h2 h3 => ?_, fun h2 h3 h4 => ?_, fun h2 h3 h4 h5 => ?_, fun h2 h3 h4 h5 hk hlate => ?_,
    fun h2 h3 h4 h5 hk hlate hout => ?_⟩
  · exact does_of_eq rfl (hseg.trans (checkSeg_order h2)) ⟨getF_incLive_one w _, fieldsBut_incLive w _, rfl⟩
  · exact does_of_eq rfl (hseg.trans (checkSeg_lost h2 h3)) ⟨getF_incLive_one w _, fieldsBut_incLive w _, rfl⟩
  · exact does_of_eq rfl (hseg.trans (checkSeg_credit h2 h3 h4)) ⟨getF_incLive_one w _, fieldsBut_incLive w _, rfl, _, rfl, rfl, rfl⟩
  · have hkey : (F.MALFORMED.COUNT c).key ≠ (F.CHAN_STATUS.EXPECT_SSEQ c).key := by
      simp only [Fld.key, F.MALFORMED.COUNT, F.CHAN_STATUS.EXPECT_SSEQ]
      omega
    exact does_of_eq rfl (hseg.trans (checkSeg_form h2 h3 h4 h5))
      ⟨advanceSseq_counted w hkey, advanceSseq_expects w hkey, rfl, _, rfl, rfl, rfl⟩
  · have hkey : (F.STALE.COUNT c).key ≠ (F.CHAN_STATUS.EXPECT_SSEQ c).key := by
      simp only [Fld.key, F.STALE.COUNT, F.CHAN_STATUS.EXPECT_SSEQ]
      omega
    exact does_of_eq rfl (hseg.trans (checkSeg_stale h2 h3 h4 h5 hk hlate))
      ⟨advanceSseq_counted w hkey, advanceSseq_expects w hkey, rfl⟩
  · exact does_of_eq rfl (hseg.trans (checkSeg_taken h2 h3 h4 h5 hk hlate hout))
      ⟨takeSeg_counted w c g, takeSeg_expects w c g, takeSeg_holds w c g, takeSeg_buffers w c g, rfl, rfl⟩

end Sys2Proof.Machine

namespace Sys2Proof.Machine
namespace State

/-! ### Dispatch words (R227, R228, R232) -/

theorem incLive_frame (s : State) (f : Fld) (n : Nat) :
    { s.incLive f n with regs := s.regs, pub := s.pub, base := s.base } = s := rfl

theorem incLive_twice_frame (s : State) (f g : Fld) (m n : Nat) :
    { (s.incLive f m).incLive g n with regs := s.regs, pub := s.pub, base := s.base } = s :=
  (congrArg (fun v : State => { v with regs := s.regs, pub := s.pub, base := s.base }) (incLive_frame (s.incLive f m) g n) :).trans
    (incLive_frame s f m)

/-- The conversion counts of a dispatched word are counts and nothing else. -/
theorem countConverted_frame (s : State) (c : Nat) (g : Seg) (first n : Nat) :
    { s.countConverted c g first n with regs := s.regs, pub := s.pub, base := s.base } = s ∧
      s.fieldsBut (s.countConverted c g first n) [F.CONV_SAT.COUNT c, F.CONV_NONFINITE.COUNT c] := by
  rw [countConverted]
  split
  · exact ⟨rfl, fun _ _ => rfl⟩
  · refine ⟨incLive_twice_frame .., fun f hf => ?_⟩
    rw [getF_incLive_other _ _ (hf _ (by simp)), getF_incLive_other _ _ (hf _ (by simp))]

/-- The segment is spent when its last grain has gone (R228). -/
def spendAt (s : State) (last : Prop) [Decidable last] (c sseq m : Nat) : State :=
  if last then s.modSeg c sseq fun b => { b with spent := some m } else s

section
variable (s : State) (last : Prop) [Decidable last] (c sseq m : Nat)

theorem spendAt_frame : { s.spendAt last c sseq m with sow := s.sow } = s ∧ (s.spendAt last c sseq m).sow.sent = s.sow.sent := by
  unfold spendAt
  split
  · exact ⟨rfl, rfl⟩
  · exact ⟨rfl, rfl⟩

theorem chan_spendAt : (s.spendAt last c sseq m).chan c =
    if last then { s.chan c with buffer := (s.chan c).buffer.map fun x => if x.seg.sseq = sseq then { x with spent := some m } else x }
    else s.chan c := by
  unfold spendAt
  split
  · exact SMap.get_set_same ..
  · rfl

theorem chan_spendAt_other {k : Nat} (h : k ≠ c) : (s.spendAt last c sseq m).chan k = s.chan k := by
  unfold spendAt
  split
  · exact SMap.get_set_other _ _ _ h
  · rfl

end

/-- The word's number stands among those carried out, and its grains wait at the plot behind its edge link. -/
def sendGrains (s : State) (h j at0 link : Nat) (cells : List Cell) : State :=
  let v := { s with sow := { s.sow with sent := NSet.insert s.sow.sent (256 * h + j) } }
  let port := s.edgePlot h link
  { v with fab := { s.fab with
    inputs := pagePut s.fab.inputs (inputKey (s.siteOf port.1) port.2 s.furrow) s.furrow at0 (v.dispatchDone h link) cells } }

/-- The cells of `n` grains of decoded bytes from grain `first` on. -/
def grainCells (data : List Byte) (first n : Nat) : List Cell :=
  (List.range n).map fun k => ⟨BitVec.ofNat 128 (leNat ((data.drop (16 * (first + k))).take 16)), false⟩

section
variable {s : State} {h j w : Nat} {e : SowEntry} {b : Buffered} (hrun : s.running = true) (hgrant : 0 < s.step.granted)
  (hjudged : s.step.judged = false) (hsent : NSet.mem s.sow.sent (256 * h + j) = false) (hword : s.dispatchWord h j = some w)
  (hentry : s.sowEntries[bitsOf w 18 18]? = some e) (hclaim : s.claimedBy e.chan (bitsOf w 18 18) = some b) (hkind : wordKind w = 2)
  (hhead : e.chan / 8 = h)
include hrun hgrant hjudged hsent hword hentry hclaim hkind hhead

/-- A dispatch word, carried out (R228). -/
theorem dispatch_eq : s.dispatch h j [] =
    ((s.sendGrains h j (bitsOf w 6 6) (bitsOf w 0 6) (grainCells
        (decodedBytes b.seg.codec b.seg.src b.seg.dst b.seg.elements b.seg.pitch b.seg.payload) (bitsOf w 36 24)
        (bitsOf w 12 6))).countConverted e.chan b.seg (bitsOf w 36 24) (bitsOf w 12 6)).spendAt
      (decodedGrains b.seg.codec b.seg.src b.seg.elements b.seg.bytes b.seg.pitch ≤ bitsOf w 36 24 + bitsOf w 12 6)
      e.chan b.seg.sseq s.furrow := by
  have hgo : (s.running && decide (0 < s.step.granted) && !s.step.judged && !NSet.mem s.sow.sent (256 * h + j)) = true := by
    simp [hrun, hgrant, hjudged, hsent]
  rw [dispatch, if_pos hgo, hword]
  dsimp only
  rw [hentry]
  dsimp only
  rw [hclaim]
  dsimp only
  rw [if_neg (by simp [hkind, hhead]), List.foldl_nil]
  rfl

end

/-- What a dispatched word leaves, from what its counts leave. -/
theorem spent_of {s t u : State} {h j at0 link c q m : Nat} {cells : List Cell} {last : Prop} [Decidable last] {fs : List Fld}
    (ht : t = s.sendGrains h j at0 link cells) (hframe : { u with regs := t.regs, pub := t.pub, base := t.base } = t)
    (hfields : t.fieldsBut u fs) :
    let v := u.spendAt last c q m
    v.fab = (s.sendGrains h j at0 link cells).fab ∧ v.sow.sent = NSet.insert s.sow.sent (256 * h + j) ∧
      v.chan c = (if last then
        { s.chan c with buffer := (s.chan c).buffer.map fun x => if x.seg.sseq = q then { x with spent := some m } else x }
        else s.chan c) ∧
      (∀ k, k ≠ c → v.chan k = s.chan k) ∧ s.fieldsBut v fs ∧ v.plots = s.plots ∧ v.mem = s.mem ∧ v.recs = s.recs := by
  intro v
  subst ht
  obtain ⟨hv, hsent⟩ := u.spendAt_frame last c q m
  have hsow : u.sow = { s.sow with sent := NSet.insert s.sow.sent (256 * h + j) } := (congrArg State.sow hframe :)
  have hchan (k : Nat) : u.chan k = s.chan k := by
    unfold chan
    rw [hsow]
  refine ⟨(congrArg State.fab hv :).trans (congrArg State.fab hframe :), hsent.trans (by rw [hsow]), ?_, fun k hk => ?_, fun f hf => ?_,
    (congrArg State.plots hv :).trans (congrArg State.plots hframe :), (congrArg State.mem hv :).trans (congrArg State.mem hframe :),
    (congrArg State.recs hv :).trans (congrArg State.recs hframe :)⟩
  · rw [chan_spendAt, hchan]
  · rw [chan_spendAt_other _ _ _ _ _ hk, hchan]
  · exact (getF_congr (congrArg State.regs hv :) f).trans (hfields f hf)

end State

open State in
/-- Settles O25: the grains that a dispatch word sends, and the segment it may end (R227, R228, R232). -/
theorem dispatchWords : Obligations.DispatchWords := by
  intro s head word w e b h i g n first data cells port m v hrun hgrant hjudged hsent hword hentry hclaim hkind hhead _
  let last := decodedGrains g.codec g.src g.elements g.bytes g.pitch ≤ first + n
  let t := s.sendGrains h word.toNat (bitsOf w 6 6) (bitsOf w 0 6) cells
  obtain ⟨hframe, hfields⟩ := t.countConverted_frame e.chan g first n
  exact does_of_eq rfl (dispatch_eq hrun hgrant hjudged hsent hword hentry hclaim hkind hhead)
    (spent_of (last := last) (m := m) (q := g.sseq) (cells := cells) rfl hframe hfields)

end Sys2Proof.Machine

namespace Sys2Proof.Machine
namespace State

/-! ### Outbound superblocks (R217, R254, R255) -/

/-- The control word of a channel's superblock whose first header begins at `first` (R217, R255). -/
def outCtl (s : State) (c first : Nat) : OutCtl := {
  sbSeq := (s.tx c).sbSeq, epoch := s.epoch, expect := s.getF (F.CHAN_STATUS.EXPECT_SSEQ c), returned := (s.chan c).returned,
  limit := s.creditLimit c, enabled := if s.chanEnabled c then 1 else 0, committed := s.getF F.HV_STATUS.COMMITTED_S,
  firstHdr := first, abandoned := s.hv.abandonedS }

/-- The channel numbers its next superblock. -/
def numbered (s : State) (c : Nat) : State := s.setTx c { s.tx c with sbSeq := ((s.tx c).sbSeq + 1) % 2 ^ 32 }

theorem tx_setTx_same (s : State) (c : Nat) (x : TxSt) : (s.setTx c x).tx c = x := SMap.get_set_same ..

/-- The grains of a channel's next superblock, and where its first header begins. -/
def nextGrains (s : State) (c : Nat) : List Grain × Nat × State :=
  if s.chanUp c then s.fillSb c (s.fillFuel c) 960 [] 1023 else (List.replicate 960 0, 1023, s)

theorem outbound_none (s : State) (c : Nat) : s.outbound c none =
    let r := (s.numbered c).nextGrains c
    let v := r.2.2
    let o : OutCtl := { v.outCtl c r.2.1 with sbSeq := (s.tx c).sbSeq }
    { v with hv := { v.hv with out := SMap.ins v.hv.out c ⟨o.bytes, r.1⟩ } } := rfl

/-- What a superblock leaves when its grains change no more than the channel's transmission. -/
theorem outbound_sent {s v : State} {c first : Nat} {gs : List Grain} (h : (s.numbered c).nextGrains c = (gs, first, v))
    (hv : { v with hv := { v.hv with tx := s.hv.tx } } = s) :
    let u := s.outbound c none
    SMap.find? u.hv.out c = some ⟨(s.outCtl c first).bytes, gs⟩ ∧ u.tx c = v.tx c ∧ u.regs = s.regs ∧ u.plots = s.plots ∧
      u.mem = s.mem := by
  have hctl : { v.outCtl c first with sbSeq := (s.tx c).sbSeq } = s.outCtl c first := by
    have h := congrArg (fun u : State => u.outCtl c first) hv
    exact (congrArg (fun o : OutCtl => { o with sbSeq := (s.tx c).sbSeq }) h :)
  rw [outbound_none, h]
  dsimp only
  rw [hctl]
  exact ⟨SMap.find?_ins_same .., rfl, (congrArg State.regs hv :), (congrArg State.plots hv :), (congrArg State.mem hv :)⟩

theorem numbered_frame (s : State) (c : Nat) : { s.numbered c with hv := { (s.numbered c).hv with tx := s.hv.tx } } = s := rfl

theorem nextGrains_down {s : State} {c : Nat} (h : s.chanUp c = false) : s.nextGrains c = (List.replicate 960 0, 1023, s) :=
  if_neg (by simp [h])

/-- A channel with nothing to send has no next segment (R254, R347). -/
theorem nextSeg_none {s : State} {c : Nat} (hresend : (s.tx c).resend = []) (hkept : ∀ g ∈ s.hv.kept, ¬ (g.chan = c ∧ g.hseq = none))
    (hdrain : s.ckpt.out = []) : s.nextSeg c = (none, s) := by
  have hfind : s.hv.kept.find? (fun g => g.chan == c && g.hseq.isNone) = none := by
    simpa [List.find?_eq_none] using fun g hg hc => by simpa using fun hn => hkept g hg ⟨hc, hn⟩
  rw [nextSeg, hresend]
  dsimp only
  rw [hfind]
  dsimp only
  rw [hdrain]

section
variable {s : State} {c : Nat} (hup : s.chanUp c = true)
include hup

theorem nextGrains_idle (hcur : (s.tx c).cur = []) (hnext : s.nextSeg c = (none, s)) :
    s.nextGrains c = (List.replicate 960 0, 1023, s) := by
  obtain ⟨n, hn⟩ : ∃ n, s.fillFuel c = n + 1 := ⟨_, by rw [fillFuel, Nat.add_assoc, Nat.add_assoc, Nat.add_comm]⟩
  rw [nextGrains, if_pos hup, hn, fillSb, if_neg (by decide)]
  dsimp only
  rw [if_pos (by rw [hcur]; rfl), hnext]
  rfl

theorem nextGrains_long (hcur : 960 < (s.tx c).cur.length) :
    s.nextGrains c = ((s.tx c).cur.take 960, 1023, s.setTx c { s.tx c with cur := (s.tx c).cur.drop 960 }) := by
  obtain ⟨n, hn⟩ : ∃ n, s.fillFuel c = n + 2 := ⟨998 + (s.tx c).resend.length + s.hv.kept.length + s.ckpt.out.length, by
    rw [fillFuel]
    omega⟩
  have hsome : (s.tx c).cur.isEmpty = false := by
    rw [List.isEmpty_eq_false_iff, ← List.length_pos_iff]
    omega
  have hleft : ((s.tx c).cur.drop 960).isEmpty = false := by
    rw [List.isEmpty_eq_false_iff, ← List.length_pos_iff, List.length_drop]
    omega
  have hroom : 960 - ((s.tx c).cur.take 960).length = 0 := by
    rw [List.length_take]
    omega
  rw [nextGrains, if_pos hup, hn, fillSb, if_neg (by decide)]
  dsimp only
  rw [hsome, if_neg (by decide), hleft, hroom, fillSb, if_pos rfl]
  cases (s.tx c).curDrain with
  | none => simp
  | some k => simp

end

end State

open State in
/-- Settles O27: the superblock of a channel that is down, idle, or amid a segment (R217, R254, R255). -/
theorem outboundSuperblock : Obligations.OutboundSuperblock := by
  intro s chan c x ctl sent nothing
  have htx : (s.numbered c).tx c = { x with sbSeq := (x.sbSeq + 1) % 2 ^ 32 } := tx_setTx_same ..
  refine ⟨fun hdown => ?_, fun hup hcur hno => ?_, fun hup hlong => ?_⟩
  · obtain ⟨hout, hu, hrest⟩ := outbound_sent (nextGrains_down (s := s.numbered c) hdown) (s.numbered_frame c)
    exact ⟨_, rfl, ⟨hout, congrArg TxSt.sbSeq (hu.trans htx), hrest⟩, hu.trans htx⟩
  · obtain ⟨hresend, hkept, hdrain⟩ := hno
    have hnext : (s.numbered c).nextSeg c = (none, s.numbered c) := nextSeg_none (by rw [htx]; exact hresend) hkept hdrain
    obtain ⟨hout, hu, hrest⟩ := outbound_sent (nextGrains_idle (s := s.numbered c) hup (by rw [htx]; exact hcur) hnext)
      (s.numbered_frame c)
    exact ⟨_, rfl, hout, congrArg TxSt.sbSeq (hu.trans htx), hrest⟩
  · have hgrains := nextGrains_long (s := s.numbered c) hup (by rw [htx]; exact hlong)
    obtain ⟨hout, hu, hrest⟩ := outbound_sent hgrains (s.numbered_frame c)
    have htx' := hu.trans ((tx_setTx_same ..).trans (congrArg (fun y : TxSt => { y with cur := y.cur.drop 960 }) htx))
    rw [htx] at hout
    exact ⟨_, rfl, ⟨hout, congrArg TxSt.sbSeq htx', hrest⟩, htx'⟩

end Sys2Proof.Machine

namespace Sys2Proof.Machine
namespace State

/-! ### Gather words (R244) -/

/-- What the bench holds after a grain is added to it (`op` 1), or written over it. -/
def gathered (op : Nat) (old new : Cell) : Cell := if op = 1 then ⟨addGrains old.val new.val, old.poison || new.poison⟩ else new

/-- Grains written to the bench of gleaner `g` from `bench` on. -/
def fillBench (s : State) (g bench op : Nat) (cs : List (Cell × Nat)) : State :=
  cs.foldl (fun s c => s.benchPut g (bench + c.2) (gathered op (s.benchAt g (bench + c.2)) c.1)) s

theorem benchAt_benchPut_same (s : State) (g b : Nat) (c : Cell) : (s.benchPut g b c).benchAt g b = c := by
  simp only [benchAt, benchPut, SMap.find?_ins_same]
  rfl

theorem benchAt_benchPut_other (s : State) (g : Nat) {a b : Nat} (c : Cell) (h : a % 2 ^ 16 ≠ b % 2 ^ 16) :
    (s.benchPut g b c).benchAt g a = s.benchAt g a := by
  simp only [benchAt, benchPut, SMap.find?_ins_other _ _ (by omega : g * 2 ^ 16 + a % 2 ^ 16 ≠ g * 2 ^ 16 + b % 2 ^ 16)]

theorem fillBench_frame (g bench op : Nat) (cs : List (Cell × Nat)) (s : State) :
    { s.fillBench g bench op cs with hv := { (s.fillBench g bench op cs).hv with bench := s.hv.bench } } = s := by
  induction cs generalizing s with
  | nil => rfl
  | cons c cs ih => exact (congrArg (fun v : State => { v with hv := { v.hv with bench := s.hv.bench } }) (ih _) :)

/-- Grains in a row, no more than the bench has places: each place takes its grain, the others keep theirs. -/
theorem fillBench_zipIdx (g bench op : Nat) (cs : List Cell) (i : Nat) (s : State) (hlen : cs.length ≤ 2 ^ 16) :
    let t := s.fillBench g bench op (cs.zipIdx i)
    (∀ k x, cs[k]? = some x → t.benchAt g (bench + (i + k)) = gathered op (s.benchAt g (bench + (i + k))) x) ∧
      ∀ b, (∀ k, k < cs.length → b % 2 ^ 16 ≠ (bench + (i + k)) % 2 ^ 16) → t.benchAt g b = s.benchAt g b := by
  induction cs generalizing i s with
  | nil => exact ⟨fun k x h => by simp at h, fun b _ => rfl⟩
  | cons c cs ih =>
    rw [List.length_cons] at hlen
    let v := s.benchPut g (bench + i) (gathered op (s.benchAt g (bench + i)) c)
    obtain ⟨hin, hout⟩ := ih (i + 1) v (by omega)
    refine ⟨fun k x hx => ?_, fun b hb => ?_⟩
    · cases k with
      | zero =>
        have hc : c = x := by simpa using hx
        refine (hout (bench + i) fun k hk => by omega).trans ?_
        rw [← hc]
        exact benchAt_benchPut_same ..
      | succ k =>
        have hk : k < cs.length := (List.getElem?_eq_some_iff.1 (by simpa using hx : cs[k]? = some x)).1
        have h := hin k x (by simpa using hx)
        rw [show i + 1 + k = i + (k + 1) by omega] at h
        exact h.trans (congrArg (fun y => gathered op y x) (benchAt_benchPut_other s g _ (by omega)))
    · rw [List.length_cons] at hb
      refine (hout b fun k hk => ?_).trans (benchAt_benchPut_other s g _ (hb 0 (by omega)))
      have := hb (k + 1) (by omega)
      rwa [show i + 1 + k = i + (k + 1) by omega]

/-- The grain of an edge page, if the page is whole and of furrow `tag` (R244). -/
def pageGrain (page : FPage) (tag i : Nat) : Option Cell := if page.tag = tag ∧ page.complete then SMap.find? page.grains i else none

theorem getElem?_filterMap_range {n : Nat} {f : Nat → Option Cell} (h : ∀ k, k < n → (f k).isSome = true) {k : Nat} (hk : k < n) :
    ((List.range n).filterMap f)[k]? = f k := by
  have hmap : (List.range n).filterMap f = (List.range n).map fun i => (f i).getD ⟨0, false⟩ := by
    rw [← List.filterMap_eq_map]
    refine List.filterMap_congr fun i hi => ?_
    obtain ⟨x, hx⟩ := Option.isSome_iff_exists.1 (h i (List.mem_range.1 hi))
    simp [hx]
  obtain ⟨x, hx⟩ := Option.isSome_iff_exists.1 (h k hk)
  rw [hmap, List.getElem?_map, List.getElem?_range hk, hx]
  simp [hx]

theorem length_filterMap_range {n : Nat} {f : Nat → Option Cell} : ((List.range n).filterMap f).length ≤ n :=
  (List.length_filterMap_le ..).trans (List.length_range ..).le

/-- The grains of a gather word count, and their poisoned ones (R244). -/
def gatherCounted (s : State) (h j g n : Nat) (cs : List Cell) : State :=
  ((s.gleanPast h j).incF (F.GRAINS_GATHERED.COUNT g) n).incLive (F.POISON.COUNT g) (cs.filter (·.poison)).length

section
variable {s : State} {h j w op : Nat} (hturn : s.gleanTurn h j = true) (hword : s.gleanWord h j = some w) (hkind : wordKind w = 2)
  (hop : bitsOf w 23 2 = op)
include hturn hword hkind hop

theorem gather_eq : s.gather h j op [] =
    let page := SMap.get FPage.zero s.fab.edge (edgeKey h (bitsOf w 0 6) (s.furrowBefore 2))
    let grain (i : Nat) := pageGrain page (s.furrowBefore 2) (bitsOf w 6 6 + i)
    let g := 32 * h + bitsOf w 18 5
    if (List.range (bitsOf w 12 6)).any fun i => (grain i).isNone then
      (s.gleanPast h j).raise { code := 0x0402, srcType := srcHeadland, srcId := h, opUnit := opGleaner, detail := h + page.tag * 4,
                                unit := some (unitHeadland, h) }
    else
      let cs := (List.range (bitsOf w 12 6)).filterMap grain
      (s.gatherCounted h j g (bitsOf w 12 6) cs).fillBench g (bitsOf w 25 16) op cs.zipIdx := by
  rw [gather, if_pos hturn, hword]
  dsimp only
  rw [if_neg (by simp [hkind, hop])]
  refine ite_congr rfl (fun _ => rfl) fun _ => ?_
  rw [List.filter_nil, List.foldl_nil]
  refine congrArg (fun f => List.foldl f _ _) (funext₂ fun t c => ?_)
  unfold gathered
  split
  · rfl
  · rfl

end

/-- What the grains of a gather word leave beside the bench. -/
theorem gatherCounted_frame (s : State) (h j g n : Nat) (cs : List Cell) :
    let u := s.gatherCounted h j g n cs
    { u.hv with pos := s.hv.pos } = s.hv ∧ SMap.get 0 u.hv.pos h = j + 1 ∧ u.fab = s.fab ∧ u.plots = s.plots ∧ u.mem = s.mem ∧
      u.getF (F.GRAINS_GATHERED.COUNT g) = (s.getF (F.GRAINS_GATHERED.COUNT g) + n) % 2 ^ 48 ∧
      s.fieldsBut u [F.GRAINS_GATHERED.COUNT g, F.POISON.COUNT g] := by
  refine ⟨rfl, SMap.get_set_same 0 s.hv.pos h (j + 1), rfl, rfl, rfl, ?_, fun f hf => ?_⟩
  · rw [gatherCounted, getF_incLive_other _ _ (by simp [Fld.key, F.GRAINS_GATHERED.COUNT, F.POISON.COUNT]), getF_incF_same]
    rfl
  · rw [gatherCounted, getF_incLive_other _ _ (hf _ (by simp)), getF_incF_other _ _ (hf _ (by simp))]
    rfl

/-- A gather word whose page holds every grain (R244). -/
theorem gather_whole {s : State} {h j w op : Nat} (hturn : s.gleanTurn h j = true) (hword : s.gleanWord h j = some w)
    (hkind : wordKind w = 2) (hop : bitsOf w 23 2 = op) :
    let page := SMap.get FPage.zero s.fab.edge (edgeKey h (bitsOf w 0 6) (s.furrowBefore 2))
    let grain (i : Nat) := pageGrain page (s.furrowBefore 2) (bitsOf w 6 6 + i)
    let g := 32 * h + bitsOf w 18 5
    let n := bitsOf w 12 6
    let bench := bitsOf w 25 16
    (∀ k, k < n → (grain k).isSome = true) → ∃ u, s.gather h j op [] = u ∧
      (∀ k x, k < n → grain k = some x → u.benchAt g (bench + k) = gathered op (s.benchAt g (bench + k)) x) ∧
      (∀ b, (∀ k, k < n → b % 2 ^ 16 ≠ (bench + k) % 2 ^ 16) → u.benchAt g b = s.benchAt g b) ∧
      u.getF (F.GRAINS_GATHERED.COUNT g) = (s.getF (F.GRAINS_GATHERED.COUNT g) + n) % 2 ^ 48 ∧
      s.fieldsBut u [F.GRAINS_GATHERED.COUNT g, F.POISON.COUNT g] ∧
      { u.hv with bench := s.hv.bench, pos := s.hv.pos } = s.hv ∧ SMap.get 0 u.hv.pos h = j + 1 ∧ u.fab = s.fab ∧
      u.plots = s.plots ∧ u.mem = s.mem := by
  intro page grain g n bench hall
  have hn : n < 2 ^ 6 := Nat.mod_lt _ (by decide)
  let cs := (List.range n).filterMap grain
  have hlen : cs.length ≤ n := length_filterMap_range
  let v := s.gatherCounted h j g n cs
  obtain ⟨hhv, hpos, hfab, hplots, hmem, hcount, hfields⟩ := s.gatherCounted_frame h j g n cs
  have hframe := v.fillBench_frame g bench op cs.zipIdx
  obtain ⟨hin, hout⟩ := fillBench_zipIdx g bench op cs 0 v (by omega)
  have hany : ¬ ((List.range n).any fun i => (grain i).isNone) = true := by
    simpa [Option.isSome_iff_ne_none] using hall
  obtain ⟨u, hu⟩ : ∃ u, u = v.fillBench g bench op cs.zipIdx := ⟨_, rfl⟩
  rw [← hu] at hframe hin hout
  have hregs : u.regs = v.regs := (congrArg State.regs hframe :)
  refine ⟨u, (gather_eq hturn hword hkind hop).trans ((if_neg hany).trans hu.symm), fun k x hk hx => ?_, fun b hb => ?_, ?_, fun f hf => ?_, ?_, ?_, ?_, ?_, ?_⟩
  · have h := hin k x ((getElem?_filterMap_range hall hk).trans hx)
    rwa [Nat.zero_add] at h
  · exact hout b fun k hk => by
      rw [Nat.zero_add]
      exact hb k (by omega)
  · exact (getF_congr hregs _).trans hcount
  · exact (getF_congr hregs f).trans (hfields f hf)
  · exact (congrArg (fun x : State => { x.hv with bench := s.hv.bench, pos := s.hv.pos }) hframe :).trans
      (congrArg (fun x : HarvestSt => { x with bench := s.hv.bench }) hhv :)
  · exact (congrArg (fun x : State => SMap.get 0 x.hv.pos h) hframe :).trans hpos
  · exact (congrArg State.fab hframe :).trans hfab
  · exact (congrArg State.plots hframe :).trans hplots
  · exact (congrArg State.mem hframe :).trans hmem

/-- A gather word whose page lacks a grain (R244). -/
theorem gather_lacking {s : State} {h j w op : Nat} (hturn : s.gleanTurn h j = true) (hword : s.gleanWord h j = some w)
    (hkind : wordKind w = 2) (hop : bitsOf w 23 2 = op) :
    let page := SMap.get FPage.zero s.fab.edge (edgeKey h (bitsOf w 0 6) (s.furrowBefore 2))
    (∃ k, k < bitsOf w 12 6 ∧ pageGrain page (s.furrowBefore 2) (bitsOf w 6 6 + k) = none) → ∃ u, s.gather h j op [] = u ∧
      { u.hv with pos := s.hv.pos } = s.hv ∧ u.step.fault.isSome = true ∧
      ∃ r, u.recs = s.recs ++ [r] ∧ r.code = 0x0402 ∧ r.srcType = srcHeadland ∧ r.srcId = h := by
  rintro page ⟨k, hk, hnone⟩
  have hany : ((List.range (bitsOf w 12 6)).any fun i => (pageGrain page (s.furrowBefore 2) (bitsOf w 6 6 + i)).isNone) = true :=
    List.any_eq_true.2 ⟨k, List.mem_range.2 hk, by rw [hnone]; rfl⟩
  have hin : (s.gleanPast h j).inAttempt = true := by
    simp only [gleanTurn, Bool.and_eq_true] at hturn
    exact inAttempt_of_running hturn.1.1.1
  refine ⟨_, (gather_eq hturn hword hkind hop).trans (if_pos hany), ?_, ?_, _, raise_recs _ _, rfl, rfl, rfl⟩
  · rw [raise_eq]
    rfl
  · rw [raise_step, faultStep_fault, hin]
    rfl

theorem execGather {op : Nat} {c : Instr} {head : BitVec 2} {word : BitVec 8}
    (hc : (c, op) ∈ [(.gatherStart head word [], 0), (.gatherAdd head word [], 1), (.gatherPass head word [], 2)]) (s : State) :
    exec c s = .next (s.after (s.gather head.toNat word.toNat op [])) := by
  simp only [List.mem_cons, Prod.mk.injEq, List.not_mem_nil, or_false] at hc
  obtain ⟨rfl, rfl⟩ | ⟨rfl, rfl⟩ | ⟨rfl, rfl⟩ := hc
  · rfl
  · rfl
  · rfl

/-! ### Emit words (R245, R248) -/

/-- Only the norm, the generators and the residual store differ. -/
def EncodesOnly (s t : State) : Prop :=
  { t with hv := { t.hv with norm := s.hv.norm, rng := s.hv.rng, residual := s.hv.residual, resDirty := s.hv.resDirty } } = s

namespace EncodesOnly
variable {s t u : State}

theorem refl (s : State) : s.EncodesOnly s := rfl

theorem trans (h : s.EncodesOnly t) (k : t.EncodesOnly u) : s.EncodesOnly u :=
  (congrArg (fun v : State => { v with hv := { v.hv with
    norm := s.hv.norm, rng := s.hv.rng, residual := s.hv.residual, resDirty := s.hv.resDirty } }) k :).trans h

theorem foldl {α : Type} {f : State → α → State} (hf : ∀ (s : State) a, s.EncodesOnly (f s a)) (l : List α) (s : State) :
    s.EncodesOnly (l.foldl f s) := by
  induction l generalizing s with
  | nil => exact refl s
  | cons a l ih => exact (hf s a).trans (ih _)

end EncodesOnly

theorem encodesOnly_normAdd (s : State) (bin g : Nat) (x : BitVec 32) : s.EncodesOnly (s.normAdd bin g x) := by
  unfold normAdd
  split
  · rfl
  · rfl

theorem encodesOnly_gleanWords (s : State) (g n : Nat) (rnd : Bool) : s.EncodesOnly (s.gleanWords g n rnd).2 := by
  unfold gleanWords
  split
  · rfl
  · rfl

theorem encodesOnly_resPut (s : State) (h off : Nat) (bs : List Byte) : s.EncodesOnly (s.resPut h off bs) := by
  refine EncodesOnly.foldl (fun t b => ?_) _ s
  dsimp only
  split
  · rfl
  · rfl

theorem encodesOnly_emitBlock (s : State) (h : Nat) (e : HvEntry) (first : Nat) (els : List (BitVec 32 × Option Nat)) :
    s.EncodesOnly (s.emitBlock h e first els).2 := by
  unfold emitBlock
  dsimp only
  split
  · exact encodesOnly_resPut ..
  · rfl

/-- An open segment as it is counted: its grains, its words and its headland. -/
def SameCounts (x y : OpenSeg) : Prop := y.grains = x.grains ∧ y.words = x.words ∧ y.head = x.head

/-- The elements of an emit word, encoded (R245). -/
theorem emitElems_frame (s : State) (h g : Nat) (e : HvEntry) (x : OpenSeg) (els : List (BitVec 32)) :
    s.EncodesOnly (s.emitElems h g e x els).2 ∧ SameCounts x (s.emitElems h g e x els).1 := by
  have hnorm : s.EncodesOnly (els.foldl (fun s v => s.normAdd e.bin g v) s) := .foldl (fun s v => encodesOnly_normAdd s e.bin g v) els s
  unfold emitElems
  dsimp only
  split
  · exact ⟨hnorm, rfl, rfl, rfl⟩
  · split
    · exact ⟨hnorm.trans (encodesOnly_gleanWords ..), rfl, rfl, rfl⟩
    · refine List.foldlRecOn (motive := fun r : OpenSeg × State => s.EncodesOnly r.2 ∧ SameCounts x r.1) _ _
        ⟨hnorm.trans (encodesOnly_gleanWords ..), rfl, rfl, rfl⟩ fun r hr _ _ => ?_
      exact ⟨hr.1.trans (encodesOnly_emitBlock ..), hr.2⟩

theorem emitElems_float {s : State} {h g : Nat} {e : HvEntry} (he : e.codec = 0) (x : OpenSeg) (els : List (BitVec 32)) :
    (s.emitElems h g e x els).1.payload = x.payload ++ (els.map fun v => leBytes 4 (toF32 (ofF32 v)).toNat).flatten := by
  rw [emitElems, if_pos he]

theorem foldl_passGrain (fmt : Nat) (cs : List Cell) (x : OpenSeg) :
    (cs.foldl (passGrain fmt) x).payload = x.payload ++ (cs.map (passBytes fmt)).flatten ∧ SameCounts x (cs.foldl (passGrain fmt) x) := by
  induction cs generalizing x with
  | nil => exact ⟨by simp, rfl, rfl, rfl⟩
  | cons c cs ih =>
    obtain ⟨hpay, hcounts⟩ := ih (passGrain fmt x c)
    exact ⟨by rw [List.foldl_cons, hpay, List.map_cons, List.flatten_cons, ← List.append_assoc, passGrain], hcounts⟩

/-- The segment of an emit word before its grains, and those grains encoded into it (R245). -/
def emitted (s : State) (h g : Nat) (e : HvEntry) (x : OpenSeg) (cells : List Cell) : OpenSeg × State :=
  if e.codec = 4 then (cells.foldl (passGrain e.passFmt) x, s) else s.emitElems h g e x (cells.map grainElems).flatten

theorem emitted_frame (s : State) (h g : Nat) (e : HvEntry) (x : OpenSeg) (cells : List Cell) :
    s.EncodesOnly (s.emitted h g e x cells).2 ∧ SameCounts x (s.emitted h g e x cells).1 := by
  unfold emitted
  split
  · exact ⟨.refl s, (foldl_passGrain ..).2⟩
  · exact emitElems_frame ..

theorem emitted_pass (s : State) (h g : Nat) {e : HvEntry} (he : e.codec = 4) (x : OpenSeg) (cells : List Cell) :
    (s.emitted h g e x cells).1.payload = x.payload ++ (cells.map (passBytes e.passFmt)).flatten := by
  rw [emitted, if_pos he]
  exact (foldl_passGrain ..).1

theorem emitted_float (s : State) (h g : Nat) {e : HvEntry} (he : e.codec = 0) (x : OpenSeg) (cells : List Cell) :
    (s.emitted h g e x cells).1.payload =
      x.payload ++ (((cells.map grainElems).flatten).map fun v => leBytes 4 (toF32 (ofF32 v)).toNat).flatten := by
  rw [emitted, if_neg (by omega)]
  exact emitElems_float he ..

/-- An emit word, carried out: its segment stands with the open ones, and three counts go up. -/
def emitCounted (t : State) (g i a b c : Nat) (x : OpenSeg) : State :=
  ((({ t with hv := { t.hv with segs := SMap.ins t.hv.segs i x } }).incF (F.ELEMENTS_EMITTED.COUNT g) a).incF (F.B16_SAT.COUNT g) b).incF
    (F.NONFINITE.COUNT g) c

theorem emitCounted_frame {s t : State} (hs : s.EncodesOnly t) (g i a b c : Nat) (x : OpenSeg) :
    let u := t.emitCounted g i a b c x
    u.openSeg i = x ∧ (∀ k, k ≠ i → u.openSeg k = s.openSeg k) ∧ u.hv.pos = s.hv.pos ∧ u.hv.bench = s.hv.bench ∧ u.hv.kept = s.hv.kept ∧
      u.plots = s.plots ∧ u.mem = s.mem ∧ s.fieldsBut u [F.ELEMENTS_EMITTED.COUNT g, F.B16_SAT.COUNT g, F.NONFINITE.COUNT g] := by
  have hsegs : t.hv.segs = s.hv.segs := (congrArg (fun v : State => v.hv.segs) hs :)
  refine ⟨?_, fun k hk => ?_, (congrArg (fun v : State => v.hv.pos) hs :), (congrArg (fun v : State => v.hv.bench) hs :),
    (congrArg (fun v : State => v.hv.kept) hs :), (congrArg State.plots hs :), (congrArg State.mem hs :), fun f hf => ?_⟩
  · exact congrArg (Option.getD · _) (SMap.find?_ins_same t.hv.segs i x)
  · exact (congrArg (Option.getD · _) (SMap.find?_ins_other t.hv.segs x hk)).trans (by rw [hsegs]; rfl)
  · rw [emitCounted, getF_incF_other _ _ (hf _ (by simp)), getF_incF_other _ _ (hf _ (by simp)), getF_incF_other _ _ (hf _ (by simp))]
    exact getF_congr (congrArg State.regs hs :) f

section
variable {s : State} {h j w : Nat} {e : HvEntry} (hturn : s.gleanTurn h j = true) (hword : s.gleanWord h j = some w)
  (hentry : s.hvEntry (bitsOf w 0 18) = some e) (hkind : wordKind w = 5)
include hturn hword hentry hkind

theorem emitWord_eq : ∃ a b c,
    let g := 32 * h + bitsOf w 18 5
    let cells := (List.range (bitsOf w 39 9)).map fun k => s.benchAt g (bitsOf w 23 16 + k)
    let x := s.openSeg (bitsOf w 0 18)
    let r := (s.gleanPast h j).emitted h g e { x with head := h, grains := x.grains + bitsOf w 39 9, words := x.words + 1 } cells
    s.emitWord h j [] = r.2.emitCounted g (bitsOf w 0 18) a b c r.1 := by
  rw [emitWord, if_pos hturn, hword]
  dsimp only
  rw [hentry]
  dsimp only
  rw [if_neg (by simp [hkind]), List.filter_nil, List.foldl_nil]
  exact ⟨_, _, _, rfl⟩

end

end State

open State in
/-- Settles O26: gather words by their page, emit words by their codec (R244, R245, R248). -/
theorem gleanerWords : Obligations.GleanerWords := by
  refine ⟨?_, ?_⟩
  · intro s head word w c op hc h n g bench tag page grain hturn hword hkind hop
    refine ⟨fun hall => ?_, fun hlack => ?_⟩
    · obtain ⟨u, hu, hrest⟩ := gather_whole hturn hword hkind hop hall
      exact does_of_eq (execGather hc s) hu hrest
    · obtain ⟨u, hu, hrest⟩ := gather_lacking hturn hword hkind hop hlack
      exact does_of_eq (execGather hc s) hu hrest
  · intro s head word w e h i g n cells x hturn hword hentry hkind
    obtain ⟨a, b, c, hemit⟩ := emitWord_eq hturn hword hentry hkind
    let y : OpenSeg := { x with head := h, grains := x.grains + n, words := x.words + 1 }
    let r := (s.gleanPast h word.toNat).emitted h g e y cells
    obtain ⟨hframe, hgrains, hwords, hhead⟩ := (s.gleanPast h word.toNat).emitted_frame h g e y cells
    obtain ⟨hseg, hother, hpos, hbench, hkept, hplots, hmem, hfields⟩ := emitCounted_frame hframe g i a b c r.1
    refine does_of_eq rfl hemit ⟨?_, ?_, ?_, hother, fun hpass => ?_, fun hfloat => ?_, ?_, hbench, hkept, hplots, hmem, hfields⟩
    · exact (congrArg OpenSeg.grains hseg).trans hgrains
    · exact (congrArg OpenSeg.words hseg).trans hwords
    · exact (congrArg OpenSeg.head hseg).trans hhead
    · exact (congrArg OpenSeg.payload hseg).trans (emitted_pass _ h g hpass y cells)
    · exact (congrArg OpenSeg.payload hseg).trans (emitted_float _ h g hfloat y cells)
    · exact (congrArg (fun m => SMap.get 0 m h) hpos).trans (SMap.get_set_same 0 s.hv.pos h (word.toNat + 1))

end Sys2Proof.Machine

namespace Sys2Proof.Machine
namespace State

/-! ### Lanes that lose and regain lock (R218, R365) -/

@[simp] theorem lane_leaveGate (s : State) (l j : Nat) : (s.leaveGate l).lane j = s.lane j := by
  unfold leaveGate
  split
  · rfl
  · rfl

@[simp] theorem getF_leaveGate (s : State) (l : Nat) (f : Fld) : (s.leaveGate l).getF f = s.getF f := by
  unfold leaveGate
  split
  · rfl
  · rfl

theorem lane_setLane_same (s : State) (l : Nat) (x : LaneSt) : (s.setLane l x).lane l = x := SMap.get_set_same ..

theorem lane_setLane_other (s : State) {l j : Nat} (x : LaneSt) (h : j ≠ l) : (s.setLane l x).lane j = s.lane j :=
  SMap.get_set_other _ _ _ h

theorem getF_showChan_other (s : State) (c : Nat) {f : Fld} (h : f.key ≠ F.SOW_STATUS.CHAN_UP.key) : (s.showChan c).getF f = s.getF f :=
  getF_nowF_other _ _ h

theorem laneLocked_showChan (s : State) (c j : Nat) : (s.showChan c).laneLocked j = s.laneLocked j := by
  rw [laneLocked, getF_showChan_other _ _ (by simp only [Fld.key, F.LANE_STATUS.LOCKED, F.SOW_STATUS.CHAN_UP]; omega), laneLocked]

theorem chanUp_showChan (s : State) (c d : Nat) : (s.showChan c).chanUp d = s.chanUp d := by
  simp only [chanUp, laneLocked_showChan]

theorem bitsOf_mod {x c n : Nat} (hc : c < n) : bitsOf (x % 2 ^ n) c 1 = bitsOf x c 1 := by
  obtain ⟨d, rfl⟩ : ∃ d, n = c + (d + 1) := ⟨n - c - 1, by omega⟩
  rw [bitsOf_eq, bitsOf_eq, Nat.pow_add, Nat.mod_mul_right_div_self, Nat.mod_mod_of_dvd _ (Nat.pow_dvd_pow 2 (by omega))]

/-- CHAN_UP shows whether every lane of the channel is locked (R218). -/
theorem showChan_shows (s : State) {c : Nat} (hc : c < 32) :
    bitsOf ((s.showChan c).getF F.SOW_STATUS.CHAN_UP) c 1 = if s.chanUp c then 1 else 0 := by
  rw [showChan, getF_nowF_same, show F.SOW_STATUS.CHAN_UP.width = 32 from rfl, bitsOf_mod hc, bitsOf_setBits_same]
  cases s.chanUp c
  · rfl
  · rfl

theorem chanUp_unlocked {s : State} {l : Nat} (h : s.laneLocked l = false) : s.chanUp (l / 16) = false := by
  rw [chanUp, List.all_eq_false]
  exact ⟨l % 16, List.mem_range.2 (by omega), by rw [show 16 * (l / 16) + l % 16 = l by omega, h]; decide⟩

section
variable {s t : State} {l : Nat} {x : LaneSt}

/-- A lane's training begins anew, and its channel is shown. -/
theorem lane_shown (ht : t = (s.setLane l x).showChan (l / 16)) : t.lane l = x ∧
    (∀ j, j ≠ l → t.lane j = s.lane j) ∧ (∀ j, t.laneLocked j = s.laneLocked j) ∧
    (∀ f : Fld, f.key ≠ F.SOW_STATUS.CHAN_UP.key → t.getF f = s.getF f) ∧
    (l < 512 → bitsOf (t.getF F.SOW_STATUS.CHAN_UP) (l / 16) 1 = if s.chanUp (l / 16) then 1 else 0) := by
  subst ht
  exact ⟨lane_setLane_same .., fun j hj => lane_setLane_other _ _ hj, fun j => laneLocked_showChan .., fun f hf => getF_showChan_other _ _ hf,
    fun hl => showChan_shows _ (by omega)⟩

theorem laneLocked_nowF_same (s : State) (l : Nat) (b : Bool) :
    (s.nowF (F.LANE_STATUS.LOCKED l) (b2n b)).laneLocked l = b := by
  rw [laneLocked, getF_nowF_same]
  cases b
  · rfl
  · rfl

theorem laneLocked_nowF_other (s : State) {l j : Nat} (v : Nat) (h : j ≠ l) :
    (s.nowF (F.LANE_STATUS.LOCKED l) v).laneLocked j = s.laneLocked j := by
  rw [laneLocked, getF_nowF_other _ _ (by simp only [Fld.key, F.LANE_STATUS.LOCKED]; omega), laneLocked]

theorem laneLocked_incRetrains (s : State) (l j : Nat) : (s.incLive (F.LANE_STATUS.RETRAINS l) 1).laneLocked j = s.laneLocked j := by
  rw [laneLocked, getF_incLive_other _ _ (by simp only [Fld.key, F.LANE_STATUS.LOCKED, F.LANE_STATUS.RETRAINS]; omega), laneLocked]

end

theorem gainLane_eq {s : State} {l : Nat} (h : s.laneLocked l = false) :
    s.gainLane l = ((s.nowF (F.LANE_STATUS.LOCKED l) (b2n true)).setLane l { s.lane l with misses := 0, good := 0 }).showChan (l / 16) :=
  if_neg (by simp [h])

theorem gainLane_gains {s : State} {l : Nat} (h : s.laneLocked l = false) (hl : l < 512) :
    let u := s.gainLane l
    u.laneLocked l = true ∧ u.lane l = { s.lane l with misses := 0, good := 0 } ∧
      (∀ j < 512, j ≠ l → u.laneLocked j = s.laneLocked j ∧ u.lane j = s.lane j) ∧
      bitsOf (u.getF F.SOW_STATUS.CHAN_UP) (l / 16) 1 = if u.chanUp (l / 16) then 1 else 0 := by
  obtain ⟨hlane, hothers, hlocked, -, hup⟩ := lane_shown (gainLane_eq h)
  refine ⟨(hlocked l).trans (laneLocked_nowF_same s l true), hlane,
    fun j _ hj => ⟨(hlocked j).trans (laneLocked_nowF_other s _ hj), hothers j hj⟩, (hup hl).trans ?_⟩
  rw [chanUp, chanUp, funext hlocked]

/-- The lane's lock is gone and its retrain counted. -/
def retrained (s : State) (l : Nat) : State :=
  ((s.leaveGate l).nowF (F.LANE_STATUS.LOCKED l) (b2n false)).incLive (F.LANE_STATUS.RETRAINS l) 1

theorem loseLane_eq {s : State} {l : Nat} (h : s.laneLocked l = true) :
    s.loseLane l = ((s.retrained l).setLane l { s.lane l with misses := 0, good := 0 }).showChan (l / 16) := by
  rw [loseLane, if_pos h, ← lane_leaveGate s l l]
  rfl

theorem loseLane_loses {s : State} {l : Nat} (h : s.laneLocked l = true) (hl : l < 512) :
    let u := s.loseLane l
    u.laneLocked l = false ∧ bitsOf (u.getF F.SOW_STATUS.CHAN_UP) (l / 16) 1 = 0 ∧
      u.getF (F.LANE_STATUS.RETRAINS l) = min (s.getF (F.LANE_STATUS.RETRAINS l) + 1) (2 ^ 16 - 1) ∧
      u.lane l = { s.lane l with misses := 0, good := 0 } ∧
      ∀ j < 512, j ≠ l → u.laneLocked j = s.laneLocked j ∧ u.lane j = s.lane j := by
  obtain ⟨hlane, hothers, hlocked, hfields, hup⟩ := lane_shown (loseLane_eq h)
  have hself : (s.retrained l).laneLocked l = false := (laneLocked_incRetrains ..).trans (laneLocked_nowF_same _ l false)
  refine ⟨(hlocked l).trans hself, (hup hl).trans (by rw [chanUp_unlocked hself]; rfl), (hfields _ ?_).trans ?_, hlane, fun j _ hj => ⟨?_, ?_⟩⟩
  · simp only [Fld.key, F.LANE_STATUS.RETRAINS, F.SOW_STATUS.CHAN_UP]
    omega
  · rw [retrained, getF_incLive_one, getF_nowF_other _ _ (by simp [Fld.key, F.LANE_STATUS.RETRAINS, F.LANE_STATUS.LOCKED]), getF_leaveGate]
    rfl
  · rw [hlocked, retrained, laneLocked_incRetrains, laneLocked_nowF_other _ _ hj, laneLocked, getF_leaveGate, laneLocked]
  · exact (hothers j hj).trans (lane_leaveGate s l j)

/-! ### The twin link (R359, R365, R366) -/

theorem showTwinLink_other (s : State) {f : Fld} (hup : f.key ≠ F.TWIN_STATUS.LINK_UP.key) (hlock : f.key ≠ F.TWIN_LOCK_STATUS.LOCKED.key) :
    s.showTwinLink.getF f = s.getF f := by
  unfold showTwinLink
  dsimp only
  split
  · exact getF_nowF_other _ _ hup
  · rw [getF_nowF_other _ _ hlock, getF_nowF_other _ _ hup]

theorem showTwinLink_frame (s : State) : s.showTwinLink.twin = s.twin ∧ s.showTwinLink.sow = s.sow := by
  unfold showTwinLink
  dsimp only
  split
  · exact ⟨rfl, rfl⟩
  · exact ⟨rfl, rfl⟩

theorem showTwinLink_others (s : State) (j : Nat) : s.showTwinLink.laneLocked j = s.laneLocked j ∧ s.showTwinLink.lane j = s.lane j := by
  refine ⟨?_, by rw [lane, (showTwinLink_frame s).2, lane]⟩
  rw [laneLocked, showTwinLink_other, laneLocked]
  · simp only [Fld.key, F.LANE_STATUS.LOCKED, F.TWIN_STATUS.LINK_UP]
    omega
  · simp only [Fld.key, F.LANE_STATUS.LOCKED, F.TWIN_LOCK_STATUS.LOCKED]
    omega

theorem excludedLanes_showTwinLink (s : State) : s.showTwinLink.excludedLanes = s.excludedLanes := by
  refine List.filter_congr fun l hl => ?_
  have hl := List.mem_range.1 hl
  rw [laneExcluded, showTwinLink_other, laneExcluded]
  · simp only [Fld.key, F.LANE_EXCLUDED.MASK, F.TWIN_STATUS.LINK_UP]
    omega
  · simp only [Fld.key, F.LANE_EXCLUDED.MASK, F.TWIN_LOCK_STATUS.LOCKED]
    omega

/-- All sixteen twin lanes are locked, and none is excluded. -/
def twinLinkUp (s : State) : Bool := s.twin.down.isEmpty && s.excludedLanes.all (· < 512)

theorem showTwinLink_shows (s : State) : s.showTwinLink.getF F.TWIN_STATUS.LINK_UP = b2n s.twinLinkUp ∧
    (s.twinLinkUp = false → s.showTwinLink.getF F.TWIN_LOCK_STATUS.LOCKED = 0) := by
  have hup : (s.nowF F.TWIN_STATUS.LINK_UP (b2n s.twinLinkUp)).getF F.TWIN_STATUS.LINK_UP = b2n s.twinLinkUp := by
    rw [getF_nowF_same]
    cases s.twinLinkUp
    · rfl
    · rfl
  have heq : s.showTwinLink = if s.twinLinkUp then s.nowF F.TWIN_STATUS.LINK_UP (b2n s.twinLinkUp)
    else (s.nowF F.TWIN_STATUS.LINK_UP (b2n s.twinLinkUp)).nowF F.TWIN_LOCK_STATUS.LOCKED 0 := rfl
  by_cases h : s.twinLinkUp = true
  · rw [heq, if_pos h]
    exact ⟨hup, fun h' => absurd (h.symm.trans h') (by decide)⟩
  · rw [heq, if_neg h]
    exact ⟨(getF_nowF_other _ _ (by decide)).trans hup, fun _ => getF_nowF_same ..⟩

theorem loseTwinLane_loses (s : State) (k : Nat) :
    let u := s.loseTwinLanes [k]
    NSet.mem u.twin.down k = true ∧ u.getF F.TWIN_STATUS.LINK_UP = 0 ∧ u.getF F.TWIN_LOCK_STATUS.LOCKED = 0 ∧
      ∀ j, u.laneLocked j = s.laneLocked j ∧ u.lane j = s.lane j := by
  let v := s.leaveGate (512 + k)
  let w : State := { v with twin := { v.twin with down := NSet.insert v.twin.down k } }
  have hmem : NSet.mem w.twin.down k = true := NSet.mem_insert_self ..
  have hdown : w.twinLinkUp = false := by
    rw [twinLinkUp, Bool.and_eq_false_iff, List.isEmpty_eq_false_iff]
    refine .inl fun h => ?_
    rw [h] at hmem
    exact Bool.false_ne_true hmem
  obtain ⟨hup, hlock⟩ := w.showTwinLink_shows
  refine ⟨(congrArg (fun x => NSet.mem x.down k) w.showTwinLink_frame.1).trans hmem, hup.trans (by rw [hdown]; rfl), hlock hdown, fun j => ?_⟩
  obtain ⟨hlocked, hlane⟩ := w.showTwinLink_others j
  refine ⟨hlocked.trans ?_, hlane.trans (lane_leaveGate s (512 + k) j)⟩
  exact congrArg (· == 1) (getF_leaveGate s (512 + k) (F.LANE_STATUS.LOCKED j))

theorem mem_filter_ne (m : NSet) (k : Nat) : NSet.mem (m.filter fun x => !([k].contains x.1)) k = false := by
  rw [NSet.mem, Option.isSome_eq_false_iff, Option.isNone_iff_eq_none]
  induction m with
  | nil => rfl
  | cons x m ih =>
    obtain ⟨j, v⟩ := x
    by_cases hj : j = k
    · rw [List.filter_cons_of_neg (by simp [hj])]
      exact ih
    · rw [List.filter_cons_of_pos (by simp [hj])]
      exact (if_neg hj).trans ih

theorem gainTwinLane_gains (s : State) (k : Nat) :
    let u := s.gainTwinLanes [k]
    NSet.mem u.twin.down k = false ∧ (∀ j, u.laneLocked j = s.laneLocked j ∧ u.lane j = s.lane j) ∧
      u.getF F.TWIN_STATUS.LINK_UP = if u.twin.down = [] ∧ ∀ j ∈ u.excludedLanes, j < 512 then 1 else 0 := by
  let w : State := { s with twin := { s.twin with down := s.twin.down.filter fun x => !([k].contains x.1) } }
  refine ⟨(congrArg (fun x => NSet.mem x.down k) w.showTwinLink_frame.1).trans (mem_filter_ne ..), fun j => w.showTwinLink_others j,
    w.showTwinLink_shows.1.trans ?_⟩
  have hdown : (s.gainTwinLanes [k]).twin.down = w.twin.down := congrArg (·.down) w.showTwinLink_frame.1
  have hex : (s.gainTwinLanes [k]).excludedLanes = w.excludedLanes := w.excludedLanes_showTwinLink
  have hup : w.twinLinkUp = true ↔ w.twin.down = [] ∧ ∀ j ∈ w.excludedLanes, j < 512 := by
    simp [twinLinkUp]
  rw [hdown, hex]
  exact (ite_congr (propext hup) (fun _ => rfl) fun _ => rfl :)

/-! ### Superblocks (R215-R218) -/

/-- Between two states the lanes of a channel have been heard: its blocks counted, its training changed, and no more than that. -/
def LanesHeard (s t : State) : Prop :=
  t.sow.chans = s.sow.chans ∧ t.getF F.MERIDIAN_COUNT.COUNT = s.getF F.MERIDIAN_COUNT.COUNT ∧
    ∀ c < 32, t.getF (F.SB_LOST.COUNT c) = s.getF (F.SB_LOST.COUNT c)

namespace LanesHeard
variable {s t u : State}

theorem refl (s : State) : s.LanesHeard s := ⟨rfl, rfl, fun _ _ => rfl⟩

theorem trans (h : s.LanesHeard t) (k : t.LanesHeard u) : s.LanesHeard u :=
  ⟨k.1.trans h.1, k.2.1.trans h.2.1, fun c hc => (k.2.2 c hc).trans (h.2.2 c hc)⟩

theorem of_regs (hchans : t.sow.chans = s.sow.chans) (hregs : t.regs = s.regs) : s.LanesHeard t :=
  ⟨hchans, getF_congr hregs _, fun _ _ => getF_congr hregs _⟩

theorem of_links (h : s.LinksOnly t) : s.LanesHeard t := by
  refine ⟨(congrArg (fun x : State => x.sow.chans) h.1 :), h.2 _ ?_, fun c hc => h.2 _ ?_⟩
  · simp [linkKey, Fld.key, F.MERIDIAN_COUNT.COUNT, F.LANE_STATUS.LOCKED, F.SOW_STATUS.CHAN_UP, F.TWIN_STATUS.LINK_UP,
      F.TWIN_LOCK_STATUS.LOCKED]
  · simp only [linkKey, Fld.key, F.SB_LOST.COUNT, F.LANE_STATUS.LOCKED, F.SOW_STATUS.CHAN_UP, F.TWIN_STATUS.LINK_UP,
      F.TWIN_LOCK_STATUS.LOCKED]
    omega

theorem of_incLive (s : State) {f : Fld} (hlow : (F.LANE_STATUS.LOCKED 0).key ≤ f.key) (n : Nat) : s.LanesHeard (s.incLive f n) := by
  refine ⟨rfl, getF_incLive_other _ _ fun h => ?_, fun c hc => getF_incLive_other _ _ fun h => ?_⟩
  · rw [← h] at hlow
    exact absurd hlow (by decide)
  · rw [← h] at hlow
    simp only [Fld.key, F.SB_LOST.COUNT, F.LANE_STATUS.LOCKED] at hlow
    omega

theorem of_correct (s : State) (u : Nat × Nat) (a : FaultArgs) : s.LanesHeard (s.correct u a) := by
  obtain ⟨x, more, half, st, h⟩ := s.correct_recounted u a
  rw [h]
  exact of_regs rfl rfl

theorem of_corrections (s : State) (n : Nat) : s.LanesHeard (s.countCorrections n) := by
  obtain ⟨st, h⟩ := s.countCorrections_eq n
  rw [h]
  exact of_regs rfl rfl

theorem of_setLane (s : State) (l : Nat) (x : LaneSt) : s.LanesHeard (s.setLane l x) := of_regs rfl rfl

end LanesHeard

theorem lanesHeard_laneBlock (s : State) {l : Nat} (hl : l < 512) (k : Nat) (b : List Byte) : s.LanesHeard (s.laneBlock l k b) := by
  have hcorr (n : Nat) (s : State) : s.LanesHeard (s.incLive (F.CORR_SYMBOLS.COUNT l) n) :=
    .of_incLive s (by simp only [Fld.key, F.CORR_SYMBOLS.COUNT, F.LANE_STATUS.LOCKED]; omega) n
  have hlost (n : Nat) (s : State) : s.LanesHeard (s.incLive (F.UNCORR_CW.COUNT l) n) :=
    .of_incLive s (by simp only [Fld.key, F.UNCORR_CW.COUNT, F.LANE_STATUS.LOCKED]; omega) n
  have hcounted (n m : Nat) (x : LaneSt) (s : State) : s.LanesHeard
      ((((s.incLive (F.CORR_SYMBOLS.COUNT l) n).incLive (F.UNCORR_CW.COUNT l) m).countCorrections n).setLane l x) :=
    (((hcorr n s).trans (hlost m _)).trans (.of_corrections ..)).trans (.of_setLane ..)
  have hrate (p : Bool) (a : FaultArgs) (s : State) : s.LanesHeard (if p then s.correct (unitLane, l) a else s) := by
    split
    · exact .of_correct ..
    · exact .refl s
  have hlose (p : Prop) [Decidable p] (s : State) : s.LanesHeard (if p then s.loseLane l else s) := by
    split
    · exact .of_links (linksOnly_loseLane s hl)
    · exact .refl s
  exact ((hcounted ..).trans (hrate ..)).trans (hlose ..)

/-- The blocks of a superblock, lane by lane. -/
def heardBlocks (s : State) (c : Nat) (blocks : List (List Byte)) : State :=
  (List.zipIdx blocks).foldl (fun s b =>
    if s.laneLocked (16 * c + b.2) then s.laneBlock (16 * c + b.2) b.2 b.1 else s.trainBlock (16 * c + b.2) b.2 b.1) s

theorem lanesHeard_heardBlocks (s : State) {c : Nat} (hc : c < 32) {blocks : List (List Byte)} (hlen : blocks.length = 16) :
    s.LanesHeard (s.heardBlocks c blocks) := by
  refine List.foldlRecOn (motive := fun t => s.LanesHeard t) _ _ (.refl s) fun t ht b hb => ht.trans ?_
  have hlane : 16 * c + b.2 < 512 := by
    have := List.snd_lt_of_mem_zipIdx hb
    omega
  split
  · exact lanesHeard_laneBlock t hlane ..
  · exact .of_setLane ..


/-- The superblock's number follows the last one, if there was one (R216). -/
def sbFollows (last : Option Nat) (seq : Nat) : Bool := match last with
  | none => true
  | some n => seq == (n + 1) % 2 ^ 32

theorem sbFollows_iff (last : Option Nat) (seq : Nat) :
    sbFollows last seq = true ↔ ∀ m, last = some m → seq = (m + 1) % 2 ^ 32 := by
  cases last with
  | none => simp [sbFollows]
  | some m => simp [sbFollows]

/-- The channel takes a superblock, or loses it (R215-R217). -/
def takeSb (t : State) (c : Nat) (up : Bool) (r : SbRead) : State :=
  let x := t.chan c
  let crcOk := leNat ((r.ctl.drop 44).take 4) == crc32c (r.ctl.take 44)
  let seq := wordField r.ctl 0 0 32
  let y := { x with lastSb := if crcOk && up then some seq else x.lastSb.map fun n => (n + 1) % 2 ^ 32 }
  if up && r.synced && crcOk && sbFollows x.lastSb seq then t.setChan c (y.feed t.meridian (some (wordField r.ctl 0 48 10)) r.grains)
  else (t.incLive (F.SB_LOST.COUNT c) 1).setChan c (y.feed t.meridian none (List.replicate 960 none))

theorem superblock_eq (s : State) (c n : Nat) (blocks : List (List Byte)) :
    s.superblock c n blocks = ((s.elapse n).heardBlocks c blocks).takeSb c ((s.elapse n).chanUp c) (readSb blocks) := rfl

section
variable (t : State) (c : Nat) (up : Bool) (r : SbRead)

theorem takeSb_taken (h : (up && r.synced && (leNat ((r.ctl.drop 44).take 4) == crc32c (r.ctl.take 44)) &&
    sbFollows (t.chan c).lastSb (wordField r.ctl 0 0 32)) = true) :
    let u := t.takeSb c up r
    u.chan c = ChanSt.feed { t.chan c with lastSb := some (wordField r.ctl 0 0 32) } t.meridian (some (wordField r.ctl 0 48 10)) r.grains ∧
      u.getF (F.SB_LOST.COUNT c) = t.getF (F.SB_LOST.COUNT c) ∧ u.meridian = t.meridian := by
  have hlast : ((leNat ((r.ctl.drop 44).take 4) == crc32c (r.ctl.take 44)) && up) = true := by
    simp only [Bool.and_eq_true] at h ⊢
    exact ⟨h.1.2, h.1.1.1⟩
  rw [takeSb]
  dsimp only
  rw [if_pos h, if_pos hlast]
  exact ⟨SMap.get_set_same .., rfl, rfl⟩

theorem takeSb_lost (h : ¬ (up && r.synced && (leNat ((r.ctl.drop 44).take 4) == crc32c (r.ctl.take 44)) &&
    sbFollows (t.chan c).lastSb (wordField r.ctl 0 0 32)) = true) :
    let u := t.takeSb c up r
    (∃ last, u.chan c = ChanSt.feed { t.chan c with lastSb := last } t.meridian none (List.replicate 960 none)) ∧
      u.getF (F.SB_LOST.COUNT c) = min (t.getF (F.SB_LOST.COUNT c) + 1) (2 ^ 48 - 1) ∧ u.meridian = t.meridian := by
  rw [takeSb]
  dsimp only
  rw [if_neg h]
  exact ⟨⟨_, SMap.get_set_same ..⟩, getF_incLive_one t _,
    getF_incLive_other _ _ (by simp only [Fld.key, F.SB_LOST.COUNT, F.MERIDIAN_COUNT.COUNT]; omega)⟩

end

/-- Time alone changes no channel and no count. -/
theorem elapse_frame (s : State) (n c : Nat) : (s.elapse n).chan c = s.chan c ∧
    (s.elapse n).getF (F.SB_LOST.COUNT c) = s.getF (F.SB_LOST.COUNT c) := by
  unfold elapse
  split
  · exact ⟨rfl, getF_keepF_other _ _ (by simp only [Fld.key, F.SB_LOST.COUNT, F.MERIDIAN_COUNT.COUNT]; omega)⟩
  · exact ⟨rfl, rfl⟩

end State

open State in
/-- Settles O23: lanes, channels and the twin link; superblocks (R215-R218, R365). -/
theorem sowingLink : Obligations.SowingLink := by
  refine ⟨?_, ?_⟩
  · intro s l k others
    have hl (h : l.toNat < 528) : decide (l.toNat < 528) = true := decide_eq_true h
    have hlose (h : l.toNat < 528) : exec (.laneLockLoss l) s =
        .next (s.after (if l.toNat < 512 then s.loseLane l.toNat else s.loseTwinLanes [l.toNat - 512])) := answerIf_true _ _ (hl h)
    have hgain (h : l.toNat < 528) : exec (.laneLockRegain l) s = .next (s.after (if !s.locked then s
        else if 512 ≤ l.toNat then s.gainTwinLanes [l.toNat - 512]
        else if 8 ≤ (s.lane l.toNat).good then s.gainLane l.toNat else s)) := answerIf_true _ _ (hl h)
    refine ⟨fun hk => ⟨fun hlocked => ?_, fun hun hlock hgood => ?_, fun hno => ?_⟩, fun hk hk' => ⟨?_, fun hlock => ?_, fun hlock => ?_⟩⟩
    · exact does_of_eq (hlose (by omega)) (if_pos hk) (loseLane_loses hlocked hk)
    · refine does_of_eq (hgain (by omega)) ?_ (gainLane_gains hun hk)
      rw [if_neg (by simp [hlock]), if_neg (by omega), if_pos hgood]
    · refine does_of_eq (hgain (by omega)) ?_ rfl
      rw [if_neg (by omega : ¬ 512 ≤ l.toNat)]
      obtain hno | hno := hno
      · exact if_pos (by simp [hno])
      · rw [if_neg (Nat.not_le.2 hno), ite_self]
    · obtain ⟨hdown, hup, htwin, hothers⟩ := s.loseTwinLane_loses (k - 512)
      exact does_of_eq (hlose hk') (if_neg (by omega)) ⟨hdown, hup, htwin, fun j _ _ => hothers j⟩
    · obtain ⟨hdown, hothers, hup⟩ := s.gainTwinLane_gains (k - 512)
      refine does_of_eq (hgain hk') ?_ ⟨hdown, fun j _ _ => hothers j, hup⟩
      rw [if_neg (by simp [hlock]), if_pos hk]
    · exact does_of_eq (hgain hk') (if_pos (by simp [hlock])) rfl
  · intro s chan n blocks c v r crcOk seq follows good hlen hwhole
    have hc : c < 32 := chan.isLt
    have hexec : exec (.superblockReceive chan n blocks) s = .next (s.after (s.superblock c n.toNat blocks)) :=
      answerIf_true _ _ (by simpa [hlen] using hwhole)
    let t := v.heardBlocks c blocks
    obtain ⟨hchans, hmeridian, hlost⟩ := v.lanesHeard_heardBlocks hc hlen
    have hchan : t.chan c = s.chan c := (congrArg (SMap.get ChanSt.zero · c) hchans).trans (s.elapse_frame n.toNat c).1
    have hlost' : t.getF (F.SB_LOST.COUNT c) = s.getF (F.SB_LOST.COUNT c) := (hlost c hc).trans (s.elapse_frame n.toNat c).2
    have hgood : (v.chanUp c && r.synced && crcOk && sbFollows (t.chan c).lastSb seq) = true ↔ good := by
      rw [hchan]
      simp only [Bool.and_eq_true, sbFollows_iff, and_assoc, good, follows]
    refine ⟨fun hg => ?_, fun hg => ?_⟩
    · obtain ⟨hfeed, hcount, htime⟩ := takeSb_taken t c (v.chanUp c) r (hgood.2 hg)
      rw [hchan, show t.meridian = v.meridian from hmeridian] at hfeed
      exact does_of_eq hexec (superblock_eq ..) ⟨hfeed, hcount.trans hlost', htime.trans hmeridian⟩
    · obtain ⟨⟨last, hfeed⟩, hcount, htime⟩ := takeSb_lost t c (v.chanUp c) r (mt hgood.1 hg)
      rw [hchan, show t.meridian = v.meridian from hmeridian] at hfeed
      exact does_of_eq hexec (superblock_eq ..) ⟨⟨last, hfeed⟩, hcount.trans (by rw [hlost']), htime.trans hmeridian⟩

end Sys2Proof.Machine

namespace Sys2Proof.Machine
namespace State

/-! ### Pacing and contacts (R382, R385) -/

theorem getF_setPace (s : State) (e : Nat) :
    (s.setPace e).getF F.PACE_STATUS.EFFECTIVE = e % 2 ^ 5 := by
  rw [setPace, getF_keepF_other _ _ (by decide), getF_keepF_same]
  rfl

theorem getF_setPace_other (s : State) (e : Nat) {f : Fld} (he : f.key ≠ F.PACE_STATUS.EFFECTIVE.key)
    (hf : f.key ≠ F.PACE_STATUS.AT_FLOOR.key) : (s.setPace e).getF f = s.getF f := by
  rw [setPace, getF_keepF_other _ _ hf, getF_keepF_other _ _ he]

theorem paceLower_lowers {s : State} (hready : s.isReady = true) (hcause : s.getF F.POWER_STATUS.CAUSE ≠ 0)
    (hfloor : s.getF F.PACE_CFG.PACE_FLOOR < s.getF F.PACE_STATUS.EFFECTIVE) :
    s.paceLower.regs = ((s.setPace (s.getF F.PACE_STATUS.EFFECTIVE - 1)).incLive F.POWER_STATUS.PACE_STEPS 1).regs := by
  rw [paceLower]
  dsimp only
  rw [if_pos (by simp [hready, hcause, hfloor])]
  split
  · rfl
  · rfl

theorem paceRaise_raises {s : State} (hready : s.isReady = true) (hcause : s.getF F.POWER_STATUS.CAUSE = 0) (hheld : s.triggersHeld = 0)
    (htarget : s.getF F.PACE_STATUS.EFFECTIVE < s.paceTarget) :
    s.paceRaise.regs = (s.setPace (s.getF F.PACE_STATUS.EFFECTIVE + 1)).regs ∧ s.paceRaise.recs = s.recs := by
  rw [paceRaise]
  dsimp only
  rw [if_pos (by simp [hready, hcause, hheld, htarget])]
  split
  · exact ⟨rfl, rfl⟩
  · exact ⟨rfl, rfl⟩

/-- A contact group's readings, shown. -/
def contactShown (s : State) (k excess : Nat) (bad : Bool) : State :=
  (s.keepF (F.CONTACT_MON.EXCESS k) excess).keepF (F.CONTACT_MON.SUSPECT k) (b2n bad)

theorem getF_contactShown (s : State) (k excess : Nat) (bad : Bool) :
    (s.contactShown k excess bad).getF (F.CONTACT_MON.EXCESS k) = excess % 2 ^ 16 ∧
      (s.contactShown k excess bad).getF (F.CONTACT_MON.SUSPECT k) = b2n bad := by
  rw [contactShown, getF_keepF_other _ _ (by simp [Fld.key, F.CONTACT_MON.EXCESS, F.CONTACT_MON.SUSPECT]), getF_keepF_same, getF_keepF_same]
  refine ⟨rfl, ?_⟩
  cases bad
  · rfl
  · rfl

theorem contact_shows {s : State} (hpermit : s.power.permit = true) (htol : s.inTol 0 = true) (k excess amps : Nat) :
    let bad := decide (120 < excess) && decide (excess < 2 ^ 15)
    (s.contact k excess amps).regs = (s.contactShown k excess bad).regs ∧
      (bad = true → SMap.find? s.power.contactAt k = none → ∃ x, (s.contact k excess amps).recs = s.recs ++ [x] ∧ x.code = 0x0601) := by
  intro bad
  rw [contact, if_pos (by simp [hpermit, htol])]
  dsimp only
  split
  · next hdue =>
    rw [raise_eq]
    exact ⟨rfl, fun _ _ => ⟨_, rfl, rfl⟩⟩
  · next hno =>
    refine ⟨rfl, fun hbad hnone => absurd ?_ hno⟩
    rw [Bool.and_eq_true]
    exact ⟨hbad, by simp [hnone]⟩

/-- A signed reading above a bound is a positive one above it. -/
theorem toInt_gt (x : BitVec 16) : 120 < x.toInt ↔ 120 < x.toNat ∧ x.toNat < 2 ^ 15 := by
  rw [BitVec.toInt_eq_toNat_cond]
  split
  · omega
  · omega

/-! ### Heartbeats (R370, R384, R393, R394) -/

/-- The registers that the controllers' readings leave: those of bring-up and of the controllers, and which rails are in tolerance. -/
def quietKey (k : Nat) : Prop :=
  k < F.POWER_STATUS.INPUT_W.key ∧ k ≠ F.MGMT_STATUS.HB_MISSES.key ∨ ∃ i < 6, k = (F.RAIL_MON.IN_TOL i).key

/-- `t` is `s` but for readings and missed heartbeats. -/
def Sensed (s t : State) : Prop :=
  { t with regs := s.regs, base := s.base, sense := s.sense, power := { t.power with loamTemp := s.power.loamTemp },
           boot := { t.boot with misses := s.boot.misses } } = s ∧
    ∀ f : Fld, quietKey f.key → t.getF f = s.getF f

namespace Sensed
variable {s t u : State}

theorem refl (s : State) : s.Sensed s := ⟨rfl, fun _ _ => rfl⟩

theorem trans (h : s.Sensed t) (k : t.Sensed u) : s.Sensed u :=
  ⟨(congrArg (fun v : State => { v with regs := s.regs, base := s.base, sense := s.sense,
                                        power := { v.power with loamTemp := s.power.loamTemp },
                                        boot := { v.boot with misses := s.boot.misses } }) k.1 :).trans h.1,
    fun f hf => (k.2 f hf).trans (h.2 f hf)⟩

theorem foldl {α : Type} {f : State → α → State} (hf : ∀ (s : State) a, s.Sensed (f s a)) (l : List α) (s : State) : s.Sensed (l.foldl f s) := by
  induction l generalizing s with
  | nil => exact refl s
  | cons a l ih => exact (hf s a).trans (ih _)

theorem keepF (s : State) {f : Fld} (hf : ¬ quietKey f.key) (v : Nat) : s.Sensed (s.keepF f v) :=
  ⟨rfl, fun _ hg => getF_keepF_other _ _ fun h => hf (h ▸ hg)⟩

end Sensed

theorem not_quietKey {k : Nat} (hlow : F.POWER_STATUS.INPUT_W.key ≤ k ∨ k = F.MGMT_STATUS.HB_MISSES.key)
    (hrail : ∀ i < 6, k ≠ (F.RAIL_MON.IN_TOL i).key) : ¬ quietKey k := by
  rintro (⟨h, hne⟩ | ⟨i, hi, h⟩)
  · obtain hlow | hlow := hlow
    · omega
    · exact hne hlow
  · exact hrail i hi h

theorem sensed_beat (s : State) (half : Nat) (missed : Bool) : s.Sensed (s.beat half missed) := by
  unfold beat
  split
  · exact .refl s
  · split
    · have h : s.Sensed (s.incLive F.MGMT_STATUS.HB_MISSES 1) := .keepF s (not_quietKey (.inr rfl) (by decide)) _
      exact h.trans ⟨rfl, fun _ _ => rfl⟩
    · exact ⟨rfl, fun _ _ => rfl⟩

/-- The reading of one junction's temperature. -/
def readTemp (s : State) (x : BitVec 9 × BitVec 16 × BitVec 16) : State :=
  { s with sense := SMap.ins s.sense x.1.toNat (x.2.1.toNat, x.2.2.toNat) }

/-- The readings of one region's current. -/
def readAmps (s : State) (x : BitVec 8 × BitVec 16) : State :=
  let s := s.keepF (F.REGION_DEMAND.MEAS_NOW x.1.toNat) x.2.toNat
  s.keepF (F.REGION_DEMAND.MEAS_PEAK x.1.toNat) (max (s.getF (F.REGION_DEMAND.MEAS_PEAK x.1.toNat)) x.2.toNat)

/-- The readings of one rail. -/
def readRail (s : State) (x : BitVec 3 × BitVec 16 × BitVec 16) : State :=
  if x.1.toNat < 6 then (s.keepF (F.RAIL_MON.MV x.1.toNat) x.2.1.toNat).keepF (F.RAIL_MON.AMPS x.1.toNat) x.2.2.toNat else s

/-- The junction temperatures, the regions' currents and the rails' readings, taken. -/
def readUnits (s : State) (t : Telemetry) : State :=
  t.rails.foldl readRail (t.amps.foldl readAmps (t.temps.foldl readTemp s))

theorem sensed_readAmps (s : State) (x : BitVec 8 × BitVec 16) : s.Sensed (s.readAmps x) := by
  refine (Sensed.keepF s (not_quietKey (.inl ?_) fun i _ => ?_) _).trans (Sensed.keepF _ (not_quietKey (.inl ?_) fun i _ => ?_) _)
  all_goals
    simp only [Fld.key, F.REGION_DEMAND.MEAS_NOW, F.REGION_DEMAND.MEAS_PEAK, F.POWER_STATUS.INPUT_W, F.RAIL_MON.IN_TOL]
    omega

theorem sensed_readRail (s : State) (x : BitVec 3 × BitVec 16 × BitVec 16) : s.Sensed (s.readRail x) := by
  unfold readRail
  split
  · refine (Sensed.keepF s (not_quietKey (.inl ?_) fun i _ => ?_) _).trans (Sensed.keepF _ (not_quietKey (.inl ?_) fun i _ => ?_) _)
    all_goals
      simp only [Fld.key, F.RAIL_MON.MV, F.RAIL_MON.AMPS, F.POWER_STATUS.INPUT_W, F.RAIL_MON.IN_TOL]
      omega
  · exact .refl s

theorem sensed_readUnits (s : State) (t : Telemetry) : s.Sensed (s.readUnits t) :=
  ((Sensed.foldl (f := readTemp) (fun _ _ => ⟨rfl, fun _ _ => rfl⟩) t.temps s).trans (.foldl sensed_readAmps t.amps _)).trans
    (.foldl sensed_readRail t.rails _)

/-- The hottest junction, shown. -/
def showHottest (s : State) : State :=
  match (s.sense.filter fun x => decide (x.1 < 256)).map fun (x : Nat × Nat × Nat) => signedOf 16 (x.2.1 % 2 ^ 16) with
  | [] => s
  | h :: hs => s.keepF F.POWER_STATUS.HOTTEST ((hs.foldl max h) % 2 ^ 12).toNat

theorem showHottest_eq (s : State) : s.showHottest = s ∨ ∃ v, s.showHottest = s.keepF F.POWER_STATUS.HOTTEST v := by
  unfold showHottest
  split
  · exact .inl rfl
  · exact .inr ⟨_, rfl⟩

theorem sensed_showHottest (s : State) : s.Sensed s.showHottest := by
  obtain h | ⟨v, h⟩ := s.showHottest_eq
  · rw [h]
    exact .refl s
  · rw [h]
    exact .keepF s (not_quietKey (.inl (by decide)) (by decide)) v

theorem sensed_showCoolant (s : State) (a b c : Nat) : s.Sensed (s.showCoolant a b c) :=
  ((Sensed.keepF s (not_quietKey (.inl (by decide)) (by decide)) a).trans
    (.keepF _ (not_quietKey (.inl (by decide)) (by decide)) b)).trans (.keepF _ (not_quietKey (.inl (by decide)) (by decide)) c)

theorem sensed_showTriggers (s : State) : s.Sensed s.showTriggers := .keepF s (not_quietKey (.inl (by decide)) (by decide)) _

/-- The readings before the coolant's (R370). -/
def readPower (s : State) (t : Telemetry) : State :=
  let v := ((s.readUnits t).keepF F.POWER_STATUS.INPUT_W t.inputW.toNat).showHottest
  { v with power := { v.power with loamTemp := t.loam.toNat } }

theorem readSensors_eq (s : State) (t : Telemetry) :
    s.readSensors t = ((s.readPower t).showCoolant t.inlet.toNat t.outlet.toNat t.flow.toNat).showTriggers := rfl

theorem sensed_readSensors (s : State) (t : Telemetry) : s.Sensed (s.readSensors t) := by
  have hinput : (s.readUnits t).Sensed ((s.readUnits t).keepF F.POWER_STATUS.INPUT_W t.inputW.toNat) :=
    .keepF _ (not_quietKey (.inl (by decide)) (by decide)) _
  have hpower : s.Sensed (s.readPower t) := ((s.sensed_readUnits t).trans (hinput.trans (sensed_showHottest _))).trans ⟨rfl, fun _ _ => rfl⟩
  rw [readSensors_eq]
  exact hpower.trans ((sensed_showCoolant ..).trans (sensed_showTriggers _))

/-- The coolant's readings, as they are shown. -/
theorem getF_showCoolant (s : State) (a b c : Nat) : (s.showCoolant a b c).getF F.COOLANT_STATUS.INLET = a % 2 ^ 12 ∧
    (s.showCoolant a b c).getF F.COOLANT_STATUS.OUTLET = b % 2 ^ 12 ∧ (s.showCoolant a b c).getF F.COOLANT_STATUS.FLOW = c % 2 ^ 12 := by
  refine ⟨?_, ?_, getF_keepF_same ..⟩
  · rw [showCoolant, getF_keepF_other _ _ (by decide), getF_keepF_other _ _ (by decide), getF_keepF_same]
    rfl
  · rw [showCoolant, getF_keepF_other _ _ (by decide), getF_keepF_same]
    rfl

theorem getF_readSensors (s : State) (t : Telemetry) : (s.readSensors t).getF F.POWER_STATUS.INPUT_W = t.inputW.toNat ∧
    (s.readSensors t).getF F.COOLANT_STATUS.INLET = t.inlet.toNat := by
  have hhot (v : State) : v.showHottest.getF F.POWER_STATUS.INPUT_W = v.getF F.POWER_STATUS.INPUT_W := by
    obtain h | ⟨x, h⟩ := v.showHottest_eq
    · rw [h]
    · rw [h, getF_keepF_other _ _ (by decide)]
  rw [readSensors_eq]
  constructor
  · rw [showTriggers, getF_keepF_other _ _ (by decide), showCoolant, getF_keepF_other _ _ (by decide), getF_keepF_other _ _ (by decide),
      getF_keepF_other _ _ (by decide)]
    refine (hhot _).trans ((getF_keepF_same ..).trans ?_)
    exact Nat.mod_eq_of_lt t.inputW.isLt
  · rw [showTriggers, getF_keepF_other _ _ (by decide), (getF_showCoolant ..).1]
    exact Nat.mod_eq_of_lt t.inlet.isLt

/-- The readings of both controllers, and their missed heartbeats. -/
def sensedBeats (s : State) (north south : Bool) (t : Telemetry) : State := ((s.beat 0 north).beat 1 south).readSensors t

theorem sensed_beats (s : State) (north south : Bool) (t : Telemetry) : s.Sensed (s.sensedBeats north south t) :=
  ((sensed_beat s 0 north).trans (sensed_beat _ 1 south)).trans (sensed_readSensors ..)

theorem controllerLost_sensed {s t : State} (h : s.Sensed t) (half : Nat) : t.controllerLost half = s.controllerLost half := by
  rw [controllerLost, controllerLost, h.2 _ (.inl (by decide)), h.2 _ (.inl (by decide))]

/-- A controller's heartbeat counts among those it missed in a row, or clears them (R393). -/
theorem misses_beat (s : State) (half : Nat) (missed : Bool) (h : s.controllerLost half = false) :
    SMap.get 0 (s.beat half missed).boot.misses half = if missed then SMap.get 0 s.boot.misses half + 1 else 0 := by
  rw [beat, if_neg (by simp [h])]
  cases missed
  · rw [if_neg (by decide)]
    exact congrArg (Option.getD · 0) (SMap.find?_drop_same ..)
  · rw [if_pos rfl]
    exact get_modify_same s.boot.misses half (· + 1)

theorem misses_beat_other (s : State) {half k : Nat} (missed : Bool) (hk : k ≠ half) :
    SMap.get 0 (s.beat half missed).boot.misses k = SMap.get 0 s.boot.misses k := by
  unfold beat
  split
  · rfl
  · cases missed
    · exact congrArg (Option.getD · 0) (SMap.find?_drop_other _ hk)
    · exact SMap.get_set_other 0 s.boot.misses (SMap.get 0 s.boot.misses half + 1) hk

theorem boot_readUnits (s : State) (t : Telemetry) : (s.readUnits t).boot = s.boot := by
  have hrail (v : State) (x : BitVec 3 × BitVec 16 × BitVec 16) : (v.readRail x).boot = v.boot := by
    unfold readRail
    split
    · rfl
    · rfl
  have htemps : (t.temps.foldl readTemp s).boot = s.boot :=
    List.foldlRecOn (motive := fun v : State => v.boot = s.boot) _ _ rfl fun _ hv _ _ => hv
  have hamps : (t.amps.foldl readAmps (t.temps.foldl readTemp s)).boot = s.boot :=
    List.foldlRecOn (motive := fun v : State => v.boot = s.boot) _ _ htemps fun _ hv _ _ => hv
  exact List.foldlRecOn (motive := fun v : State => v.boot = s.boot) _ _ hamps fun v hv x _ => (hrail v x).trans hv

theorem boot_readSensors (s : State) (t : Telemetry) : (s.readSensors t).boot = s.boot := by
  rw [readSensors_eq]
  have hhot : ((s.readUnits t).keepF F.POWER_STATUS.INPUT_W t.inputW.toNat).showHottest.boot = (s.readUnits t).boot := by
    obtain h | ⟨v, h⟩ := ((s.readUnits t).keepF F.POWER_STATUS.INPUT_W t.inputW.toNat).showHottest_eq
    · rw [h, keepF_boot]
    · rw [h, keepF_boot, keepF_boot]
  exact hhot.trans (boot_readUnits s t)

theorem misses_sensedBeats (s : State) (north south : Bool) (t : Telemetry) :
    (s.controllerLost 0 = false → SMap.get 0 (s.sensedBeats north south t).boot.misses 0 = if north then SMap.get 0 s.boot.misses 0 + 1 else 0) ∧
    (s.controllerLost 1 = false →
      SMap.get 0 (s.sensedBeats north south t).boot.misses 1 = if south then SMap.get 0 s.boot.misses 1 + 1 else 0) := by
  rw [sensedBeats, boot_readSensors]
  refine ⟨fun h => ?_, fun h => ?_⟩
  · rw [misses_beat_other _ _ (by decide), misses_beat _ _ _ h]
  · rw [misses_beat _ _ _ ((controllerLost_sensed (sensed_beat s 0 north) 1).trans h), misses_beat_other _ _ (by decide)]

theorem mgmtHeartbeat_eq {s : State} (hobs : s.boot.obs.isSome = true) (north south : Bool) (t : Telemetry) :
    s.mgmtHeartbeat north south t = (s.sensedBeats north south t).bootMs := if_pos hobs

theorem bootMs_serving {s : State} (h : s.booting = false) : s.bootMs = s := by
  unfold bootMs
  split
  · rfl
  · exact if_neg (by simp [h])

/-- A millisecond with VLOAM in tolerance counts. -/
def loamTick (s : State) : State := if s.inTol 1 then { s with boot := { s.boot with loamMs := s.boot.loamMs + 1 } } else s

/-- A millisecond counted, before bring-up shows what it waits for. -/
def bootTick (s : State) : State := ((s.incSat (F.PHASE_MS.MS s.bootPhase) 1).incSat F.BOOT_STATUS.ELAPSED_MS 1).loamTick

theorem loamTick_frame (s : State) : { s.loamTick with boot := { s.loamTick.boot with loamMs := s.boot.loamMs } } = s := by
  unfold loamTick
  split
  · rfl
  · rfl

theorem setF_twice_frame (s : State) (f g : Fld) (m n : Nat) : let v := (s.setF f m).setF g n
    { v with regs := s.regs, boot := { v.boot with loamMs := s.boot.loamMs } } = s := rfl

theorem incSat_twice_frame (s : State) (f g : Fld) (m n : Nat) : let v := (s.incSat f m).incSat g n
    { v with regs := s.regs, boot := { v.boot with loamMs := s.boot.loamMs } } = s :=
  setF_twice_frame ..

theorem bootTick_frame (s : State) : { s.bootTick with regs := s.regs, boot := { s.bootTick.boot with loamMs := s.boot.loamMs } } = s ∧
    s.bootTick.getF (F.PHASE_MS.MS s.bootPhase) = satAdd 32 (s.getF (F.PHASE_MS.MS s.bootPhase)) 1 ∧
    s.fieldsBut s.bootTick [F.PHASE_MS.MS s.bootPhase, F.BOOT_STATUS.ELAPSED_MS] := by
  obtain ⟨v, hv⟩ : ∃ v, v = (s.incSat (F.PHASE_MS.MS s.bootPhase) 1).incSat F.BOOT_STATUS.ELAPSED_MS 1 := ⟨_, rfl⟩
  have hregs : s.bootTick.regs = v.regs := by
    rw [bootTick, ← hv, ← congrArg State.regs v.loamTick_frame]
  have hcount : { v with regs := s.regs, boot := { v.boot with loamMs := s.boot.loamMs } } = s := by rw [hv, incSat_twice_frame]
  rw [bootTick, ← hv] at hregs ⊢
  refine ⟨(congrArg (fun w : State => { w with regs := s.regs, boot := { w.boot with loamMs := s.boot.loamMs } }) v.loamTick_frame :).trans
    hcount, ?_, fun f hf => ?_⟩
  · have hlt : satAdd 32 (s.getF (F.PHASE_MS.MS s.bootPhase)) 1 < 2 ^ 32 := by
      unfold satAdd
      omega
    rw [getF_congr hregs, hv, incSat, getF_setF_other _ _ (by simp [Fld.key, F.PHASE_MS.MS, F.BOOT_STATUS.ELAPSED_MS]; omega), incSat,
      getF_setF_same]
    exact Nat.mod_eq_of_lt hlt
  · rw [getF_congr hregs, hv, incSat, getF_setF_other _ _ (hf _ (by simp)), incSat, getF_setF_other _ _ (hf _ (by simp))]

/-- A millisecond in which bring-up may go on with its phase. -/
def bootGoesOn (s : State) (o : BootObs) (p : Nat) : State :=
  let s := s.advanceBoot
  if s.bootWait ≠ 0 then s
  else if s.boot.repeats then s.beginPhase p
  else
    let s := { s with boot := { s.boot with work := s.boot.work + 1 } }
    if ((o.ms[p]?).getD 0).toNat ≤ s.boot.work then s.endPhase o else s

theorem bootMs_eq {s : State} {o : BootObs} (ho : s.boot.obs = some o) :
    s.bootMs = if s.booting && s.controllersGrant then s.bootTick.bootGoesOn o s.bootPhase else s := by
  rw [bootMs, ho]
  rfl

/-- A millisecond of phase 0 while VANA is out (R394, R407). -/
theorem bootMs_waits {s : State} (hobs : s.boot.obs.isSome = true) (hboot : s.booting = true) (hgrant : s.controllersGrant = true)
    (hphase : s.bootPhase = 0) (hrail : s.inTol 4 = false) : let u := s.bootMs
    u.getF (F.PHASE_MS.MS 0) = satAdd (F.PHASE_MS.MS 0).width (s.getF (F.PHASE_MS.MS 0)) 1 ∧ u.getF F.BOOT_STATUS.STATE = 1 ∧
        u.getF F.BOOT_STATUS.CODE = 0x01 ∧ u.bootPhase = 0 ∧ u.boot.work = s.boot.work := by
  obtain ⟨o, ho⟩ := Option.isSome_iff_exists.1 hobs
  obtain ⟨hframe, hms, hother⟩ := s.bootTick_frame
  rw [hphase] at hms hother
  have hobs' : s.bootTick.boot.obs = s.boot.obs := (congrArg (fun v : State => v.boot.obs) hframe :)
  have hwork : s.bootTick.boot.work = s.boot.work := (congrArg (fun v : State => v.boot.work) hframe :)
  have hphase' : s.bootTick.bootPhase = 0 := (hother _ (by decide)).trans hphase
  have hrail' : s.bootTick.inTol 4 = false := by
    rw [inTol, hother _ (by decide)]
    exact hrail
  have hboot' : s.bootTick.booting = true := by
    rw [booting, hobs', hother _ (by decide)]
    exact hboot
  have hwait : s.bootTick.bootWait = 1 := by
    rw [bootWait, hphase']
    simp [hrail']
  have hadv : s.bootTick.advanceBoot = s.bootTick.bootAt 0 1 := by
    rw [advanceBoot, if_pos hboot', if_neg (by simp [hphase'])]
    dsimp only
    rw [hphase', hwait]
  have hshown (f : Fld) (hp : f.key ≠ F.BOOT_STATUS.PHASE.key) (hs : f.key ≠ F.BOOT_STATUS.STATE.key) (hc : f.key ≠ F.BOOT_STATUS.CODE.key) :
      (s.bootTick.bootAt 0 1).getF f = s.bootTick.getF f := by
    rw [bootAt, getF_keepF_other _ _ hc, getF_keepF_other _ _ hs, getF_keepF_other _ _ hp]
  have hphase'' : (s.bootTick.bootAt 0 1).bootPhase = 0 := by
    rw [bootPhase, bootAt, getF_keepF_other _ _ (by decide), getF_keepF_other _ _ (by decide), getF_keepF_same]
    rfl
  have hwait' : (s.bootTick.bootAt 0 1).bootWait ≠ 0 := by
    have hrail'' : (s.bootTick.bootAt 0 1).inTol 4 = false := by
      rw [inTol, hshown _ (by decide) (by decide) (by decide)]
      exact hrail'
    rw [bootWait, hphase'']
    simp [hrail'']
  have hms' : s.bootMs = s.bootTick.bootAt 0 1 := by
    rw [bootMs_eq ho, if_pos (by simp [hboot, hgrant]), bootGoesOn, hadv, if_pos hwait']
  rw [hms']
  refine ⟨?_, ?_, getF_keepF_same .., hphase'', hwork⟩
  · rw [hshown _ (by decide) (by decide) (by decide), hms]
    rfl
  · rw [bootAt, getF_keepF_other _ _ (by decide), getF_keepF_same]
    rfl

/-- The survivor alone is alive, and leads. -/
def leadsAlone (s : State) (half : Nat) : State :=
  let s := (if half = 0 then s.nowF F.MGMT_STATUS.NORTH_ALIVE 0 else s.nowF F.MGMT_STATUS.SOUTH_ALIVE 0).nowF F.MGMT_STATUS.ONE_CONTROLLER 1
  if s.getF F.MGMT_STATUS.LEADER = half then s.nowF F.MGMT_STATUS.LEADER (1 - half) else s

theorem takesOver_frame (s : State) (half : Nat) :
    (s.takeOverLog half).repeatPhase.regs = s.regs ∧ (s.takeOverLog half).repeatPhase.recs = s.recs := by
  have hlog : (s.takeOverLog half).regs = s.regs ∧ (s.takeOverLog half).recs = s.recs := by
    unfold takeOverLog
    split
    · exact ⟨rfl, rfl⟩
    · exact ⟨rfl, rfl⟩
  unfold repeatPhase
  split
  · exact hlog
  · exact hlog

theorem leadsAlone_shows (s : State) {half : Nat} (hhalf : half < 2) : (s.leadsAlone half).controllerLost half = true ∧
    (s.leadsAlone half).getF F.MGMT_STATUS.ONE_CONTROLLER = 1 ∧ (s.leadsAlone half).getF F.MGMT_STATUS.LEADER ≠ half ∧
    (s.leadsAlone half).recs = s.recs := by
  let v := (if half = 0 then s.nowF F.MGMT_STATUS.NORTH_ALIVE 0 else s.nowF F.MGMT_STATUS.SOUTH_ALIVE 0).nowF F.MGMT_STATUS.ONE_CONTROLLER 1
  have hlost : v.controllerLost half = true := by
    obtain rfl | rfl : half = 0 ∨ half = 1 := by omega
    · show ((s.nowF F.MGMT_STATUS.NORTH_ALIVE 0).nowF F.MGMT_STATUS.ONE_CONTROLLER 1).getF F.MGMT_STATUS.NORTH_ALIVE == 0
      rw [getF_nowF_other _ _ (by decide), getF_nowF_same]
      rfl
    · show ((s.nowF F.MGMT_STATUS.SOUTH_ALIVE 0).nowF F.MGMT_STATUS.ONE_CONTROLLER 1).getF F.MGMT_STATUS.SOUTH_ALIVE == 0
      rw [getF_nowF_other _ _ (by decide), getF_nowF_same]
      rfl
  have hone : v.getF F.MGMT_STATUS.ONE_CONTROLLER = 1 := getF_nowF_same ..
  have hrecs : v.recs = s.recs := by
    show (if half = 0 then _ else _ : State).recs = s.recs
    split
    · rfl
    · rfl
  have hv : s.leadsAlone half = if v.getF F.MGMT_STATUS.LEADER = half then v.nowF F.MGMT_STATUS.LEADER (1 - half) else v := rfl
  rw [hv]
  split
  · refine ⟨?_, ?_, ?_, hrecs⟩
    · rw [controllerLost, getF_nowF_other v _ (by decide), getF_nowF_other v _ (by decide)]
      exact hlost
    · rw [getF_nowF_other _ _ (by decide), hone]
    · rw [getF_nowF_same, show F.MGMT_STATUS.LEADER.width = 1 from rfl]
      omega
  · next hleader => exact ⟨hlost, hone, hleader, hrecs⟩

/-- A controller that has missed ten heartbeats is lost (R393). -/
theorem controllerGone_goes {s : State} {half : Nat} (hobs : s.boot.obs.isSome = true) (hheld : s.controllerLost half = false)
    (hmiss : 10 ≤ SMap.get 0 s.boot.misses half) (hhalf : half < 2) : let u := s.controllerGone half
    u.controllerLost half = true ∧ u.getF F.MGMT_STATUS.ONE_CONTROLLER = 1 ∧ u.getF F.MGMT_STATUS.LEADER ≠ half ∧
      ∃ x, u.recs = s.recs ++ [x] ∧ x.code = 0x0070 := by
  obtain ⟨hlost, hone, hleader, hrecs⟩ := s.leadsAlone_shows hhalf
  obtain ⟨hregs', hrecs'⟩ := (s.leadsAlone half).takesOver_frame half
  have hgone : s.controllerGone half = ((s.leadsAlone half).takeOverLog half).repeatPhase.event 0x0070 srcModule 0 half :=
    if_pos (by simp [hobs, hheld, hmiss])
  rw [hgone]
  refine ⟨?_, (getF_congr hregs' _).trans hone, ?_, _, congrArg (· ++ _) (hrecs'.trans hrecs), rfl⟩
  · rw [controllerLost, getF_event, getF_event, getF_congr hregs', getF_congr hregs']
    exact hlost
  · rw [getF_event, getF_congr hregs']
    exact hleader

end State

open State in
/-- Settles O48: pacing, contacts, heartbeats, a lost controller, and the count in flash (R382, R385, R393, R398). -/
theorem pacingAndControllers : Obligations.PacingAndControllers := by
  intro s e
  refine ⟨fun hready hcause hfloor => ?_, fun hready hcause hheld htarget => ?_, fun k excess amps hpermit htol => ?_,
    fun north south t hobs hboot hgrant hphase hrail => ?_, fun north south t hobs hboot => ?_, fun half hobs hheld hmiss => ?_, fun h => ?_⟩
  · have hregs := paceLower_lowers hready hcause hfloor
    refine does_of_eq rfl rfl ⟨?_, ?_⟩
    · rw [getF_congr hregs, getF_incLive_other _ _ (by decide), getF_setPace]
    · rw [getF_congr hregs, getF_incLive_one, getF_setPace_other _ _ (by decide) (by decide)]
      rfl
  · obtain ⟨hregs, hrecs⟩ := paceRaise_raises hready hcause hheld htarget
    exact does_of_eq rfl rfl ⟨(getF_congr hregs _).trans (getF_setPace ..), hrecs⟩
  · obtain ⟨hregs, hrecord⟩ := contact_shows hpermit htol k.toNat excess.toNat amps.toNat
    obtain ⟨hexcess, hsuspect⟩ := s.getF_contactShown k.toNat excess.toNat (decide (120 < excess.toNat) && decide (excess.toNat < 2 ^ 15))
    have hbad : (decide (120 < excess.toNat) && decide (excess.toNat < 2 ^ 15)) = decide (120 < excess.toInt) := by
      rw [← Bool.decide_and]
      exact decide_eq_decide.2 (toInt_gt excess).symm
    refine does_of_eq rfl rfl ⟨?_, ?_, fun hgt hnone => hrecord (by rw [hbad]; exact decide_eq_true hgt) hnone⟩
    · exact (getF_congr hregs _).trans (hexcess.trans (Nat.mod_eq_of_lt excess.isLt))
    · refine (getF_congr hregs _).trans (hsuspect.trans ?_)
      rw [hbad, b2n]
      exact ite_congr (decide_eq_true_eq ..) (fun _ => rfl) fun _ => rfl
  · obtain ⟨hframe, hquiet⟩ := s.sensed_beats north south t
    have hbootEq : (s.sensedBeats north south t).boot.work = s.boot.work := (congrArg (fun v : State => v.boot.work) hframe :)
    have hobsEq : (s.sensedBeats north south t).boot.obs = s.boot.obs := (congrArg (fun v : State => v.boot.obs) hframe :)
    have hlost := controllerLost_sensed ⟨hframe, hquiet⟩
    have h := bootMs_waits (s := s.sensedBeats north south t) (by rw [hobsEq]; exact hobs)
      (by rw [booting, hobsEq, hquiet _ (.inl (by decide))]; exact hboot) (by rw [controllersGrant, hlost, hlost]; exact hgrant)
      (by rw [bootPhase, hquiet _ (.inl (by decide))]; exact hphase) (by rw [inTol, hquiet _ (.inr ⟨4, by decide, rfl⟩)]; exact hrail)
    rw [hquiet _ (.inl (by decide)), hbootEq] at h
    exact does_of_eq rfl (mgmtHeartbeat_eq hobs north south t) h
  · obtain ⟨hframe, hquiet⟩ := s.sensed_beats north south t
    have hobsEq : (s.sensedBeats north south t).boot.obs = s.boot.obs := (congrArg (fun v : State => v.boot.obs) hframe :)
    have hserving : (s.sensedBeats north south t).booting = false := by
      rw [booting, hobsEq, hquiet _ (.inl (by decide))]
      exact hboot
    obtain ⟨hinput, hinlet⟩ := getF_readSensors ((s.beat 0 north).beat 1 south) t
    exact does_of_eq rfl ((mgmtHeartbeat_eq hobs north south t).trans (bootMs_serving hserving))
      ⟨hinput, hinlet, s.misses_sensedBeats north south t⟩
  · exact does_of_eq rfl rfl (controllerGone_goes hobs hheld hmiss half.isLt)
  · exact does_of_eq rfl (if_pos (by simpa using h)) rfl

end Sys2Proof.Machine

namespace Sys2Proof.Machine

theorem bitOf_setBits (x lo v k : Nat) : bitOf (setBits x lo 1 v) k = if k = lo then decide (v % 2 = 1) else bitOf x k := by
  have hlow : x % 2 ^ lo < 2 ^ lo := Nat.mod_lt _ (Nat.two_pow_pos lo)
  have hsplit : setBits x lo 1 v = 2 ^ lo * (2 * (x >>> (lo + 1)) + v % 2) + x % 2 ^ lo := by
    rw [setBits, Nat.pow_add, pow_one]
    ring
  rw [bitOf, hsplit, Nat.testBit_two_pow_mul_add _ hlow]
  obtain hk | rfl | hk := Nat.lt_trichotomy k lo
  · rw [if_pos hk, if_neg hk.ne, Nat.testBit_mod_two_pow, decide_eq_true hk, Bool.true_and, bitOf]
  · rw [if_neg (lt_irrefl _), if_pos rfl, Nat.sub_self, Nat.testBit_zero, Nat.mul_add_mod, Nat.mod_mod]
  · obtain ⟨d, rfl⟩ : ∃ d, k = lo + 1 + d := ⟨k - lo - 1, by omega⟩
    rw [if_neg (by omega), if_neg (by omega), show lo + 1 + d - lo = d + 1 by omega, Nat.testBit_succ,
      show (2 * (x >>> (lo + 1)) + v % 2) / 2 = x >>> (lo + 1) by omega, Nat.testBit_shiftRight, bitOf]

namespace State

theorem mod_b2n (b : Bool) : b2n b % 2 ^ 1 = if b then 1 else 0 := by
  cases b
  · rfl
  · rfl

/-! ### Scrubbers (R187, R199-R202) -/

/-- A correction of a counted word. -/
theorem correct_frame (s : State) (u : Nat × Nat) (a : FaultArgs) : (s.correct u a).regs = s.regs ∧ (s.correct u a).plots = s.plots ∧
    (s.correct u a).mem = s.mem ∧ (s.correct u a).win = s.win := by
  obtain ⟨x, more, h⟩ := s.correct_recounted u a
  exact h.frame

section
variable {s : State} {lid a : Nat} (hen : s.getF F.LOAM_CFG.PAD_SCRUB_EN = 1) (hpresent : s.present lid = true)
  (hcore : s.coreFenced lid = false) (hbank : s.bankMode lid (a / 2 ^ 20) ≠ 0)
include hen hpresent hcore hbank

theorem padScrub_corrected {bad : Bool} (hbad : bad = false ∨ s.bankMode lid (a / 2 ^ 20) ≠ 1) : let u := s.padScrub lid a bad
    u.getF (F.PAD_CORR.COUNT lid) = (s.getF (F.PAD_CORR.COUNT lid) + 1) % 2 ^ 48 ∧ u.mem = s.mem ∧ u.plots = s.plots := by
  have hno : ¬ (bad && s.bankMode lid (a / 2 ^ 20) == 1) = true := by
    simp only [Bool.and_eq_true, beq_iff_eq]
    rintro ⟨hb, hm⟩
    obtain h | h := hbad
    · exact Bool.false_ne_true (h.symm.trans hb)
    · exact h hm
  rw [padScrub, if_pos (by rw [decide_eq_true hen, hpresent, hcore]; exact bne_iff_ne.2 hbank)]
  dsimp only
  rw [if_neg hno]
  obtain ⟨hregs, hplots, hmem, -⟩ := (s.incF (F.PAD_CORR.COUNT lid) 1).correct_frame (unitCore, s.siteOf lid)
    { code := 0x0001, srcType := srcPlot, srcId := lid, opUnit := opPad, detail := a }
  exact ⟨(getF_congr hregs _).trans (getF_incF_same ..), hmem, hplots⟩

theorem padScrub_lost (hcache : s.bankMode lid (a / 2 ^ 20) = 1) (hout : s.inAttempt = false)
    (hcarry : s.bankCarried lid (a / 2 ^ 20) = false) : let u := s.padScrub lid a true
    u.mem = { s.mem with pad := SMap.clearRange s.mem.pad (padKey lid (a / 64 * 64)) 64 } ∧ ∃ x, u.recs = s.recs ++ [x] ∧ x.code = 0x0101 := by
  have hout' : (s.incLive (F.PAD_UNCORR.COUNT lid) 1).inAttempt = false := hout
  have hcarry' : (s.incLive (F.PAD_UNCORR.COUNT lid) 1).bankCarried lid (a / 2 ^ 20) = false := by
    rw [bankCarried, getF_incLive_other _ _ (by simp only [Fld.key, F.PAD_CFG.CARRY, F.PAD_UNCORR.COUNT]; omega)]
    exact hcarry
  rw [padScrub, if_pos (by rw [decide_eq_true hen, hpresent, hcore]; exact bne_iff_ne.2 hbank)]
  dsimp only
  rw [if_pos (Bool.and_eq_true_iff.2 ⟨rfl, beq_iff_eq.2 hcache⟩), if_neg (by rw [hout']; decide), padLineLost,
    if_neg (by rw [hcarry']; decide), raise_eq]
  exact ⟨rfl, _, rfl, rfl⟩

end

theorem loseQueue_frame (s : State) (q : Nat) :
    (s.loseQueue q).win.badLines = s.win.badLines ∧ ∃ r, (s.loseQueue q).recs = s.recs ++ [r] := by
  unfold loseQueue
  dsimp only
  split
  · exact ⟨rfl, _, rfl⟩
  · split
    · exact ⟨rfl, _, rfl⟩
    · exact ⟨rfl, _, rfl⟩

/-- A window line lost (R279, R322). -/
theorem windowLost_frame (s : State) (p : Nat) : (s.windowLost p).win.badLines = s.win.badLines ∧
    ∃ x more, (s.windowLost p).recs = s.recs ++ x :: more ∧ x.code = 0x000F ∧ x.d4 = p := by
  let v := s.event 0x000F srcModule 0 p
  obtain ⟨r, hr, hcode, hp⟩ : ∃ r, v.recs = s.recs ++ [r] ∧ r.code = 0x000F ∧ r.d4 = p := ⟨_, rfl, rfl, rfl⟩
  rw [windowLost]
  split
  · exact ⟨rfl, r, [], hr, hcode, hp⟩
  · dsimp only
    split
    · next q _ =>
      obtain ⟨hbad, r', hr'⟩ := ({ v with win := { v.win with toVoid := NSet.insert v.win.toVoid p } } : State).loseQueue_frame q
      exact ⟨hbad, r, [r'], hr'.trans (by rw [show State.recs _ = _ from hr, List.append_assoc]; rfl), hcode, hp⟩
    · exact ⟨rfl, r, [], hr, hcode, hp⟩

/-! ### The log (R325) -/

/-- A half's ring with a word at its head, counted among the half's writes of the second. -/
def logged (s : State) (half word : Nat) : State := { s with hist := { s.hist with
  ring := SMap.set 0 s.hist.ring (logKey half (s.logHead half)) word,
  rate := SMap.set (0, 0) s.hist.rate half (s.meridian / secondMt, s.logRate half + 1) } }

theorem logged_ring (s : State) (half word : Nat) :
    SMap.get 0 (s.logged half word).hist.ring (logKey half (s.logHead half)) = word := SMap.get_set_same ..

theorem logged_wait (s : State) (half word : Nat) : (s.logged half word).hist.wait = s.hist.wait := rfl

theorem logPut_puts (s : State) {half : Nat} (entry : Nat) (hhalf : half < 2) : let u := s.logPut half entry
    u.hist.wait = s.hist.wait ∧ SMap.get 0 u.hist.ring (logKey half (s.logHead half)) = logWord entry ∧
      u.logHead half = (s.logHead half + 1) % logEntries := by
  have hnext : (s.logHead half + 1) % logEntries < 2 ^ 24 := (Nat.mod_lt _ (by decide)).trans (by decide)
  obtain ⟨v, hv⟩ : ∃ v : State, v = s.logged half (logWord entry) := ⟨_, rfl⟩
  have hwait : v.hist.wait = s.hist.wait := by
    rw [hv, logged_wait]
  have hring : SMap.get 0 v.hist.ring (logKey half (s.logHead half)) = logWord entry := by rw [hv, logged_ring]
  obtain rfl | rfl : half = 0 ∨ half = 1 := by omega
  · have heq : s.logPut 0 entry = if SMap.get 0 s.hist.ring (logKey 0 (s.logHead 0)) != 0 then
        (v.nowF F.HIST_STATUS.NORTH_HEAD ((s.logHead 0 + 1) % logEntries)).nowF F.HIST_STATUS.NORTH_WRAPPED 1
        else v.nowF F.HIST_STATUS.NORTH_HEAD ((s.logHead 0 + 1) % logEntries) := by
      rw [hv, logPut]
      rfl
    have hhead : (v.nowF F.HIST_STATUS.NORTH_HEAD ((s.logHead 0 + 1) % logEntries)).getF F.HIST_STATUS.NORTH_HEAD =
        (s.logHead 0 + 1) % logEntries := (getF_nowF_same ..).trans (Nat.mod_eq_of_lt hnext)
    rw [heq]
    split
    · exact ⟨hwait, hring, (getF_nowF_other _ _ (by decide)).trans hhead⟩
    · exact ⟨hwait, hring, hhead⟩
  · have heq : s.logPut 1 entry = if SMap.get 0 s.hist.ring (logKey 1 (s.logHead 1)) != 0 then
        (v.nowF F.HIST_STATUS.SOUTH_HEAD ((s.logHead 1 + 1) % logEntries)).nowF F.HIST_STATUS.SOUTH_WRAPPED 1
        else v.nowF F.HIST_STATUS.SOUTH_HEAD ((s.logHead 1 + 1) % logEntries) := by
      rw [hv, logPut]
      rfl
    have hhead : (v.nowF F.HIST_STATUS.SOUTH_HEAD ((s.logHead 1 + 1) % logEntries)).getF F.HIST_STATUS.SOUTH_HEAD =
        (s.logHead 1 + 1) % logEntries := (getF_nowF_same ..).trans (Nat.mod_eq_of_lt hnext)
    rw [heq]
    split
    · exact ⟨hwait, hring, (getF_nowF_other _ _ (by decide)).trans hhead⟩
    · exact ⟨hwait, hring, hhead⟩

theorem takeWaiting_front {half : Nat} {w : Nat × Nat × Nat} {rest : List (Nat × Nat × Nat)} (h : w.1 = half) :
    takeWaiting half (w :: rest) = (some w, rest) := if_pos h

/-- The oldest record that waits goes to its half's ring (R325). -/
theorem historyWrite_front {s : State} {half : Nat} {w : Nat × Nat × Nat} {rest : List (Nat × Nat × Nat)}
    (hheld : s.controllerLost half = false) (hrate : s.logRate half < 4096) (hwait : s.hist.wait = w :: rest) (hw : w.1 = half) :
    s.historyWrite half false = ({ s with hist := { s.hist with wait := rest } } : State).logPut half w.2.2 := by
  rw [historyWrite, if_neg (by simp [hheld]; omega), hwait, takeWaiting_front hw]
  rfl

/-! ### Counter samples (R416) -/

theorem traceSample_sent {s : State} (hon : s.getF F.TRACE_CFG.SAMPLE = 1) (hperiod : s.getF F.TRACE_CFG.PERIOD ≠ 0)
    (hdue : s.getF F.TRACE_CFG.PERIOD ≤ s.obs.sampled) (hroom : s.obs.watch.length ≤ 4096) : let u := s.traceSample
    u.obs.sampled = s.obs.sampled - s.getF F.TRACE_CFG.PERIOD ∧ (∃ bs, u.obs.watch = s.obs.watch ++ [bs]) ∧
      u.obs.watchSeq = (s.obs.watchSeq + 1) % 2 ^ 32 := by
  rw [traceSample]
  dsimp only
  rw [if_pos ⟨hon, hperiod, hdue⟩, trace]
  dsimp only
  rw [watchOut, if_neg (Nat.not_lt.2 hroom)]
  split
  · exact ⟨rfl, ⟨_, rfl⟩, rfl⟩
  · exact ⟨rfl, ⟨_, rfl⟩, rfl⟩

/-! ### The end of a re-gate (R404) -/

theorem laneExcluded_setExcluded (s : State) (l j : Nat) (on : Bool) :
    (s.setExcluded l on).laneExcluded j = if j = l then on else s.laneExcluded j := by
  have hbit : decide (b2n on % 2 = 1) = on := by
    cases on
    · rfl
    · rfl
  rw [laneExcluded, setExcluded]
  by_cases hword : j / 64 = l / 64
  · rw [hword, getF_nowF_same, show (F.LANE_EXCLUDED.MASK (l / 64)).width = 64 from rfl, bitOf, Nat.testBit_mod_two_pow,
      decide_eq_true (by omega), Bool.true_and, ← bitOf, bitOf_setBits, hbit, laneExcluded, hword]
    exact if_congr (by omega) rfl rfl
  · rw [getF_nowF_other _ _ (by simp only [Fld.key, F.LANE_EXCLUDED.MASK]; omega), if_neg (by rintro rfl; exact hword rfl), laneExcluded]

/-- Lanes that lose their exclusion. -/
theorem laneExcluded_won (ls : List Nat) (s : State) (j : Nat) :
    (ls.foldl (fun s l => s.setExcluded l false) s).laneExcluded j = (s.laneExcluded j && !ls.contains j) := by
  induction ls generalizing s with
  | nil => simp
  | cons l ls ih =>
    rw [List.foldl_cons, ih, laneExcluded_setExcluded]
    by_cases hj : j = l
    · simp [hj]
    · simp [hj]

theorem setExcluded_frame (ls : List Nat) (s : State) : let t := ls.foldl (fun s l => s.setExcluded l false) s
    t.boot = s.boot ∧ t.recs = s.recs := by
  induction ls generalizing s with
  | nil => exact ⟨rfl, rfl⟩
  | cons l ls ih =>
    rw [List.foldl_cons]
    obtain ⟨hboot, hrecs⟩ := ih (s.setExcluded l false)
    exact ⟨hboot.trans (nowF_boot ..), hrecs.trans (nowF_recs ..)⟩

theorem showGate_frame (s : State) : s.showGate.recs = s.recs ∧ s.showGate.boot = s.boot ∧
    ∀ l < 528, s.showGate.laneExcluded l = s.laneExcluded l := by
  obtain ⟨v, hv⟩ : ∃ v, v = (s.nowF F.GATE_SUMMARY.FAILED (s.excludedLanes.length -
      (s.excludedLanes.filter fun l => NSet.mem s.boot.untested l).length)).nowF F.GATE_SUMMARY.UNTESTED
      (s.excludedLanes.filter fun l => NSet.mem s.boot.untested l).length := ⟨_, rfl⟩
  have heq : s.showGate = v.showTwinLink := by
    rw [hv]
    rfl
  have hrecs : v.showTwinLink.recs = v.recs := (congrArg State.recs (linksOnly_showTwinLink v).1 :)
  have hboot : v.showTwinLink.boot = v.boot := by
    unfold showTwinLink
    dsimp only
    split
    · rfl
    · rfl
  refine ⟨?_, ?_, fun l hl => ?_⟩
  · rw [heq, hrecs, hv, nowF_recs, nowF_recs]
  · rw [heq, hboot, hv, nowF_boot, nowF_boot]
  · rw [heq, laneExcluded, showTwinLink_other, hv, getF_nowF_other, getF_nowF_other, laneExcluded]
    all_goals
      simp only [Fld.key, F.LANE_EXCLUDED.MASK, F.GATE_SUMMARY.FAILED, F.GATE_SUMMARY.UNTESTED, F.TWIN_STATUS.LINK_UP,
        F.TWIN_LOCK_STATUS.LOCKED]
      omega

/-- The excluded lanes that a re-gate names and that passed (R404). -/
def regateWon (s : State) (mask : Nat) (passed : List Nat) : List Nat :=
  (s.excludedLanes.filter (regateNames mask)).filter passed.contains

theorem contains_regateWon (s : State) {mask : Nat} {passed : List Nat} {l : Nat} (hl : l < 528) :
    (s.regateWon mask passed).contains l = (s.laneExcluded l && (regateNames mask l && passed.contains l)) := by
  rw [Bool.eq_iff_iff]
  simp [regateWon, excludedLanes, hl]
  tauto

/-- The lanes `won` lose their exclusion, of the lanes `named` that a re-gate named (R404). -/
def regateLeft (s : State) (named won : List Nat) : State :=
  let v := won.foldl (fun s l => s.setExcluded l false) s
  { v with boot := { v.boot with
    untested := v.boot.untested.filter fun (x : Nat × Unit) =>
      !(won.contains x.1 || (named.contains x.1 && decide (x.1 < 512) && v.laneLocked x.1))
    regate := if v.boot.regateNext = 0 then none else some v.boot.regateNext, regateNext := 0 } }

/-- The end of a re-gate, recorded. -/
def regateEnds (s : State) (named won : List Nat) (next : Nat) : State :=
  let t := (s.regateLeft named won).showGate.nowF F.GATE_SUMMARY.REGATE_RUNNING (b2n (next != 0))
  t.event 0x0071 srcModule 0 (won.length + t.excludedLanes.length * 2 ^ 16)

theorem regateDone_eq {s : State} {mask : Nat} (hmask : s.boot.regate = some mask) (passed : List Nat) :
    s.regateDone passed = s.regateEnds (s.excludedLanes.filter (regateNames mask)) (s.regateWon mask passed)
      ((s.regateWon mask passed).foldl (fun s l => s.setExcluded l false) s).boot.regateNext := by
  rw [regateDone, hmask, regateEnds, regateLeft, regateWon]

theorem regateEnds_frame {s : State} (hnext : s.boot.regateNext = 0) (named won : List Nat) : let u := s.regateEnds named won 0
    u.boot.regate = none ∧ u.getF F.GATE_SUMMARY.REGATE_RUNNING = 0 ∧
      (∀ l < 528, u.laneExcluded l = (s.laneExcluded l && !won.contains l)) ∧ ∃ x, u.recs = s.recs ++ [x] ∧ x.code = 0x0071 := by
  obtain ⟨hrecs, hboot, hex⟩ := (s.regateLeft named won).showGate_frame
  obtain ⟨hboot', hrecs'⟩ := setExcluded_frame won s
  refine ⟨(congrArg (·.regate) hboot).trans (if_pos (by rw [hboot', hnext])),
    getF_nowF_same (s.regateLeft named won).showGate F.GATE_SUMMARY.REGATE_RUNNING 0, fun l hl => ?_, _,
    congrArg (· ++ _) (hrecs.trans hrecs'), rfl⟩
  rw [regateEnds, laneExcluded, getF_event,
    getF_nowF_other _ _ (by simp only [Fld.key, F.LANE_EXCLUDED.MASK, F.GATE_SUMMARY.REGATE_RUNNING]; omega)]
  exact (hex l hl).trans (laneExcluded_won ..)

end State

open State in
/-- Settles O49: scrubbers, hot layers, the log, counter samples and the end of a re-gate (R187, R199-R202, R325, R404, R416). -/
theorem observation : Obligations.Observation := by
  intro s
  refine ⟨?_, fun p c off hen hready hreach => ⟨?_, ?_⟩, fun l hen hready hgood => ?_, fun p layer hot hp hpower => ?_,
    fun half w rest hheld hrate hwait hw => ?_, fun hon hperiod hdue hroom => ?_, fun passed mask hmask hnext => ?_⟩
  · intro l a lid hen hpresent hcore hbank
    exact ⟨fun bad hbad => does_of_eq rfl rfl (padScrub_corrected hen hpresent hcore hbank hbad),
      fun hcache hout hcarry => does_of_eq rfl rfl (padScrub_lost hen hpresent hcore hbank hcache hout hcarry)⟩
  · exact does_of_eq rfl (if_pos (by rw [decide_eq_true hen, hready, hreach]; rfl)) rfl
  · have hbit : s.loamScrub (.committed p c off) .bit false = (s.incF (F.CORR_BIT.COUNT p.toNat) 1).correct (unitShell, p.toNat)
        { code := 0x0002, srcType := srcSite, srcId := p.toNat, opUnit := opLoam, detail := off.toNat } :=
      if_pos (by rw [decide_eq_true hen, hready, hreach]; rfl)
    obtain ⟨hregs, -, hmem, -⟩ := (s.incF (F.CORR_BIT.COUNT p.toNat) 1).correct_frame (unitShell, p.toNat)
      { code := 0x0002, srcType := srcSite, srcId := p.toNat, opUnit := opLoam, detail := off.toNat }
    exact does_of_eq rfl hbit ⟨(getF_congr hregs _).trans (getF_incF_same ..), hmem⟩
  · have hlost : s.loamScrub (.window l) .uncorrectable false =
        ({ s with win := { s.win with badLines := NSet.insert s.win.badLines l.toNat } } : State).windowLost (l.toNat / 1024) :=
      (if_pos (by rw [decide_eq_true hen, hready]; rfl)).trans (if_neg fun h => Bool.false_ne_true (hgood.symm.trans h))
    obtain ⟨hbad, hrecs⟩ := ({ s with win := { s.win with badLines := NSet.insert s.win.badLines l.toNat } } : State).windowLost_frame
      (l.toNat / 1024)
    exact does_of_eq rfl hlost ⟨by rw [hbad]; exact NSet.mem_insert_self .., hrecs⟩
  · refine does_of_eq (answerIf_true _ _ (decide_eq_true hp)) (if_pos hpower) ⟨?_, (getF_keepF_same ..).trans ?_⟩
    · cases hot
      · exact NSet.mem_erase_self ..
      · exact NSet.mem_insert_self ..
    · exact mod_b2n _
  · exact does_of_eq rfl (historyWrite_front hheld hrate hwait hw) (logPut_puts _ _ half.isLt)
  · exact does_of_eq rfl rfl (traceSample_sent hon hperiod hdue hroom)
  · obtain ⟨hregate, hrunning, hex, hrec⟩ := regateEnds_frame hnext (s.excludedLanes.filter (State.regateNames mask))
      (s.regateWon mask (passed.map BitVec.toNat))
    have hdone := regateDone_eq hmask (passed.map BitVec.toNat)
    rw [(setExcluded_frame ..).1, hnext] at hdone
    refine does_of_eq rfl hdone ⟨hregate, hrunning, fun l hl => ?_, hrec⟩
    rw [hex l hl, contains_regateWon s hl]
    cases s.laneExcluded l
    · rfl
    · rw [Bool.true_and, Bool.true_and, Bool.true_and]

end Sys2Proof.Machine

namespace Sys2Proof.Machine
namespace State

/-! ### Regions powered and darkened (R374, R381) -/

/-- The registers below those of the regions' power. -/
@[reducible] def belowRegions (k : Nat) : Prop := k < (F.REGION_PSTAT.SWITCH 0).key

/-- `t` is `s` but for regions powered or not. -/
def RegionsOnly (s t : State) : Prop :=
  { t with regs := s.regs, base := s.base, power := { t.power with wakes := s.power.wakes } } = s ∧
    (∀ f : Fld, belowRegions f.key → t.getF f = s.getF f) ∧
    ∀ n < 256, t.getF (F.REGION_PSTAT.DARK_LATCH n) = s.getF (F.REGION_PSTAT.DARK_LATCH n)

namespace RegionsOnly
variable {s t u : State}

theorem refl (s : State) : s.RegionsOnly s := ⟨rfl, fun _ _ => rfl, fun _ _ => rfl⟩

theorem trans (h : s.RegionsOnly t) (k : t.RegionsOnly u) : s.RegionsOnly u :=
  ⟨(congrArg (fun v : State => { v with regs := s.regs, base := s.base, power := { v.power with wakes := s.power.wakes } }) k.1 :).trans h.1,
    fun f hf => (k.2.1 f hf).trans (h.2.1 f hf), fun n hn => (k.2.2 n hn).trans (h.2.2 n hn)⟩

theorem keepF (s : State) {f : Fld} (hf : ¬ belowRegions f.key) (hl : ∀ n < 256, (F.REGION_PSTAT.DARK_LATCH n).key ≠ f.key) (v : Nat) :
    s.RegionsOnly (s.keepF f v) :=
  ⟨rfl, fun _ hg => getF_keepF_other _ _ fun h => hf (h ▸ hg), fun n hn => getF_keepF_other _ _ (hl n hn)⟩

end RegionsOnly

/-- A site's loam powered or not leaves every region's switch. -/
theorem poweredSites_switch (is : List Nat) (n v m : Nat) (hm : m < 256) (s : State) :
    (is.foldl (fun s i => s.keepF (F.LOAM_STATUS.POWERED (20 * n + i)) v) s).getF (F.REGION_PSTAT.SWITCH m) =
      s.getF (F.REGION_PSTAT.SWITCH m) := by
  induction is generalizing s with
  | nil => rfl
  | cons i is ih =>
    rw [List.foldl_cons, ih, getF_keepF_other _ _ (by simp only [Fld.key, F.REGION_PSTAT.SWITCH, F.LOAM_STATUS.POWERED]; omega)]

theorem regionsOnly_powerRegion (s : State) (n : Nat) (on : Bool) : s.RegionsOnly (s.powerRegion n on) := by
  have hsites (is : List Nat) (v : Nat) (t : State) :
      t.RegionsOnly (is.foldl (fun s i => s.keepF (F.LOAM_STATUS.POWERED (20 * n + i)) v) t) := by
    refine List.foldlRecOn (motive := fun u => t.RegionsOnly u) _ _ (.refl t) fun u hu i _ => hu.trans (.keepF u ?_ (fun m _ => ?_) v)
    · simp only [belowRegions, Fld.key, F.REGION_PSTAT.SWITCH, F.LOAM_STATUS.POWERED]
      omega
    · simp only [Fld.key, F.REGION_PSTAT.DARK_LATCH, F.LOAM_STATUS.POWERED]
      omega
  have hswitch : s.RegionsOnly (s.keepF (F.REGION_PSTAT.SWITCH n) (b2n on)) := .keepF s
    (by simp only [belowRegions, Fld.key, F.REGION_PSTAT.SWITCH]; omega)
    (fun m _ => by simp only [Fld.key, F.REGION_PSTAT.DARK_LATCH, F.REGION_PSTAT.SWITCH]; omega) _
  have hawake (t : State) : t.RegionsOnly (t.keepF (F.REGION_PSTAT.AWAKE n) (b2n on)) := .keepF t
    (by simp only [belowRegions, Fld.key, F.REGION_PSTAT.SWITCH, F.REGION_PSTAT.AWAKE]; omega)
    (fun m _ => by simp only [Fld.key, F.REGION_PSTAT.DARK_LATCH, F.REGION_PSTAT.AWAKE]; omega) _
  have hwakes (t : State) : t.RegionsOnly { t with power := { t.power with wakes := SMap.drop t.power.wakes n } } :=
    ⟨rfl, fun _ _ => rfl, fun _ _ => rfl⟩
  have hwaking (t : State) : t.RegionsOnly (t.keepF (F.REGION_PSTAT.WAKING n) 0) := .keepF t
    (by simp only [belowRegions, Fld.key, F.REGION_PSTAT.SWITCH, F.REGION_PSTAT.WAKING]; omega)
    (fun m _ => by simp only [Fld.key, F.REGION_PSTAT.DARK_LATCH, F.REGION_PSTAT.WAKING]; omega) _
  exact (((hswitch.trans (hawake _)).trans (hwakes _)).trans (hwaking _)).trans (hsites ..)

/-- A region's switch, and no other's (R374). -/
theorem switch_powerRegion (s : State) (n : Nat) (on : Bool) {m : Nat} (hm : m < 256) :
    (s.powerRegion n on).getF (F.REGION_PSTAT.SWITCH m) = if m = n then b2n on else s.getF (F.REGION_PSTAT.SWITCH m) := by
  rw [powerRegion]
  dsimp only
  rw [poweredSites_switch _ _ _ _ hm, getF_keepF_other _ _ (by simp only [Fld.key, F.REGION_PSTAT.SWITCH, F.REGION_PSTAT.WAKING]; omega)]
  refine (getF_keepF_other _ _ (by simp only [Fld.key, F.REGION_PSTAT.SWITCH, F.REGION_PSTAT.AWAKE]; omega)).trans ?_
  split
  · next h =>
    subst h
    rw [getF_keepF_same]
    cases on
    · rfl
    · rfl
  · next h => exact getF_keepF_other _ _ (by simp only [Fld.key, F.REGION_PSTAT.SWITCH]; omega)

/-! ### Bring-up (R374, R392-R394, R407) -/

/-- A group of region switches closes, but for the regions latched dark and the holes (R374). -/
def closeGroup (s : State) (g : Nat) (is : List Nat) : State := is.foldl (fun s i =>
  if s.getF (F.REGION_PSTAT.DARK_LATCH (16 * g + i)) = 1 ∨ s.isHole (16 * g + i) then s else s.powerRegion (16 * g + i) true) s

/-- The next group closed, and counted. -/
def groupClosed (s : State) (is : List Nat) : State :=
  { s.closeGroup s.boot.groups is with boot := { (s.closeGroup s.boot.groups is).boot with groups := s.boot.groups + 1 } }

theorem groupClosed_frame (s : State) (is : List Nat) : (s.groupClosed is).boot.groups = s.boot.groups + 1 ∧
    (s.groupClosed is).regs = (s.closeGroup s.boot.groups is).regs := ⟨rfl, rfl⟩

theorem groupClose_eq {s : State} (hboot : s.booting = true) (hpermit : s.power.permit = true) (hg : s.boot.groups < 16) :
    s.groupClose = (s.groupClosed (List.range 16)).advanceBoot := by
  rw [groupClose, if_pos (by rw [hboot, hpermit, decide_eq_true hg]; rfl), groupClosed, closeGroup]

theorem isHole_regions {s t : State} (h : s.RegionsOnly t) {n : Nat} (hn : n < 256) : t.isHole n = s.isHole n := by
  rw [isHole, h.2.1 _ (by simp only [belowRegions, Fld.key, F.HOLE_MAP.DARK, F.REGION_PSTAT.SWITCH]; omega), isHole]

theorem closeGroup_closes {g : Nat} (hg : g < 16) (is : List Nat) (his : ∀ i ∈ is, i < 16) (s : State) :
    s.RegionsOnly (s.closeGroup g is) ∧
      (∀ n < 256, s.getF (F.REGION_PSTAT.SWITCH n) = 1 → (s.closeGroup g is).getF (F.REGION_PSTAT.SWITCH n) = 1) ∧
      ∀ i ∈ is, s.getF (F.REGION_PSTAT.DARK_LATCH (16 * g + i)) ≠ 1 → s.isHole (16 * g + i) = false →
        (s.closeGroup g is).getF (F.REGION_PSTAT.SWITCH (16 * g + i)) = 1 := by
  induction is generalizing s with
  | nil => exact ⟨.refl s, fun _ _ h => h, fun i hi => absurd hi (List.not_mem_nil)⟩
  | cons i is ih =>
    have hi : 16 * g + i < 256 := by
      have := his i (by simp)
      omega
    let v := if s.getF (F.REGION_PSTAT.DARK_LATCH (16 * g + i)) = 1 ∨ s.isHole (16 * g + i) then s else s.powerRegion (16 * g + i) true
    have hv : s.RegionsOnly v := by
      show s.RegionsOnly (if _ then _ else _)
      split
      · exact .refl s
      · exact regionsOnly_powerRegion ..
    have hon : ∀ n < 256, s.getF (F.REGION_PSTAT.SWITCH n) = 1 → v.getF (F.REGION_PSTAT.SWITCH n) = 1 := by
      intro n hn h
      show (if _ then _ else _ : State).getF _ = 1
      split
      · exact h
      · rw [switch_powerRegion _ _ _ hn, h, ite_eq_right_iff]
        exact fun _ => rfl
    obtain ⟨hframe, hkeeps, hcloses⟩ := ih (fun j hj => his j (by simp [hj])) v
    refine ⟨hv.trans hframe, fun n hn h => hkeeps n hn (hon n hn h), fun j hj hlatch hhole => ?_⟩
    have hj16 : 16 * g + j < 256 := by
      have := his j hj
      omega
    obtain rfl | hj := List.mem_cons.1 hj
    · refine hkeeps _ hj16 ?_
      have heq : v = s.powerRegion (16 * g + j) true := if_neg (by simp [hlatch, hhole])
      rw [heq, switch_powerRegion _ _ _ hj16, if_pos rfl]
      rfl
    · exact hcloses j hj (by rwa [hv.2.2 _ hj16]) ((isHole_regions hv hj16).trans hhole)

theorem advanceBoot_serving {s : State} (h : s.booting = false) : s.advanceBoot = s := if_neg (by simp [h])

/-- In phase 0 with a rail out, bring-up waits for the rails (R407). -/
theorem advanceBoot_waits {s : State} (hboot : s.booting = true) (hphase : s.bootPhase = 0) {j : Nat} (hj : j ∈ [1, 2, 3, 4])
    (hrail : s.inTol j = false) : s.advanceBoot = s.bootAt 0 1 := by
  have hwait : s.bootWait = 1 := by
    have hall : ¬ [1, 2, 3, 4].all s.inTol = true := fun h => Bool.false_ne_true (hrail.symm.trans (List.all_eq_true.1 h j hj))
    rw [bootWait, hphase]
    exact (if_pos rfl).trans (if_neg hall)
  rw [advanceBoot, if_pos hboot, if_neg (by simp [hphase])]
  dsimp only
  rw [hphase, hwait]

/-- Bring-up waits in phase 0. -/
theorem bootAt_waits (s : State) : (s.bootAt 0 1).getF F.BOOT_STATUS.PHASE = 0 ∧ (s.bootAt 0 1).getF F.BOOT_STATUS.STATE = 1 ∧
    (s.bootAt 0 1).getF F.BOOT_STATUS.CODE = 0x01 := by
  refine ⟨?_, ?_, getF_keepF_same ..⟩
  · rw [bootAt, getF_keepF_other _ _ (by decide), getF_keepF_other _ _ (by decide), getF_keepF_same]
    rfl
  · rw [bootAt, getF_keepF_other _ _ (by decide), getF_keepF_same]
    rfl

/-- Carrier flash keeps its own registers alone (R372). -/
theorem getF_powerOff (s : State) {f : Fld} (hf : flashField f.key = false) : s.powerOff.getF f = f.reset := by
  have hnone : SMap.find? (s.regs.filter fun x => flashField x.1) f.key = none := by
    induction s.regs with
    | nil => rfl
    | cons x m ih =>
      rw [List.filter_cons]
      split
      · next hx => exact (if_neg fun h => by rw [h, hf] at hx; exact Bool.false_ne_true hx).trans ih
      · exact ih
  rw [getF, fldGet]
  exact congrArg (Option.getD · f.reset) hnone

theorem mergeSummaries_frame (s : State) : { s.mergeSummaries with hist := s.hist } = s := by
  refine List.foldlRecOn (motive := fun t : State => { t with hist := s.hist } = s) _ _ rfl fun t ht k _ => ?_
  cases t.hist.merged k
  · exact ht
  · exact ht

theorem regs_mergeSummaries (s : State) : s.mergeSummaries.regs = s.regs := (congrArg State.regs s.mergeSummaries_frame :)

/-- The identity that manufacture fixed, shown. -/
def showIdentity (s : State) : State :=
  let s := s.nowF F.ID_PART.PART s.man.grade
  let s := s.nowF F.ID_PART.STEPPING s.man.stepping
  let s := s.nowF F.GRID_SHAPE.PRODUCT_GRADE s.man.grade
  (List.range 4).foldl (fun s i => s.nowF (F.ID_KEY.VALUE i) (wordField s.idKey i 0 64)) s

theorem nowF_thrice_frame (s : State) (f g h : Fld) (a b c : Nat) : let t := ((s.nowF f a).nowF g b).nowF h c
    { t with regs := s.regs, pub := s.pub, base := s.base } = s := rfl

theorem showIdentity_frame (s : State) : { s.showIdentity with regs := s.regs, pub := s.pub, base := s.base } = s ∧
    ∀ f : Fld, f.key ≠ F.ID_PART.PART.key → f.key ≠ F.ID_PART.STEPPING.key → f.key ≠ F.GRID_SHAPE.PRODUCT_GRADE.key →
      (∀ i < 4, f.key ≠ (F.ID_KEY.VALUE i).key) → s.showIdentity.getF f = s.getF f := by
  refine List.foldlRecOn
    (motive := fun t : State => { t with regs := s.regs, pub := s.pub, base := s.base } = s ∧
      ∀ f : Fld, f.key ≠ F.ID_PART.PART.key → f.key ≠ F.ID_PART.STEPPING.key → f.key ≠ F.GRID_SHAPE.PRODUCT_GRADE.key →
        (∀ i < 4, f.key ≠ (F.ID_KEY.VALUE i).key) → t.getF f = s.getF f) _ _
    ⟨nowF_thrice_frame .., fun f h1 h2 h3 _ => ?_⟩ fun t ht i hi => ⟨ht.1, fun f h1 h2 h3 h4 => ?_⟩
  · rw [getF_nowF_other _ _ h3, getF_nowF_other _ _ h2, getF_nowF_other _ _ h1]
  · rw [getF_nowF_other _ _ (h4 i (List.mem_range.1 hi)), ht.2 f h1 h2 h3 h4]

/-- The phases that each region's regulators have left, shown. -/
def showAllPhases (s : State) : State := s.power.phaseOff.foldl (fun s x => s.showPhases x.1) s

theorem showAllPhases_frame (s : State) : { s.showAllPhases with regs := s.regs, base := s.base } = s ∧
    ∀ f : Fld, belowRegions f.key → s.showAllPhases.getF f = s.getF f := by
  refine List.foldlRecOn
    (motive := fun t : State => { t with regs := s.regs, base := s.base } = s ∧ ∀ f : Fld, belowRegions f.key → t.getF f = s.getF f) _ _
    ⟨rfl, fun _ _ => rfl⟩ fun t ht x _ => ⟨ht.1, fun f hf => ?_⟩
  rw [showPhases, getF_keepF_other, getF_keepF_other, ht.2 f hf]
  all_goals
    simp only [belowRegions, Fld.key, F.REGION_PSTAT.SWITCH, F.REGION_PSTAT.PHASES, F.REGION_PSTAT.CAP] at hf ⊢
    omega

/-- The controllers start (R392). -/
def started (s : State) (o : BootObs) : State :=
  { s.powerOff with boot := { s.powerOff.boot with obs := some o, wasOrderly := s.powerOff.boot.orderly, orderly := false } }

theorem powerUp_eq (s : State) (o : BootObs) : s.powerUp o =
    (((((s.started o).showIdentity.showAllPhases).setTol 5 true).nowF F.MGMT_STATUS.NORTH_ALIVE 1).nowF F.MGMT_STATUS.SOUTH_ALIVE 1).mergeSummaries := rfl

/-- The registers of bring-up as the controllers start. -/
theorem getF_powerUp (s : State) (o : BootObs) {f : Fld} (hflash : flashField f.key = false) (hpart : f.key ≠ F.ID_PART.PART.key)
    (hstep : f.key ≠ F.ID_PART.STEPPING.key) (hgrade : f.key ≠ F.GRID_SHAPE.PRODUCT_GRADE.key)
    (hid : ∀ i < 4, f.key ≠ (F.ID_KEY.VALUE i).key) (hregions : belowRegions f.key) (htol : f.key ≠ (F.RAIL_MON.IN_TOL 5).key)
    (hnorth : f.key ≠ F.MGMT_STATUS.NORTH_ALIVE.key) (hsouth : f.key ≠ F.MGMT_STATUS.SOUTH_ALIVE.key) : (s.powerUp o).getF f = f.reset := by
  rw [powerUp_eq, getF_congr (regs_mergeSummaries _), getF_nowF_other _ _ hsouth, getF_nowF_other _ _ hnorth, setTol,
    getF_keepF_other _ _ htol, (showAllPhases_frame _).2 f hregions, (showIdentity_frame _).2 f hpart hstep hgrade hid]
  exact s.getF_powerOff hflash

theorem powerUp_frame (s : State) (o : BootObs) : (s.powerUp o).boot.obs = some o ∧ (s.powerUp o).mem = State.reset.mem ∧
    (s.powerUp o).win = State.reset.win ∧ (s.powerUp o).ports = [] ∧ (s.powerUp o).step = StepSt.zero ∧
    (s.powerUp o).getF F.MGMT_STATUS.NORTH_ALIVE = 1 ∧ (s.powerUp o).getF F.MGMT_STATUS.SOUTH_ALIVE = 1 := by
  rw [powerUp_eq]
  obtain ⟨c, hc⟩ : ∃ c, c = (s.started o).showIdentity.showAllPhases := ⟨_, rfl⟩
  have hframe : { c with regs := (s.started o).regs, pub := (s.started o).pub, base := (s.started o).base } = s.started o := by
    rw [hc]
    exact (congrArg (fun t : State => { t with regs := (s.started o).regs, pub := (s.started o).pub, base := (s.started o).base })
      (showAllPhases_frame (s.started o).showIdentity).1 :).trans (showIdentity_frame _).1
  rw [← hc]
  obtain ⟨d, hd⟩ : ∃ d, d = ((c.setTol 5 true).nowF F.MGMT_STATUS.NORTH_ALIVE 1).nowF F.MGMT_STATUS.SOUTH_ALIVE 1 := ⟨_, rfl⟩
  have hdc : d.boot = c.boot ∧ d.mem = c.mem ∧ d.win = c.win ∧ d.ports = c.ports ∧ d.step = c.step := by
    rw [hd]
    exact ⟨rfl, rfl, rfl, rfl, rfl⟩
  have hnorth : d.getF F.MGMT_STATUS.NORTH_ALIVE = 1 := by
    rw [hd, getF_nowF_other _ _ (by decide), getF_nowF_same]
    rfl
  have hsouth : d.getF F.MGMT_STATUS.SOUTH_ALIVE = 1 := by
    rw [hd, getF_nowF_same]
    rfl
  rw [← hd]
  obtain ⟨hboot, hmem, hwin, hports, hstep⟩ := hdc
  have hm := d.mergeSummaries_frame
  refine ⟨?_, ?_, ?_, ?_, ?_, (getF_congr (congrArg State.regs hm :) _).trans hnorth, (getF_congr (congrArg State.regs hm :) _).trans hsouth⟩
  · exact (congrArg (fun t : State => t.boot.obs) hm :).trans ((congrArg (·.obs) hboot).trans (congrArg (fun t : State => t.boot.obs) hframe :))
  · exact (congrArg State.mem hm :).trans (hmem.trans (congrArg State.mem hframe :))
  · exact (congrArg State.win hm :).trans (hwin.trans (congrArg State.win hframe :))
  · exact (congrArg State.ports hm :).trans (hports.trans (congrArg State.ports hframe :))
  · exact (congrArg State.step hm :).trans (hstep.trans (congrArg State.step hframe :))

/-- Bring-up from bare rails waits for them (R394, R407). -/
theorem bringUp_waits (s : State) (o : BootObs) : s.bringUp o = (s.railsFall.powerUp o).bootAt 0 1 := by
  obtain ⟨hobs, -⟩ := s.railsFall.powerUp_frame o
  refine advanceBoot_waits ?_ ?_ (j := 1) (by decide) ?_
  · rw [booting, hobs, getF_powerUp _ _ (by decide) (by decide) (by decide) (by decide) (by decide) (by decide) (by decide) (by decide)
      (by decide)]
    rfl
  · exact getF_powerUp _ _ (by decide) (by decide) (by decide) (by decide) (by decide) (by decide) (by decide) (by decide) (by decide)
  · rw [inTol, getF_powerUp _ _ (by decide) (by decide) (by decide) (by decide) (by decide) (by decide) (by decide) (by decide) (by decide)]
    rfl

/-- Bring-up that stops says why (R407). -/
theorem bootStop_stops {s : State} (hboot : s.booting = true) (code : Nat) :
    { s.bootStop code with regs := s.regs, base := s.base } = s ∧ (s.bootStop code).getF F.BOOT_STATUS.STATE = 2 ∧
      (s.bootStop code).getF F.BOOT_STATUS.CODE = code % 2 ^ 8 := by
  rw [bootStop, if_pos hboot]
  refine ⟨rfl, ?_, getF_keepF_same ..⟩
  rw [getF_keepF_other _ _ (by decide), getF_keepF_same]
  rfl

/-- An excursion of the coolant: its readings shown, and out of range (R439). -/
theorem getF_coolantRange {s : State} {a b c : Nat} (hobs : s.boot.obs.isSome = true)
    (hinside : (s.showCoolant a b c).getF F.COOLANT_STATUS.IN_RANGE = 1) {f : Fld} (hf : f.key ≠ F.COOLANT_STATUS.EXCURSIONS.key) :
    (s.coolantRange a b c).getF f = ((s.showCoolant a b c).keepF F.COOLANT_STATUS.IN_RANGE 0).getF f := by
  rw [coolantRange, if_pos hobs]
  dsimp only
  rw [if_pos hinside]
  split
  · rw [getF_event]
    split
    · exact getF_incLive_other _ _ hf
    · rfl
  · rfl

end State

open State in
/-- Settles O45: bring-up, its rails, switches and coolant (R371, R374, R392, R394, R407, R439). -/
theorem bringUp : Obligations.BringUp := by
  intro s
  refine ⟨fun o hok => ?_, fun i d r clean hi hobs => ?_, fun hboot hpermit hgroups => ?_, fun inlet outlet flow hobs => ?_⟩
  · obtain ⟨v, hv⟩ : ∃ v, v = s.railsFall.powerUp o := ⟨_, rfl⟩
    obtain ⟨hobs, hmem, hwin, hports, hstep, hnorth, hsouth⟩ := s.railsFall.powerUp_frame o
    have hwaits := bringUp_waits s o
    rw [← hv] at hobs hmem hwin hports hstep hnorth hsouth hwaits
    obtain ⟨hphase, hstate, hcode⟩ := v.bootAt_waits
    obtain ⟨hframe, hfields⟩ := bootShown_bootAt v 0 1
    exact does_of_eq (answerIf_true _ _ hok) hwaits ⟨hobs, hstate, hcode, hphase, (hfields _ (by decide)).trans hnorth,
      (hfields _ (by decide)).trans hsouth, hmem, hwin, hports, hstep⟩
  · have hexec : exec (.railInTolerance i d r clean) s = .next (s.after (s.railBack i.toNat d.toNat r.toNat clean)) :=
      answerIf_true _ _ (decide_eq_true (by omega))
    have hbring : ¬ (s.boot.obs.isNone ∨ i.toNat = 5) := by
      rintro (h | h)
      · exact absurd hobs (by simpa using h)
      · omega
    refine ⟨fun hrisen hfault hserving => ?_, fun hrisen hboot hbad => ?_, fun j hj1 hj5 hji hout hrisen hboot hphase hgood => ?_⟩
    · have htol : (s.keepF (F.RAIL_MON.IN_TOL i.toNat) 1).booting = false := by
        rw [booting, getF_keepF_other _ _ (by simp only [Fld.key, F.BOOT_STATUS.STATE, F.RAIL_MON.IN_TOL]; omega)]
        exact hserving
      refine does_of_eq hexec ?_ rfl
      rw [railBack, if_neg hbring, if_pos hrisen, if_pos hfault]
      exact advanceBoot_serving htol
    · refine does_of_eq hexec (u := ((s.event 0x0061 srcModule 0 3).faultRails).bootStop 0x10) ?_ ?_
      · rw [railBack, if_neg hbring, if_neg (by rw [hrisen]; decide), if_pos hboot, if_neg (by rw [hbad]; decide)]
      · obtain ⟨hframe, hstate, hcode⟩ := bootStop_stops (s := (s.event 0x0061 srcModule 0 3).faultRails) hboot 0x10
        exact ⟨(congrArg (fun t : State => t.power.permit) hframe :), (congrArg (fun t : State => t.power.faultN) hframe :), hstate, hcode, _,
          (congrArg State.recs hframe :), rfl, rfl⟩
    · obtain ⟨v, hv⟩ : ∃ v : State, v =
          ({ s with power := { s.power with risen := NSet.insert s.power.risen i.toNat } } : State).setTol i.toNat true := ⟨_, rfl⟩
      have hother {f : Fld} (hf : f.key ≠ (F.RAIL_MON.IN_TOL i.toNat).key) : v.getF f = s.getF f := by
        rw [hv, setTol, getF_keepF_other _ _ hf]
        rfl
      have hwaits : v.advanceBoot = v.bootAt 0 1 := by
        refine advanceBoot_waits ?_ ?_ (j := j) (by simp; omega) ?_
        · rw [booting, hother (by simp only [Fld.key, F.BOOT_STATUS.STATE, F.RAIL_MON.IN_TOL]; omega), hv]
          exact hboot
        · exact (hother (by simp only [Fld.key, F.BOOT_STATUS.PHASE, F.RAIL_MON.IN_TOL]; omega)).trans hphase
        · rw [inTol, hother (by simp only [Fld.key, F.RAIL_MON.IN_TOL]; omega)]
          exact hout
      have hback : s.railBack i.toNat d.toNat r.toNat clean = v.bootAt 0 1 := by
        rw [railBack, if_neg hbring, if_neg (by rw [hrisen]; decide), if_pos hboot, if_pos hgood, ← hwaits, hv]
      obtain ⟨-, -, hcode⟩ := v.bootAt_waits
      obtain ⟨hframe, hfields⟩ := bootShown_bootAt v 0 1
      refine does_of_eq hexec hback ⟨?_, ?_, hcode, ?_⟩
      · rw [hfields _ (by simp only [List.forall_mem_cons, Fld.key, F.RAIL_MON.IN_TOL, F.BOOT_STATUS.PHASE, F.BOOT_STATUS.STATE, F.BOOT_STATUS.CODE]
                          refine ⟨by omega, by omega, by omega, by simp⟩), hv, setTol, getF_keepF_same]
        rfl
      · rw [show (v.bootAt 0 1).power = v.power from rfl, hv]
        exact NSet.mem_insert_self ..
      · rw [show (v.bootAt 0 1).recs = v.recs from rfl, hv]
        rfl
  · obtain ⟨hframe, -, hcloses⟩ := closeGroup_closes (s := s) (show s.boot.groups < 16 by omega) (List.range 16) (fun i => List.mem_range.1)
    obtain ⟨hcount, hregs⟩ := s.groupClosed_frame (List.range 16)
    have hgroup := groupClose_eq hboot hpermit (by omega)
    obtain ⟨v, hv⟩ : ∃ v, v = s.groupClosed (List.range 16) := ⟨_, rfl⟩
    rw [← hv] at hcount hregs hgroup
    obtain ⟨hshown, hfields⟩ := v.bootShown_advanceBoot
    refine does_of_eq rfl hgroup
      ⟨(congrArg (fun t : State => t.boot.groups) hshown :).trans hcount, fun n hn hlatch hhole => ?_⟩
    rw [hfields _ (by simp only [List.forall_mem_cons, Fld.key, F.REGION_PSTAT.SWITCH, F.BOOT_STATUS.PHASE, F.BOOT_STATUS.STATE,
                        F.BOOT_STATUS.CODE]
                      refine ⟨by omega, by omega, by omega, by simp⟩), getF_congr hregs]
    have hn' : n = 16 * s.boot.groups + n % 16 := by omega
    rw [hn'] at hlatch hhole ⊢
    exact hcloses (n % 16) (List.mem_range.2 (by omega)) hlatch hhole
  · intro shown
    have hreads : shown (s.showCoolant inlet.toNat outlet.toNat flow.toNat) := by
      obtain ⟨hin, hout, hflow⟩ := s.getF_showCoolant inlet.toNat outlet.toNat flow.toNat
      exact ⟨hin.trans (Nat.mod_eq_of_lt inlet.isLt), hout.trans (Nat.mod_eq_of_lt outlet.isLt), hflow.trans (Nat.mod_eq_of_lt flow.isLt)⟩
    have hrange (v : State) (x : Nat) (hv : shown v) : shown (v.keepF F.COOLANT_STATUS.IN_RANGE x) := by
      obtain ⟨hin, hout, hflow⟩ := hv
      exact ⟨(getF_keepF_other _ _ (by decide)).trans hin, (getF_keepF_other _ _ (by decide)).trans hout,
        (getF_keepF_other _ _ (by decide)).trans hflow⟩
    refine ⟨fun hinside => ?_, fun hserving hlow hhigh hcold hhot => ?_⟩
    · have hinside' : (s.showCoolant inlet.toNat outlet.toNat flow.toNat).getF F.COOLANT_STATUS.IN_RANGE = 1 := by
        rw [showCoolant, getF_keepF_other _ _ (by decide), getF_keepF_other _ _ (by decide), getF_keepF_other _ _ (by decide), hinside]
      have hleft (f : Fld) (hf : f.key ≠ F.COOLANT_STATUS.EXCURSIONS.key) := getF_coolantRange hobs hinside' hf
      obtain ⟨hin, hout, hflow⟩ := hrange _ 0 hreads
      exact does_of_eq rfl rfl ⟨⟨(hleft _ (by decide)).trans hin, (hleft _ (by decide)).trans hout, (hleft _ (by decide)).trans hflow⟩,
        (hleft _ (by decide)).trans (getF_keepF_same ..)⟩
    · have hback : s.coolantBack inlet.toNat outlet.toNat flow.toNat =
          (s.showCoolant inlet.toNat outlet.toNat flow.toNat).keepF F.COOLANT_STATUS.IN_RANGE 1 :=
        if_pos (by rw [hobs, coolantOk, decide_eq_true hlow, decide_eq_true hhigh, decide_eq_true hcold, decide_eq_true hhot]; rfl)
      have hserving' : (s.coolantBack inlet.toNat outlet.toNat flow.toNat).booting = false := by
        rw [hback, booting, showCoolant, getF_keepF_other _ _ (by decide), getF_keepF_other _ _ (by decide), getF_keepF_other _ _ (by decide),
          getF_keepF_other _ _ (by decide)]
        exact hserving
      exact does_of_eq rfl ((advanceBoot_serving hserving').trans hback) ⟨hrange _ 1 hreads, getF_keepF_same ..⟩

end Sys2Proof.Machine

namespace Sys2Proof.Machine
namespace State

/-! ### The registers that a publication point and the final log write leave (R278, R287, R325, R372) -/

/-- The register is no queue's state, no count of what was dropped, and no head of the log. -/
@[reducible] def unposted (k : Nat) : Prop :=
  k < (F.QUEUE_STATE.GIVE 0).key ∧ k ∉ [F.EVENTS_LOST.COUNT.key, F.TRACE_STATUS.QUEUE_DROPPED.key, F.TRACE_STATUS.WATCH_DROPPED.key,
    F.LOG_DROPPED.COUNT.key, F.HIST_STATUS.NORTH_HEAD.key, F.HIST_STATUS.NORTH_WRAPPED.key, F.HIST_STATUS.SOUTH_HEAD.key,
    F.HIST_STATUS.SOUTH_WRAPPED.key]

/-- The field reads the same, and so does what an abandonment would return it to. -/
def KeepsReg (f : Fld) (s t : State) : Prop :=
  t.getF f = s.getF f ∧ t.base.map (fun b => fldGet b f) = s.base.map (fun b => fldGet b f)

namespace KeepsReg
variable {f : Fld} {s t u : State}

theorem refl (s : State) : KeepsReg f s s := ⟨rfl, rfl⟩

theorem trans (h : KeepsReg f s t) (k : KeepsReg f t u) : KeepsReg f s u := ⟨k.1.trans h.1, k.2.trans h.2⟩

theorem of_regs (hregs : t.regs = s.regs) (hbase : t.base = s.base) : KeepsReg f s t := ⟨getF_congr hregs f, by rw [hbase]⟩

theorem foldl {β : Type} {g : State → β → State} (hg : ∀ (s : State) (x : β), KeepsReg f s (g s x)) (xs : List β) (s : State) :
    KeepsReg f s (xs.foldl g s) :=
  List.foldlRecOn (motive := fun t => KeepsReg f s t) xs g (refl s) fun t h x _ => h.trans (hg t x)

theorem nowF (s : State) {g : Fld} (h : f.key ≠ g.key) (v : Nat) : KeepsReg f s (s.nowF g v) := by
  refine ⟨getF_nowF_other _ _ h, ?_⟩
  cases hb : s.base with
  | none => simp [State.nowF, hb]
  | some b => simp [State.nowF, hb, fldGet_fldSet_other _ _ h]

theorem keepF (s : State) {g : Fld} (h : f.key ≠ g.key) (v : Nat) : KeepsReg f s (s.keepF g v) := nowF s h v

end KeepsReg

theorem keepsReg_winPutWord {f : Fld} (s : State) (a v : Nat) : KeepsReg f s (s.winPutWord a v) := .of_regs rfl rfl

theorem keepsReg_event {f : Fld} (s : State) (c t i d e : Nat) : KeepsReg f s (s.event c t i d e) := .of_regs rfl rfl

section
variable {f : Fld} (hf : unposted f.key)
include hf

theorem unposted_ne {g : Fld} (hg : g.key ∈ [F.EVENTS_LOST.COUNT.key, F.TRACE_STATUS.QUEUE_DROPPED.key, F.TRACE_STATUS.WATCH_DROPPED.key,
    F.LOG_DROPPED.COUNT.key, F.HIST_STATUS.NORTH_HEAD.key, F.HIST_STATUS.NORTH_WRAPPED.key, F.HIST_STATUS.SOUTH_HEAD.key,
    F.HIST_STATUS.SOUTH_WRAPPED.key]) : f.key ≠ g.key := fun h => hf.2 (h ▸ hg)

theorem unposted_done (q : Nat) : f.key ≠ (F.QUEUE_STATE.DONE q).key := by
  have h := hf.1
  simp only [Fld.key, F.QUEUE_STATE.GIVE, F.QUEUE_STATE.DONE] at h ⊢
  omega

omit hf in
theorem keepsReg_classify (s : State) (u : Nat × Nat) (m attempt : Nat) : KeepsReg f s (s.classify u m attempt) := by
  unfold classify
  dsimp only
  split
  · exact .refl s
  · exact .of_regs rfl rfl

omit hf in
theorem keepsReg_classified (s : State) (r : PRec) : KeepsReg f s (s.classified r) := by
  unfold classified
  split
  · split
    · exact keepsReg_classify ..
    · exact .refl s
  · exact .refl s

theorem keepsReg_logWait (s : State) (h code entry : Nat) : KeepsReg f s (s.logWait h code entry) := by
  unfold logWait
  split
  · exact .nowF s (unposted_ne hf (by simp)) _
  · exact .of_regs rfl rfl

theorem keepsReg_logRecord (s : State) (u : Option (Nat × Nat)) (code entry : Nat) : KeepsReg f s (s.logRecord u code entry) := by
  unfold logRecord
  dsimp only
  split
  · exact .nowF s (unposted_ne hf (by simp)) _
  · exact keepsReg_logWait hf ..

theorem keepsReg_historyOnly (s : State) : KeepsReg f s s.historyOnly := by
  refine (KeepsReg.of_regs (t := { s with recs := [] }) rfl rfl).trans (.foldl (fun t r => ?_) s.recs _)
  rw [historyRecord_eq]
  split
  · exact (keepsReg_classified t r).trans (keepsReg_logRecord hf ..)
  · exact .refl t

theorem keepsReg_watchOut (s : State) (bs : List Byte) : KeepsReg f s (s.watchOut bs) := by
  unfold watchOut
  split
  · exact .nowF s (unposted_ne hf (by simp)) _
  · exact .of_regs rfl rfl

theorem keepsReg_mirror (s : State) (r : PRec) : KeepsReg f s (s.mirror r) := by
  unfold mirror
  split
  · exact (KeepsReg.of_regs rfl rfl).trans (keepsReg_watchOut hf ..)
  · exact .refl s

theorem keepsReg_deliver (s : State) (q : Nat) (r : PRec) : KeepsReg f s (s.deliver q r) := by
  unfold deliver
  dsimp only
  split
  · exact (KeepsReg.of_regs rfl rfl).trans (.nowF _ (unposted_done hf q) _)
  · split
    · exact (KeepsReg.of_regs rfl rfl).trans (.nowF _ (unposted_ne hf (by simp)) _)
    · exact (KeepsReg.of_regs rfl rfl).trans (.nowF _ (unposted_ne hf (by simp)) _)

theorem keepsReg_post (s : State) (r : PRec) : KeepsReg f s (s.post r) := by
  by_cases hfault : r.kind = 2
  · rw [post_fault s r hfault]
    exact (((keepsReg_classified s r).trans (keepsReg_logRecord hf ..)).trans (keepsReg_deliver hf ..)).trans (keepsReg_mirror hf ..)
  · unfold post
    rw [if_neg hfault]
    split
    · split
      · exact keepsReg_deliver hf ..
      · exact .nowF s (unposted_ne hf (by simp)) _
    · exact (keepsReg_deliver hf ..).trans (keepsReg_mirror hf ..)

theorem keepsReg_returnEntry (s : State) (q : Nat) (x : Finish) : KeepsReg f s (s.returnEntry q x) := by
  unfold returnEntry
  extract_lets a w0 t1 t2 t3 t4
  have h3 : KeepsReg f s t3 := ((keepsReg_winPutWord s _ _).trans (keepsReg_winPutWord t1 _ _)).trans (keepsReg_winPutWord t2 _ _)
  have h4 : KeepsReg f t3 t4 := by
    unfold t4
    split
    · exact .refl t3
    · exact .nowF t3 (unposted_done hf q) _
  clear_value t4
  split
  · exact h3.trans h4
  · exact (h3.trans h4).trans (keepsReg_event ..)

theorem keepsReg_returnAll (s : State) : KeepsReg f s s.returnAll := by
  refine .foldl (fun t q => ?_) _ s
  unfold returnQueue
  dsimp only
  split
  · exact .of_regs rfl rfl
  · exact (KeepsReg.of_regs rfl rfl).trans (.foldl (fun u x => keepsReg_returnEntry hf u q x) _ _)

theorem keepsReg_publish (s : State) : KeepsReg f s s.publish := by
  have hparcels (t : State) : KeepsReg f t t.settleParcels :=
    .of_regs (congrArg State.regs t.settleParcels_frame :) (congrArg State.base t.settleParcels_frame :)
  exact ((keepsReg_returnAll hf s).trans (hparcels _)).trans ((KeepsReg.of_regs rfl rfl).trans (.foldl (keepsReg_post hf) _ _))

theorem keepsReg_settle (s : State) : KeepsReg f s s.settle := by
  unfold settle
  split
  · split
    · exact keepsReg_publish hf s
    · exact keepsReg_historyOnly hf s
  · exact .refl s

theorem keepsReg_logPut (s : State) (half entry : Nat) : KeepsReg f s (s.logPut half entry) := by
  have hlogged (w : Nat) : KeepsReg f s (s.logged half w) := .of_regs rfl rfl
  have hhead (t : State) {g h : Fld} (hg : f.key ≠ g.key) (hh : f.key ≠ h.key) (full : Bool) (v : Nat) :
      KeepsReg f t (if full then (t.nowF g v).nowF h 1 else t.nowF g v) := by
    split
    · exact (KeepsReg.nowF t hg v).trans (.nowF _ hh 1)
    · exact .nowF t hg v
  unfold logPut
  dsimp only
  split
  · exact (hlogged _).trans (hhead _ (unposted_ne hf (by simp)) (unposted_ne hf (by simp)) _ _)
  · exact (hlogged _).trans (hhead _ (unposted_ne hf (by simp)) (unposted_ne hf (by simp)) _ _)

theorem keepsReg_finalLog (s : State) : KeepsReg f s s.finalLog :=
  (KeepsReg.of_regs (t := { s with hist := { s.hist with wait := [] } }) rfl rfl).trans
    (.foldl (fun t w => keepsReg_logPut hf t w.1 w.2.2) s.hist.wait _)

theorem keepsReg_finalWrite (s : State) : KeepsReg f s s.finalWrite := by
  unfold finalWrite
  split
  · exact .refl s
  · dsimp only
    split
    · exact (keepsReg_finalLog hf s).trans (.of_regs rfl rfl)
    · exact (keepsReg_finalLog hf s).trans (.of_regs rfl rfl)

end

theorem sameButHistory_logPut (s : State) (half entry : Nat) : s.SameButHistory (s.logPut half entry) := by
  unfold logPut
  dsimp only
  split
  · split
    · rfl
    · rfl
  · split
    · rfl
    · rfl

theorem sameButHistory_finalLog (s : State) : s.SameButHistory s.finalLog :=
  List.foldlRecOn (motive := fun t : State => s.SameButHistory t) _ _ rfl fun t h w _ => h.trans (sameButHistory_logPut t w.1 w.2.2)

/-- What the final log write changes: registers, the history, and what flash keeps of the count. -/
theorem finalWrite_frame (s : State) : { s.finalWrite with
    regs := s.regs, pub := s.pub, base := s.base, hist := s.hist,
    boot := { s.finalWrite.boot with orderly := s.boot.orderly, lastCount := s.boot.lastCount } } = s := by
  have hlog := (congrArg (fun v : State => { v with boot := { v.boot with orderly := s.boot.orderly, lastCount := s.boot.lastCount } })
    s.sameButHistory_finalLog :)
  unfold finalWrite
  split
  · rfl
  · dsimp only
    split
    · exact hlog
    · exact hlog

/-! ### Contents lost with a rail (R373) -/

theorem bootStop_frame (s : State) (code : Nat) : { s.bootStop code with regs := s.regs, base := s.base } = s ∧
    s.fieldsBut (s.bootStop code) [F.BOOT_STATUS.STATE, F.BOOT_STATUS.CODE] := by
  unfold bootStop
  split
  · refine ⟨rfl, fun f hf => ?_⟩
    rw [getF_keepF_other _ _ (hf _ (by simp)), getF_keepF_other _ _ (hf _ (by simp))]
  · exact ⟨rfl, fun _ _ => rfl⟩

/-- The rings of the enabled queues lost. -/
def loseRings (s : State) (rings : List Nat) : State := rings.foldl (fun s q =>
  let s := s.setQueue q QueueSt.zero
  let s := s.nowF (F.QUEUE_STATE.GIVE q) 0
  let s := s.nowF (F.QUEUE_STATE.DONE q) 0
  if q < 2 then s.nowF (F.MGMT_RING.ENTRIES q) 0 else { s with win := { s.win with off := NSet.insert s.win.off q } }) s

/-- The contents of the loam and of all that lives in it lost. -/
def loseContents (s : State) : State := { s with
  win := { s.win with
    bytes := [], badLines := [], toVoid := [], lost := true, flags := s.win.flags.map fun (x : Nat × BitVec 4) => (x.1, 3) }
  mem := { MemSt.zero with garbled := some (2 ^ 65), wipes := s.mem.wipes + 1 }
  plots := [], fab := FabricSt.zero, hv := HarvestSt.zero, sow := { s.sow with chans := [], digests := [] }
  ckpt := CkptSt.zero, dusk := none
  step := { s.step with phase := .idle, fault := none, staged := [], skip := [] }
  grid := { s.grid with changes := [] }
  regs := s.base.getD s.regs, base := none }

/-- The horizon lost, and every region out of power. -/
def loseHorizon (s : State) (regions : List Nat) : State :=
  let s := s.keepF F.DUSK_STATUS.RUNNING 0
  let s := s.keepF F.DUSK_STATUS.STAGE 0
  let s := s.nowF F.CKPT_STATUS.DRAINING 0
  regions.foldl (fun s n => s.powerRegion n false) (s.setStale.horizonLost none)

theorem loseLoam_eq (s : State) : s.loseLoam =
    ((s.loseRings ((0 :: 1 :: s.enabledQueues).filter fun q => s.qEntries q != 0)).loseContents).loseHorizon (List.range 256) := rfl

/-- The field reads `v`, and an abandonment would leave it so. -/
def Reads (s : State) (f : Fld) (v : Nat) : Prop := s.getF f = v ∧ ∀ b, s.base = some b → fldGet b f = v

theorem reads_keepF_same (s : State) (f : Fld) {v : Nat} (hv : v < 2 ^ f.width) : (s.keepF f v).Reads f v := by
  refine ⟨(getF_keepF_same ..).trans (Nat.mod_eq_of_lt hv), fun b hb => ?_⟩
  obtain ⟨a, -, rfl⟩ := Option.map_eq_some_iff.1 hb
  exact (fldGet_fldSet_same ..).trans (Nat.mod_eq_of_lt hv)

theorem Reads.of_keeps {s t : State} {f : Fld} {v : Nat} (h : s.Reads f v) (k : KeepsReg f s t) : t.Reads f v := by
  refine ⟨k.1.trans h.1, fun b hb => ?_⟩
  have hmap := k.2
  rw [hb] at hmap
  obtain ⟨a, ha, hab⟩ := Option.map_eq_some_iff.1 hmap.symm
  exact hab.symm.trans (h.2 a ha)

theorem Reads.loseContents {s : State} {f : Fld} {v : Nat} (h : s.Reads f v) : s.loseContents.Reads f v := by
  refine ⟨?_, fun b hb => absurd hb (by simp [State.loseContents])⟩
  cases hb : s.base with
  | none => simpa [State.loseContents, getF, hb] using h.1
  | some b => simpa [State.loseContents, getF, hb] using h.2 b hb

theorem loseRings_frame (rings : List Nat) (s : State) : { s.loseRings rings with
    regs := s.regs, pub := s.pub, base := s.base, queues := s.queues, win := s.win } = s := by
  refine List.foldlRecOn (motive := fun t : State => { t with
    regs := s.regs, pub := s.pub, base := s.base, queues := s.queues, win := s.win } = s) _ _ rfl fun t ht q _ => ?_
  dsimp only
  split
  · exact ht
  · exact ht

theorem keepsReg_loseRings {f : Fld} (hf : unposted f.key) (hring : ∀ q < 2, f.key ≠ (F.MGMT_RING.ENTRIES q).key) (rings : List Nat) (s : State) :
    KeepsReg f s (s.loseRings rings) := by
  refine .foldl (fun t q => ?_) rings s
  have hgive : f.key ≠ (F.QUEUE_STATE.GIVE q).key := by
    have h := hf.1
    simp only [Fld.key, F.QUEUE_STATE.GIVE] at h ⊢
    omega
  have hstate : KeepsReg f t (((t.setQueue q QueueSt.zero).nowF (F.QUEUE_STATE.GIVE q) 0).nowF (F.QUEUE_STATE.DONE q) 0) :=
    ((KeepsReg.of_regs rfl rfl).trans (.nowF _ hgive 0)).trans (.nowF _ (unposted_done hf q) 0)
  dsimp only
  split
  · next hq => exact hstate.trans (.nowF _ (hring q hq) 0)
  · exact hstate.trans (.of_regs rfl rfl)

theorem setStale_frame (s : State) : { s.setStale with regs := s.regs, base := s.base } = s ∧
    ∀ f : Fld, belowRegions f.key → s.setStale.getF f = s.getF f := by
  refine List.foldlRecOn
    (motive := fun t : State => { t with regs := s.regs, base := s.base } = s ∧ ∀ f : Fld, belowRegions f.key → t.getF f = s.getF f) _ _
    ⟨rfl, fun _ _ => rfl⟩ fun t ht l _ => ⟨ht.1, fun f hf => (getF_keepF_other _ _ ?_).trans (ht.2 f hf)⟩
  simp only [belowRegions, Fld.key, F.REGION_PSTAT.SWITCH, F.PAD_STATUS.STALE] at hf ⊢
  omega

theorem loseHorizon_frame (s : State) (regions : List Nat) :
    { s.loseHorizon regions with regs := s.regs, pub := s.pub, base := s.base,
                                 power := { (s.loseHorizon regions).power with wakes := s.power.wakes } } = s ∧
    (s.loseHorizon regions).getF F.MEM_STATUS.HORIZON_LOST = 1 ∧
    ∀ f : Fld, belowRegions f.key → f.key ∉ [F.DUSK_STATUS.RUNNING.key, F.DUSK_STATUS.STAGE.key, F.CKPT_STATUS.DRAINING.key,
      F.MEM_STATUS.HORIZON_LOST.key] → (s.loseHorizon regions).getF f = s.getF f := by
  obtain ⟨a, ha⟩ : ∃ a, a = ((s.keepF F.DUSK_STATUS.RUNNING 0).keepF F.DUSK_STATUS.STAGE 0).nowF F.CKPT_STATUS.DRAINING 0 := ⟨_, rfl⟩
  have has : { a with regs := s.regs, pub := s.pub, base := s.base, power := { a.power with wakes := s.power.wakes } } = s := by
    rw [ha]
    rfl
  obtain ⟨hstale, hstaleF⟩ := a.setStale_frame
  let b := a.setStale.keepF F.MEM_STATUS.HORIZON_LOST 1
  have hregions : b.RegionsOnly (regions.foldl (fun s n => s.powerRegion n false) b) :=
    List.foldlRecOn (motive := fun t => b.RegionsOnly t) _ _ (.refl b) fun t ht n _ => ht.trans (regionsOnly_powerRegion t n false)
  have heq : s.loseHorizon regions = regions.foldl (fun s n => s.powerRegion n false) b := by
    rw [loseHorizon, ← ha]
    rfl
  rw [heq]
  refine ⟨?_, (hregions.2.1 _ (by decide)).trans (getF_keepF_same ..), fun f hf hne => ?_⟩
  · exact (congrArg (fun v : State => { v with
      regs := s.regs, pub := s.pub, base := s.base, power := { v.power with wakes := s.power.wakes } }) hregions.1 :).trans
      ((congrArg (fun v : State => { v with
        regs := s.regs, pub := s.pub, base := s.base, power := { v.power with wakes := s.power.wakes } }) hstale :).trans has)
  · simp only [List.mem_cons, List.not_mem_nil, or_false, not_or] at hne
    obtain ⟨h1, h2, h3, h4⟩ := hne
    rw [hregions.2.1 f hf, getF_keepF_other _ _ h4, hstaleF f hf, ha, getF_nowF_other _ _ h3, getF_keepF_other _ _ h2, getF_keepF_other _ _ h1]

/-- What a feed fault leaves: no contents, no step, and the permit withdrawn (R373). -/
structure Dead (u : State) : Prop where
  permit : u.power.permit = false
  bytes : u.win.bytes = []
  lost : u.win.lost = true
  loam : u.mem.loam = []
  pad : u.mem.pad = []
  plots : u.plots = []
  phase : u.step.phase = .idle
  horizon : u.getF F.MEM_STATUS.HORIZON_LOST = 1
  withdrawn : u.power.withdrawn = true
  faultN : u.power.faultN = false
  dusk : u.dusk = none

/-- A register that a feed fault leaves as it is. -/
@[reducible] def outlasts (k : Nat) : Prop :=
  unposted k ∧ belowRegions k ∧ k ∉ [(F.MGMT_RING.ENTRIES 0).key, (F.MGMT_RING.ENTRIES 1).key, F.DUSK_STATUS.RUNNING.key,
    F.DUSK_STATUS.STAGE.key, F.CKPT_STATUS.DRAINING.key, F.MEM_STATUS.HORIZON_LOST.key, F.BOOT_STATUS.STATE.key, F.BOOT_STATUS.CODE.key]

theorem loseLoam_loses (s : State) : let u := s.loseLoam
    u.win.bytes = [] ∧ u.win.lost = true ∧ u.mem.loam = [] ∧ u.mem.pad = [] ∧ u.plots = [] ∧ u.step.phase = .idle ∧ u.dusk = none ∧
      u.getF F.MEM_STATUS.HORIZON_LOST = 1 ∧ { u.power with wakes := s.power.wakes } = s.power ∧
      ∀ f v, outlasts f.key → s.Reads f v → u.getF f = v := by
  rw [loseLoam_eq]
  obtain ⟨r, hr⟩ : ∃ r, r = s.loseRings ((0 :: 1 :: s.enabledQueues).filter fun q => s.qEntries q != 0) := ⟨_, rfl⟩
  have hpower : r.power = s.power := by
    rw [hr]
    exact (congrArg State.power (loseRings_frame ((0 :: 1 :: s.enabledQueues).filter fun q => s.qEntries q != 0) s) :)
  have hkeeps {f : Fld} (hf : outlasts f.key) : KeepsReg f s r := by
    obtain ⟨hpost, -, hne⟩ := hf
    rw [hr]
    refine keepsReg_loseRings hpost (fun q hq h => hne ?_) _ s
    obtain rfl | rfl : q = 0 ∨ q = 1 := by omega
    · simp [h]
    · simp [h]
  rw [← hr]
  obtain ⟨hframe, hlost, hF⟩ := r.loseContents.loseHorizon_frame (List.range 256)
  obtain ⟨u, hu⟩ : ∃ u, u = r.loseContents.loseHorizon (List.range 256) := ⟨_, rfl⟩
  rw [← hu] at hframe hlost hF ⊢
  refine ⟨(congrArg (fun t : State => t.win.bytes) hframe :), (congrArg (fun t : State => t.win.lost) hframe :),
    (congrArg (fun t : State => t.mem.loam) hframe :), (congrArg (fun t : State => t.mem.pad) hframe :), (congrArg State.plots hframe :),
    (congrArg (fun t : State => t.step.phase) hframe :), (congrArg State.dusk hframe :), hlost, ?_, fun f v hf hv => ?_⟩
  · have h : { u.power with wakes := r.power.wakes } = r.power := (congrArg State.power hframe :)
    rwa [hpower] at h
  · rw [hF f hf.2.1 fun h => hf.2.2 (by simp only [List.mem_cons, List.not_mem_nil, or_false] at h ⊢; tauto)]
    exact (hv.of_keeps (hkeeps hf)).loseContents.1

theorem faultRails_frame (s : State) (f : Fld) :
    KeepsReg f s s.faultRails ∧ s.faultRails.power.permit = false ∧ s.faultRails.power.withdrawn = true ∧ s.faultRails.power.faultN = false :=
  ⟨.of_regs rfl rfl, rfl, rfl, rfl⟩

/-- The records that a feed fault still posts, and the last entries of the log (R373). -/
def lastWords (s : State) : State := (if s.isReady then s.publish else s).finalWrite

theorem keepsReg_lastWords {f : Fld} (hf : unposted f.key) (s : State) : KeepsReg f s s.lastWords := by
  refine KeepsReg.trans ?_ (keepsReg_finalWrite hf _)
  split
  · exact keepsReg_publish hf s
  · exact .refl s

theorem feedFault_eq (s : State) (i : Nat) :
    s.feedFault i = (s.event 0x0062 srcModule 0 i).lastWords.faultRails.loseLoam.bootStop 0x14 := rfl

theorem feedFault_dead (s : State) (i : Nat) :
    Dead (s.feedFault i) ∧ ∀ f v, outlasts f.key → s.Reads f v → (s.feedFault i).getF f = v := by
  rw [feedFault_eq]
  obtain ⟨b, hb⟩ : ∃ b, b = (s.event 0x0062 srcModule 0 i).lastWords := ⟨_, rfl⟩
  have hkeeps {f : Fld} (hf : unposted f.key) : KeepsReg f s b.faultRails := by
    rw [hb]
    exact ((keepsReg_event s ..).trans (keepsReg_lastWords hf _)).trans (faultRails_frame _ f).1
  rw [← hb]
  obtain ⟨-, hpermit, hwith, hfault⟩ := b.faultRails_frame F.MEM_STATUS.HORIZON_LOST
  obtain ⟨c, hc⟩ : ∃ c, c = b.faultRails := ⟨_, rfl⟩
  rw [← hc] at hpermit hwith hfault
  obtain ⟨hbytes, hlost, hloam, hpad, hplots, hphase, hdusk, hhorizon, hpower, hreads⟩ := c.loseLoam_loses
  rw [← hc] at hkeeps ⊢
  obtain ⟨d, hd⟩ : ∃ d, d = c.loseLoam := ⟨_, rfl⟩
  rw [← hd] at hbytes hlost hloam hpad hplots hphase hdusk hhorizon hpower hreads ⊢
  obtain ⟨hframe, hF⟩ := d.bootStop_frame 0x14
  have hp : (d.bootStop 0x14).power = d.power := (congrArg State.power hframe :)
  refine ⟨⟨?_, ?_, ?_, ?_, ?_, ?_, ?_, (hF _ (by decide)).trans hhorizon, ?_, ?_, ?_⟩, fun f v hf hv => ?_⟩
  · rw [hp]
    exact (congrArg (·.permit) hpower :).trans hpermit
  · exact (congrArg (fun t : State => t.win.bytes) hframe :).trans hbytes
  · exact (congrArg (fun t : State => t.win.lost) hframe :).trans hlost
  · exact (congrArg (fun t : State => t.mem.loam) hframe :).trans hloam
  · exact (congrArg (fun t : State => t.mem.pad) hframe :).trans hpad
  · exact (congrArg State.plots hframe :).trans hplots
  · exact (congrArg (fun t : State => t.step.phase) hframe :).trans hphase
  · rw [hp]
    exact (congrArg (·.withdrawn) hpower :).trans hwith
  · rw [hp]
    exact (congrArg (·.faultN) hpower :).trans hfault
  · exact (congrArg State.dusk hframe :).trans hdusk
  · rw [hF f fun g hg h => hf.2.2 (by
      simp only [List.mem_cons, List.not_mem_nil, or_false] at hg
      obtain rfl | rfl := hg
      · simp [h]
      · simp [h])]
    exact hreads f v hf (hv.of_keeps (hkeeps hf.1))

/-- With the permit withdrawn and no dusk test, a loss of the meridian leaves the power as it is. -/
theorem lossStops_withdrawn (s : State) {t : State} (hdusk : t.dusk = none) (hwith : t.power.withdrawn = true) :
    (s.lossStops t).power = t.power := by
  have habort : s.lossAborts t = t := by simp [lossAborts, duskAbort, hdusk]
  have hrepeat : t.repeatPhase.power = t.power := by
    unfold repeatPhase
    split <;> rfl
  have hpermit (v : State) (h : v.power.withdrawn = true) : v.permitOk = false := by simp [permitOk, h]
  simp only [lossStops, habort]
  split
  · rw [advanceBoot, hpermit t.repeatPhase (by rw [hrepeat, hwith]), Bool.and_false]
    split
    · exact hrepeat
    · exact hrepeat
  · rfl

theorem Dead.lossStops (s : State) {t : State} (h : Dead t) : Dead (s.lossStops t) := by
  obtain ⟨hframe, hF⟩ := bootShown_lossStops s h.dusk
  have hp := s.lossStops_withdrawn h.dusk h.withdrawn
  exact ⟨by rw [hp, h.permit], (congrArg (fun t : State => t.win.bytes) hframe :).trans h.bytes,
    (congrArg (fun t : State => t.win.lost) hframe :).trans h.lost, (congrArg (fun t : State => t.mem.loam) hframe :).trans h.loam,
    (congrArg (fun t : State => t.mem.pad) hframe :).trans h.pad, (congrArg State.plots hframe :).trans h.plots,
    (congrArg (fun t : State => t.step.phase) hframe :).trans h.phase, (hF _ (by decide)).trans h.horizon, by rw [hp, h.withdrawn],
    by rw [hp, h.faultN], (congrArg State.dusk hframe :).trans h.dusk⟩

theorem loseTwinLanes_down (s : State) {ks : List Nat} (h : ks ≠ []) : (s.loseTwinLanes ks).getF F.TWIN_STATUS.LINK_UP = 0 := by
  obtain ⟨v, hv⟩ : ∃ v, v = ks.foldl (fun s k => s.leaveGate (512 + k)) s := ⟨_, rfl⟩
  let w : State := { v with twin := { v.twin with down := ks.foldl NSet.insert v.twin.down } }
  have hne : ks.foldl NSet.insert v.twin.down ≠ [] := by
    obtain ⟨ks, k, rfl⟩ := (List.eq_nil_or_concat' ks).resolve_left h
    rw [List.foldl_append]
    intro h
    exact Bool.false_ne_true ((congrArg (NSet.mem · k) h).symm.trans (NSet.mem_insert_self ..))
  have hup : w.twinLinkUp = false := by
    rw [twinLinkUp, Bool.and_eq_false_iff, List.isEmpty_eq_false_iff]
    exact .inl hne
  have heq : s.loseTwinLanes ks = w.showTwinLink := by rw [loseTwinLanes, ← hv]
  rw [heq, w.showTwinLink_shows.1, hup]
  rfl

theorem LinksOnly.mem_eq {s t : State} (h : s.LinksOnly t) : t.mem = s.mem := (congrArg State.mem h.1 :)

theorem loseLanes_down (s : State) : s.loseLanes.getF F.TWIN_STATUS.LINK_UP = 0 := loseTwinLanes_down _ (by decide)

theorem lossStops_locked (s : State) {t : State} (h : t.locked = s.locked) : s.lossStops t = t := by
  simp [lossStops, lossAborts, h]

theorem wait_logPut (s : State) (half entry : Nat) : (s.logPut half entry).hist.wait = s.hist.wait := by
  have hhead (t : State) (g h : Fld) (full : Bool) (v : Nat) :
      (if full then (t.nowF g v).nowF h 1 else t.nowF g v).hist.wait = t.hist.wait := by
    split
    · rfl
    · rfl
  unfold logPut
  dsimp only
  split
  · exact (hhead _ _ _ _ _).trans (logged_wait s half _)
  · exact (hhead _ _ _ _ _).trans (logged_wait s half _)

theorem wait_finalLog (s : State) : s.finalLog.hist.wait = [] :=
  List.foldlRecOn (motive := fun t : State => t.hist.wait = []) _ _ rfl fun t h w _ => (wait_logPut t w.1 w.2.2).trans h

theorem finalWrite_writes (s : State) (h : s.controllersGrant = true) : s.finalWrite.boot.orderly = true ∧ s.finalWrite.hist.wait = [] ∧
    (s.isReady = true ∨ s.boot.acquired.isSome = true → s.finalWrite.boot.lastCount = s.meridian) := by
  have hreg {f : Fld} (hf : unposted f.key) : s.finalLog.getF f = s.getF f := (keepsReg_finalLog hf s).1
  have hready : s.finalLog.isReady = s.isReady := congrArg (· == 3) (hreg (by decide))
  have hboot : s.finalLog.boot = s.boot := (congrArg State.boot s.sameButHistory_finalLog :)
  rw [finalWrite, if_neg (by rwa [controllersGrant, Bool.not_eq_true', ← Bool.not_eq_true] at h)]
  dsimp only
  split
  case isTrue => exact ⟨rfl, s.wait_finalLog, fun _ => hreg (by decide)⟩
  case isFalse hnot =>
    refine ⟨rfl, s.wait_finalLog, fun hor => absurd ?_ hnot⟩
    rw [Bool.or_eq_true]
    exact hor.imp hready.trans fun h => by rwa [hboot]

end State

open State in
/-- Settles O46: rails that fail, the feed, and the warning of the bed (R369, R371-R374, R386). -/
theorem railFaults : Obligations.RailFaults := by
  intro s dead
  have hdead {u : State} (h : Dead u) : dead u := ⟨h.permit, h.bytes, h.lost, h.loam, h.pad, h.plots, h.phase, h.horizon⟩
  refine ⟨fun i hin => ?_, fun hobs => ?_, fun i hobs hlo hhi hrisen hout hfault => ?_, fun cause hcause hpermit => ?_,
    fun hboot hpermit hrisen => ?_, fun hobs hwarn hgrant => ?_⟩
  · have hrail (h : i.toNat < 5) : exec (.railFault i) s = .next (s.after (s.lossStops (s.railFault i.toNat))) :=
      (answerIf_true _ _ (decide_eq_true (by omega))).trans (congrArg s.answer (if_neg (show ¬ i.toNat = 5 by omega)))
    have htol : s.inTol i.toNat = true := beq_iff_eq.2 hin
    have hfails : s.railFault i.toNat = if i.toNat < 2 then (s.setTol i.toNat false).feedFault i.toNat
      else if i.toNat < 4 then (s.setTol i.toNat false).railLanes else (s.setTol i.toNat false).clocksStop := if_pos htol
    refine ⟨fun hlt => ?_, fun hlanes => ?_, fun h4 => ?_⟩
    · obtain ⟨hd, hreads⟩ := (s.setTol i.toNat false).feedFault_dead i.toNat
      refine does_of_eq (hrail (by omega)) (congrArg s.lossStops (hfails.trans (if_pos hlt))) ⟨hdead (hd.lossStops s), (hd.lossStops s).faultN, ?_⟩
      have hkey : outlasts (F.RAIL_MON.IN_TOL i.toNat).key := by
        obtain h | h : i.toNat = 0 ∨ i.toNat = 1 := by omega
        · rw [h]
          decide
        · rw [h]
          decide
      rw [(bootShown_lossStops s hd.dusk).2 _ fun g hg => ?_]
      · exact hreads _ _ hkey (reads_keepF_same s _ (show b2n false < 2 ^ 1 by decide))
      · simp only [List.mem_cons, List.not_mem_nil, or_false] at hg
        obtain rfl | rfl | rfl := hg
        · simp only [Fld.key, F.RAIL_MON.IN_TOL, F.BOOT_STATUS.PHASE]
          omega
        · simp only [Fld.key, F.RAIL_MON.IN_TOL, F.BOOT_STATUS.STATE]
          omega
        · simp only [Fld.key, F.RAIL_MON.IN_TOL, F.BOOT_STATUS.CODE]
          omega
    · have hlinks := linksOnly_loseLanes (s.setTol i.toNat false)
      refine does_of_eq (hrail (by omega)) ((congrArg s.lossStops (hfails.trans ((if_neg (by omega)).trans (if_pos (by omega))))).trans
        (lossStops_locked s ?_)) ⟨?_, ?_, ?_⟩
      · refine congrArg (· == 1) ((hlinks.2 _ ?_).trans (getF_keepF_other _ _ ?_))
        · unfold linkKey
          decide
        · simp only [Fld.key, F.RAIL_MON.IN_TOL, F.MERIDIAN_STATUS.LOCKED]
          omega
      · refine (hlinks.2 _ ?_).trans (getF_keepF_same ..)
        simp only [linkKey, Fld.key, F.RAIL_MON.IN_TOL, F.LANE_STATUS.LOCKED, F.SOW_STATUS.CHAN_UP, F.TWIN_STATUS.LINK_UP,
          F.TWIN_LOCK_STATUS.LOCKED]
        omega
      · exact loseLanes_down _
      · exact hlinks.mem_eq
    · have heq : s.railFault i.toNat = (s.keepF (F.RAIL_MON.IN_TOL 4) 0).referenceTimeout := by
        rw [hfails, h4]
        rfl
      exact does_of_eq (hrail (by omega)) (congrArg s.lossStops heq) rfl
  · exact does_of_eq ((answerIf_true _ _ rfl).trans (congrArg s.answer (if_pos rfl))) (if_pos hobs) rfl
  · have hlimit : s.railLimit i.toNat = s.feedFault i.toNat :=
      if_pos (by simp only [hobs, decide_eq_true hlo, decide_eq_true hhi, hrisen, hfault, inTol, hout]; rfl)
    have hd := (s.feedFault_dead i.toNat).1
    exact does_of_eq rfl hlimit ⟨hdead hd, hd.faultN⟩
  · have hexec := answerIf_true s (s.feedWithdrawn cause.toNat) (decide_eq_true hcause)
    have heq : s.feedWithdrawn cause.toNat = if (s.event 0x0061 srcModule 0 cause.toNat).inTol 0 then
      ((s.event 0x0061 srcModule 0 cause.toNat).setTol 0 false).feedFault 0
      else (s.event 0x0061 srcModule 0 cause.toNat).dropPermit.bootStop 0x14 := if_pos hpermit
    obtain ⟨e, he⟩ : ∃ e, e = s.event 0x0061 srcModule 0 cause.toNat := ⟨_, rfl⟩
    have htol : e.inTol 0 = s.inTol 0 := by
      rw [he]
      exact congrArg (· == 1) (getF_event ..)
    rw [← he] at heq
    by_cases h : s.inTol 0 = true
    · obtain ⟨hd, hreads⟩ := (e.setTol 0 false).feedFault_dead 0
      exact does_of_eq hexec (heq.trans (if_pos (htol.trans h))) ⟨hd.permit, hd.withdrawn, fun _ =>
        ⟨hdead hd, hreads _ _ (by decide) (reads_keepF_same e _ (by decide))⟩⟩
    · have hpower : (e.dropPermit.bootStop 0x14).power = e.dropPermit.power := (congrArg State.power (bootStop_frame e.dropPermit 0x14).1 :)
      exact does_of_eq hexec (heq.trans (if_neg (by rwa [htol]))) ⟨by rw [hpower]; rfl, by rw [hpower]; rfl, fun h' => absurd h' h⟩
  · have heq : s.feedTimeout = (s.event 0x0061 srcModule 0 4).faultRails.bootStop 0x11 :=
      if_pos (by rw [hboot, hpermit, hrisen]; rfl)
    have hbooting : (s.event 0x0061 srcModule 0 4).faultRails.booting = true := hboot
    obtain ⟨hpermit', -, hfault⟩ := ((s.event 0x0061 srcModule 0 4).faultRails_frame F.BOOT_STATUS.STATE).2
    have hrecs : ∃ x, (s.event 0x0061 srcModule 0 4).faultRails.recs = s.recs ++ [x] ∧ x.code = 0x0061 ∧ x.d4 = 4 := ⟨_, rfl, rfl, rfl⟩
    obtain ⟨c, hc⟩ : ∃ c, c = (s.event 0x0061 srcModule 0 4).faultRails := ⟨_, rfl⟩
    rw [← hc] at heq hbooting hpermit' hfault hrecs
    obtain ⟨hframe, hstate, hcode⟩ := bootStop_stops hbooting 0x11
    have hpower : (c.bootStop 0x11).power = c.power := (congrArg State.power hframe :)
    have hsame : (c.bootStop 0x11).recs = c.recs := (congrArg State.recs hframe :)
    exact does_of_eq rfl heq ⟨by rw [hpower, hpermit'], by rw [hpower, hfault], hstate, hcode, by rwa [hsame]⟩
  · obtain ⟨e, he⟩ : ∃ e : State, e = { s with power := { s.power with bedWarnN := false } }.event 0x0063 srcModule 0 s.meridian := ⟨_, rfl⟩
    have hsame : e.regs = s.regs ∧ e.boot = s.boot ∧ e.power.bedWarnN = false := by
      rw [he]
      exact ⟨rfl, rfl, rfl⟩
    obtain ⟨hregs, hboot, hn⟩ := hsame
    have heq : s.bedWarn = e.settle.finalWrite := by
      rw [he]
      exact if_pos (by rw [hobs, hwarn]; rfl)
    have hkept {f : Fld} (hf : unposted f.key) : e.settle.getF f = s.getF f := (keepsReg_settle hf e).1.trans (getF_congr hregs f)
    have hgrant' : e.settle.controllersGrant = true := by
      rw [controllersGrant] at hgrant ⊢
      simp only [controllerLost] at hgrant ⊢
      rwa [hkept (by decide), hkept (by decide)]
    have hsettled := e.sameButPublished_settle
    have hboot' : e.settle.boot = s.boot := (congrArg State.boot hsettled :).trans hboot
    obtain ⟨horderly, hwait, hcount⟩ := e.settle.finalWrite_writes hgrant'
    have hpower : e.settle.finalWrite.power = e.settle.power := (congrArg State.power e.settle.finalWrite_frame :)
    have hpower' : e.settle.power = e.power := (congrArg State.power hsettled :)
    refine does_of_eq rfl heq ⟨by rw [hpower, hpower', hn], horderly, hwait, fun h => ?_⟩
    exact (hcount (h.imp (congrArg (· == 3) (hkept (by decide))).trans fun h => by rwa [hboot'])).trans (hkept (by decide))

end Sys2Proof.Machine

namespace Sys2Proof.Machine
namespace State

/-! ### Regions that go dark (R55, R378, R381) -/

/-- What darkening a region leaves, and what it sets for good. -/
structure DarkensFrom (s t : State) : Prop where
  recs : ∃ more, t.recs = s.recs ++ more
  win : t.win = s.win
  mem : t.mem = s.mem
  step : t.step = s.step
  phases : ∀ n < 256, t.getF (F.REGION_PSTAT.PHASES n) = s.getF (F.REGION_PSTAT.PHASES n)
  cap : ∀ n < 256, t.getF (F.REGION_PSTAT.CAP n) = s.getF (F.REGION_PSTAT.CAP n)
  off : ∀ n < 256, s.getF (F.REGION_PSTAT.SWITCH n) = 0 → t.getF (F.REGION_PSTAT.SWITCH n) = 0
  latch : ∀ n < 256, s.getF (F.REGION_PSTAT.DARK_LATCH n) = 1 → t.getF (F.REGION_PSTAT.DARK_LATCH n) = 1
  degraded : s.getF F.REPAIR_STATUS.DEGRADED = 1 → t.getF F.REPAIR_STATUS.DEGRADED = 1

namespace DarkensFrom
variable {s t u : State}

theorem trans (h : s.DarkensFrom t) (k : t.DarkensFrom u) : s.DarkensFrom u where
  recs := by
    obtain ⟨xs, hx⟩ := h.recs
    obtain ⟨ys, hy⟩ := k.recs
    exact ⟨xs ++ ys, by rw [hy, hx, List.append_assoc]⟩
  win := k.win.trans h.win
  mem := k.mem.trans h.mem
  step := k.step.trans h.step
  phases n hn := (k.phases n hn).trans (h.phases n hn)
  cap n hn := (k.cap n hn).trans (h.cap n hn)
  off n hn := k.off n hn ∘ h.off n hn
  latch n hn := k.latch n hn ∘ h.latch n hn
  degraded := k.degraded ∘ h.degraded

/-- States whose records, window, memory, step and registers are the same. -/
theorem of_same (hrecs : t.recs = s.recs) (hwin : t.win = s.win) (hmem : t.mem = s.mem) (hstep : t.step = s.step)
    (hregs : ∀ f : Fld, f.key = F.REPAIR_STATUS.DEGRADED.key ∨ (∃ n < 256, f.key = (F.REGION_PSTAT.PHASES n).key ∨
      f.key = (F.REGION_PSTAT.CAP n).key ∨ f.key = (F.REGION_PSTAT.SWITCH n).key ∨ f.key = (F.REGION_PSTAT.DARK_LATCH n).key) →
      t.getF f = s.getF f) : s.DarkensFrom t where
  recs := ⟨[], by rw [hrecs, List.append_nil]⟩
  win := hwin
  mem := hmem
  step := hstep
  phases n hn := hregs _ (.inr ⟨n, hn, .inl rfl⟩)
  cap n hn := hregs _ (.inr ⟨n, hn, .inr (.inl rfl)⟩)
  off n hn h := (hregs _ (.inr ⟨n, hn, .inr (.inr (.inl rfl))⟩)).trans h
  latch n hn h := (hregs _ (.inr ⟨n, hn, .inr (.inr (.inr rfl))⟩)).trans h
  degraded h := (hregs _ (.inl rfl)).trans h

theorem refl (s : State) : s.DarkensFrom s := of_same rfl rfl rfl rfl fun _ _ => rfl

end DarkensFrom

theorem darkensFrom_nowF (s : State) {g : Fld} (v : Nat) (hg : ∀ n < 256, g.key ≠ F.REPAIR_STATUS.DEGRADED.key ∧
    g.key ≠ (F.REGION_PSTAT.PHASES n).key ∧ g.key ≠ (F.REGION_PSTAT.CAP n).key ∧ g.key ≠ (F.REGION_PSTAT.SWITCH n).key ∧
    g.key ≠ (F.REGION_PSTAT.DARK_LATCH n).key) : s.DarkensFrom (s.nowF g v) := by
  refine .of_same rfl rfl rfl rfl fun f hf => getF_nowF_other _ _ ?_
  obtain h | ⟨n, hn, h | h | h | h⟩ := hf
  · exact fun e => (hg 0 (by decide)).1 (e.symm.trans h)
  · exact fun e => (hg n hn).2.1 (e.symm.trans h)
  · exact fun e => (hg n hn).2.2.1 (e.symm.trans h)
  · exact fun e => (hg n hn).2.2.2.1 (e.symm.trans h)
  · exact fun e => (hg n hn).2.2.2.2 (e.symm.trans h)

theorem darkensFrom_writeStates (s : State) (k w : Nat) : s.DarkensFrom (s.writeStates k w) := by
  unfold writeStates
  refine ((darkensFrom_nowF _ _ fun n hn => ?_).trans (darkensFrom_nowF _ _ fun n hn => ?_)).trans (darkensFrom_nowF _ _ fun n hn => ?_)
  all_goals
    simp only [Fld.key, F.REPAIR_STATUS.DEGRADED, F.REGION_PSTAT.PHASES, F.REGION_PSTAT.CAP, F.REGION_PSTAT.SWITCH,
      F.REGION_PSTAT.DARK_LATCH, F.ROW_MAP.SITE_STATE, F.ROW_MAP.SPARE_COUNT, F.REPAIR_STATUS.ROWS_NO_SPARE]
    omega

theorem darkensFrom_setSite (s : State) (p st : Nat) : s.DarkensFrom (s.setSite p st) := by
  unfold setSite
  dsimp only
  split
  · exact .of_same rfl rfl rfl rfl fun _ _ => rfl
  · exact darkensFrom_writeStates ..

theorem darkensFrom_latch (s : State) (n : Nat) : s.DarkensFrom (s.keepF (F.REGION_PSTAT.DARK_LATCH n) 1) := by
  have hkeep (f : Fld) (h : f.key ≠ (F.REGION_PSTAT.DARK_LATCH n).key) :
      (s.keepF (F.REGION_PSTAT.DARK_LATCH n) 1).getF f = s.getF f := getF_keepF_other _ _ h
  refine ⟨⟨[], (List.append_nil _).symm⟩, rfl, rfl, rfl, fun m _ => hkeep _ ?_, fun m _ => hkeep _ ?_, fun m _ h => (hkeep _ ?_).trans h,
    fun m _ h => ?_, fun h => (hkeep _ ?_).trans h⟩
  case refine_4 =>
    by_cases hm : m = n
    · subst hm
      exact getF_keepF_same ..
    · exact (hkeep _ (by simp only [Fld.key, F.REGION_PSTAT.DARK_LATCH]; omega)).trans h
  all_goals
    simp only [Fld.key, F.REPAIR_STATUS.DEGRADED, F.REGION_PSTAT.PHASES, F.REGION_PSTAT.CAP, F.REGION_PSTAT.SWITCH, F.REGION_PSTAT.DARK_LATCH]
    omega

theorem powerRegion_caps (s : State) (n : Nat) (on : Bool) {m : Nat} {f : Fld}
    (hf : f = F.REGION_PSTAT.PHASES m ∨ f = F.REGION_PSTAT.CAP m) : (s.powerRegion n on).getF f = s.getF f := by
  have hkeep (t : State) {g : Fld} (v : Nat) (hg : f.key ≠ g.key) : (t.keepF g v).getF f = t.getF f := getF_keepF_other _ _ hg
  have hwakes (t : State) : { t with power := { t.power with wakes := SMap.drop t.power.wakes n } }.getF f = t.getF f := rfl
  rw [powerRegion]
  refine List.foldlRecOn (motive := fun t : State => t.getF f = s.getF f) _ _ ?_ fun t ht i _ => ?_
  · refine (hkeep _ _ ?_).trans ((hwakes _).trans ((hkeep _ _ ?_).trans (hkeep _ _ ?_)))
    all_goals
      obtain rfl | rfl := hf
      all_goals
        simp only [Fld.key, F.REGION_PSTAT.PHASES, F.REGION_PSTAT.CAP, F.REGION_PSTAT.SWITCH, F.REGION_PSTAT.AWAKE, F.REGION_PSTAT.WAKING]
        omega
  · refine (hkeep _ _ ?_).trans ht
    obtain rfl | rfl := hf
    all_goals
      simp only [Fld.key, F.REGION_PSTAT.PHASES, F.REGION_PSTAT.CAP, F.LOAM_STATUS.POWERED]
      omega

theorem darkensFrom_powerOff (s : State) (n : Nat) : s.DarkensFrom (s.powerRegion n false) := by
  obtain ⟨hframe, hbelow, hlatch⟩ := s.regionsOnly_powerRegion n false
  have hcaps {m : Nat} {f : Fld} := s.powerRegion_caps n false (m := m) (f := f)
  have hswitch {m : Nat} (hm : m < 256) := s.switch_powerRegion n false hm
  generalize s.powerRegion n false = t at *
  refine ⟨⟨[], ?_⟩, (congrArg State.win hframe :), (congrArg State.mem hframe :), (congrArg State.step hframe :),
    fun m _ => hcaps (.inl rfl), fun m _ => hcaps (.inr rfl), fun m hm h => ?_,
    fun m hm h => (hlatch m hm).trans h, fun h => (hbelow _ (by decide)).trans h⟩
  · exact (congrArg State.recs hframe :).trans (List.append_nil _).symm
  · rw [hswitch hm, h]
    split
    · rfl
    · rfl

theorem degrade_degrades (s : State) (row : Nat) : s.DarkensFrom (s.degrade row) ∧ (s.degrade row).getF F.REPAIR_STATUS.DEGRADED = 1 := by
  unfold degrade
  split
  case isTrue h => exact ⟨.refl s, h⟩
  case isFalse h =>
    have hkeep (f : Fld) (h : f.key ≠ F.REPAIR_STATUS.DEGRADED.key) :
        ((s.keepF F.REPAIR_STATUS.DEGRADED 1).event 0x0003 srcModule 0 row).getF f = s.getF f :=
      (getF_event ..).trans (getF_keepF_other _ _ h)
    have hset : ((s.keepF F.REPAIR_STATUS.DEGRADED 1).event 0x0003 srcModule 0 row).getF F.REPAIR_STATUS.DEGRADED = 1 :=
      (getF_event ..).trans (getF_keepF_same ..)
    refine ⟨⟨⟨_, rfl⟩, rfl, rfl, rfl, fun m _ => hkeep _ ?_, fun m _ => hkeep _ ?_, fun m _ => (hkeep _ ?_).trans, fun m _ => (hkeep _ ?_).trans,
      fun _ => hset⟩, hset⟩
    all_goals
      simp only [Fld.key, F.REPAIR_STATUS.DEGRADED, F.REGION_PSTAT.PHASES, F.REGION_PSTAT.CAP, F.REGION_PSTAT.SWITCH, F.REGION_PSTAT.DARK_LATCH]
      omega

/-- The region is switched off, its latch and DEGRADED set (R55). -/
def isDark (s : State) (n : Nat) : Prop := s.getF (F.REGION_PSTAT.SWITCH n) = 0 ∧ s.getF (F.REGION_PSTAT.DARK_LATCH n) = 1 ∧
  s.getF F.REPAIR_STATUS.DEGRADED = 1

theorem DarkensFrom.isDark {s t : State} (h : s.DarkensFrom t) {n : Nat} (hn : n < 256) (hd : s.isDark n) : t.isDark n :=
  ⟨h.off n hn hd.1, h.latch n hn hd.2.1, h.degraded hd.2.2⟩

theorem goDark_darkens (s : State) (n : Nat) : s.DarkensFrom (s.goDark n) ∧ (n < 256 → (s.goDark n).isDark n) := by
  obtain ⟨l, hl⟩ : ∃ l, l = (s.powerRegion n false).keepF (F.REGION_PSTAT.DARK_LATCH n) 1 := ⟨_, rfl⟩
  have hlatch : (s.powerRegion n false).DarkensFrom l := by
    rw [hl]
    exact darkensFrom_latch ..
  have hoff := s.switch_powerRegion n false (m := n)
  have hset : l.getF (F.REGION_PSTAT.DARK_LATCH n) = 1 := by
    rw [hl]
    exact getF_keepF_same ..
  obtain ⟨d, hd⟩ : ∃ d, d = (List.range 20).foldl (fun s i => s.setSite (20 * n + i) 3) l := ⟨_, rfl⟩
  have hsites : l.DarkensFrom d := by
    rw [hd]
    exact List.foldlRecOn (motive := fun t => l.DarkensFrom t) _ _ (.refl l) fun t ht i _ => ht.trans (darkensFrom_setSite ..)
  obtain ⟨hdegrade, hone⟩ := d.degrade_degrades (2 * n)
  have heq : s.goDark n = d.degrade (2 * n) := by rw [goDark, ← hl, ← hd]
  rw [heq]
  refine ⟨(((darkensFrom_powerOff s n).trans hlatch).trans hsites).trans hdegrade, fun hn =>
    ⟨(hlatch.trans (hsites.trans hdegrade)).off n hn ?_, (hsites.trans hdegrade).latch n hn hset, hone⟩⟩
  rw [hoff hn, if_pos rfl]
  rfl

theorem darkenDoomed_darkens (s : State) : s.DarkensFrom s.darkenDoomed ∧
    ∀ n < 256, NSet.mem s.power.doomed n = true → s.darkenDoomed.isDark n := by
  have hfold (ns : List Nat) : ∀ t : State, t.DarkensFrom (ns.foldl goDark t) ∧ ∀ n < 256, n ∈ ns → (ns.foldl goDark t).isDark n := by
    induction ns with
    | nil => exact fun t => ⟨.refl t, fun n _ h => absurd h List.not_mem_nil⟩
    | cons m ns ih =>
      intro t
      obtain ⟨hm, hdark⟩ := t.goDark_darkens m
      rw [List.foldl_cons]
      obtain ⟨hns, hrest⟩ := ih (t.goDark m)
      refine ⟨hm.trans hns, fun n hn hmem => ?_⟩
      obtain rfl | hmem := List.mem_cons.1 hmem
      · exact hns.isDark hn (hdark hn)
      · exact hrest n hn hmem
  obtain ⟨t, ht⟩ : ∃ t : State, t = { s with power := { s.power with doomed := [] } } := ⟨_, rfl⟩
  have hst : s.DarkensFrom t := by
    rw [ht]
    exact .of_same rfl rfl rfl rfl fun _ _ => rfl
  obtain ⟨hfrom, hdark⟩ := hfold s.power.doomed.toList t
  rw [darkenDoomed, ← ht]
  refine ⟨hst.trans hfrom, fun n hn hmem => hdark n hn ?_⟩
  obtain ⟨v, hv⟩ := Option.isSome_iff_exists.1 hmem
  exact List.mem_map.2 ⟨_, SMap.mem_of_find? hv, rfl⟩

/-! ### Regulator phases and shorts (R378, R381) -/

theorem inAttempt_idle {s : State} (h : s.step.phase = .idle) : s.inAttempt = false := by simp [inAttempt, h]

theorem abandonIfNoBoundary_idle {s : State} (h : s.step.phase = .idle) : s.abandonIfNoBoundary = s := by
  simp [abandonIfNoBoundary, abandonAtOnce, running, inAttempt_idle h, h]

theorem stopSubst_idle {s : State} (h : s.step.phase = .idle) : s.stopSubst = s := by simp [stopSubst, h]

theorem raise_idle {s : State} (h : s.step.phase = .idle) (a : FaultArgs) : s.raise a = { s with recs := s.recs ++ [s.faultRecord a] } := by
  rw [raise_eq, faultStep_outside (inAttempt_idle h)]

theorem showPhases_shows (s : State) (n : Nat) : let left := 8 - popCount 8 (SMap.get 0 s.power.phaseOff n)
    { s.showPhases n with regs := s.regs, base := s.base } = s ∧ (s.showPhases n).getF (F.REGION_PSTAT.PHASES n) = left ∧
      (s.showPhases n).getF (F.REGION_PSTAT.CAP n) = capOf left := by
  dsimp only
  obtain ⟨left, hleft⟩ : ∃ left, left = 8 - popCount 8 (SMap.get 0 s.power.phaseOff n) := ⟨_, rfl⟩
  have hcap : capOf left < 2 ^ 8 := by
    unfold capOf
    split
    · decide
    · split
      · decide
      · decide
  rw [showPhases, ← hleft]
  refine ⟨rfl, ?_, (getF_keepF_same ..).trans (Nat.mod_eq_of_lt hcap)⟩
  rw [getF_keepF_other _ _ (by simp only [Fld.key, F.REGION_PSTAT.PHASES, F.REGION_PSTAT.CAP]; omega), getF_keepF_same]
  exact Nat.mod_eq_of_lt (show left < 2 ^ 4 by omega)

/-- The state that a lost phase shows, before its record (R378). -/
def losePhase (s : State) (n phase : Nat) : State :=
  let off := SMap.set 0 s.power.phaseOff n (setBits (SMap.get 0 s.power.phaseOff n) phase 1 1)
  { s with power := { s.power with phaseOff := off } }.showPhases n

/-- The fault that a lost phase raises (R378). -/
def phaseFault (s : State) (n phase cause : Nat) : FaultArgs := {
  code := 0x0505, srcType := srcRegion, srcId := n, detail := phase + cause * 16 + s.getF (F.REGION_PSTAT.PHASES n) * 256
  unit := some (unitRegion, n)
  abandons := s.inAttempt &&
    (if s.getF (F.REGION_PSTAT.PHASES n) = 6 then decide (1760 < s.demandFrom s.step.program n 0)
     else decide (s.getF (F.REGION_PSTAT.PHASES n) ≤ 5) &&
      decide (320 * s.getF (F.REGION_PSTAT.PHASES n) < s.demandFrom s.step.program n (s.step.granted - 1))) }

/-- The region is to go dark once no attempt runs (R378). -/
def doom (s : State) (n : Nat) : State := { s with power := { s.power with doomed := NSet.insert s.power.doomed n } }

theorem phaseLoss_eq {s : State} {n phase : Nat} (hobs : s.boot.obs.isSome = true) (hon : s.getF (F.REGION_PSTAT.SWITCH n) ≠ 0)
    (hphase : bitOf (SMap.get 0 s.power.phaseOff n) phase = false) (cause : Nat) : s.phaseLoss n phase cause =
      let v := s.losePhase n phase
      let r := v.raise (v.phaseFault n phase cause)
      if v.getF (F.REGION_PSTAT.PHASES n) ≤ 5 then
        if (r.doom n).inAttempt then (r.doom n).abandonIfNoBoundary else (r.doom n).stopSubst.darkenDoomed
      else r.abandonIfNoBoundary :=
  if_neg (by simp [hon, hphase, Option.isNone_eq_false_iff.2 hobs])

theorem losePhase_shows (s : State) (n phase : Nat) : let left := 8 - popCount 8 (setBits (SMap.get 0 s.power.phaseOff n) phase 1 1)
    (s.losePhase n phase).step = s.step ∧ (s.losePhase n phase).recs = s.recs ∧
      (s.losePhase n phase).getF (F.REGION_PSTAT.PHASES n) = left ∧ (s.losePhase n phase).getF (F.REGION_PSTAT.CAP n) = capOf left := by
  obtain ⟨off, hoff⟩ : ∃ off, off = SMap.set 0 s.power.phaseOff n (setBits (SMap.get 0 s.power.phaseOff n) phase 1 1) := ⟨_, rfl⟩
  obtain ⟨hframe, hleft, hcap⟩ := { s with power := { s.power with phaseOff := off } }.showPhases_shows n
  have hget : SMap.get 0 off n = setBits (SMap.get 0 s.power.phaseOff n) phase 1 1 := by
    rw [hoff]
    exact SMap.get_set_same ..
  rw [hget] at hleft hcap
  rw [losePhase, ← hoff]
  exact ⟨(congrArg State.step hframe :), (congrArg State.recs hframe :), hleft, hcap⟩

theorem phaseLoss_darkens {s : State} {n phase : Nat} (hobs : s.boot.obs.isSome = true) (hon : s.getF (F.REGION_PSTAT.SWITCH n) ≠ 0)
    (hphase : bitOf (SMap.get 0 s.power.phaseOff n) phase = false) (hidle : s.step.phase = .idle) (cause : Nat) :
    let v := s.losePhase n phase
    DarkensFrom { v with recs := s.recs ++ [v.faultRecord (v.phaseFault n phase cause)] } (s.phaseLoss n phase cause) ∧
      (v.getF (F.REGION_PSTAT.PHASES n) ≤ 5 → n < 256 → (s.phaseLoss n phase cause).isDark n) := by
  rw [phaseLoss_eq hobs hon hphase]
  obtain ⟨hstep, hrecs, -, -⟩ := s.losePhase_shows n phase
  dsimp only
  generalize s.losePhase n phase = v at *
  have hv : v.step.phase = .idle := by rw [hstep, hidle]
  rw [raise_idle hv, hrecs]
  obtain ⟨r, hr⟩ : ∃ r : State, r = { v with recs := s.recs ++ [v.faultRecord (v.phaseFault n phase cause)] } := ⟨_, rfl⟩
  have hridle : r.step.phase = .idle := by rw [hr, hv]
  rw [← hr]
  have hdoom : r.DarkensFrom (r.doom n) := .of_same rfl rfl rfl rfl fun _ _ => rfl
  have hdidle : (r.doom n).step.phase = .idle := hridle
  by_cases hle : v.getF (F.REGION_PSTAT.PHASES n) ≤ 5
  · obtain ⟨hdarkens, hdark⟩ := (r.doom n).darkenDoomed_darkens
    rw [if_pos hle, if_neg (by simp [inAttempt_idle hdidle]), stopSubst_idle hdidle]
    exact ⟨hdoom.trans hdarkens, fun _ hn => hdark n hn (NSet.mem_insert_self ..)⟩
  · rw [if_neg hle, abandonIfNoBoundary_idle hridle]
    exact ⟨.refl r, fun h => absurd h hle⟩

/-- The fault that a short raises (R381). -/
def shortFault (n peak ns : Nat) : FaultArgs := {
  code := 0x0504, srcType := srcRegion, srcId := n, detail := peak + ns * 2 ^ 16, unit := some (unitRegion, n), fenced := true, degraded := true }

theorem loseRegionLoam_step (s : State) (n : Nat) : (s.loseRegionLoam n).step = s.step := rfl

theorem regionShort_darkens {s : State} {n peak ns : Nat} (hon : s.getF (F.REGION_PSTAT.SWITCH n) = 1) (hpeak : 250 < peak) (hns : 200 < ns)
    (hidle : s.step.phase = .idle) : ∃ d : State,
      DarkensFrom { s with recs := s.recs ++ [s.faultRecord (shortFault n peak ns)] } d ∧ (n < 256 → d.isDark n) ∧
      s.regionShort n peak ns = d.loseRegionLoam n := by
  have heq : s.regionShort n peak ns = (((s.raise (shortFault n peak ns)).stopSubst.goDark n).loseRegionLoam n).abandonIfNoBoundary :=
    if_pos ⟨hon, hpeak, hns⟩
  rw [raise_idle hidle] at heq
  obtain ⟨r, hr⟩ : ∃ r : State, r = { s with recs := s.recs ++ [s.faultRecord (shortFault n peak ns)] } := ⟨_, rfl⟩
  have hridle : r.step.phase = .idle := by rw [hr, hidle]
  obtain ⟨hfrom, hdark⟩ := r.goDark_darkens n
  have hlost : ((r.goDark n).loseRegionLoam n).step.phase = .idle := by
    rw [loseRegionLoam_step, hfrom.step, hridle]
  rw [← hr, stopSubst_idle hridle, abandonIfNoBoundary_idle hlost] at heq
  exact ⟨r.goDark n, hr ▸ hfrom, hdark, heq⟩

/-! ### Wakes (R380) -/

theorem wakeStage_begun {s : State} {n : Nat} {w : WakeSt} (hw : SMap.find? s.power.wakes n = some w)
    (hwaking : s.getF (F.REGION_PSTAT.WAKING n) = 1) (hstages : w.stages < 4) (hlast : w.stages = 0 ∨ w.lastAt + 1250 ≤ s.meridian) :
    s.wakeStage n = (s.wakeRefuser n).elim (s.setWake n { w with stages := w.stages + 1, lastAt := s.meridian, refusedIn := none }) fun m =>
      if w.refusedIn = some s.step.granted then s
      else (s.setWake n { w with refusedIn := some s.step.granted, refusedBy := m }).incLive (F.REGION_PSTAT.DEFERRED n) 1 := by
  rw [wakeStage, hw]
  dsimp only
  rw [if_pos (by simp [hwaking, hstages, hlast]), if_pos (by simp [hwaking])]
  cases s.wakeRefuser n
  · rfl
  · rfl

/-- The last stage of a wake, complete (R380). -/
theorem wakeComplete_wakes {s : State} {n : Nat} {w : WakeSt} (hw : SMap.find? s.power.wakes n = some w) (hstages : w.stages = 4)
    (hlast : w.lastAt + 1250 ≤ s.meridian) : let u := s.wakeComplete n
    u.getF (F.REGION_PSTAT.AWAKE n) = 1 ∧ u.getF (F.REGION_PSTAT.WAKING n) = 0 ∧
      u.getF (F.REGION_PSTAT.WAKES n) = min (s.getF (F.REGION_PSTAT.WAKES n) + 1) (2 ^ 16 - 1) ∧ SMap.find? u.power.wakes n = none := by
  obtain ⟨t, ht⟩ : ∃ t : State, t = { s with power := { s.power with wakes := SMap.drop s.power.wakes n } } := ⟨_, rfl⟩
  have heq : s.wakeComplete n = ((t.keepF (F.REGION_PSTAT.AWAKE n) 1).keepF (F.REGION_PSTAT.WAKING n) 0).incSat (F.REGION_PSTAT.WAKES n) 1 := by
    rw [ht, wakeComplete, hw]
    exact if_pos ⟨hstages, hlast⟩
  have hdrop : SMap.find? t.power.wakes n = none := by
    rw [ht]
    exact SMap.find?_drop_same ..
  have hcount (f : Fld) : t.getF f = s.getF f := getF_congr (by rw [ht]) f
  have hawake : (F.REGION_PSTAT.AWAKE n).key ≠ (F.REGION_PSTAT.WAKING n).key ∧ (F.REGION_PSTAT.AWAKE n).key ≠ (F.REGION_PSTAT.WAKES n).key ∧
      (F.REGION_PSTAT.WAKING n).key ≠ (F.REGION_PSTAT.WAKES n).key := by
    simp only [Fld.key, F.REGION_PSTAT.AWAKE, F.REGION_PSTAT.WAKING, F.REGION_PSTAT.WAKES]
    omega
  obtain ⟨h1, h2, h3⟩ := hawake
  dsimp only
  rw [heq, incSat]
  refine ⟨?_, ?_, ?_, hdrop⟩
  · rw [getF_setF_other _ _ h2, getF_keepF_other _ _ h1, getF_keepF_same]
    rfl
  · rw [getF_setF_other _ _ h3, getF_keepF_same]
    rfl
  · have hlt : min (s.getF (F.REGION_PSTAT.WAKES n) + 1) (2 ^ 16 - 1) < 2 ^ 16 := by omega
    rw [getF_setF_same, getF_keepF_other _ _ h3.symm, getF_keepF_other _ _ h2.symm, hcount]
    exact Nat.mod_eq_of_lt hlt

theorem wakeExpired_raises {s : State} {n : Nat} {w : WakeSt} (hw : SMap.find? s.power.wakes n = some w)
    (hwaking : s.getF (F.REGION_PSTAT.WAKING n) = 1) (hpos : 0 < s.getF (F.REGION_PSTAT.DEFERRED n))
    (hdefer : s.getF (F.REGION_CFG.WAKE_DEFER n) ≤ s.getF (F.REGION_PSTAT.DEFERRED n)) (hexpired : w.expired = false)
    (hrun : s.running = true) : s.wakeExpired n = (s.setWake n { w with expired := true }).raise {
      code := 0x0503, srcType := srcRegion, srcId := n
      detail := s.getF (F.REGION_PSTAT.DEFERRED n) + w.refusedBy * 2 ^ 16, unit := some (unitRegion, n) } := by
  rw [wakeExpired, hw]
  dsimp only
  rw [if_pos ⟨hwaking, hpos, hdefer, by simp [hexpired]⟩, abandonIfNoBoundary, if_pos]
  exact (running_raise ..).trans hrun

end State
open State in
/-- Settles O47: regulator phases, shorts, and the stages of a wake (R378, R380, R381). -/
theorem regionPower : Obligations.RegionPower := by
  intro s r n dark
  have hn : n < 256 := r.isLt
  refine ⟨fun k cause => ?_, fun peak ns hon hpeak hns hidle => ?_, fun w hw => ⟨fun hwaking hstages hlast => ⟨fun href => ?_, fun m href hnew => ?_⟩,
    fun hstages hlast => ?_, fun hwaking hpos hdefer hexpired hrun => ?_⟩⟩
  · intro off left hcause hobs hon hphase hidle
    obtain ⟨hfrom, hdark⟩ := phaseLoss_darkens hobs hon hphase hidle cause.toNat
    obtain ⟨-, -, hleft, hcap⟩ := s.losePhase_shows n k.toNat
    obtain ⟨more, hmore⟩ := hfrom.recs
    refine does_of_eq (answerIf_true _ _ (decide_eq_true hcause)) rfl ⟨(hfrom.phases n hn).trans hleft, (hfrom.cap n hn).trans hcap,
      ⟨(s.losePhase n k.toNat).faultRecord ((s.losePhase n k.toNat).phaseFault n k.toNat cause.toNat), more, ?_, rfl, rfl⟩, fun h => hdark (hleft.trans_le h) hn⟩
    rw [hmore, List.append_assoc]
    rfl
  · obtain ⟨d, hfrom, hdark, heq⟩ := regionShort_darkens hon hpeak hns hidle
    obtain ⟨more, hmore⟩ := hfrom.recs
    refine does_of_eq rfl heq ⟨hdark hn, ⟨s.faultRecord (shortFault n peak.toNat ns.toNat), more, ?_, rfl, rfl⟩, fun p c off hp hc hoff => ?_, hfrom.win⟩
    · refine hmore.trans ?_
      rw [List.append_assoc]
      rfl
    · refine (SMap.find?_clearRange ..).trans (if_pos ?_)
      unfold loamKey
      omega
  · exact does_of_eq rfl ((wakeStage_begun hw hwaking hstages hlast).trans (by rw [href]; rfl)) rfl
  · refine does_of_eq rfl ((wakeStage_begun hw hwaking hstages hlast).trans (by rw [href, Option.elim, if_neg hnew])) ?_
    exact getF_incLive_one ..
  · exact does_of_eq rfl rfl (wakeComplete_wakes hw hstages hlast)
  · have hin := inAttempt_of_running (s := s.setWake n { w with expired := true }) hrun
    refine does_of_eq rfl (wakeExpired_raises hw hwaking hpos hdefer hexpired hrun) ⟨?_, _, by rw [raise_eq]; rfl, rfl⟩
    rw [raise_eq]
    exact (congrArg Option.isSome (faultStep_fault ..)).trans (by rw [hin]; rfl)

end Sys2Proof.Machine

namespace Sys2Proof.Machine
namespace State

/-! ### An entry that completes (R278, R282) -/

section
variable {s : State} {q i : Nat}

theorem complete_of_next (h : s.nextEntry q = some i) (status result : Nat) :
    s.complete q status result = (s.takeEntry q).finish q i status result := by
  rw [complete, h]

theorem completed_complete (h : s.nextEntry q = some i) (status result : Nat) :
    s.completed (s.complete q status result) q status result := ⟨i, h, complete_of_next h status result⟩

theorem fin_takeEntry (s : State) (q : Nat) : ((s.takeEntry q).queue q).fin = (s.queue q).fin := by
  rw [takeEntry, queue_setQueue_same]

theorem fin_finish (s : State) (q i status result : Nat) :
    ((s.finish q i status result).queue q).fin = (s.queue q).fin ++ [⟨i, status, result, false⟩] := by
  rw [finish, queue_setQueue_same]

theorem fin_complete (h : s.nextEntry q = some i) (status result : Nat) :
    ((s.complete q status result).queue q).fin = (s.queue q).fin ++ [⟨i, status, result, false⟩] := by
  rw [complete_of_next h, fin_finish, fin_takeEntry]

theorem complete_frame (s : State) (q status result : Nat) : { s.complete q status result with queues := s.queues } = s := by
  unfold complete
  split
  · rfl
  · rfl

theorem winGet_complete (s : State) (q status result a n : Nat) : (s.complete q status result).winGet a n = s.winGet a n := by
  have h : (s.complete q status result).win = s.win := (congrArg State.win (complete_frame s q status result) :)
  rw [winGet, winGet, h]

theorem nextEntry_winPut (s : State) (a : Nat) (bs : List Byte) (q : Nat) : (s.winPut a bs).nextEntry q = s.nextEntry q := rfl

theorem fin_winPut (s : State) (a : Nat) (bs : List Byte) (q : Nat) : ((s.winPut a bs).queue q).fin = (s.queue q).fin := rfl

/-- An entry that wrote its answer to the window, and is finished with it. -/
theorem fin_complete_winPut (h : s.nextEntry q = some i) (a : Nat) (bs : List Byte) (status result : Nat) :
    (((s.winPut a bs).complete q status result).queue q).fin = (s.queue q).fin ++ [⟨i, status, result, false⟩] :=
  (fin_complete ((nextEntry_winPut ..).trans h) status result).trans (by rw [fin_winPut])

theorem engineEntry_next {epType : Nat} (h : s.engineEntry q epType = some i) : s.nextEntry q = some i := by
  rw [engineEntry] at h
  split at h
  · exact h
  · cases h

theorem ckptEntry_next (h : s.ckptEntry q = some i) : s.nextEntry q = some i := by
  rw [ckptEntry] at h
  split at h
  · exact h
  · cases h

end

/-! ### Copies to the window (R252, R283) -/

section
variable {s : State} {q i : Nat} {bs : List Byte}

theorem copyOutTo_some (h : s.nextEntry q = some i) (hlen : 0 < s.entryLength q i)
    (hrange : s.rangeStatus (s.entryWindow q i) (s.entryLength q i) false = 0) (hbs : bs.length = s.entryLength q i) :
    let u := s.copyOutTo q i (some bs)
    u.winGet (s.entryWindow q i) (s.entryLength q i) = bs ∧
      (∀ b n, b + n ≤ s.entryWindow q i ∨ s.entryWindow q i + s.entryLength q i ≤ b → u.winGet b n = s.winGet b n) ∧
      (u.queue q).fin = (s.queue q).fin ++ [⟨i, 0, 0, false⟩] ∧ u.mem = s.mem := by
  have heq : s.copyOutTo q i (some bs) = (s.winPut (s.entryWindow q i) bs).complete q 0 0 := by
    simp only [copyOutTo]
    rw [if_neg (by omega), if_neg (by simp [hrange])]
  dsimp only
  rw [heq]
  refine ⟨?_, fun b n h => ?_, fin_complete_winPut h .., (congrArg State.mem (complete_frame (s.winPut (s.entryWindow q i) bs) q 0 0) :)⟩
  · rw [winGet_complete, ← hbs, winGet_winPut_same]
  · rw [winGet_complete, winGet_winPut_outside (h := by rwa [hbs])]

theorem copyOutTo_none (h : s.nextEntry q = some i) (hlen : 0 < s.entryLength q i)
    (hrange : s.rangeStatus (s.entryWindow q i) (s.entryLength q i) false = 0) : s.completed (s.copyOutTo q i none) q 0x0003 0 := by
  have heq : s.copyOutTo q i none = s.complete q 0x0003 0 := by
    simp only [copyOutTo]
    rw [if_neg (by omega), if_neg (by simp [hrange])]
  rw [heq]
  exact completed_complete h ..

theorem copyOutTo_refused (h : s.nextEntry q = some i) (hlen : 0 < s.entryLength q i) (o : Option (List Byte))
    (hrange : s.rangeStatus (s.entryWindow q i) (s.entryLength q i) false ≠ 0) :
    s.completed (s.copyOutTo q i o) q (s.rangeStatus (s.entryWindow q i) (s.entryLength q i) false) 0 := by
  have heq : s.copyOutTo q i o = s.complete q (s.rangeStatus (s.entryWindow q i) (s.entryLength q i) false) 0 := by
    simp only [copyOutTo]
    rw [if_neg (by omega), if_pos hrange]
  rw [heq]
  exact completed_complete h ..

end

theorem copyOut_eq {s : State} {q i : Nat} (hnone : s.engineEntry q 0 = none) (hsome : s.engineEntry q 1 = some i) (hop : s.opAt q i = 2) :
    s.copyOut q = s.copyOutTo q i ((s.partOf (s.entryWord q i 3) (s.entryLength q i)).bind fun k =>
      if s.partCommitted k then some (s.committedGet (s.siteOf (s.qEpId q)) (s.entryWord q i 3) (s.entryLength q i)) else none) := by
  rw [copyOut, hnone, hsome]
  dsimp only
  rw [if_neg (by omega), if_neg (by omega)]

theorem resOut_eq {s : State} {q i : Nat} (hsome : s.engineEntry q 2 = some i) (hop : s.opAt q i = 1) : s.resOut q =
    s.copyOutTo q i (if s.entryWord q i 3 + s.entryLength q i ≤ s.resShare (s.qEpId q / 32) then
      some (s.resCommitted (s.qEpId q / 32) (s.qEpId q % 32 * s.resShare (s.qEpId q / 32) + s.entryWord q i 3) (s.entryLength q i))
      else none) := by
  rw [resOut, hsome]
  dsimp only
  rw [if_neg (by omega)]

end State

open State in
/-- Settles O40: copies of committed loam and of residual shares to the window (R252, R283). -/
theorem copiesOut : Obligations.CopiesOut := by
  intro s queue i q a len off id gave hlen
  refine ⟨fun hnone hsome hop => ⟨fun hrange => ?_, fun hrange k hk => ⟨fun hcommitted => ?_, fun hcommitted => ?_⟩⟩,
    fun hsome hop hrange => ⟨fun hfits => ?_, fun hover => ?_⟩⟩
  · exact does_of_eq rfl (copyOut_eq hnone hsome hop) (copyOutTo_refused (engineEntry_next hsome) hlen _ hrange)
  · refine does_of_eq rfl (copyOut_eq hnone hsome hop) ?_
    rw [hk, Option.bind_some, if_pos hcommitted]
    exact copyOutTo_some (engineEntry_next hsome) hlen hrange (by rw [committedGet, List.length_map, List.length_range])
  · refine does_of_eq rfl (copyOut_eq hnone hsome hop) ?_
    rw [hk, Option.bind_some, if_neg (by simp [hcommitted])]
    exact copyOutTo_none (engineEntry_next hsome) hlen hrange
  · refine does_of_eq rfl (resOut_eq hsome hop) ?_
    rw [if_pos hfits]
    exact copyOutTo_some (engineEntry_next hsome) hlen hrange (by rw [resCommitted, List.length_map, List.length_range])
  · refine does_of_eq rfl (resOut_eq hsome hop) ?_
    rw [if_neg (Nat.not_le.2 hover)]
    exact copyOutTo_none (engineEntry_next hsome) hlen hrange

namespace State

/-! ### Operations of the checkpoint engine (R348-R353, R363) -/

theorem ledgerFrom_length (first len : Nat) (rs : List (Nat × List Byte)) : (ledgerFrom first len rs).length ≤ len := by
  induction rs generalizing len with
  | nil => exact Nat.zero_le len
  | cons r rs ih =>
    rw [ledgerFrom]
    split
    · exact ih len
    · split
      · have := ih (len - r.2.length)
        rw [List.length_append]
        omega
      · exact Nat.zero_le len

theorem nextEntry_nowPending (s : State) (q : Nat) (hq : q < 2 ^ 15) :
    (s.nowF F.CKPT_STATUS.NOW_PENDING 1).nextEntry q = s.nextEntry q := by
  have hkeep (f : Fld) (h : f.key ≠ F.CKPT_STATUS.NOW_PENDING.key) : (s.nowF F.CKPT_STATUS.NOW_PENDING 1).getF f = s.getF f :=
    getF_nowF_other _ _ h
  have hentries : (s.nowF F.CKPT_STATUS.NOW_PENDING 1).qEntries q = s.qEntries q := by
    rw [qEntries, qEntries, hkeep, hkeep]
    · rfl
    · simp only [Fld.key, F.QUEUE_CFG.ENTRIES, F.CKPT_STATUS.NOW_PENDING]
      omega
    · simp only [Fld.key, F.MGMT_RING.ENTRIES, F.CKPT_STATUS.NOW_PENDING]
      omega
  have hgive : (s.nowF F.CKPT_STATUS.NOW_PENDING 1).qGive q = s.qGive q :=
    hkeep _ (by simp only [Fld.key, F.QUEUE_STATE.GIVE, F.CKPT_STATUS.NOW_PENDING]; omega)
  rw [nextEntry, nextEntry, hasNext, hasNext, hentries, hgive]
  rfl

section
variable {s : State} {q i : Nat}

theorem ckptNow_runs (hnext : s.ckptEntry q = some i) (hop : s.opAt q i = 1) (hmode : s.getF F.MODE_CFG.CKPT_MODE ≠ 0)
    (hplan : s.plan.ckpt.isSome = true) : s.ckptNow q = (s.nowF F.CKPT_STATUS.NOW_PENDING 1).complete q 0 0 := by
  rw [ckptNow, hnext]
  dsimp only
  rw [if_neg (by omega), if_neg (by simp [hmode, Option.isNone_eq_false_iff.2 hplan])]
  rfl

theorem ckptNow_off (hnext : s.ckptEntry q = some i) (hop : s.opAt q i = 1) (hmode : s.getF F.MODE_CFG.CKPT_MODE = 0) :
    s.ckptNow q = s.complete q 0 1 := by
  rw [ckptNow, hnext]
  dsimp only
  rw [if_neg (by omega), if_pos (.inl hmode)]
  rfl

theorem manifestOut_notHeld (hnext : s.ckptEntry q = some i) (hop : s.opAt q i = 3)
    (hm : s.ckpt.manifests.reverse.find? (fun m => m.1 == s.entryWord q i 4) = none) : s.manifestOut q = s.complete q 0 6 := by
  rw [manifestOut, hnext]
  dsimp only
  rw [if_neg (by omega), hm]
  rfl

theorem manifestOut_copies {m : Nat × List Byte} (hnext : s.ckptEntry q = some i) (hop : s.opAt q i = 3)
    (hm : s.ckpt.manifests.reverse.find? (fun m => m.1 == s.entryWord q i 4) = some m) (hlen : s.entryLength q i ≠ 0)
    (hrange : s.rangeStatus (s.entryWindow q i) m.2.length false = 0) :
    s.manifestOut q = (s.winPut (s.entryWindow q i) m.2).complete q 0 (m.2.length * 2 ^ 32) := by
  rw [manifestOut, hnext]
  dsimp only
  rw [if_neg (by omega), hm]
  dsimp only
  rw [if_neg hlen, if_neg (by simp [hrange])]
  exact congrArg (complete _ q 0) (Nat.zero_add _)

theorem ledgerOut_copies (hnext : s.ckptEntry q = some i) (hop : s.opAt q i = 4) (hlen : s.entryLength q i ≠ 0)
    (hrange : s.rangeStatus (s.entryWindow q i) (s.entryLength q i) false = 0) :
    let bs := ledgerFrom (s.entryWord q i 4 % 2 ^ 48) (s.entryLength q i) s.ckpt.ledger
    s.ledgerOut q = (s.winPut (s.entryWindow q i) bs).complete q 0 (bs.length * 2 ^ 32) := by
  rw [ledgerOut, hnext]
  dsimp only
  rw [if_neg (by omega), if_neg hlen, if_neg (by simp [hrange])]
  exact congrArg (complete _ q 0) (Nat.zero_add _)

theorem drainWait_eq (hnext : s.ckptEntry q = some i) (hop : s.opAt q i = 6) :
    s.drainWait q = if !s.draining && s.lanesDrained then s.complete q 0 outDone else s := by
  rw [drainWait, hnext]
  dsimp only
  rw [if_pos hop]

/-- The restore that a RESTORE entry begins (R350). -/
def restoreOf (s : State) (q i : Nat) : RestoreSt :=
  ⟨i, q, s.winGet (s.entryWindow q i) 320, s.entryWord q i 5 * milliMt, s.meridian, []⟩

/-- The entry is taken, and its restore awaits its parcels. -/
def awaitRestore (s : State) (q i : Nat) : State := (s.takeEntry q).modCkpt fun c => { c with restore := some (s.restoreOf q i) }

theorem substAtOnce_none (h : s.getF F.REPAIR_STATUS.SUBST_PENDING = 0) (kat : List Nat) : s.substAtOnce kat = s := by simp [substAtOnce, h]

theorem restoreCommand_refused {out : Nat} (hnext : s.ckptEntry q = some i) (hop : s.opAt q i = 2) (hidle : s.step.phase = .idle)
    (hdusk : s.dusk = none) (hwait : s.mustWait = false) (hlen : s.entryLength q i ≠ 0)
    (hrange : s.rangeStatus (s.entryWindow q i) 320 true = 0)
    (hfault : s.manifestFault (s.winGet (s.entryWindow q i) 320) = some out) (kat : List Nat) :
    s.restoreCommand q kat = s.complete q 0 out := by
  rw [restoreCommand, hnext]
  dsimp only
  rw [if_neg (by simp [hop, hidle, hdusk, hwait]), if_neg hlen, if_neg (by simp [hrange]), hfault]

theorem restoreCommand_awaits (hnext : s.ckptEntry q = some i) (hop : s.opAt q i = 2) (hidle : s.step.phase = .idle)
    (hdusk : s.dusk = none) (hwait : s.mustWait = false) (hlen : s.entryLength q i ≠ 0)
    (hrange : s.rangeStatus (s.entryWindow q i) 320 true = 0) (hsubst : s.getF F.REPAIR_STATUS.SUBST_PENDING = 0)
    (hfault : s.manifestFault (s.winGet (s.entryWindow q i) 320) = none) (kat : List Nat) :
    s.restoreCommand q kat = if (s.restoreOf q i).limit = 0 ∧ wordField (s.winGet (s.entryWindow q i) 320) 5 0 64 ≠ 0 then
      (s.awaitRestore q i).endRestore outIncomplete else (s.awaitRestore q i).restoreArrived := by
  rw [restoreCommand, hnext]
  dsimp only
  rw [if_neg (by simp [hop, hidle, hdusk, hwait]), if_neg hlen, if_neg (by simp [hrange]), hfault]
  dsimp only
  rw [substAtOnce_none hsubst]
  rfl

theorem endRestore_ends {r : RestoreSt} (hr : s.ckpt.restore = some r) (outcome : Nat) :
    (s.endRestore outcome).ckpt = { s.ckpt with restore := none } ∧ (s.endRestore outcome).mem = s.mem ∧
      ((s.endRestore outcome).queue r.queue).fin = (s.queue r.queue).fin ++ [⟨r.idx, 0, outcome, false⟩] := by
  rw [endRestore, hr]
  exact ⟨rfl, rfl, fin_finish ..⟩

theorem keptKeys_awaitRestore (s : State) (q i : Nat) : (s.awaitRestore q i).keptKeys = s.keptKeys := rfl

/-- With parcels to await none has arrived yet, and the restore goes on. -/
theorem restoreArrived_awaits (hkeys : s.keptKeys ≠ []) : (s.awaitRestore q i).restoreArrived = s.awaitRestore q i := by
  rw [restoreArrived, show (s.awaitRestore q i).ckpt.restore = some (s.restoreOf q i) from rfl]
  dsimp only
  rw [keptKeys_awaitRestore]
  obtain ⟨k, ks, hk⟩ := List.exists_cons_of_ne_nil hkeys
  rw [hk, List.all_cons]
  exact if_neg Bool.false_ne_true

end
end State

open State in
/-- Settles O41: the operations of the checkpoint engine's queues, and the limit of a restore (R348-R353, R363). -/
theorem checkpointEngine : Obligations.CheckpointEngine := by
  intro s queue i q a op
  refine ⟨fun hnext => ?_, fun r hr hlimit => ?_⟩
  · have hq := ckptEntry_next hnext
    refine ⟨fun hop hmode hplan => ?_, fun hop hmode => ?_, fun hop hm => ?_, fun hop m hm hlen hrange => ?_, fun hop hlen hrange => ?_,
      fun hop hdrain hlanes => ?_, fun hop hdrain => ?_, fun hop hidle hdusk hwait hlen hrange hsubst => ⟨fun out hfault => ?_,
      fun hfault hword hcount => ?_, fun hfault hword hkeys => ?_⟩⟩
    · have hnow := (nextEntry_nowPending s q queue.isLt).trans hq
      refine does_of_eq rfl (ckptNow_runs hnext hop hmode hplan) ⟨?_, fin_complete hnow ..⟩
      have hregs : ((s.nowF F.CKPT_STATUS.NOW_PENDING 1).complete q 0 0).regs = (s.nowF F.CKPT_STATUS.NOW_PENDING 1).regs :=
        (congrArg State.regs (complete_frame (s.nowF F.CKPT_STATUS.NOW_PENDING 1) q 0 0) :)
      exact (getF_congr hregs _).trans (getF_nowF_same ..)
    · exact does_of_eq rfl (ckptNow_off hnext hop hmode) (completed_complete hq ..)
    · exact does_of_eq rfl (manifestOut_notHeld hnext hop hm) (completed_complete hq ..)
    · refine does_of_eq rfl (manifestOut_copies hnext hop hm hlen hrange) ⟨?_, fin_complete_winPut hq ..⟩
      rw [winGet_complete]
      exact winGet_winPut_same ..
    · refine does_of_eq rfl (ledgerOut_copies hnext hop hlen hrange) ⟨ledgerFrom_length .., ?_, fin_complete_winPut hq ..⟩
      rw [winGet_complete]
      exact winGet_winPut_same ..
    · exact does_of_eq rfl ((drainWait_eq hnext hop).trans (if_pos (by simp [hdrain, hlanes]))) (completed_complete hq ..)
    · exact does_of_eq rfl ((drainWait_eq hnext hop).trans (if_neg (by simp [hdrain]))) rfl
    · exact does_of_eq rfl (restoreCommand_refused hnext hop hidle hdusk hwait hlen hrange hfault _) (completed_complete hq ..)
    · obtain ⟨hckpt, hmem, hfin⟩ := endRestore_ends (s := s.awaitRestore q i) (r := s.restoreOf q i) rfl 5
      refine does_of_eq rfl ((restoreCommand_awaits hnext hop hidle hdusk hwait hlen hrange hsubst hfault _).trans
        (if_pos ⟨by rw [restoreOf, hword, Nat.zero_mul], hcount⟩)) ⟨hckpt, hmem, hfin.trans ?_⟩
      exact congrArg (· ++ [(⟨i, 0, 5, false⟩ : Finish)]) (fin_takeEntry s q)
    · have hlimit : (s.restoreOf q i).limit ≠ 0 := Nat.mul_ne_zero hword (by decide)
      exact does_of_eq rfl ((restoreCommand_awaits hnext hop hidle hdusk hwait hlen hrange hsubst hfault _).trans
        ((if_neg fun h => hlimit h.1).trans (restoreArrived_awaits hkeys))) ⟨by rw [awaitRestore, restoreOf, milliMt]; rfl, fin_takeEntry s q, rfl⟩
  · obtain ⟨hckpt, -, hfin⟩ := endRestore_ends hr 5
    have heq : s.restoreExpired = s.endRestore 5 := by
      rw [restoreExpired, hr]
      exact if_pos hlimit
    exact does_of_eq rfl heq ⟨hckpt, hfin⟩

end Sys2Proof.Machine

namespace Sys2Proof.Machine
namespace State

/-! ### What an access to a plot's loam leaves (R204-R211) -/

/-- A store to loam writes the memory, and may count what its stash saturated. -/
theorem committedPut_frame (s : State) (p off : Nat) (bs : List Byte) : { s.committedPut p off bs with mem := s.mem } = s := by
  have hopen (t : State) (a : Nat) : { t.openGranule p a with mem := s.mem } = { t with mem := s.mem } := by
    unfold openGranule
    dsimp only
    split
    · rfl
    · rfl
  refine List.foldlRecOn (motive := fun t : State => { t with mem := s.mem } = s) _ _ rfl fun t ht b _ => ?_
  exact (hopen t (off + b.2)).trans ht

theorem losslessPut_frame (s : State) (p i off : Nat) (bs : List Byte) : { (s.losslessPut p i off bs).1 with mem := s.mem } = s := by
  unfold losslessPut
  dsimp only
  split
  · rfl
  · split
    · rfl
    · rfl

theorem loamPut_frame (s : State) (p off : Nat) (bs : List Byte) : { (s.loamPut p off bs).1 with regs := s.regs, mem := s.mem } = s ∧
    s.fieldsBut (s.loamPut p off bs).1 [F.STASH_SAT.COUNT p] := by
  have hmem {t : State} (h : { t with mem := s.mem } = s) : { t with regs := s.regs, mem := s.mem } = s ∧
      s.fieldsBut t [F.STASH_SAT.COUNT p] :=
    ⟨congrArg (fun v : State => { v with regs := s.regs }) h, fun f _ => getF_congr (congrArg State.regs h :) f⟩
  unfold loamPut
  split
  · exact hmem rfl
  · next i _ =>
    split
    · exact hmem (committedPut_frame s p off bs)
    · split
      · exact ⟨rfl, fun f hf => getF_setF_other _ _ (hf _ (by simp))⟩
      · split
        · refine hmem (List.foldlRecOn (motive := fun r : State × LoamOutcome => { r.1 with mem := s.mem } = s) _ _ rfl fun r hr b _ => ?_)
          exact (congrArg (fun v : State => { v with mem := s.mem }) (losslessPut_frame r.1 p i _ b.1)).trans hr
        · exact hmem rfl

/-! ### What the staging pass leaves (R283, R286, R351) -/

/-- The plots, the furrows granted and the furrow index stay as they are. -/
structure StagingKeeps (s t : State) : Prop where
  plots : t.plots = s.plots
  granted : t.step.granted = s.step.granted
  furrow : t.furrow = s.furrow

namespace StagingKeeps
variable {s t u : State}

theorem refl (s : State) : StagingKeeps s s := ⟨rfl, rfl, rfl⟩

theorem trans (h : StagingKeeps s t) (k : StagingKeeps t u) : StagingKeeps s u :=
  ⟨k.plots.trans h.plots, k.granted.trans h.granted, k.furrow.trans h.furrow⟩

theorem nowF (s : State) {f : Fld} (h : F.FURROW_INDEX.INDEX.key ≠ f.key) (v : Nat) : StagingKeeps s (s.nowF f v) :=
  ⟨rfl, rfl, getF_nowF_other _ _ h⟩

theorem foldl {β : Type} {g : State → β → State} (hg : ∀ (s : State) (x : β), StagingKeeps s (g s x)) (xs : List β) (s : State) :
    StagingKeeps s (xs.foldl g s) :=
  List.foldlRecOn (motive := fun t => StagingKeeps s t) _ _ (.refl s) fun _ h x _ => h.trans (hg _ x)

end StagingKeeps

theorem stagingKeeps_loseQueue (s : State) (q : Nat) : StagingKeeps s (s.loseQueue q) ∧ (s.loseQueue q).mem = s.mem := by
  unfold loseQueue
  dsimp only
  split
  · exact ⟨⟨rfl, rfl, getF_nowF_other _ _ (by decide)⟩, rfl⟩
  · split
    · exact ⟨⟨rfl, rfl, getF_nowF_other _ _ (by decide)⟩, rfl⟩
    · exact ⟨⟨rfl, rfl, rfl⟩, rfl⟩

theorem stagingKeeps_windowLost (s : State) (p : Nat) : StagingKeeps s (s.windowLost p) ∧ (s.windowLost p).mem = s.mem := by
  obtain ⟨v, hv⟩ : ∃ v, v = s.event 0x000F srcModule 0 p := ⟨_, rfl⟩
  have hevent : StagingKeeps s v ∧ v.mem = s.mem := by
    rw [hv]
    exact ⟨⟨rfl, rfl, rfl⟩, rfl⟩
  have hwin (x : WindowSt) : StagingKeeps s { v with win := x } := hevent.1.trans ⟨rfl, rfl, rfl⟩
  rw [windowLost, ← hv]
  dsimp only
  split
  · exact hevent
  · split
    · next q _ =>
      obtain ⟨hkeeps, hmem⟩ := ({ v with win := { v.win with toVoid := NSet.insert v.win.toVoid p } } : State).stagingKeeps_loseQueue q
      exact ⟨(hwin _).trans hkeeps, hmem.trans hevent.2⟩
    · exact ⟨hwin _, hevent.2⟩

theorem stagingKeeps_meetBadLines (s : State) (a len : Nat) : StagingKeeps s (s.meetBadLines a len) ∧ (s.meetBadLines a len).mem = s.mem :=
  List.foldlRecOn (motive := fun t : State => StagingKeeps s t ∧ t.mem = s.mem) _ _ ⟨.refl s, rfl⟩ fun t ht p _ =>
    ⟨ht.1.trans (stagingKeeps_windowLost t p).1, (stagingKeeps_windowLost t p).2.trans ht.2⟩

/-- The range of a COPY_IN lies in one partition, of codec 0, that the step may write (R283). -/
def copyPlain (s : State) (q i : Nat) : Bool :=
  match s.partOf (s.entryWord q i 3) (s.entryLength q i) with
  | some k => s.partCodec k == 0 && !(s.partCommitted k && s.step.eval)
  | none => false

theorem copyIn_eq (s : State) (q i : Nat) : s.copyIn q i = if s.entryLength q i = 0 then (0, s)
    else if s.rangeStatus (s.entryWindow q i) (s.entryLength q i) true ≠ 0 then
      (s.rangeStatus (s.entryWindow q i) (s.entryLength q i) true, s)
    else if !s.copyPlain q i then (0x0003, s)
    else (0, (s.loamPut (s.siteOf (s.qEpId q)) (s.entryWord q i 3) (s.winGet (s.entryWindow q i) (s.entryLength q i))).1) := rfl

/-- A COPY_IN that gives its data writes loam; any other leaves the state. -/
theorem copyIn_cases (s : State) (q i : Nat) : s.entryLength q i = 0 ∧ s.copyIn q i = (0, s) ∨
    (s.copyIn q i).1 ≠ 0 ∧ (s.copyIn q i).2 = s ∨ (s.copyIn q i).1 = 0 ∧ (s.copyIn q i).2 =
      (s.loamPut (s.siteOf (s.qEpId q)) (s.entryWord q i 3) (s.winGet (s.entryWindow q i) (s.entryLength q i))).1 := by
  rw [copyIn_eq]
  generalize s.copyPlain q i = plain
  generalize s.rangeStatus (s.entryWindow q i) (s.entryLength q i) true = st
  generalize (s.loamPut (s.siteOf (s.qEpId q)) (s.entryWord q i 3) (s.winGet (s.entryWindow q i) (s.entryLength q i))).1 = put
  split
  case isTrue h => exact .inl ⟨h, rfl⟩
  case isFalse =>
    split
    case isTrue h => exact .inr (.inl ⟨h, rfl⟩)
    case isFalse =>
      split
      · exact .inr (.inl ⟨by simp, rfl⟩)
      · exact .inr (.inr ⟨rfl, rfl⟩)

theorem copyIn_frame (s : State) (q i : Nat) : { (s.copyIn q i).2 with regs := s.regs, mem := s.mem } = s ∧
    (s.copyIn q i).2.furrow = s.furrow := by
  obtain ⟨-, h⟩ | ⟨-, h⟩ | ⟨-, h⟩ := s.copyIn_cases q i
  · rw [h]
    exact ⟨rfl, rfl⟩
  · rw [h]
    exact ⟨rfl, rfl⟩
  · rw [h]
    obtain ⟨hframe, hF⟩ := s.loamPut_frame (s.siteOf (s.qEpId q)) (s.entryWord q i 3) (s.winGet (s.entryWindow q i) (s.entryLength q i))
    refine ⟨hframe, hF _ fun g hg => ?_⟩
    rw [List.mem_singleton.1 hg]
    simp only [Fld.key, F.FURROW_INDEX.INDEX, F.STASH_SAT.COUNT]
    omega

/-- The state in which a COPY_IN has been taken, and counts among the entries that the step consumes (R286). -/
def stagedEntry (s : State) (q i : Nat) : State :=
  let t := (s.copyIn q i).2.takeEntry q
  { t with step := { t.step with staged := t.step.staged ++ [(q, i, (s.copyIn q i).1)] } }

theorem stageEntry_eq {s : State} {q i : Nat} (hnext : s.nextEntry q = some i) (hop : s.opAt q i = 1) : s.stageEntry q =
    if (s.copyIn q i).1 = 0x000E then (s.stagedEntry q i).meetBadLines (s.entryWindow q i) (s.entryLength q i) else s.stagedEntry q i := by
  rw [stageEntry, hnext]
  exact if_neg (by omega)

theorem stagedEntry_frame (s : State) (q i : Nat) : StagingKeeps s (s.stagedEntry q i) ∧
    (s.stagedEntry q i).step.staged = s.step.staged ++ [(q, i, (s.copyIn q i).1)] ∧
    ((s.stagedEntry q i).queue q).next = ((s.queue q).next + 1) % 2 ^ 32 ∧ (s.stagedEntry q i).win = s.win ∧
    (s.stagedEntry q i).mem = (s.copyIn q i).2.mem := by
  obtain ⟨hframe, hfurrow⟩ := s.copyIn_frame q i
  obtain ⟨st, hst⟩ : ∃ st, st = (s.copyIn q i).1 := ⟨_, rfl⟩
  obtain ⟨t, ht⟩ : ∃ t, t = (s.copyIn q i).2 := ⟨_, rfl⟩
  rw [stagedEntry, ← hst, ← ht]
  rw [← ht] at hframe hfurrow
  have hqueue : t.queue q = s.queue q := queue_congr (congrArg State.queues hframe :) q
  refine ⟨⟨(congrArg State.plots hframe :), (congrArg (fun t : State => t.step.granted) hframe :), hfurrow⟩, (congrArg (fun t : State => t.step.staged ++ [(q, i, st)]) hframe :), ?_,
    (congrArg State.win hframe :), rfl⟩
  rw [← hqueue]
  exact congrArg QueueSt.next (queue_setQueue_same ..)

theorem stagingKeeps_stageEntry (s : State) (q : Nat) : StagingKeeps s (s.stageEntry q) := by
  cases hnext : s.nextEntry q with
  | none =>
    rw [stageEntry, hnext]
    exact .refl s
  | some i =>
    by_cases hop : s.opAt q i = 1
    · rw [stageEntry_eq hnext hop]
      split
      · exact (s.stagedEntry_frame q i).1.trans (stagingKeeps_meetBadLines ..).1
      · exact (s.stagedEntry_frame q i).1
    · rw [stageEntry, hnext]
      dsimp only
      rw [if_pos hop]
      exact .refl s

theorem stagingKeeps_stageQueue (s : State) (q n : Nat) : StagingKeeps s (s.stageQueue q n) := by
  induction n generalizing s with
  | zero => exact .refl s
  | succ n ih => exact (stagingKeeps_stageEntry s q).trans (ih _)

theorem stagingKeeps_stageAll (s : State) : StagingKeeps s s.stageAll := .foldl (fun s q => stagingKeeps_stageQueue s q _) _ _

theorem stagingKeeps_formLedger (s : State) : StagingKeeps s s.formLedger := by
  have hdrain (t : State) (l i e n : Nat) (bs : List Byte) : StagingKeeps t (t.drainSeg l i e n bs) := by
    unfold drainSeg
    split
    · exact .refl t
    · exact ⟨rfl, rfl, rfl⟩
  have hsend (t : State) (b : TwinBody) : StagingKeeps t (t.twinSend b) := by
    unfold twinSend
    split
    · exact ⟨rfl, rfl, rfl⟩
    · exact .refl t
  have hput (t : State) (n : Nat) (bs : List Byte) : StagingKeeps t (t.ledgerPut n bs).1 := by
    unfold ledgerPut
    split
    · exact ⟨rfl, rfl, getF_nowF_other _ _ (by decide)⟩
    · exact .nowF t (by decide) 1
  unfold formLedger
  split
  · exact .refl s
  · exact (((hdrain ..).trans (hsend ..)).trans (hput ..)).trans ⟨rfl, rfl, rfl⟩

end State

open State in
/-- Settles O35: the staging pass and its COPY_IN entries (R23, R283, R286). -/
theorem stagingPass : Obligations.StagingPass := by
  intro s hphase
  have hpass : s.stagingPass = { s.stageAll.formLedger with step := { s.stageAll.formLedger.step with phase := .running } } := if_pos hphase
  refine ⟨does_of_eq rfl hpass ?_, fun queue i => ?_⟩
  · have hkeeps := (stagingKeeps_stageAll s).trans (stagingKeeps_formLedger _)
    refine ⟨rfl, hkeeps.granted, hkeeps.furrow, fun hqueues hledger => ?_⟩
    have hstage : s.stageAll = s := by rw [stageAll, hqueues, List.foldl_nil]
    have hform : s.formLedger = s := by
      refine if_pos ?_
      obtain h | h := hledger
      · simp [h]
      · have hany : s.enabledQueues.any s.qLedger = false := List.any_eq_false.2 fun q hq => by simp [h q hq]
        simp [hany]
    rw [hstage, hform]
  · intro q r took hq hnext hop
    have hcommand : s.copyInCommand q = s.stageEntry q := if_pos ⟨hphase, List.contains_iff_mem.2 hq⟩
    obtain ⟨hkeeps, hstaged, hqueue, hwin, hmem⟩ := s.stagedEntry_frame q i
    have hcases := s.copyIn_cases q i
    by_cases hlost : r.1 = 0x000E
    · have hsame : r.2 = s := by
        obtain ⟨-, h⟩ | ⟨-, h⟩ | ⟨h, -⟩ := hcases
        · exact congrArg Prod.snd h
        · exact h
        · exact absurd (hlost.symm.trans h) (by decide)
      obtain ⟨hbad, hbadMem⟩ := (s.stagedEntry q i).stagingKeeps_meetBadLines (s.entryWindow q i) (s.entryLength q i)
      have htook : s.stagedEntry q i = took := by
        rw [stagedEntry, show (s.copyIn q i).2 = s from hsame]
        rfl
      refine does_of_eq rfl (hcommand.trans ((stageEntry_eq hnext hop).trans (if_pos hlost))) ⟨(hkeeps.trans hbad).plots, fun h => absurd hlost h,
        fun _ => by rw [htook], fun h => absurd (hlost.symm.trans h) (by decide), fun _ => ?_⟩
      rw [hbadMem, hmem]
      exact congrArg State.mem hsame
    · refine does_of_eq rfl (hcommand.trans ((stageEntry_eq hnext hop).trans (if_neg hlost))) ⟨hkeeps.plots, fun _ => ⟨hstaged, hqueue, hwin⟩,
        fun h => absurd h hlost, fun h hlen => ?_, fun h => ?_⟩
      · rw [hmem]
        obtain ⟨h0, -⟩ | ⟨h0, -⟩ | ⟨-, hput⟩ := hcases
        · exact absurd h0 hlen
        · exact absurd h h0
        · rw [hput]
      · rw [hmem]
        obtain ⟨-, h0⟩ | ⟨-, h0⟩ | ⟨h0, -⟩ := hcases
        · exact absurd (congrArg Prod.fst h0) h
        · rw [h0]
        · exact absurd h0 h

end Sys2Proof.Machine

namespace Sys2Proof.Machine
namespace State

/-! ### What the passes of a dusk test leave (R335-R338) -/

/-- The registers that the passes of a dusk test and its fences leave. -/
@[reducible] def duskRegs : List Nat := [F.DUSK_STATUS.RUNNING.key, F.MEM_STATUS.HORIZON_LOST.key, F.MERIDIAN_COUNT.COUNT.key,
  (F.MGMT_RING.BASE_PARCEL 0).key, (F.MGMT_RING.ENTRIES 0).key]

theorem not_mem_duskRegs {k : Nat} (h : k ≠ 0x1000000d00c8 * 64 ∧ k ≠ 0x100000080010 * 64 ∧ k ≠ 0x100000010000 * 64 ∧
    k ≠ 0x1000000b0020 * 64 ∧ k ≠ 0x1000000b0020 * 64 + 20) : k ∉ duskRegs := by
  simp only [duskRegs, List.mem_cons, List.not_mem_nil, or_false, not_or]
  exact h

/-- `t` is `s` but for counts, histories, records and fences. -/
structure DuskKeeps (s t : State) : Prop where
  regs : ∀ f : Fld, f.key ∈ duskRegs → t.getF f = s.getF f
  mem : t.mem = s.mem
  win : t.win = s.win
  dusk : t.dusk = s.dusk
  attempt : t.step.attempt = s.step.attempt

namespace DuskKeeps
variable {s t u : State}

theorem refl (s : State) : DuskKeeps s s := ⟨fun _ _ => rfl, rfl, rfl, rfl, rfl⟩

theorem trans (h : DuskKeeps s t) (k : DuskKeeps t u) : DuskKeeps s u :=
  ⟨fun f hf => (k.regs f hf).trans (h.regs f hf), k.mem.trans h.mem, k.win.trans h.win, k.dusk.trans h.dusk, k.attempt.trans h.attempt⟩

theorem foldl {β : Type} {g : State → β → State} (hg : ∀ (s : State) (x : β), DuskKeeps s (g s x)) (xs : List β) (s : State) :
    DuskKeeps s (xs.foldl g s) :=
  List.foldlRecOn (motive := fun t => DuskKeeps s t) _ _ (.refl s) fun _ h x _ => h.trans (hg _ x)

theorem setF (s : State) {f : Fld} (hf : f.key ∉ duskRegs) (v : Nat) : DuskKeeps s (s.setF f v) :=
  ⟨fun _ hg => getF_setF_other _ _ fun h => hf (h ▸ hg), rfl, rfl, rfl, rfl⟩

theorem keepF (s : State) {f : Fld} (hf : f.key ∉ duskRegs) (v : Nat) : DuskKeeps s (s.keepF f v) :=
  ⟨fun _ hg => getF_keepF_other _ _ fun h => hf (h ▸ hg), rfl, rfl, rfl, rfl⟩

theorem nowF (s : State) {f : Fld} (hf : f.key ∉ duskRegs) (v : Nat) : DuskKeeps s (s.nowF f v) :=
  ⟨fun _ hg => getF_nowF_other _ _ fun h => hf (h ▸ hg), rfl, rfl, rfl, rfl⟩

theorem setSummary (s : State) (u : Nat × Nat) (x : Summary) : DuskKeeps s (s.setSummary u x) := ⟨fun _ _ => rfl, rfl, rfl, rfl, rfl⟩

theorem record (s : State) (r : PRec) : DuskKeeps s { s with recs := s.recs ++ [r] } := ⟨fun _ _ => rfl, rfl, rfl, rfl, rfl⟩

theorem countFault (s : State) (code : Nat) : DuskKeeps s (s.countFault code) := by
  unfold State.countFault
  split
  · exact ⟨fun _ _ => rfl, rfl, rfl, rfl, rfl⟩
  · exact .refl s

theorem countCorrections (s : State) (n : Nat) : DuskKeeps s (s.countCorrections n) := by
  unfold State.countCorrections
  split
  · exact ⟨fun _ _ => rfl, rfl, rfl, rfl, rfl⟩
  · exact .refl s

end DuskKeeps

theorem duskKeeps_raise (s : State) (a : FaultArgs) : DuskKeeps s (s.raise a) := by
  obtain ⟨m, hm⟩ := s.faultStep_eq a
  rw [raise_eq, hm]
  exact ⟨fun _ _ => rfl, rfl, rfl, rfl, rfl⟩

theorem duskKeeps_correct (s : State) (u : Nat × Nat) (a : FaultArgs) : DuskKeeps s (s.correct u a) := by
  have hcounted (t : State) (x : Summary) (r : PRec) (code : Nat) :
      let v := (t.setSummary u x).countFault code
      DuskKeeps t { v with recs := v.recs ++ [r] } := ((DuskKeeps.setSummary ..).trans (.countFault ..)).trans (.record ..)
  by_cases h : s.getF F.HIST_CFG.CORR_LIMIT ≠ 0 ∧ s.getF F.HIST_CFG.CORR_LIMIT ≤ s.corrected u
  · rw [show s.correct u a = _ from if_pos h]
    exact (DuskKeeps.countCorrections ..).trans (hcounted ..)
  · by_cases hrecorded : (s.correcting u).lastCorr = some (s.meridian / hourMt)
    · rw [show s.correct u a = _ from (if_neg h).trans (if_pos hrecorded)]
      exact (DuskKeeps.countCorrections ..).trans (.setSummary ..)
    · rw [show s.correct u a = _ from (if_neg h).trans (if_neg hrecorded)]
      exact (DuskKeeps.countCorrections ..).trans (hcounted ..)

theorem duskKeeps_duskCount (s : State) (code id : Nat) : DuskKeeps s (s.duskCount code id) := by
  have hlid (f : Nat → Fld) (hf : ∀ l, (f l).key ∉ duskRegs) : DuskKeeps s ((s.lidOfSite id).elim s fun l => s.incF (f l) 1) := by
    cases s.lidOfSite id with
    | none => exact .refl s
    | some l => exact .setF s (hf l) _
  unfold duskCount
  dsimp only
  split
  · refine hlid _ fun l => not_mem_duskRegs ?_
    simp only [Fld.key, F.PAD_CORR.COUNT]
    omega
  · split
    · refine .setF s (not_mem_duskRegs ?_) _
      simp only [Fld.key, F.CORR_BIT.COUNT]
      omega
    · split
      · refine .setF s (not_mem_duskRegs ?_) _
        simp only [Fld.key, F.CORRECTED.COUNT]
        omega
      · split
        · refine .setF s (not_mem_duskRegs ?_) _
          simp only [Fld.key, F.ROUTE_MEM_CORR.COUNT]
          omega
        · split
          · refine hlid _ fun l => not_mem_duskRegs ?_
            simp only [Fld.key, F.SLOT_MEM_CORR.COUNT]
            omega
          · refine .setF s (not_mem_duskRegs ?_) _
            simp only [Fld.key, F.BENCH_CORR.COUNT]
            omega

theorem duskKeeps_duskRaise (s : State) (h : DuskHit) : DuskKeeps s (s.duskRaise h) := by
  have hraise (a : FaultArgs) : DuskKeeps s (if causeClass a.code = 0 then (s.duskCount a.code (hitUnit h).2).correct (hitUnit h) a
      else s.raise a) := by
    split
    · exact (duskKeeps_duskCount ..).trans (duskKeeps_correct ..)
    · exact duskKeeps_raise ..
  exact hraise _

theorem duskKeeps_duskPass (s : State) (hits : List DuskHit) : DuskKeeps s (s.duskPass hits) := .foldl duskKeeps_duskRaise hits s

theorem duskKeeps_duskNominal (s : State) (units : List (Nat × Nat)) : DuskKeeps s (s.duskNominal units) :=
  .foldl (fun s u => .setSummary s u _) units s

theorem duskKeeps_duskClassify (s : State) (nominal stress : List (Nat × Nat)) (full : Bool) :
    DuskKeeps s (s.duskClassify nominal stress full) :=
  (DuskKeeps.foldl (fun s u => .setSummary s u _) _ s).trans (.foldl (fun s _ => .setSummary s _ _) _ _)

theorem duskKeeps_setStale (s : State) : DuskKeeps s s.setStale := by
  refine .foldl (fun s l => .keepF s (not_mem_duskRegs ?_) 1) _ s
  simp only [Fld.key, F.PAD_STATUS.STALE]
  omega

theorem duskKeeps_setSite (s : State) (p st : Nat) : DuskKeeps s (s.setSite p st) := by
  unfold setSite
  dsimp only
  split
  · exact ⟨fun _ _ => rfl, rfl, rfl, rfl, rfl⟩
  · unfold writeStates
    refine ((DuskKeeps.nowF _ (not_mem_duskRegs ?_) _).trans (.nowF _ (not_mem_duskRegs ?_) _)).trans (.nowF _ (by decide) _)
    · simp only [Fld.key, F.ROW_MAP.SITE_STATE]
      omega
    · simp only [Fld.key, F.ROW_MAP.SPARE_COUNT]
      omega

theorem duskKeeps_degrade (s : State) (row : Nat) : DuskKeeps s (s.degrade row) := by
  unfold degrade
  split
  · exact .refl s
  · exact (DuskKeeps.keepF s (f := F.REPAIR_STATUS.DEGRADED) (by decide) 1).trans ⟨fun _ _ => getF_event .., rfl, rfl, rfl, rfl⟩

theorem duskKeeps_fenceSite (s : State) (p : Nat) : DuskKeeps s (s.fenceSite p) := by
  have hnow (t : State) : DuskKeeps t { t with grid := { t.grid with fencedNow := NSet.insert t.grid.fencedNow p } } :=
    ⟨fun _ _ => rfl, rfl, rfl, rfl, rfl⟩
  have hfence : DuskKeeps s (({ s.setSite p 2 with
      grid := { (s.setSite p 2).grid with fencedNow := NSet.insert (s.setSite p 2).grid.fencedNow p } }).keepF F.REPAIR_STATUS.SUBST_PENDING 1) :=
    ((duskKeeps_setSite s p 2).trans (hnow _)).trans (.keepF _ (by decide) 1)
  unfold fenceSite
  dsimp only
  split
  · exact .refl s
  · split
    · exact hfence
    · exact hfence.trans (duskKeeps_degrade ..)

theorem duskKeeps_duskFence (s : State) (u : Nat × Nat) : DuskKeeps s (s.duskFence u) := by
  unfold duskFence
  split
  · exact duskKeeps_fenceSite ..
  · exact .refl s

/-! ### A dusk test begins and ends (R336-R338) -/

/-- The memory that a dusk test has overwritten (R337). -/
def duskMem (s : State) : MemSt := { s.mem with
  pad := [], image := [], loam := [], trans := [], cache := [], garbled := some (s.step.attempt + 1), wipes := s.mem.wipes + 1 }

theorem duskBegin_begins (s : State) : s.duskBegin.mem = s.duskMem ∧ s.duskBegin.win = s.win ∧
    s.duskBegin.step.attempt = s.step.attempt + 1 ∧ s.duskBegin.getF F.DUSK_STATUS.RUNNING = 1 ∧
    s.fieldsBut s.duskBegin [F.DUSK_STATUS.RUNNING] := by
  obtain ⟨v, hv⟩ : ∃ v : State, v = { s with step := { s.step with attempt := s.step.attempt + 1 }, mem := s.duskMem } := ⟨_, rfl⟩
  have hparcels (t : State) (ks : List Nat) :
      { ks.foldl (fun s k => s.modParcel k fun x => { x with failed := true }) t with ckpt := t.ckpt } = t := by
    refine List.foldlRecOn (motive := fun u : State => { u with ckpt := t.ckpt } = t) _ _ rfl fun u hu k _ => ?_
    refine Eq.trans ?_ hu
    unfold modParcel
    split
    · rfl
    · rfl
  obtain ⟨w, hw⟩ : ∃ w, w = (v.undrained.map (·.1)).foldl (fun s k => s.modParcel k fun x => { x with failed := true }) v := ⟨_, rfl⟩
  have hframe : { w with ckpt := v.ckpt } = v := by
    rw [hw]
    exact hparcels v _
  have heq : s.duskBegin = (if w.undrained.isEmpty then w else w.modCkpt fun c => { c with broken := true }).keepF F.DUSK_STATUS.RUNNING 1 := by
    rw [hw, hv]
    rfl
  obtain ⟨x, hx⟩ : ∃ x, x = if w.undrained.isEmpty then w else w.modCkpt fun c => { c with broken := true } := ⟨_, rfl⟩
  have hxframe : { x with ckpt := v.ckpt } = v := by
    rw [hx]
    split
    · exact hframe
    · exact hframe
  rw [← hx] at heq
  have hxv (y : State) (h : { x with ckpt := v.ckpt } = y) : x.mem = y.mem ∧ x.win = y.win ∧ x.step = y.step ∧ x.regs = y.regs :=
    ⟨(congrArg State.mem h :), (congrArg State.win h :), (congrArg State.step h :), (congrArg State.regs h :)⟩
  obtain ⟨hmem, hwin, hstep, hregs⟩ := hxv v hxframe
  rw [heq]
  refine ⟨hmem.trans (by rw [hv]), hwin.trans (by rw [hv]), ?_, getF_keepF_same .., fun f hf => ?_⟩
  · exact (congrArg StepSt.attempt hstep).trans (by rw [hv])
  · rw [getF_keepF_other _ _ (hf _ (by simp))]
    exact getF_congr (hregs.trans (by rw [hv])) f

/-- The registers that show a dusk test as it ends (R338). -/
def duskShown (s : State) : State :=
  let t := (s.keepF F.DUSK_STATUS.RUNNING 0).keepF F.DUSK_STATUS.STAGE 0
  t.keepF F.DUSK_STATUS.LAST_MERIDIAN t.meridian

theorem duskShown_shows (s : State) : s.duskShown.getF F.DUSK_STATUS.RUNNING = 0 ∧ s.duskShown.getF F.DUSK_STATUS.STAGE = 0 ∧
    s.duskShown.getF F.MEM_STATUS.HORIZON_LOST = s.getF F.MEM_STATUS.HORIZON_LOST ∧
    s.duskShown.getF F.DUSK_STATUS.LAST_MERIDIAN = s.meridian % 2 ^ 48 ∧ s.duskShown.mem = s.mem := by
  have hmeridian : ((s.keepF F.DUSK_STATUS.RUNNING 0).keepF F.DUSK_STATUS.STAGE 0).meridian = s.meridian := by
    rw [meridian, getF_keepF_other _ _ (by decide), getF_keepF_other _ _ (by decide), meridian]
  rw [duskShown, hmeridian]
  refine ⟨?_, ?_, ?_, getF_keepF_same .., rfl⟩
  · rw [getF_keepF_other _ _ (by decide), getF_keepF_other _ _ (by decide), getF_keepF_same]
    rfl
  · rw [getF_keepF_other _ _ (by decide), getF_keepF_same]
    rfl
  · rw [getF_keepF_other _ _ (by decide), getF_keepF_other _ _ (by decide), getF_keepF_other _ _ (by decide)]

theorem duskEnd_ends (s : State) (nominal stress : List (Nat × Nat)) (full tempLow aborted : Bool) :
    let u := s.duskEnd nominal stress full tempLow aborted
    u.dusk = none ∧ u.getF F.DUSK_STATUS.RUNNING = 0 ∧ u.getF F.DUSK_STATUS.STAGE = 0 ∧ u.getF F.MEM_STATUS.HORIZON_LOST = 1 ∧
      u.getF F.DUSK_STATUS.LAST_MERIDIAN = s.meridian % 2 ^ 48 ∧ u.mem = s.mem := by
  have hfirst := (duskKeeps_duskClassify s nominal stress full).trans (duskKeeps_setStale _)
  obtain ⟨a, ha⟩ : ∃ a, a = (s.duskClassify nominal stress full).setStale := ⟨_, rfl⟩
  rw [← ha] at hfirst
  have hmeridian : (a.keepF F.MEM_STATUS.HORIZON_LOST 1).getF F.MERIDIAN_COUNT.COUNT = s.meridian :=
    (getF_keepF_other _ _ (by decide)).trans (hfirst.regs _ (by decide))
  have hlost : (a.keepF F.MEM_STATUS.HORIZON_LOST 1).getF F.MEM_STATUS.HORIZON_LOST = 1 := getF_keepF_same ..
  obtain ⟨b, hb⟩ : ∃ b, b = (nominal ++ stress).foldl duskFence (a.horizonLost none) := ⟨_, rfl⟩
  have hfences : DuskKeeps (a.keepF F.MEM_STATUS.HORIZON_LOST 1) b := by
    rw [hb]
    exact .foldl duskKeeps_duskFence (nominal ++ stress) _
  obtain ⟨hrunning, hstage, hkept, hlast, hmem⟩ := b.duskShown_shows
  obtain ⟨r, hr⟩ : ∃ r, s.duskEnd nominal stress full tempLow aborted =
      if b.duskShown.dusk.elim false (·.lost) then { b.duskShown with dusk := none } else { b.duskShown with dusk := none }.complete 0 0 r := by
    rw [hb, ha]
    exact ⟨_, rfl⟩
  obtain ⟨c, hc⟩ : ∃ c : State, c = { b.duskShown with dusk := none } := ⟨_, rfl⟩
  have hcs : c.regs = b.duskShown.regs ∧ c.mem = b.duskShown.mem ∧ c.dusk = none := by
    rw [hc]
    exact ⟨rfl, rfl, rfl⟩
  obtain ⟨hcregs, hcmem, hcdusk⟩ := hcs
  rw [← hc] at hr
  have hframe : { s.duskEnd nominal stress full tempLow aborted with queues := c.queues } = c := by
    rw [hr]
    split
    · rfl
    · exact complete_frame c 0 0 r
  have hF (f : Fld) : (s.duskEnd nominal stress full tempLow aborted).getF f = b.duskShown.getF f :=
    getF_congr ((congrArg State.regs hframe :).trans hcregs) f
  refine ⟨(congrArg State.dusk hframe :).trans hcdusk, (hF _).trans hrunning, (hF _).trans hstage, (hF _).trans ?_, (hF _).trans ?_,
    (congrArg State.mem hframe :).trans ?_⟩
  · rw [hkept, hfences.regs _ (by decide), hlost]
  · rw [hlast]
    exact congrArg (· % 2 ^ 48) ((hfences.regs _ (by decide)).trans hmeridian)
  · rw [hcmem, hmem, hfences.mem]
    exact hfirst.mem

/-- The words of an entry of queue 0 depend on its ring and the window alone (R281). -/
theorem entryWord_zero_congr {s t : State} (hbase : t.getF (F.MGMT_RING.BASE_PARCEL 0) = s.getF (F.MGMT_RING.BASE_PARCEL 0))
    (hentries : t.getF (F.MGMT_RING.ENTRIES 0) = s.getF (F.MGMT_RING.ENTRIES 0)) (hwin : t.win = s.win) (i k : Nat) :
    t.entryWord 0 i k = s.entryWord 0 i k := by
  have hq (u : State) : u.qBase 0 = u.getF (F.MGMT_RING.BASE_PARCEL 0) ∧
      u.qEntries 0 = if NSet.mem u.win.off 0 then 0 else u.getF (F.MGMT_RING.ENTRIES 0) := ⟨rfl, rfl⟩
  have haddr : t.entryAddr 0 i = s.entryAddr 0 i := by
    rw [entryAddr, entryAddr, (hq t).1, (hq t).2, (hq s).1, (hq s).2, hbase, hentries, hwin]
  rw [entryWord, entryWord, haddr, winWord, winWord, winGet, winGet, hwin]

theorem DuskKeeps.entryWord_eq {s t : State} (h : DuskKeeps s t) (i k : Nat) : t.entryWord 0 i k = s.entryWord 0 i k :=
  entryWord_zero_congr (h.regs _ (by decide)) (h.regs _ (by decide)) h.win i k

theorem entryWord_duskBegin (s : State) (i k : Nat) : s.duskBegin.entryWord 0 i k = s.entryWord 0 i k := by
  obtain ⟨-, hwin, -, -, hF⟩ := s.duskBegin_begins
  have hring (f : Fld) (h : f.key ≠ F.DUSK_STATUS.RUNNING.key) : s.duskBegin.getF f = s.getF f :=
    hF f fun g hg => by rwa [List.mem_singleton.1 hg]
  exact entryWord_zero_congr (hring _ (by decide)) (hring _ (by decide)) hwin i k

theorem turn_next {s : State} {i : Nat} (h : s.turn = some i) : s.nextEntry 0 = some i := by
  rw [turn] at h
  split at h
  · exact h
  · cases h

/-- The state after the nominal pass of a dusk test (R336). -/
def duskNominalDone (s : State) (hits : List DuskHit) : State :=
  (s.duskBegin.duskPass hits).duskNominal (s.duskBegin.reproduced (s.duskBegin.duskPass hits))

theorem duskCommand_eq {s v : State} {i : Nat} (hv : s.front = v) (hturn : v.turn = some i) (hop : v.opAt 0 i = 6) (hwait : v.mustWait = false)
    (hits : List DuskHit) : s.duskCommand hits = if !v.hasLease then v.complete 0 0x0006 0
      else if v.entryWord 0 i 4 / 2 ≠ 0 then v.complete 0 0x0001 0
      else if (v.duskNominalDone hits).entryWord 0 i 4 % 2 = 1 then
        (v.duskNominalDone hits).duskEnd (v.duskBegin.reproduced (v.duskBegin.duskPass hits)) [] false false false
      else { (v.duskNominalDone hits).keepF F.DUSK_STATUS.STAGE 3 with
        dusk := some { nominal := v.duskBegin.reproduced (v.duskBegin.duskPass hits) } } := by
  rw [duskCommand, hv, hturn]
  exact if_neg (by simp [hop, hwait])

theorem duskKeeps_duskNominalDone (s : State) (hits : List DuskHit) : DuskKeeps s.duskBegin (s.duskNominalDone hits) :=
  (duskKeeps_duskPass s.duskBegin hits).trans (duskKeeps_duskNominal ..)

/-- The coolant wait after the nominal pass (R336). -/
theorem duskWait_shows (s : State) (hits : List DuskHit) (d : DuskSt) :
    let u : State := { (s.duskNominalDone hits).keepF F.DUSK_STATUS.STAGE 3 with dusk := some d }
    u.getF F.DUSK_STATUS.RUNNING = 1 ∧ u.getF F.DUSK_STATUS.STAGE = 3 ∧ u.mem.pad = [] ∧ u.mem.loam = [] ∧ u.mem.trans = [] ∧
      u.step.attempt = s.step.attempt + 1 := by
  have hpass := s.duskKeeps_duskNominalDone hits
  obtain ⟨hmem, -, hattempt, hrunning, -⟩ := s.duskBegin_begins
  generalize s.duskNominalDone hits = w at *
  have hmem' := hpass.mem.trans hmem
  refine ⟨?_, getF_keepF_same w F.DUSK_STATUS.STAGE 3, (congrArg MemSt.pad hmem' :), (congrArg MemSt.loam hmem' :),
    (congrArg MemSt.trans hmem' :), hpass.attempt.trans hattempt⟩
  exact (getF_keepF_other w 3 (f := F.DUSK_STATUS.STAGE) (by decide)).trans ((hpass.regs _ (by decide)).trans hrunning)

theorem duskNominalOnly_ends (s : State) (hits : List DuskHit) (nominal : List (Nat × Nat)) :
    let u := (s.duskNominalDone hits).duskEnd nominal [] false false false
    u.dusk = none ∧ u.getF F.DUSK_STATUS.RUNNING = 0 ∧ u.getF F.MEM_STATUS.HORIZON_LOST = 1 ∧ u.mem.pad = [] ∧ u.mem.loam = [] := by
  obtain ⟨hmem, -⟩ := s.duskBegin_begins
  obtain ⟨hdusk, hoff, -, hlost, -, hsame⟩ := (s.duskNominalDone hits).duskEnd_ends nominal [] false false false
  have hmem' := hsame.trans ((s.duskKeeps_duskNominalDone hits).mem.trans hmem)
  exact ⟨hdusk, hoff, hlost, (congrArg MemSt.pad hmem' :), (congrArg MemSt.loam hmem' :)⟩

theorem entryWord_duskNominalDone (s : State) (hits : List DuskHit) (i k : Nat) :
    (s.duskNominalDone hits).entryWord 0 i k = s.entryWord 0 i k :=
  ((s.duskKeeps_duskNominalDone hits).entryWord_eq i k).trans (entryWord_duskBegin s i k)

end State

open State in
/-- Settles O39: the passes of a dusk test (R335-R338). -/
theorem duskTest : Obligations.DuskTest := by
  intro s hits
  refine ⟨?_, fun d reached hd => ?_⟩
  · intro i v hturn hop hwait
    have heq := duskCommand_eq (v := v) rfl hturn hop hwait (s.duskHits hits)
    clear_value v
    refine ⟨fun hlease => ?_, fun hlease hboth => ?_, fun hlease hnominal => ?_⟩
    · exact does_of_eq rfl (heq.trans (if_pos (by rw [hlease]; rfl))) (completed_complete (turn_next hturn) ..)
    · rw [if_neg (by simp [hlease]), if_neg (by rw [hboth]; decide), if_neg (by rw [entryWord_duskNominalDone, hboth]; decide)] at heq
      exact does_of_eq rfl heq ⟨rfl, duskWait_shows v (s.duskHits hits) _⟩
    · rw [if_neg (by simp [hlease]), if_neg (by rw [hnominal]; decide), if_pos (by rw [entryWord_duskNominalDone, hnominal])] at heq
      exact does_of_eq rfl heq (duskNominalOnly_ends v (s.duskHits hits) _)
  · have hpass := duskKeeps_duskPass s (s.duskHits hits)
    obtain ⟨only, hstress⟩ : ∃ only : List (Nat × Nat), s.duskStress (s.duskHits hits) reached =
        (only.foldl (fun s u => s.setSummary u { s.summary u with duskStress := satAdd 4 (s.summary u).duskStress 1 })
          (s.duskPass (s.duskHits hits))).duskEnd d.nominal only reached (!reached) false := by
      rw [duskStress, hd]
      exact ⟨_, rfl⟩
    obtain ⟨t, ht⟩ : ∃ t, t = only.foldl (fun s u => s.setSummary u { s.summary u with duskStress := satAdd 4 (s.summary u).duskStress 1 })
      (s.duskPass (s.duskHits hits)) := ⟨_, rfl⟩
    have hkeeps : DuskKeeps s t := by
      rw [ht]
      exact hpass.trans (.foldl (fun s u => .setSummary s u _) only _)
    rw [← ht] at hstress
    obtain ⟨hdusk, hoff, hstage, hlost, hlast, -⟩ := t.duskEnd_ends d.nominal only reached (!reached) false
    exact does_of_eq rfl hstress ⟨hdusk, hoff, hstage, hlost, hlast.trans (congrArg (· % 2 ^ 48) (hkeeps.regs _ (by decide)))⟩

end Sys2Proof.Machine

namespace Sys2Proof.Machine
namespace State

/-! ### The epoch advances (R222) -/

/-- Channels that await the first segment of an epoch. -/
def resetChans (s : State) (cs : List Nat) : State := cs.foldl (fun s c =>
  let s := s.setChan c { s.chan c with returned := 0, buffer := [] }
  (s.keepF (F.CHAN_STATUS.EXPECT_SSEQ c) 0).keepF (F.CHAN_STATUS.HELD_BLOCKS c) 0) s

/-- The register is none that a channel shows of its epoch. -/
def noChanEpoch (f : Fld) : Prop := ∀ c < 32, f.key ≠ (F.CHAN_STATUS.EXPECT_SSEQ c).key ∧ f.key ≠ (F.CHAN_STATUS.HELD_BLOCKS c).key

theorem resetChans_frame (s : State) {cs : List Nat} (hcs : ∀ c ∈ cs, c < 32) : { s.resetChans cs with regs := s.regs, base := s.base, sow := s.sow } = s ∧
    ∀ f, noChanEpoch f → (s.resetChans cs).getF f = s.getF f := by
  refine List.foldlRecOn (motive := fun u : State => { u with regs := s.regs, base := s.base, sow := s.sow } = s ∧
    ∀ f, noChanEpoch f → u.getF f = s.getF f) _ _ ⟨rfl, fun _ _ => rfl⟩ fun u hu c hc => ⟨hu.1, fun f hf => ?_⟩
  rw [getF_keepF_other _ _ (hf c (hcs c hc)).2, getF_keepF_other _ _ (hf c (hcs c hc)).1]
  exact hu.2 f hf

theorem advanceEpoch_eq (s : State) : s.advanceEpoch =
    let u := ((s.keepF F.SOW_STATUS.EPOCH (s.epoch + 1)).incLive F.SOW_STATUS.EPOCH_CHANGES 1).resetChans (List.range 32)
    u.event 0x0008 srcModule 0 u.epoch := rfl

/-- What an advance of the epoch writes: the epoch, its count, and what each channel shows. -/
theorem advanceEpoch_frame (s : State) : { s.advanceEpoch with regs := s.regs, base := s.base, recs := s.recs, sow := s.sow } = s ∧
    ∀ f : Fld, f.key ≠ F.SOW_STATUS.EPOCH.key → f.key ≠ F.SOW_STATUS.EPOCH_CHANGES.key → noChanEpoch f →
      s.advanceEpoch.getF f = s.getF f := by
  obtain ⟨v, hv⟩ : ∃ v, v = (s.keepF F.SOW_STATUS.EPOCH (s.epoch + 1)).incLive F.SOW_STATUS.EPOCH_CHANGES 1 := ⟨_, rfl⟩
  have hvframe : { v with regs := s.regs, base := s.base } = s := by
    rw [hv]
    rfl
  obtain ⟨hframe, hF⟩ := v.resetChans_frame (cs := List.range 32) fun c hc => List.mem_range.1 hc
  rw [advanceEpoch_eq, ← hv]
  generalize v.resetChans (List.range 32) = u at *
  refine ⟨?_, fun f h1 h2 hf => ?_⟩
  · exact (congrArg (fun t : State => { t with regs := s.regs, base := s.base, recs := s.recs, sow := s.sow }) hframe :).trans
      (congrArg (fun t : State => { t with recs := s.recs, sow := s.sow }) hvframe :)
  · rw [getF_event, hF f hf, hv, getF_incLive_other _ _ h2, getF_keepF_other _ _ h1]

/-! ### A lease accepted (R356, R361) -/

/-- The registers of queue 0's ring, and those on which a lease's validity rests. -/
@[reducible] def leaseRegs : List Nat := [(F.MGMT_RING.ENTRIES 0).key, (F.QUEUE_STATE.GIVE 0).key, F.MODE_CFG.PAIRED.key,
  F.MERIDIAN_STATUS.LOCKED.key, F.MERIDIAN_COUNT.COUNT.key]

/-- Queue 0, the leases that the controllers hold, and what their validity rests on stay as they are. -/
structure LeaseKeeps (s t : State) : Prop where
  regs : ∀ f : Fld, f.key ∈ leaseRegs → t.getF f = s.getF f
  win : t.win = s.win
  queues : t.queues = s.queues
  obs : t.obs = s.obs
  north : t.twin.north = s.twin.north
  south : t.twin.south = s.twin.south
  newest : t.twin.newest = s.twin.newest

namespace LeaseKeeps
variable {s t u : State}

theorem refl (s : State) : LeaseKeeps s s := ⟨fun _ _ => rfl, rfl, rfl, rfl, rfl, rfl, rfl⟩

theorem trans (h : LeaseKeeps s t) (k : LeaseKeeps t u) : LeaseKeeps s u :=
  ⟨fun f hf => (k.regs f hf).trans (h.regs f hf), k.win.trans h.win, k.queues.trans h.queues, k.obs.trans h.obs, k.north.trans h.north,
    k.south.trans h.south, k.newest.trans h.newest⟩

/-- Queue 0 has the same next entry. -/
theorem nextEntry_eq (h : LeaseKeeps s t) : t.nextEntry 0 = s.nextEntry 0 := by
  have hentries (v : State) : v.qEntries 0 = if NSet.mem v.win.off 0 then 0 else v.getF (F.MGMT_RING.ENTRIES 0) := rfl
  rw [nextEntry, nextEntry, hasNext, hasNext, hentries, hentries, qGive, qGive, h.regs _ (by decide), h.regs _ (by decide), h.win,
    queue_congr h.queues]

/-- The same leases fit now. -/
theorem leaseFits_eq (h : LeaseKeeps s t) (l : Lease) : t.leaseFits l = s.leaseFits l := by
  have hkeys : t.leaseKeys = s.leaseKeys := by
    have hcount : t.leaseKeyCount = s.leaseKeyCount := by rw [leaseKeyCount, leaseKeyCount, h.obs]
    rw [leaseKeys, leaseKeys, h.obs, hcount]
  have hpaired : t.isPaired = s.isPaired := congrArg (· == 1) (h.regs _ (by decide))
  have hlocked : t.locked = s.locked := congrArg (· == 1) (h.regs _ (by decide))
  have hmeridian : t.meridian = s.meridian := h.regs _ (by decide)
  rw [leaseFits, leaseFits, hkeys, roleAgrees, roleAgrees, hpaired, hlocked, hmeridian]

end LeaseKeeps

theorem leaseKeeps_lockFalls (s : State) : LeaseKeeps s (s.nowF F.TWIN_LOCK_STATUS.LOCKED 0) := by
  refine ⟨fun f hf => getF_nowF_other _ _ fun h => ?_, rfl, rfl, rfl, rfl, rfl, rfl⟩
  rw [h] at hf
  exact absurd hf (by decide)

theorem leaseKeeps_advanceEpoch (s : State) : LeaseKeeps s s.advanceEpoch := by
  obtain ⟨hframe, hF⟩ := s.advanceEpoch_frame
  generalize s.advanceEpoch = u at *
  refine ⟨fun f hf => hF f (fun h => ?_) (fun h => ?_) fun c hc => ?_, (congrArg State.win hframe :), (congrArg State.queues hframe :),
    (congrArg State.obs hframe :), (congrArg (fun t : State => t.twin.north) hframe :), (congrArg (fun t : State => t.twin.south) hframe :),
    (congrArg (fun t : State => t.twin.newest) hframe :)⟩
  · rw [h] at hf
    exact absurd hf (by decide)
  · rw [h] at hf
    exact absurd hf (by decide)
  · simp only [leaseRegs, List.mem_cons, List.not_mem_nil, or_false] at hf
    obtain h | h | h | h | h := hf
    all_goals
      rw [h]
      simp only [Fld.key, F.MGMT_RING.ENTRIES, F.QUEUE_STATE.GIVE, F.MODE_CFG.PAIRED, F.MERIDIAN_STATUS.LOCKED, F.MERIDIAN_COUNT.COUNT,
        F.CHAN_STATUS.EXPECT_SSEQ, F.CHAN_STATUS.HELD_BLOCKS]
      omega

theorem leaseKeeps_takeover (s : State) : LeaseKeeps s s.takeover := by
  have hclear (t : State) : LeaseKeeps t { t with twin := { t.twin with parcels := [] }, time := { t.time with notices := [] } } :=
    ⟨fun _ _ => rfl, rfl, rfl, rfl, rfl, rfl, rfl⟩
  exact ((leaseKeeps_lockFalls s).trans (hclear _)).trans (leaseKeeps_advanceEpoch _)

theorem leaseKeeps_tellLease (s : State) : LeaseKeeps s s.tellLease := by
  unfold tellLease
  split
  · unfold twinSend
    split
    · exact ⟨fun _ _ => rfl, rfl, rfl, rfl, rfl, rfl, rfl⟩
    · exact .refl s
  · exact .refl s

/-- The controller in charge holds the lease, which is the newest accepted (R356). -/
def tookLease (s : State) (l : Lease) : State := { s with twin := { s.twin with
  north := if s.inCharge == 0 then some l else s.twin.north, south := if s.inCharge == 0 then s.twin.south else some l
  newest := some l, expiredPosted := false, equalLead := false } }

theorem tookLease_took (s : State) (l : Lease) : (s.tookLease l).twin.newest = some l ∧
    (s.inCharge = 0 → (s.tookLease l).twin.north = some l ∧ (s.tookLease l).twin.south = s.twin.south) ∧
    (s.inCharge ≠ 0 → (s.tookLease l).twin.south = some l ∧ (s.tookLease l).twin.north = s.twin.north) ∧
    (s.tookLease l).nextEntry 0 = s.nextEntry 0 ∧ (s.tookLease l).queues = s.queues ∧ ∀ o, (s.tookLease l).leaseFits o = s.leaseFits o :=
  ⟨rfl, fun h => ⟨if_pos (beq_iff_eq.2 h), if_pos (beq_iff_eq.2 h)⟩,
    fun h => ⟨if_neg (by simpa using h), if_neg (by simpa using h)⟩, rfl, rfl, fun _ => rfl⟩

theorem leaseKeeps_acceptLease (s : State) (l : Lease) : LeaseKeeps (s.tookLease l) (s.acceptLease l) := by
  have heq : s.acceptLease l = (let w := if s.newestHeld.elim 3 (·.role) = 2 ∧ l.role = 1 then (s.tookLease l).takeover else s.tookLease l
      (if l.role = 1 ∨ l.role = 2 then w else w.nowF F.TWIN_LOCK_STATUS.LOCKED 0).tellLease) := rfl
  rw [heq]
  generalize s.tookLease l = v
  dsimp only
  refine LeaseKeeps.trans ?_ (leaseKeeps_tellLease _)
  have htaken : LeaseKeeps v (if s.newestHeld.elim 3 (·.role) = 2 ∧ l.role = 1 then v.takeover else v) := by
    split
    · exact leaseKeeps_takeover v
    · exact .refl v
  split
  · exact htaken
  · exact htaken.trans (leaseKeeps_lockFalls _)

theorem acceptLease_accepts (s : State) (l : Lease) : let u := s.acceptLease l
    u.twin.newest = some l ∧ (s.inCharge = 0 → u.twin.north = some l ∧ u.twin.south = s.twin.south) ∧
      (s.inCharge ≠ 0 → u.twin.south = some l ∧ u.twin.north = s.twin.north) ∧ u.nextEntry 0 = s.nextEntry 0 ∧ u.queues = s.queues ∧
      ∀ o, u.leaseFits o = s.leaseFits o := by
  have hkeeps := s.leaseKeeps_acceptLease l
  obtain ⟨hnewest, hnorth, hsouth, hnext, hqueues, hfits⟩ := s.tookLease_took l
  exact ⟨hkeeps.newest.trans hnewest, fun h => ⟨hkeeps.north.trans (hnorth h).1, hkeeps.south.trans (hnorth h).2⟩,
    fun h => ⟨hkeeps.south.trans (hsouth h).1, hkeeps.north.trans (hsouth h).2⟩, hkeeps.nextEntry_eq.trans hnext,
    hkeeps.queues.trans hqueues, fun o => (hkeeps.leaseFits_eq o).trans (hfits o)⟩

theorem leaseRecord_records (s : State) (code detail : Nat) : ∃ r, (s.leaseRecord code detail).recs = s.recs ++ [r] ∧ r.code = code ∧
    r.d6 = detail ∧ (s.leaseRecord code detail).twin = s.twin ∧ (s.leaseRecord code detail).nextEntry 0 = s.nextEntry 0 ∧
    (s.leaseRecord code detail).queues = s.queues := by
  rw [leaseRecord, raise_eq]
  exact ⟨_, rfl, rfl, rfl, rfl, rfl, rfl⟩

section
variable {s v : State} {i : Nat} {l : Lease} (hv : s.front = v) (hturn : v.turn = some i) (hop : v.opAt 0 i = 5)
  (hlen : v.entryLength 0 i ≠ 0) (hrange : v.rangeStatus (v.entryWindow 0 i) 192 true = 0)
  (hl : Lease.ofBytes (v.winGet (v.entryWindow 0 i) 192) = l)
include hv hturn hop hlen hrange hl

theorem leaseCommand_accepts (hok : v.leaseRefusal l = none) : s.leaseCommand = (v.acceptLease l).complete 0 0 l.expiry := by
  rw [leaseCommand, hv, hturn]
  dsimp only
  rw [if_neg (by omega), if_neg hlen, if_neg (by simp [hrange]), hl, hok]

theorem leaseCommand_refuses {why : Nat} (hwhy : v.leaseRefusal l = some why) :
    s.leaseCommand = (v.leaseBad why l.seq).complete 0 0x0006 0 := by
  rw [leaseCommand, hv, hturn]
  dsimp only
  rw [if_neg (by omega), if_neg hlen, if_neg (by simp [hrange]), hl, hwhy]

end

theorem leaseCommand_empty {s v : State} {i : Nat} (hv : s.front = v) (hturn : v.turn = some i) (hop : v.opAt 0 i = 5)
    (hlen : v.entryLength 0 i = 0) : s.leaseCommand = v.complete 0 0 0 := by
  rw [leaseCommand, hv, hturn]
  dsimp only
  rw [if_neg (by omega), if_pos hlen]

theorem witnessCommand_none {s v : State} {i : Nat} (hv : s.front = v) (hturn : v.turn = some i) (hop : v.opAt 0 i = 7)
    (hlease : v.hasLease = true) (hnone : v.obs.witnesses.find? (fun w => w.1 == v.entryWord 0 i 4) = none) :
    s.witnessCommand = v.complete 0 0 0 := by
  rw [witnessCommand, hv, hturn]
  dsimp only
  rw [if_neg (by omega), if_neg (by simp [hlease]), hnone]

theorem witnessCommand_empty {s v : State} {i : Nat} (hv : s.front = v) (hturn : v.turn = some i) (hop : v.opAt 0 i = 7)
    (hlease : v.hasLease = true) (hlen : v.entryLength 0 i = 0) : s.witnessCommand = v.complete 0 0 0 := by
  rw [witnessCommand, hv, hturn]
  dsimp only
  rw [if_neg (by omega), if_neg (by simp [hlease])]
  split
  · rfl
  · exact if_pos hlen

theorem witnessCommand_copies {s v : State} {i : Nat} {w : Nat × List Byte} (hv : s.front = v) (hturn : v.turn = some i)
    (hop : v.opAt 0 i = 7) (hlease : v.hasLease = true) (hlen : v.entryLength 0 i ≠ 0)
    (hw : v.obs.witnesses.find? (fun w => w.1 == v.entryWord 0 i 4) = some w)
    (hrange : v.rangeStatus (v.entryWindow 0 i) w.2.length false = 0) :
    s.witnessCommand = (v.winPut (v.entryWindow 0 i) w.2).complete 0 0 w.2.length := by
  rw [witnessCommand, hv, hturn]
  dsimp only
  rw [if_neg (by omega), if_neg (by simp [hlease]), hw]
  dsimp only
  rw [if_neg hlen, if_neg (by simp [hrange])]

/-! ### Leases that expire or differ (R357) -/

theorem leaseExpiry_expires {s : State} {l : Lease} (hheld : s.newestHeld = some l) (hexpired : l.expiry ≤ s.meridian)
    (hposted : s.twin.expiredPosted = false) :
    s.leaseExpiry = { s with twin := { s.twin with expiredPosted := true } }.leaseRecord 0x0701 l.seq := by
  rw [leaseExpiry, hheld]
  exact if_pos ⟨hexpired, by simp [hposted]⟩

/-- Both controllers hold the lease. -/
def bothHold (s : State) (l : Option Lease) : State := { s with twin := { s.twin with north := l, south := l } }

theorem validOf_some {s : State} {o : Option Lease} {l : Lease} (h : s.validOf o = some l) : o = some l :=
  (Option.filter_eq_some_iff.1 h).1

section
variable {s : State} {fromSouth : Bool} {l : Lease} (hnorth : s.controllerLost 0 = false) (hsouth : s.controllerLost 1 = false)
  (hmine : s.validOf (if fromSouth then s.twin.south else s.twin.north) = some l)
include hnorth hsouth hmine

theorem leaseExchange_takes (htheirs : s.validOf (if fromSouth then s.twin.north else s.twin.south) = none) :
    s.leaseExchange fromSouth = s.bothHold (some l) := by
  have hl := validOf_some hmine
  rw [leaseExchange]
  dsimp only
  rw [if_neg (by simp [hnorth, hsouth]), hmine, htheirs, hl]
  dsimp only
  rw [ite_self]
  rfl

theorem leaseExchange_wins {o : Lease} (htheirs : s.validOf (if fromSouth then s.twin.north else s.twin.south) = some o)
    (hraw : o.raw ≠ l.raw) (hseq : o.seq < l.seq) :
    ∃ d, s.leaseExchange fromSouth = ((s.bothHold (some l)).leaseRecord 0x0702 d).leaseRecord 0x0702 d := by
  have hl := validOf_some hmine
  refine ⟨s.twin.north.elim 0 (·.seq) % 2 ^ 32 + s.twin.south.elim 0 (·.seq) % 2 ^ 32 * 2 ^ 32, ?_⟩
  rw [leaseExchange]
  dsimp only
  rw [if_neg (by simp [hnorth, hsouth]), hmine, htheirs, hl]
  dsimp only
  rw [if_neg (Ne.symm hraw), if_pos hseq, ite_self]
  rfl

end

end State

open State in
/-- Settles O38: leases and the step witness (R355-R357, R422). -/
theorem leasesAndWitness : Obligations.LeasesAndWitness := by
  refine ⟨?_, fun s => ⟨fun l hheld hexpired hposted => ?_, ?_⟩⟩
  · intro s i v a l hturn
    have hv : s.front = v := rfl
    have hl : Lease.ofBytes (v.winGet (v.entryWindow 0 i) 192) = l := rfl
    have ha : v.entryWindow 0 i = a := rfl
    clear_value l a v
    subst ha
    have hnext := turn_next hturn
    refine ⟨fun hop hlen => ?_, fun hop hlen hrange => ⟨fun hok => ?_, fun why hwhy => ?_⟩, fun hop hlease hlen => ?_,
      fun hop hlease hlen => ⟨fun w hw hrange => ?_, fun hnone => ?_⟩⟩
    · exact does_of_eq rfl (leaseCommand_empty hv hturn hop hlen) (completed_complete hnext ..)
    · obtain ⟨hnewest, hnorth, hsouth, hnext', hqueues, -⟩ := v.acceptLease_accepts l
      have hcommand := leaseCommand_accepts hv hturn hop hlen hrange hl hok
      generalize v.acceptLease l = t at *
      have htwin : (t.complete 0 0 l.expiry).twin = t.twin := (congrArg State.twin (complete_frame t 0 0 l.expiry) :)
      refine does_of_eq rfl hcommand ⟨?_, fun h => ?_, fun h => ?_, ?_⟩
      · rw [htwin, hnewest]
      · rw [htwin]
        exact hnorth h
      · rw [htwin]
        exact hsouth h
      · rw [fin_complete (hnext'.trans hnext), queue_congr hqueues]
    · obtain ⟨r, hrecs, hcode, hdetail, htwin, hnext', hqueues⟩ := v.leaseRecord_records 0x0703 (why + l.seq % 2 ^ 48 * 2 ^ 16)
      have hcommand := leaseCommand_refuses hv hturn hop hlen hrange hl hwhy
      rw [leaseBad] at hcommand
      generalize v.leaseRecord 0x0703 (why + l.seq % 2 ^ 48 * 2 ^ 16) = t at *
      have hframe := complete_frame t 0 0x0006 0
      refine does_of_eq rfl hcommand ⟨(congrArg State.twin hframe :).trans htwin, ⟨r, (congrArg State.recs hframe :).trans hrecs, hcode, hdetail⟩, ?_⟩
      rw [fin_complete (hnext'.trans hnext), queue_congr hqueues]
    · exact does_of_eq rfl (witnessCommand_empty hv hturn hop hlease hlen) (completed_complete hnext ..)
    · refine does_of_eq rfl (witnessCommand_copies hv hturn hop hlease hlen hw hrange) ⟨?_, fin_complete_winPut hnext ..⟩
      rw [winGet_complete]
      exact winGet_winPut_same ..
    · exact does_of_eq rfl (witnessCommand_none hv hturn hop hlease hnone) (completed_complete hnext ..)
  · obtain ⟨r, hrecs, hcode, hdetail, htwin, -⟩ := { s with twin := { s.twin with expiredPosted := true } }.leaseRecord_records 0x0701 l.seq
    exact does_of_eq rfl (leaseExpiry_expires hheld hexpired hposted) ⟨htwin, r, hrecs, hcode, hdetail⟩
  · intro fromSouth l mine theirs hnorth hsouth hmine
    have hboth (t : State) (h : t = s.bothHold (some l)) : t.twin.north = some l ∧ t.twin.south = some l ∧ t.recs = s.recs := by
      rw [h]
      exact ⟨rfl, rfl, rfl⟩
    refine ⟨fun htheirs => does_of_eq rfl (leaseExchange_takes hnorth hsouth hmine htheirs) (hboth _ rfl), fun o htheirs hraw hseq => ?_⟩
    obtain ⟨d, hd⟩ := leaseExchange_wins hnorth hsouth hmine htheirs hraw hseq
    obtain ⟨hn, hs, hsame⟩ := hboth _ rfl
    generalize s.bothHold (some l) = t at *
    obtain ⟨r, hrecs, hcode, -, htwin, -⟩ := t.leaseRecord_records 0x0702 d
    obtain ⟨r', hrecs', hcode', -, htwin', -⟩ := (t.leaseRecord 0x0702 d).leaseRecord_records 0x0702 d
    refine does_of_eq rfl hd ⟨by rw [htwin', htwin, hn], by rw [htwin', htwin, hs], r, r', ?_, hcode, hcode'⟩
    rw [hrecs', hrecs, hsame, List.append_assoc]
    rfl

end Sys2Proof.Machine

namespace Sys2Proof.Machine
namespace State

/-! ### What a step start leaves (R22, R135, R227) -/

/-- What the parts of a step start that show it, clear its pads and claim its segments leave. -/
structure StartKeeps (s t : State) : Prop where
  cores : s.SameCores t
  fab : t.fab = s.fab
  bench : t.hv.bench = s.hv.bench
  queues : t.queues = s.queues
  base : t.base.isSome = s.base.isSome
  furrow : t.furrow = s.furrow

namespace StartKeeps
variable {s t u : State}

theorem refl (s : State) : StartKeeps s s := ⟨.refl s, rfl, rfl, rfl, rfl, rfl⟩

theorem trans (h : StartKeeps s t) (k : StartKeeps t u) : StartKeeps s u :=
  ⟨h.cores.trans k.cores, k.fab.trans h.fab, k.bench.trans h.bench, k.queues.trans h.queues, k.base.trans h.base, k.furrow.trans h.furrow⟩

theorem foldl {β : Type} {g : State → β → State} (hg : ∀ (s : State) (x : β), StartKeeps s (g s x)) (xs : List β) (s : State) :
    StartKeeps s (xs.foldl g s) :=
  List.foldlRecOn (motive := fun t => StartKeeps s t) _ _ (.refl s) fun _ h x _ => h.trans (hg _ x)

theorem keepF (s : State) {f : Fld} (hf : F.FURROW_INDEX.INDEX.key ≠ f.key) (v : Nat) : StartKeeps s (s.keepF f v) :=
  ⟨⟨rfl, rfl⟩, rfl, rfl, rfl, Option.isSome_map, getF_keepF_other _ _ hf⟩

end StartKeeps

theorem startKeeps_startPads (s : State) (lid : Nat) : StartKeeps s (s.startPads lid) := by
  have hmem (t : State) (m : MemSt) : StartKeeps t { t with mem := m } := ⟨⟨rfl, rfl⟩, rfl, rfl, rfl, rfl, rfl⟩
  unfold startPads
  refine ((StartKeeps.foldl (fun t b => ?_) _ s).trans (hmem _ _)).trans (.keepF _ ?_ 0)
  · split
    · split
      · exact hmem _ _
      · exact .refl t
    · exact hmem _ _
  · simp only [Fld.key, F.FURROW_INDEX.INDEX, F.PAD_STATUS.STALE]
    omega

theorem startKeeps_showGleaners (s : State) (on : Bool) : StartKeeps s (s.showGleaners on) := by
  refine .foldl (fun t h => ?_) _ s
  split
  · refine .foldl (fun v k => .keepF v ?_ _) _ t
    simp only [Fld.key, F.FURROW_INDEX.INDEX, F.GL_STATUS.ACTIVE]
    omega
  · exact .refl t

theorem startKeeps_event (s : State) (code typ id d : Nat) : StartKeeps s (s.event code typ id d) :=
  ⟨⟨rfl, rfl⟩, rfl, rfl, rfl, rfl, getF_event ..⟩

theorem startKeeps_setSow (s : State) (x : SowSt) : StartKeeps s { s with sow := x } := ⟨⟨rfl, rfl⟩, rfl, rfl, rfl, rfl, rfl⟩

theorem startKeeps_freeSeg (s : State) (c : Nat) (g : Seg) : StartKeeps s (s.freeSeg c g) :=
  (startKeeps_setSow s _).trans (.keepF _ (by simp only [Fld.key, F.FURROW_INDEX.INDEX, F.CHAN_STATUS.HELD_BLOCKS]; omega) _)

theorem startKeeps_tryClaim (s : State) (c : Nat) (b : Buffered) : StartKeeps s (s.tryClaim c b) := by
  have hmismatch (t : State) : StartKeeps t (t.incLive (F.MISMATCH.COUNT c) 1) := .keepF t
    (by simp only [Fld.key, F.FURROW_INDEX.INDEX, F.MISMATCH.COUNT]; omega) _
  simp only [tryClaim]
  split
  · exact .refl s
  · split
    · exact .refl s
    · split
      · split
        · exact (hmismatch s).trans (startKeeps_freeSeg ..)
        · exact startKeeps_setSow ..
      · exact ((startKeeps_setSow s _).trans (hmismatch (s.modSeg c b.seg.sseq fun b => { b with mismatch := true }))).trans
          (startKeeps_event ..)

theorem startKeeps_claimAll (s : State) : StartKeeps s s.claimAll := by
  unfold claimAll
  split
  · exact .refl s
  · exact .foldl (fun t c => .foldl (fun v b => startKeeps_tryClaim v c b) _ t) _ s

/-- The step record with which an attempt begins (R22, R25). -/
def begunStep (s : State) (i : Nat) (eval : Bool) : StepSt :=
  let seed := s.entryWord 0 i 4
  let word := s.entryWord 0 i 5
  let j := word % 16
  { StepSt.zero with
    phase := .staging, begun := true, eval := eval, attempt := s.step.attempt + 1, program := j, seed := seed, word := word,
    stepS := furrowAdd s.furrow 1, length := bitsOf (s.slotMem ((s.programPlot j).getD 0) j) 16 40, q0idx := some i
    asLead := s.role == 1, clip := s.getF F.HV_CLIP.CLIP
    slice := (if eval then 0 else min (s.plan.ckpt.elim 0 (·.slice)) (s.undrained.length * parcelBytes)), skip := s.step.skip
    lastWords := s.step.lastWords, lastLoose := s.step.lastLoose }

theorem beginStep_begins (s : State) (i : Nat) (eval : Bool) : let u := s.beginStep i eval
    u.step = s.begunStep i eval ∧ u.plots = [] ∧ u.fab = FabricSt.zero ∧ u.hv.bench = [] ∧ u.base.isSome = true ∧ u.furrow = s.furrow ∧
      u.queues = (s.takeEntry 0).queues := by
  obtain ⟨v, hv⟩ : ∃ v : State, v = { s.takeEntry 0 with step := s.begunStep i eval, base := some s.regs, plots := [] } := ⟨_, rfl⟩
  have hpeaks : StartKeeps v ((List.range 256).foldl (fun s n => s.keepF (F.REGION_DEMAND.MEAS_PEAK n) 0) v) :=
    .foldl (fun t n => .keepF t (by simp only [Fld.key, F.FURROW_INDEX.INDEX, F.REGION_DEMAND.MEAS_PEAK]; omega) 0) _ v
  obtain ⟨w, hw⟩ : ∃ w, w = (List.range 256).foldl (fun s n => s.keepF (F.REGION_DEMAND.MEAS_PEAK n) 0) v := ⟨_, rfl⟩
  have heq : s.beginStep i eval = let x := w.clearFabric.startGleaners
      ((x.plotList.foldl startPads x).showGleaners true).claimAll := by
    rw [hw, hv]
    rfl
  obtain ⟨x, hx⟩ : ∃ x, x = w.clearFabric.startGleaners := ⟨_, rfl⟩
  rw [← hw] at hpeaks
  have hclear : x.step = w.step ∧ x.plots = w.plots ∧ x.fab = FabricSt.zero ∧ x.hv.bench = [] ∧ x.queues = w.queues ∧ x.base = w.base ∧
      x.furrow = w.furrow := by
    rw [hx]
    exact ⟨rfl, rfl, rfl, rfl, rfl, rfl, rfl⟩
  have hbegun : v.step = s.begunStep i eval ∧ v.plots = [] ∧ v.base.isSome = true ∧ v.furrow = s.furrow ∧ v.queues = (s.takeEntry 0).queues := by
    rw [hv]
    exact ⟨rfl, rfl, rfl, rfl, rfl⟩
  obtain ⟨hstep, hplots, hfab, hbench, hqueues, hbase, hfurrow⟩ := hclear
  obtain ⟨hstep', hplots', hbase', hfurrow', hqueues'⟩ := hbegun
  have hrest : StartKeeps x (s.beginStep i eval) := by
    rw [heq, ← hx]
    exact ((StartKeeps.foldl startKeeps_startPads x.plotList x).trans (startKeeps_showGleaners _ true)).trans (startKeeps_claimAll _)
  exact ⟨by rw [hrest.cores.1, hstep, hpeaks.cores.1, hstep'], by rw [hrest.cores.2, hplots, hpeaks.cores.2, hplots'],
    hrest.fab.trans hfab, hrest.bench.trans hbench, by rw [hrest.base, hbase, hpeaks.base, hbase'],
    by rw [hrest.furrow, hfurrow, hpeaks.furrow, hfurrow'], by rw [hrest.queues, hqueues, hpeaks.queues, hqueues']⟩

/-! ### A step command that waits for a substitution, or is refused (R52, R59, R284) -/

section
variable {s v : State} {eval : Bool} {i : Nat} (hv : s.front = v) (hturn : v.turn = some i) (hop : v.opAt 0 i = if eval then 3 else 2)
  (hwait : v.mustWait = false)
include hv hturn hop hwait

theorem stepCommand_refused {st : Nat} (href : v.stepRefusal (v.entryWord 0 i 5 % 16) eval = some st) (kat : List Nat) :
    s.stepCommand eval kat = v.complete 0 st 0 := by
  rw [stepCommand, hv, hturn]
  dsimp only
  rw [if_neg (by simp [hop, hwait]), href]

theorem stepCommand_substitutes (hok : v.stepRefusal (v.entryWord 0 i 5 % 16) eval = none)
    (hsub : v.getF F.REPAIR_STATUS.SUBST_PENDING = 1) (kat : List Nat) :
    ((v.beginSubst kat).step.phase = .substituting → (v.beginSubst kat).migrated = false → s.stepCommand eval kat = v.beginSubst kat) ∧
      ((v.beginSubst kat).step.phase ≠ .substituting → s.stepCommand eval kat = (v.beginSubst kat).complete 0 0x0007 0) := by
  rw [stepCommand, hv, hturn]
  dsimp only
  rw [if_neg (by simp [hop, hwait]), hok]
  dsimp only
  rw [if_pos hsub]
  refine ⟨fun hphase hmigrated => ?_, fun hphase => if_pos hphase⟩
  rw [if_neg (not_not_intro hphase), if_neg (by simp [hmigrated])]

end

theorem nopCommand_eq {s v : State} {i : Nat} (hv : s.front = v) (hturn : v.turn = some i) : s.nopCommand =
    if v.opAt 0 i = 1 then v.complete 0 0 0 else if v.opAt 0 i = 0 ∨ 7 < v.opAt 0 i then v.complete 0 0x0001 0 else v := by
  rw [nopCommand, hv, turnOp, hturn]
  rfl

end State

open State in
/-- Settles O34: NOP, unassigned operations and the step commands of queue 0 (R22, R52, R59, R284). -/
theorem queueZeroCommands : Obligations.QueueZeroCommands := by
  refine ⟨?_, ?_⟩
  · intro s i v hturn
    refine ⟨fun hop => ?_, fun hop => ?_⟩
    · exact does_of_eq rfl ((nopCommand_eq rfl hturn).trans (if_pos hop)) (completed_complete (turn_next hturn) ..)
    · exact does_of_eq rfl ((nopCommand_eq rfl hturn).trans ((if_neg (show ¬ v.opAt 0 i = 1 by omega)).trans (if_pos hop))) (completed_complete (turn_next hturn) ..)
  · intro s kat c eval i hc v word j hturn hop hwait
    refine ⟨fun st href => ?_, fun hok hsub => ?_, ?_⟩
    · exact does_of_eq (exec_stepCommand hc s) (stepCommand_refused rfl hturn hop hwait href _) (completed_complete (turn_next hturn) ..)
    · obtain ⟨hstep, hplots, hfab, hbench, hbase, hfurrow, hqueues⟩ := v.beginStep_begins i eval
      refine does_of_eq (exec_stepCommand hc s) (stepCommand_begins _ hturn hop hwait hok hsub) ?_
      generalize v.beginStep i eval = u at *
      have hqueue : u.queue 0 = (v.takeEntry 0).queue 0 := queue_congr hqueues 0
      rw [hstep]
      refine ⟨rfl, rfl, rfl, rfl, rfl, rfl, rfl, rfl, rfl, rfl, hbase, hplots, hfab, hbench, hfurrow, ?_, ?_⟩
      · rw [hqueue, takeEntry, queue_setQueue_same]
      · rw [hqueue, fin_takeEntry]
    · intro hok hsub w
      obtain ⟨hsubst, hdone⟩ := stepCommand_substitutes rfl hturn hop hwait hok hsub (bits13 kat)
      exact ⟨fun hphase hmigrated => does_of_eq (exec_stepCommand hc s) (hsubst hphase hmigrated) rfl,
        fun hphase => does_of_eq (exec_stepCommand hc s) (hdone hphase) rfl⟩

end Sys2Proof.Machine

namespace Sys2Proof.Machine
namespace SMap

theorem find?_filter_key {α : Type} (p : Nat → Bool) (m : SMap α) {k : Nat} (hk : p k = true) :
    find? (m.filter fun x => p x.1) k = find? m k := by
  induction m with
  | nil => rfl
  | cons x m ih =>
    obtain ⟨j, v⟩ := x
    by_cases hj : p j = true
    · rw [List.filter_cons_of_pos (by simpa using hj), find?, find?, ih]
    · rw [List.filter_cons_of_neg (by simpa using hj), ih, find?, if_neg (fun h : j = k => hj (h ▸ hk))]

end SMap

namespace State

/-! ### Registers that show the plan in effect (R305, R312) -/

/-- The plan's identity, what its apply came to, and whether loam and repair are whole. -/
@[reducible] def planRegs : List Nat := [F.PLAN_ID.ID.key, F.PLAN_STATUS.CONFIGURED.key, F.PLAN_STATUS.HOST_VALUES.key, F.APPLY_LAST.REASON.key,
  F.MEM_STATUS.HORIZON_LOST.key, F.REPAIR_STATUS.DEGRADED.key, (F.PLAN_DIGEST.DIGEST 0).key, (F.PLAN_DIGEST.DIGEST 1).key,
  (F.PLAN_DIGEST.DIGEST 2).key, (F.PLAN_DIGEST.DIGEST 3).key, (F.PLAN_DIGEST.DIGEST 4).key, (F.PLAN_DIGEST.DIGEST 5).key,
  (F.PLAN_DIGEST.DIGEST 6).key, (F.PLAN_DIGEST.DIGEST 7).key]

/-- `t` has the plan of `s`, its memory, and the registers that show the plan. -/
structure PlanKeeps (s t : State) : Prop where
  regs : ∀ f : Fld, f.key ∈ planRegs → t.getF f = s.getF f
  shadow : t.shadow = s.shadow
  plan : t.plan = s.plan
  mem : t.mem = s.mem
  residual : t.hv.residual = s.hv.residual

namespace PlanKeeps
variable {s t u : State}

theorem refl (s : State) : PlanKeeps s s := ⟨fun _ _ => rfl, rfl, rfl, rfl, rfl⟩

theorem trans (h : PlanKeeps s t) (k : PlanKeeps t u) : PlanKeeps s u :=
  ⟨fun f hf => (k.regs f hf).trans (h.regs f hf), k.shadow.trans h.shadow, k.plan.trans h.plan, k.mem.trans h.mem,
    k.residual.trans h.residual⟩

theorem foldl {β : Type} {g : State → β → State} {xs : List β} (hg : ∀ (s : State), ∀ x ∈ xs, PlanKeeps s (g s x)) (s : State) :
    PlanKeeps s (xs.foldl g s) :=
  List.foldlRecOn (motive := fun t => PlanKeeps s t) _ _ (.refl s) fun _ h x hx => h.trans (hg _ x hx)

theorem nowF (s : State) {f : Fld} (hf : f.key ∉ planRegs) (v : Nat) : PlanKeeps s (s.nowF f v) :=
  ⟨fun _ hg => getF_nowF_other _ _ fun h => hf (h ▸ hg), rfl, rfl, rfl, rfl⟩

theorem keepF (s : State) {f : Fld} (hf : f.key ∉ planRegs) (v : Nat) : PlanKeeps s (s.keepF f v) :=
  ⟨fun _ hg => getF_keepF_other _ _ fun h => hf (h ▸ hg), rfl, rfl, rfl, rfl⟩

theorem modCkpt (s : State) (f : CkptSt → CkptSt) : PlanKeeps s (s.modCkpt f) := ⟨fun _ _ => rfl, rfl, rfl, rfl, rfl⟩

end PlanKeeps

theorem not_mem_planRegs {k : Nat} (h : (k ≠ 0x1000000c0028 * 64 ∧ k ≠ 0x1000000c0008 * 64 + 3 ∧ k ≠ 0x1000000c0008 * 64 + 2 ∧
    k ≠ 0x1000000c0020 * 64 ∧ k ≠ 0x100000080010 * 64 ∧ k ≠ 0x100000020010 * 64) ∧
    (k % 512 ≠ 0 ∨ k < 0x1000000c0040 * 64 ∨ 0x1000000c0080 * 64 ≤ k)) : k ∉ planRegs := by
  simp only [planRegs, List.mem_cons, List.not_mem_nil, or_false, not_or, Fld.key, F.PLAN_ID.ID, F.PLAN_STATUS.CONFIGURED,
    F.PLAN_STATUS.HOST_VALUES, F.APPLY_LAST.REASON, F.MEM_STATUS.HORIZON_LOST, F.REPAIR_STATUS.DEGRADED, F.PLAN_DIGEST.DIGEST]
  omega

/-- `t` also has the checkpoint of `s`, and drains as `s` does. -/
structure ApplyKeeps (s t : State) : Prop extends PlanKeeps s t where
  draining : t.getF F.CKPT_STATUS.DRAINING = s.getF F.CKPT_STATUS.DRAINING
  ckpt : t.ckpt = s.ckpt

namespace ApplyKeeps
variable {s t u : State}

theorem refl (s : State) : ApplyKeeps s s := ⟨.refl s, rfl, rfl⟩

theorem trans (h : ApplyKeeps s t) (k : ApplyKeeps t u) : ApplyKeeps s u :=
  ⟨h.toPlanKeeps.trans k.toPlanKeeps, k.draining.trans h.draining, k.ckpt.trans h.ckpt⟩

theorem foldl {β : Type} {g : State → β → State} {xs : List β} (hg : ∀ (s : State), ∀ x ∈ xs, ApplyKeeps s (g s x)) (s : State) :
    ApplyKeeps s (xs.foldl g s) :=
  List.foldlRecOn (motive := fun t => ApplyKeeps s t) _ _ (.refl s) fun _ h x hx => h.trans (hg _ x hx)

theorem nowF (s : State) {f : Fld} (hf : f.key ∉ planRegs) (hd : F.CKPT_STATUS.DRAINING.key ≠ f.key) (v : Nat) : ApplyKeeps s (s.nowF f v) :=
  ⟨.nowF s hf v, getF_nowF_other _ _ hd, rfl⟩

theorem keepF (s : State) {f : Fld} (hf : f.key ∉ planRegs) (hd : F.CKPT_STATUS.DRAINING.key ≠ f.key) (v : Nat) : ApplyKeeps s (s.keepF f v) :=
  ⟨.keepF s hf v, getF_keepF_other _ _ hd, rfl⟩

end ApplyKeeps

/-! ### Memories loaded, buffers and the epoch (R78, R183, R222, R312) -/

theorem showLoaded_keeps (s : State) (d : PlanDoc) : ApplyKeeps s (s.showLoaded d) := by
  have hslot (t : State) (l v : Nat) : ApplyKeeps t (t.nowF (F.PROG_LOADED.SLOT_WORDS l) v) :=
    .nowF t (not_mem_planRegs (by simp only [Fld.key, F.PROG_LOADED.SLOT_WORDS]; omega))
      (by simp only [Fld.key, F.PROG_LOADED.SLOT_WORDS, F.CKPT_STATUS.DRAINING]; omega) v
  have hconst (t : State) (l v : Nat) : ApplyKeeps t (t.nowF (F.PROG_LOADED.CONST_WORDS l) v) :=
    .nowF t (not_mem_planRegs (by simp only [Fld.key, F.PROG_LOADED.CONST_WORDS]; omega))
      (by simp only [Fld.key, F.PROG_LOADED.CONST_WORDS, F.CKPT_STATUS.DRAINING]; omega) v
  have hmask (t : State) (l v : Nat) : ApplyKeeps t (t.nowF (F.PROG_LOADED.PRESENT_MASK l) v) :=
    .nowF t (not_mem_planRegs (by simp only [Fld.key, F.PROG_LOADED.PRESENT_MASK]; omega))
      (by simp only [Fld.key, F.PROG_LOADED.PRESENT_MASK, F.CKPT_STATUS.DRAINING]; omega) v
  have hroute (t : State) (p v : Nat) : ApplyKeeps t (t.nowF (F.ROUTER_STATUS.WORDS_LOADED p) v) :=
    .nowF t (not_mem_planRegs (by simp only [Fld.key, F.ROUTER_STATUS.WORDS_LOADED]; omega))
      (by simp only [Fld.key, F.ROUTER_STATUS.WORDS_LOADED, F.CKPT_STATUS.DRAINING]; omega) v
  have hplots {u : State} (h : ApplyKeeps s u) (ps : List Nat) (g : State → Nat → Nat) : ApplyKeeps s (ps.foldl (fun t p =>
      if t.siteState p = 3 then t else t.nowF (F.ROUTER_STATUS.WORDS_LOADED p) (g t p)) u) := by
    refine h.trans (.foldl (fun t p _ => ?_) u)
    split
    · exact .refl t
    · exact hroute ..
  have hprograms (ps : List Nat) (g h k : State → Nat → Nat) : ApplyKeeps s (ps.foldl (fun t l =>
      let v := t.nowF (F.PROG_LOADED.SLOT_WORDS l) (g t l)
      let w := v.nowF (F.PROG_LOADED.CONST_WORDS l) (h t l)
      w.nowF (F.PROG_LOADED.PRESENT_MASK l) (k t l)) s) :=
    .foldl (fun t l _ => ((hslot ..).trans (hconst ..)).trans (hmask ..)) s
  unfold showLoaded
  dsimp only
  split
  · split
    · exact hplots (hprograms ..) ..
    · exact hplots (.refl s) ..
  · split
    · exact hprograms ..
    · exact .refl s

theorem showTx_keeps (s : State) : ApplyKeeps s s.showTx := by
  unfold showTx
  refine ApplyKeeps.trans (.foldl (fun t h hh => .keepF t (not_mem_planRegs ?_) ?_ _) s) (.keepF _ (by decide) (by decide) _)
  · have := List.mem_range.1 hh
    simp only [Fld.key, F.HV_SEG_STATUS.TX_FREE]
    omega
  · have := List.mem_range.1 hh
    simp only [Fld.key, F.HV_SEG_STATUS.TX_FREE, F.CKPT_STATUS.DRAINING]
    omega

theorem advanceEpoch_keeps (s : State) : ApplyKeeps s s.advanceEpoch := by
  obtain ⟨hframe, hF⟩ := s.advanceEpoch_frame
  generalize s.advanceEpoch = u at *
  have hF' (f : Fld) (hf : f.key ∈ planRegs ∨ f.key = F.CKPT_STATUS.DRAINING.key) : u.getF f = s.getF f := by
    refine hF f (fun h => ?_) (fun h => ?_) fun c hc => ⟨fun h => ?_, fun h => ?_⟩
    · rw [h] at hf
      exact absurd hf (by decide)
    · rw [h] at hf
      exact absurd hf (by decide)
    · rw [h] at hf
      refine absurd hf (not_or.2 ⟨not_mem_planRegs ?_, ?_⟩)
      · simp only [Fld.key, F.CHAN_STATUS.EXPECT_SSEQ]
        omega
      · simp only [Fld.key, F.CHAN_STATUS.EXPECT_SSEQ, F.CKPT_STATUS.DRAINING]
        omega
    · rw [h] at hf
      refine absurd hf (not_or.2 ⟨not_mem_planRegs ?_, ?_⟩)
      · simp only [Fld.key, F.CHAN_STATUS.HELD_BLOCKS]
        omega
      · simp only [Fld.key, F.CHAN_STATUS.HELD_BLOCKS, F.CKPT_STATUS.DRAINING]
        omega
  exact ⟨⟨fun f hf => hF' f (.inl hf), (congrArg State.shadow hframe :), (congrArg State.plan hframe :), (congrArg State.mem hframe :),
    (congrArg (fun t : State => t.hv.residual) hframe :)⟩, hF' _ (.inr rfl), (congrArg State.ckpt hframe :)⟩

theorem setStale_keeps (s : State) : ApplyKeeps s s.setStale :=
  .foldl (fun t l _ => .keepF t (not_mem_planRegs (by simp only [Fld.key, F.PAD_STATUS.STALE]; omega))
    (by simp only [Fld.key, F.PAD_STATUS.STALE, F.CKPT_STATUS.DRAINING]; omega) 1) s

theorem emitManifest_keeps (s : State) : PlanKeeps s s.emitManifest := by
  have hdrain (t : State) (l i e n : Nat) (bs : List Byte) : PlanKeeps t (t.drainSeg l i e n bs) := by
    unfold drainSeg
    split
    · exact .refl t
    · exact .modCkpt t _
  have hsend (t : State) (b : TwinBody) : PlanKeeps t (t.twinSend b) := by
    unfold twinSend
    split
    · exact ⟨fun _ _ => rfl, rfl, rfl, rfl, rfl⟩
    · exact .refl t
  have hrelease (t : State) (n : Nat) : PlanKeeps t (t.ledgerRelease n) := (PlanKeeps.modCkpt t _).trans (.nowF _ (by decide) _)
  have hroot (t : State) (root : List Byte) (is : List Nat) :
      PlanKeeps t (is.foldl (fun s i => s.keepF (F.CKPT_ROOT.ROOT i) (wordField root i 0 64)) t) :=
    .foldl (fun t i _ => .keepF t (not_mem_planRegs (by simp only [Fld.key, F.CKPT_ROOT.ROOT]; omega)) _) t
  exact ((((PlanKeeps.modCkpt s _).trans (hroot ..)).trans (hdrain ..)).trans (hsend ..)).trans (hrelease ..)

theorem checkDrain_keeps (s : State) : PlanKeeps s s.checkDrain ∧ (s.draining = false → s.checkDrain = s) := by
  unfold checkDrain
  refine ⟨?_, fun h => if_neg (by simp [h])⟩
  dsimp only
  split
  · have hstaged := PlanKeeps.modCkpt s fun c => { c with
      stage := c.stage.filter fun x => !((s.ckpt.parcels.filter fun x => s.parcelGone x.2).map (·.1)).contains x.1 }
    obtain ⟨a, ha⟩ : ∃ a, a = s.modCkpt fun c => { c with
      stage := c.stage.filter fun x => !((s.ckpt.parcels.filter fun x => s.parcelGone x.2).map (·.1)).contains x.1 } := ⟨_, rfl⟩
    rw [← ha] at hstaged ⊢
    have htold : PlanKeeps s (if !a.ckpt.told && !a.ckpt.broken && a.ckpt.parcels.all fun x => x.2.drained && x.2.sent then a.emitManifest else a) := by
      split
      · exact hstaged.trans (emitManifest_keeps a)
      · exact hstaged
    obtain ⟨b, hb⟩ : ∃ b, b = (if !a.ckpt.told && !a.ckpt.broken && a.ckpt.parcels.all fun x => x.2.drained && x.2.sent then a.emitManifest else a) :=
      ⟨_, rfl⟩
    rw [← hb] at htold ⊢
    split
    · exact htold.trans (.nowF b (f := F.CKPT_STATUS.DRAINING) (by decide) 0)
    · exact htold
  · exact .refl s

/-! ### A new configuration (R57, R252, R312, R344) -/

theorem getF_filter_sinceConfig (s : State) {f : Fld} (hf : sinceConfig f.key = false) :
    { s with regs := s.regs.filter fun x => !sinceConfig x.1 }.getF f = s.getF f := by
  simp only [getF, fldGet]
  rw [SMap.find?_filter_key (fun k => !sinceConfig k) s.regs (by simp [hf])]

/-- The state in which nothing of the old configuration's contents and counts stands (R312). -/
def wiped (s t : State) : State := { t with
  regs := t.regs.filter fun x => !sinceConfig x.1
  ckpt := s.carryDrain
  mem := { t.mem with
    loam := [], trans := [], image := [], cur := [], dirty := [], blockWritten := [], chunk := [], chunkNext := [], cache := [],
    portGrains := [], garbled := none }
  hv := { t.hv with residual := [], resCur := [], resDirty := [] } }

/-- What of loam's sites, the checkpoint and the regions a new configuration shows (R312). -/
def freshShown (t : State) (ps ns : List Nat) : State :=
  let t := ps.foldl (fun t p => t.nowF (F.LOAM_STATUS.HORIZON_LOST p) 0) t
  let t := [F.CKPT_STATUS.DEFERRED, F.CKPT_STATUS.NOW_PENDING, F.CKPT_STATUS.CKPT_SEQ, F.CKPT_STATUS.STEPS_SINCE].foldl
    (fun t f => t.nowF f 0) t
  ns.foldl (fun t n =>
    if t.isHole n then t.powerRegion n false
    else if t.getF (F.REGION_PSTAT.SWITCH n) = 0 ∨ !t.sleepEnabled n then t.powerRegion n true else t) t

theorem applyKeeps_powerRegion (s : State) (n : Nat) (on : Bool) : ApplyKeeps s (s.powerRegion n on) := by
  obtain ⟨hframe, hbelow, -⟩ := s.regionsOnly_powerRegion n on
  generalize s.powerRegion n on = u at *
  have hplan (k : Nat) (hk : k ∈ planRegs) : belowRegions k := by
    revert k
    decide
  exact ⟨⟨fun f hf => hbelow f (hplan _ hf), (congrArg State.shadow hframe :), (congrArg State.plan hframe :), (congrArg State.mem hframe :),
    (congrArg (fun t : State => t.hv.residual) hframe :)⟩, hbelow _ (by decide), (congrArg State.ckpt hframe :)⟩

theorem freshShown_keeps (t : State) (ps ns : List Nat) : ApplyKeeps t (t.freshShown ps ns) := by
  have hsites : ApplyKeeps t (ps.foldl (fun t p => t.nowF (F.LOAM_STATUS.HORIZON_LOST p) 0) t) := by
    refine .foldl (fun t p _ => .nowF t (not_mem_planRegs ?_) ?_ 0) t
    · simp only [Fld.key, F.LOAM_STATUS.HORIZON_LOST]
      omega
    · simp only [Fld.key, F.LOAM_STATUS.HORIZON_LOST, F.CKPT_STATUS.DRAINING]
      omega
  have hckpt (u : State) : ApplyKeeps u ([F.CKPT_STATUS.DEFERRED, F.CKPT_STATUS.NOW_PENDING, F.CKPT_STATUS.CKPT_SEQ,
      F.CKPT_STATUS.STEPS_SINCE].foldl (fun t f => t.nowF f 0) u) := by
    refine .foldl (fun t f hf => ?_) u
    simp only [List.mem_cons, List.not_mem_nil, or_false] at hf
    obtain rfl | rfl | rfl | rfl := hf
    all_goals exact .nowF t (by decide) (by decide) 0
  refine (hsites.trans (hckpt _)).trans (.foldl (fun t n _ => ?_) _)
  split
  · exact applyKeeps_powerRegion ..
  · split
    · exact applyKeeps_powerRegion ..
    · exact .refl t

theorem freshConfig_eq (s t : State) : s.freshConfig t =
    ((((s.wiped t).nowF F.REPAIR_STATUS.DEGRADED 0).nowF F.REPAIR_STATUS.SUBST_PENDING 0).nowF F.MEM_STATUS.HORIZON_LOST 0).freshShown
      (List.range 5120) (List.range 256) := rfl

theorem freshConfig_fresh (s t : State) : let u := s.freshConfig t
    u.plan = t.plan ∧ u.mem.loam = [] ∧ u.mem.image = [] ∧ u.mem.cur = [] ∧ u.mem.dirty = [] ∧ u.hv.residual = [] ∧ u.ckpt = s.carryDrain ∧
      u.getF F.MEM_STATUS.HORIZON_LOST = 0 ∧ u.getF F.REPAIR_STATUS.DEGRADED = 0 ∧
      u.getF F.CKPT_STATUS.DRAINING = t.getF F.CKPT_STATUS.DRAINING := by
  obtain ⟨w, hw⟩ : ∃ w, w = (((s.wiped t).nowF F.REPAIR_STATUS.DEGRADED 0).nowF F.REPAIR_STATUS.SUBST_PENDING 0).nowF F.MEM_STATUS.HORIZON_LOST 0 :=
    ⟨_, rfl⟩
  have hwiped : w.plan = t.plan ∧ w.mem.loam = [] ∧ w.mem.image = [] ∧ w.mem.cur = [] ∧ w.mem.dirty = [] ∧ w.hv.residual = [] ∧
      w.ckpt = s.carryDrain := by
    rw [hw]
    exact ⟨rfl, rfl, rfl, rfl, rfl, rfl, rfl⟩
  have hlost : w.getF F.MEM_STATUS.HORIZON_LOST = 0 := by
    rw [hw, getF_nowF_same]
    rfl
  have hdegraded : w.getF F.REPAIR_STATUS.DEGRADED = 0 := by
    rw [hw, getF_nowF_other _ _ (by decide), getF_nowF_other _ _ (by decide), getF_nowF_same]
    rfl
  have hdraining : w.getF F.CKPT_STATUS.DRAINING = t.getF F.CKPT_STATUS.DRAINING := by
    rw [hw, getF_nowF_other _ _ (by decide), getF_nowF_other _ _ (by decide), getF_nowF_other _ _ (by decide)]
    exact getF_filter_sinceConfig t (by decide)
  obtain ⟨hplan, hloam, himage, hcur, hdirty, hresidual, hckpt⟩ := hwiped
  have hkeeps := w.freshShown_keeps (List.range 5120) (List.range 256)
  rw [freshConfig_eq, ← hw]
  generalize w.freshShown (List.range 5120) (List.range 256) = u at *
  exact ⟨by rw [hkeeps.plan, hplan], by rw [hkeeps.mem, hloam], by rw [hkeeps.mem, himage], by rw [hkeeps.mem, hcur], by rw [hkeeps.mem, hdirty],
    by rw [hkeeps.residual, hresidual], by rw [hkeeps.ckpt, hckpt], by rw [hkeeps.regs _ (by decide), hlost],
    by rw [hkeeps.regs _ (by decide), hdegraded], by rw [hkeeps.draining, hdraining]⟩

/-! ### Queues and pace under the new plan (R27, R276, R280, R385) -/

/-- The plan, and whether a drain goes on. -/
def QueuesKeep (s t : State) : Prop := t.plan = s.plan ∧ t.getF F.CKPT_STATUS.DRAINING = s.getF F.CKPT_STATUS.DRAINING

theorem commitQueues_keeps (s t : State) (new : Bool) : QueuesKeep t (s.commitQueues t new) := by
  have hwin (u v : State) (h : { v with win := u.win } = u) : QueuesKeep u v :=
    ⟨(congrArg State.plan h :), getF_congr (congrArg State.regs h :) _⟩
  have hrestart (u : State) (q : Nat) : QueuesKeep u (u.restartQueue q) := by
    have hregs : (u.restartQueue q).getF F.CKPT_STATUS.DRAINING =
        (((u.setQueue q QueueSt.zero).nowF (F.QUEUE_STATE.GIVE q) 0).nowF (F.QUEUE_STATE.DONE q) 0).getF F.CKPT_STATUS.DRAINING := rfl
    refine ⟨rfl, hregs.trans ?_⟩
    rw [getF_nowF_other _ _ (by simp only [Fld.key, F.QUEUE_STATE.DONE, F.CKPT_STATUS.DRAINING]; omega),
      getF_nowF_other _ _ (by simp only [Fld.key, F.QUEUE_STATE.GIVE, F.CKPT_STATUS.DRAINING]; omega)]
    rfl
  have hfree (qs : List Nat) (g : State → Nat → List Nat) : QueuesKeep t (qs.foldl (fun (u : State) q => u.freeRing (g s q)) t) :=
    List.foldlRecOn (motive := fun u => QueuesKeep t u) _ _ ⟨rfl, rfl⟩ fun u hu q _ =>
      have h := hwin u _ (freeRing_frame u (g s q)).1
      ⟨h.1.trans hu.1, h.2.trans hu.2⟩
  have hclaim (u : State) (hu : QueuesKeep t u) (qs : List Nat) : QueuesKeep t (qs.foldl (fun u q =>
      let v := u.restartQueue q
      v.claimRing (v.ringParcels q)) u) :=
    List.foldlRecOn (motive := fun u => QueuesKeep t u) _ _ hu fun u hu q _ =>
      have h := hwin _ _ (claimRing_frame (u.restartQueue q) ((u.restartQueue q).ringParcels q)).1
      ⟨h.1.trans ((hrestart u q).1.trans hu.1), h.2.trans ((hrestart u q).2.trans hu.2)⟩
  exact hclaim _ (hfree _ fun s q => s.markedRing q) _

theorem commitPace_keeps (s t : State) : QueuesKeep t (s.commitPace t) := by
  have hpace (n : Nat) : QueuesKeep t (t.setPace n) := ⟨rfl, getF_setPace_other t n (by decide) (by decide)⟩
  have hfloor (floor n : Nat) : QueuesKeep t (if floor < n then { t.setPace n with power := { (t.setPace n).power with floorPosted := false } }
      else t.setPace n) := by
    split
    · exact hpace n
    · exact hpace n
  exact hfloor _ _

/-! ### The plan in the registers (R301, R305, R312, R314) -/

/-- The eight words of the plan digest shown. -/
def showDigest (t : State) (digest : List Byte) (words : List Nat) : State :=
  words.foldl (fun t i => t.nowF (F.PLAN_DIGEST.DIGEST i) (wordField digest i 0 64)) t

theorem showDigest_frame (t : State) (digest : List Byte) (words : List Nat) :
    { t.showDigest digest words with regs := t.regs, pub := t.pub, base := t.base } = t ∧
      (∀ f : Fld, (∀ i ∈ words, f.key ≠ (F.PLAN_DIGEST.DIGEST i).key) → (t.showDigest digest words).getF f = t.getF f) ∧
      ∀ i ∈ words, (t.showDigest digest words).getF (F.PLAN_DIGEST.DIGEST i) = wordField digest i 0 64 := by
  induction words generalizing t with
  | nil => exact ⟨rfl, fun _ _ => rfl, fun _ h => absurd h List.not_mem_nil⟩
  | cons k words ih =>
    obtain ⟨hframe, hF, hdigest⟩ := ih (t.nowF (F.PLAN_DIGEST.DIGEST k) (wordField digest k 0 64))
    refine ⟨(congrArg (fun v : State => { v with regs := t.regs, pub := t.pub, base := t.base }) hframe :),
      fun f hf =>
        (hF f fun i hi => hf i (List.mem_cons_of_mem k hi)).trans (getF_nowF_other _ _ (hf k List.mem_cons_self)), fun i hi => ?_⟩
    by_cases h : i ∈ words
    · exact hdigest i h
    · obtain rfl : i = k := (List.mem_cons.1 hi).resolve_right h
      refine (hF _ fun j hj => ?_).trans ((getF_nowF_same ..).trans (Nat.mod_eq_of_lt ?_))
      · have hne : i ≠ j := fun e => h (e ▸ hj)
        simp only [Fld.key, F.PLAN_DIGEST.DIGEST]
        omega
      · rw [wordField, bitsOf_eq]
        exact Nat.mod_lt _ (Nat.two_pow_pos 64)

/-- An apply that took effect, counted (R312, R314). -/
def planCounted (t : State) (new : Bool) : State :=
  let t := t.nowF F.PLAN_STATUS.APPLY_COUNT (satAdd 32 (t.getF F.PLAN_STATUS.APPLY_COUNT) 1)
  let t := if new then t.nowF F.PLAN_STATUS.CONFIG_COUNT (satAdd 16 (t.getF F.PLAN_STATUS.CONFIG_COUNT) 1) else t
  [F.APPLY_LAST.REASON, F.APPLY_LAST.SECTION, F.APPLY_LAST.DETAIL, F.TWIN_LOCK_STATUS.LOCKED].foldl (fun t f => t.nowF f 0) t

theorem planCounted_frame (t : State) (new : Bool) : { t.planCounted new with regs := t.regs, pub := t.pub, base := t.base } = t ∧
    t.fieldsBut (t.planCounted new) [F.PLAN_STATUS.APPLY_COUNT, F.PLAN_STATUS.CONFIG_COUNT, F.APPLY_LAST.REASON, F.APPLY_LAST.SECTION,
      F.APPLY_LAST.DETAIL, F.TWIN_LOCK_STATUS.LOCKED] ∧ (t.planCounted new).getF F.APPLY_LAST.REASON = 0 := by
  obtain ⟨a, ha⟩ : ∃ a, a = t.nowF F.PLAN_STATUS.APPLY_COUNT (satAdd 32 (t.getF F.PLAN_STATUS.APPLY_COUNT) 1) := ⟨_, rfl⟩
  obtain ⟨b, hb⟩ : ∃ b, b = if new then a.nowF F.PLAN_STATUS.CONFIG_COUNT (satAdd 16 (a.getF F.PLAN_STATUS.CONFIG_COUNT) 1) else a := ⟨_, rfl⟩
  have hframe : { b with regs := t.regs, pub := t.pub, base := t.base } = t := by
    rw [hb, ha]
    split
    · rfl
    · rfl
  have hbF (f : Fld) (h1 : f.key ≠ F.PLAN_STATUS.APPLY_COUNT.key) (h2 : f.key ≠ F.PLAN_STATUS.CONFIG_COUNT.key) : b.getF f = t.getF f := by
    have haF : a.getF f = t.getF f := by
      rw [ha]
      exact getF_nowF_other _ _ h1
    rw [hb]
    split
    · exact (getF_nowF_other _ _ h2).trans haF
    · exact haF
  have heq : t.planCounted new = (((b.nowF F.APPLY_LAST.REASON 0).nowF F.APPLY_LAST.SECTION 0).nowF F.APPLY_LAST.DETAIL 0).nowF F.TWIN_LOCK_STATUS.LOCKED 0 := by
    rw [hb, ha]
    rfl
  rw [heq]
  refine ⟨hframe, fun f hf => ?_, ?_⟩
  · rw [getF_nowF_other _ _ (hf _ (by simp)), getF_nowF_other _ _ (hf _ (by simp)), getF_nowF_other _ _ (hf _ (by simp)),
      getF_nowF_other _ _ (hf _ (by simp)), hbF f (hf _ (by simp)) (hf _ (by simp))]
  · rw [getF_nowF_other _ _ (by decide), getF_nowF_other _ _ (by decide), getF_nowF_other _ _ (by decide), getF_nowF_same]
    rfl

/-- The state with the plan's image kept and its identity in the registers. -/
def planNamed (t : State) (d : PlanDoc) (image : List Byte) (host : Bool) : State :=
  let t := ({ t with shadow := [], plan := { t.plan with image := image } } : State).showDigest d.digest (List.range 8)
  (((t.nowF F.PLAN_ID.ID d.hdr.planId).nowF F.PLAN_STATUS.HOST_VALUES (b2n host)).nowF F.PLAN_STATUS.CONFIGURED 1).planCounted d.hdr.newConfig

theorem planNamed_named (t : State) (d : PlanDoc) (image : List Byte) (host : Bool) : let u := t.planNamed d image host
    u.shadow = [] ∧ u.plan = { t.plan with image := image } ∧ u.mem = t.mem ∧ u.hv.residual = t.hv.residual ∧ u.ckpt = t.ckpt ∧
      (∀ f ∈ [F.CKPT_STATUS.DRAINING, F.MEM_STATUS.HORIZON_LOST, F.REPAIR_STATUS.DEGRADED], u.getF f = t.getF f) ∧
      u.getF F.PLAN_ID.ID = d.hdr.planId % 2 ^ F.PLAN_ID.ID.width ∧ u.getF F.PLAN_STATUS.CONFIGURED = 1 ∧
      u.getF F.PLAN_STATUS.HOST_VALUES = (if host then 1 else 0) ∧ u.getF F.APPLY_LAST.REASON = 0 ∧
      ∀ i < 8, u.getF (F.PLAN_DIGEST.DIGEST i) = wordField d.digest i 0 64 := by
  obtain ⟨v, hv⟩ : ∃ v : State, v = { t with shadow := [], plan := { t.plan with image := image } } := ⟨_, rfl⟩
  obtain ⟨w, hw⟩ : ∃ w, w = v.showDigest d.digest (List.range 8) := ⟨_, rfl⟩
  obtain ⟨x, hx⟩ : ∃ x, x = ((w.nowF F.PLAN_ID.ID d.hdr.planId).nowF F.PLAN_STATUS.HOST_VALUES (b2n host)).nowF F.PLAN_STATUS.CONFIGURED 1 := ⟨_, rfl⟩
  obtain ⟨hwframe, hwF, hdigest⟩ := v.showDigest_frame d.digest (List.range 8)
  obtain ⟨hframe, hF, hreason⟩ := x.planCounted_frame d.hdr.newConfig
  have heq : t.planNamed d image host = x.planCounted d.hdr.newConfig := by
    rw [hx, hw, hv]
    rfl
  rw [← hw] at hwframe hwF hdigest
  rw [heq]
  generalize x.planCounted d.hdr.newConfig = u at *
  have hxframe : { x with regs := w.regs, pub := w.pub, base := w.base } = w := by
    rw [hx]
    rfl
  have hxF (f : Fld) (hf : f.key ∉ [F.PLAN_ID.ID.key, F.PLAN_STATUS.HOST_VALUES.key, F.PLAN_STATUS.CONFIGURED.key]) : x.getF f = w.getF f := by
    simp only [List.mem_cons, List.not_mem_nil, or_false, not_or] at hf
    obtain ⟨h1, h2, h3⟩ := hf
    rw [hx, getF_nowF_other _ _ h3, getF_nowF_other _ _ h2, getF_nowF_other _ _ h1]
  have hvsame : v.mem = t.mem ∧ v.hv = t.hv ∧ v.ckpt = t.ckpt ∧ v.shadow = [] ∧ v.plan = { t.plan with image := image } ∧ v.regs = t.regs := by
    rw [hv]
    exact ⟨rfl, rfl, rfl, rfl, rfl, rfl⟩
  obtain ⟨hvmem, hvhv, hvckpt, hvshadow, hvplan, hvregs⟩ := hvsame
  have huv : { u with regs := v.regs, pub := v.pub, base := v.base } = v :=
    ((congrArg (fun y : State => { y with regs := v.regs, pub := v.pub, base := v.base }) hframe :).trans
      (congrArg (fun y : State => { y with regs := v.regs, pub := v.pub, base := v.base }) hxframe :)).trans hwframe
  have hdigests (f : Fld) (hf : ∀ i < 8, f.key ≠ (F.PLAN_DIGEST.DIGEST i).key) : w.getF f = t.getF f :=
    (hwF f fun i hi => hf i (List.mem_range.1 hi)).trans (getF_congr hvregs f)
  have hcounted {f : Fld} (hf : f.key ∉ [F.PLAN_STATUS.APPLY_COUNT.key, F.PLAN_STATUS.CONFIG_COUNT.key, F.APPLY_LAST.REASON.key,
      F.APPLY_LAST.SECTION.key, F.APPLY_LAST.DETAIL.key, F.TWIN_LOCK_STATUS.LOCKED.key]) : u.getF f = x.getF f := by
    refine hF f fun g hg h => hf ?_
    rw [h]
    exact List.mem_map_of_mem (f := Fld.key) hg
  refine ⟨(congrArg State.shadow huv :).trans hvshadow, (congrArg State.plan huv :).trans hvplan, (congrArg State.mem huv :).trans hvmem,
    (congrArg (fun y : State => y.hv.residual) huv :).trans (congrArg HarvestSt.residual hvhv), (congrArg State.ckpt huv :).trans hvckpt, fun f hf => ?_, ?_, ?_, ?_,
    hreason, fun i hi => ?_⟩
  · simp only [List.mem_cons, List.not_mem_nil, or_false] at hf
    obtain rfl | rfl | rfl := hf
    all_goals exact (hcounted (by decide)).trans ((hxF _ (by decide)).trans (hdigests _ (by decide)))
  · rw [hcounted (by decide), hx, getF_nowF_other _ _ (by decide), getF_nowF_other _ _ (by decide), getF_nowF_same]
  · rw [hcounted (by decide), hx, getF_nowF_same]
    rfl
  · rw [hcounted (by decide), hx, getF_nowF_other _ _ (by decide), getF_nowF_same]
    cases host
    · rfl
    · rfl
  · rw [hcounted, hxF]
    · exact hdigest i (List.mem_range.2 hi)
    · simp only [List.mem_cons, List.not_mem_nil, or_false, Fld.key, F.PLAN_DIGEST.DIGEST, F.PLAN_ID.ID, F.PLAN_STATUS.HOST_VALUES,
        F.PLAN_STATUS.CONFIGURED]
      omega
    · simp only [List.mem_cons, List.not_mem_nil, or_false, Fld.key, F.PLAN_DIGEST.DIGEST, F.PLAN_STATUS.APPLY_COUNT,
        F.PLAN_STATUS.CONFIG_COUNT, F.APPLY_LAST.REASON, F.APPLY_LAST.SECTION, F.APPLY_LAST.DETAIL, F.TWIN_LOCK_STATUS.LOCKED]
      omega

theorem commitPlan_eq (s t : State) (d : PlanDoc) (image : List Byte) (host : Bool) : s.commitPlan t d image host =
    let base := s.commitPace (s.commitQueues t d.hdr.newConfig)
    let named := (if d.hdr.newConfig then s.freshConfig base else base).planNamed d image host
    let shown := (named.showLoaded d).showTx.advanceEpoch.setStale.checkDrain
    ((shown.event 0x0011 srcModule 0 (d.hdr.major + d.hdr.minor * 2 ^ 16)).complete 0 0 0).refreshPub := rfl

/-- What shows the loaded memories and starts the epoch ends with the event of the apply and its entry (R312). -/
theorem planEnds (n : State) (d : PlanDoc) (word : Nat) : let shown := (n.showLoaded d).showTx.advanceEpoch.setStale.checkDrain
    let u := ((shown.event 0x0011 srcModule 0 word).complete 0 0 0).refreshPub
    PlanKeeps n u ∧ u.pub = u.regs ∧ (∃ r ∈ u.recs, r.kind = 1 ∧ r.code = 0x0011) ∧
      (n.getF F.CKPT_STATUS.DRAINING ≠ 1 → u.ckpt = n.ckpt) := by
  dsimp only
  have hstale := ((((showLoaded_keeps n d).trans (showTx_keeps _)).trans (advanceEpoch_keeps _)).trans (setStale_keeps _))
  generalize (n.showLoaded d).showTx.advanceEpoch.setStale = a at *
  obtain ⟨hdrain, hsame⟩ := a.checkDrain_keeps
  generalize a.checkDrain = b at *
  obtain ⟨e, he, hrec, heF⟩ : ∃ e, e = b.event 0x0011 srcModule 0 word ∧ (∃ r ∈ e.recs, r.kind = 1 ∧ r.code = 0x0011) ∧
      (e.regs = b.regs ∧ e.shadow = b.shadow ∧ e.plan = b.plan ∧ e.mem = b.mem ∧ e.hv = b.hv ∧ e.ckpt = b.ckpt) :=
    ⟨_, rfl, ⟨_, List.mem_append_right _ (List.mem_singleton_self _), rfl, rfl⟩, rfl, rfl, rfl, rfl, rfl, rfl⟩
  rw [← he]
  obtain ⟨hregs, hshadow, hplan, hmem, hhv, hckpt⟩ := heF
  have hframe := complete_frame e 0 0 0
  generalize e.complete 0 0 0 = c at *
  have hkeeps := hstale.toPlanKeeps.trans hdrain
  refine ⟨⟨fun f hf => ?_, ?_, ?_, ?_, ?_⟩, rfl, ?_, fun hnot => ?_⟩
  · exact (getF_congr ((congrArg State.regs hframe :).trans hregs) f).trans (hkeeps.regs f hf)
  · exact (congrArg State.shadow hframe :).trans (hshadow.trans hkeeps.shadow)
  · exact (congrArg State.plan hframe :).trans (hplan.trans hkeeps.plan)
  · exact (congrArg State.mem hframe :).trans (hmem.trans hkeeps.mem)
  · exact (congrArg (fun t : State => t.hv.residual) hframe :).trans ((congrArg HarvestSt.residual hhv).trans hkeeps.residual)
  · have hrecs : c.recs = e.recs := (congrArg State.recs hframe :)
    rw [show c.refreshPub.recs = c.recs from rfl, hrecs]
    exact hrec
  · have hquiet : a.draining = false := beq_eq_false_iff_ne.2 (by rwa [hstale.draining])
    exact (congrArg State.ckpt hframe :).trans (hckpt.trans ((congrArg State.ckpt (hsame hquiet)).trans hstale.ckpt))

/-- The state before an apply's identity is written (R312). -/
def commitBase (s t : State) (new : Bool) : State :=
  if new then s.freshConfig (s.commitPace (s.commitQueues t new)) else s.commitPace (s.commitQueues t new)

theorem commitBase_plan (s t : State) (new : Bool) : (s.commitBase t new).plan = t.plan := by
  have hpace := ((s.commitPace_keeps (s.commitQueues t new)).1.trans (commitQueues_keeps s t new).1)
  unfold commitBase
  split
  · exact (freshConfig_fresh s _).1.trans hpace
  · exact hpace

end State

open State in
/-- What a commit leaves (R305, R312, R314). -/
theorem commitLeaves (s t : State) (d : PlanDoc) (image : List Byte) (host : Bool) :
    let u := s.commitPlan t d image host
    u.shadow = [] ∧ u.plan = { t.plan with image := image } ∧ u.pub = u.regs ∧
    u.getF F.PLAN_ID.ID = d.hdr.planId % 2 ^ F.PLAN_ID.ID.width ∧ u.getF F.PLAN_STATUS.CONFIGURED = 1 ∧
    u.getF F.PLAN_STATUS.HOST_VALUES = (if host then 1 else 0) ∧ u.getF F.APPLY_LAST.REASON = 0 ∧
    (∀ i, i < 8 → u.getF (F.PLAN_DIGEST.DIGEST i) = wordField d.digest i 0 64) ∧
    (∃ r ∈ u.recs, r.kind = 1 ∧ r.code = 0x0011) ∧
    (d.hdr.newConfig = true → u.mem.loam = [] ∧ u.mem.image = [] ∧ u.mem.cur = [] ∧ u.mem.dirty = [] ∧ u.hv.residual = [] ∧
      (s.draining = false → t.draining = false → u.ckpt = { s.ckpt with parcels := [], held := [] }) ∧
      u.getF F.MEM_STATUS.HORIZON_LOST = 0 ∧ u.getF F.REPAIR_STATUS.DEGRADED = 0) := by
  dsimp only
  obtain ⟨b, hb⟩ : ∃ b, b = s.commitBase t d.hdr.newConfig := ⟨_, rfl⟩
  have hbplan : b.plan = t.plan := by rw [hb, commitBase_plan]
  obtain ⟨hshadow, hplan, hmem, hresidual, hckpt, hkept, hid, hconfigured, hhost, hreason, hdigest⟩ := b.planNamed_named d image host
  obtain ⟨hkeeps, hpub, hevent, hdrain⟩ := planEnds (b.planNamed d image host) d (d.hdr.major + d.hdr.minor * 2 ^ 16)
  have heq := s.commitPlan_eq t d image host
  dsimp only at heq
  rw [show (if d.hdr.newConfig then s.freshConfig (s.commitPace (s.commitQueues t d.hdr.newConfig))
    else s.commitPace (s.commitQueues t d.hdr.newConfig)) = b from hb.symm] at heq
  rw [← heq] at hkeeps hpub hevent hdrain
  generalize s.commitPlan t d image host = u at *
  generalize b.planNamed d image host = n at *
  refine ⟨hkeeps.shadow.trans hshadow, by rw [hkeeps.plan, hplan, hbplan], hpub, (hkeeps.regs _ (by decide)).trans hid,
    (hkeeps.regs _ (by decide)).trans hconfigured, (hkeeps.regs _ (by decide)).trans hhost, (hkeeps.regs _ (by decide)).trans hreason,
    fun i hi => (hkeeps.regs _ ?_).trans (hdigest i hi), hevent, fun hnew => ?_⟩
  · obtain rfl | rfl | rfl | rfl | rfl | rfl | rfl | rfl : i = 0 ∨ i = 1 ∨ i = 2 ∨ i = 3 ∨ i = 4 ∨ i = 5 ∨ i = 6 ∨ i = 7 := by omega
    all_goals decide
  · have hfresh : b = s.freshConfig (s.commitPace (s.commitQueues t d.hdr.newConfig)) := hb.trans (if_pos hnew)
    obtain ⟨-, hloam, himage, hcur, hdirty, hres, hcarry, hlost, hdegraded, hdraining⟩ :=
      freshConfig_fresh s (s.commitPace (s.commitQueues t d.hdr.newConfig))
    rw [← hfresh] at hloam himage hcur hdirty hres hcarry hlost hdegraded hdraining
    have hmem' := hkeeps.mem.trans hmem
    refine ⟨by rw [hmem', hloam], by rw [hmem', himage], by rw [hmem', hcur], by rw [hmem', hdirty], by rw [hkeeps.residual, hresidual, hres],
      fun hs ht => ?_, (hkeeps.regs _ (by decide)).trans ((hkept _ (by simp)).trans hlost),
      (hkeeps.regs _ (by decide)).trans ((hkept _ (by simp)).trans hdegraded)⟩
    have hquiet : n.getF F.CKPT_STATUS.DRAINING ≠ 1 := by
      rw [hkept _ (by simp), hdraining, (s.commitPace_keeps _).2, (commitQueues_keeps s t _).2]
      exact beq_eq_false_iff_ne.1 ht
    rw [hdrain hquiet, hckpt, hcarry, carryDrain, if_neg (by simp [hs])]

namespace State

/-! ### The apply command (R284, R308, R313, R314) -/

theorem nextEntry_zero_congr {s t : State} (hentries : t.getF (F.MGMT_RING.ENTRIES 0) = s.getF (F.MGMT_RING.ENTRIES 0))
    (hgive : t.getF (F.QUEUE_STATE.GIVE 0) = s.getF (F.QUEUE_STATE.GIVE 0)) (hwin : t.win = s.win) (hqueues : t.queues = s.queues) :
    t.nextEntry 0 = s.nextEntry 0 := by
  have hq (v : State) : v.qEntries 0 = if NSet.mem v.win.off 0 then 0 else v.getF (F.MGMT_RING.ENTRIES 0) := rfl
  rw [nextEntry, nextEntry, hasNext, hasNext, hq, hq, qGive, qGive, hentries, hgive, hwin, queue_congr hqueues]

/-- A rejected image leaves its reason in APPLY_LAST and in its entry, and nothing else changes. -/
theorem refuseApply_rejects {s : State} {i : Nat} (hnext : s.nextEntry 0 = some i) (st : Nat) (r : Reject) :
    let u := s.refuseApply ⟨st, some r⟩
    u.getF F.APPLY_LAST.REASON = r.reason % 2 ^ F.APPLY_LAST.REASON.width ∧ u.plan = s.plan ∧ u.shadow = s.shadow ∧ u.mem = s.mem ∧
      u.grid = s.grid ∧ s.fieldsBut u [F.APPLY_LAST.REASON, F.APPLY_LAST.SECTION, F.APPLY_LAST.DETAIL] ∧
      (u.queue 0).fin = (s.queue 0).fin ++ [⟨i, 0x000B, r.word, false⟩] := by
  obtain ⟨a, ha⟩ : ∃ a, a = ((s.nowF F.APPLY_LAST.REASON r.reason).nowF F.APPLY_LAST.SECTION r.sect).nowF F.APPLY_LAST.DETAIL r.detail := ⟨_, rfl⟩
  have hsame : { a with regs := s.regs, pub := s.pub, base := s.base } = s := by
    rw [ha]
    rfl
  have haF : s.fieldsBut a [F.APPLY_LAST.REASON, F.APPLY_LAST.SECTION, F.APPLY_LAST.DETAIL] := fun f hf => by
    rw [ha, getF_nowF_other _ _ (hf _ (by simp)), getF_nowF_other _ _ (hf _ (by simp)), getF_nowF_other _ _ (hf _ (by simp))]
  have hreason : a.getF F.APPLY_LAST.REASON = r.reason % 2 ^ F.APPLY_LAST.REASON.width := by
    rw [ha, getF_nowF_other _ _ (by decide), getF_nowF_other _ _ (by decide), getF_nowF_same]
  have hqueues : a.queues = s.queues := (congrArg State.queues hsame :)
  have hanext : a.nextEntry 0 = some i := by
    rw [← hnext]
    exact nextEntry_zero_congr (haF _ (by decide)) (haF _ (by decide)) (congrArg State.win hsame :) hqueues
  have heq : s.refuseApply ⟨st, some r⟩ = a.complete 0 0x000B r.word := by
    rw [ha]
    rfl
  have hframe := complete_frame a 0 0x000B r.word
  have hfin := fin_complete hanext 0x000B r.word
  rw [heq]
  generalize a.complete 0 0x000B r.word = u at *
  have hF (f : Fld) : u.getF f = a.getF f := getF_congr (congrArg State.regs hframe :) f
  refine ⟨(hF _).trans hreason, (congrArg State.plan hframe :).trans (congrArg State.plan hsame :),
    (congrArg State.shadow hframe :).trans (congrArg State.shadow hsame :), (congrArg State.mem hframe :).trans (congrArg State.mem hsame :),
    (congrArg State.grid hframe :).trans (congrArg State.grid hsame :), fun f hf => (hF f).trans (haF f hf), ?_⟩
  rw [hfin, queue_congr hqueues]

/-- What an image that authenticates decodes to, and whether it validates (R308, R310, R311). -/
def checkedPlan (s : State) (m : Img) (secs : List Section) : Chk (PlanDoc × Over × State) := do
  let d ← decodePlan m secs (imageDigest m)
  let ov ← s.planShadows d
  let t ← s.validatePlan d ov
  .ok (d, ov, t)

theorem applyDoc_rejected {s : State} {m : Img} {secs : List Section} {r : Reject} (h : s.checkedPlan m secs = .error r) (o : ApplyObs) :
    s.applyDoc m secs o = s.refuseApply ⟨0x000B, some r⟩ := by
  rw [applyDoc]
  dsimp only
  rw [checkedPlan] at h
  rw [h]

theorem applyDoc_commits {s t : State} {m : Img} {secs : List Section} {d : PlanDoc} {ov : Over} {o : ApplyObs}
    (h : s.checkedPlan m secs = .ok (d, ov, t)) (hload : o.loadFail = none)
    (hnew : d.hdr.newConfig = true ∨ s.getF F.REPAIR_STATUS.SUBST_PENDING = 0) :
    s.applyDoc m secs o = s.commitPlan t d m.toList (ov.any fun x => x.2.2 == 0) := by
  rw [applyDoc]
  dsimp only
  rw [checkedPlan] at h
  rw [h]
  dsimp only
  rw [hload]
  exact if_pos hnew

/-- What an apply does once its image has been authenticated, or has not (R301, R308). -/
def applyAnswer (s : State) (m : Img) (o : ApplyObs) : Except Refused (List Section) → State
  | .error r => s.refuseApply r
  | .ok secs => s.applyDoc m secs o

section
variable {s v : State} {i : Nat} {o : ApplyObs} (hv : s.front = v) (hturn : v.turn = some i) (hop : v.opAt 0 i = 4)
  (hwait : v.mustWait = false)
include hv hturn hop hwait

theorem applyCommand_noLease (hlease : v.hasLease = false) : s.applyCommand o = v.complete 0 0x0006 0 := by
  rw [applyCommand, hv, hturn]
  dsimp only
  rw [if_neg (by simp [hop, hwait]), if_pos (by simp [hlease])]

variable (hlease : v.hasLease = true) (hlen : 0 < v.entryLength 0 i) (hfits : v.entryWindow 0 i + v.entryLength 0 i ≤ 2 ^ 36)
include hlease hlen hfits

theorem applyCommand_owner (howner : ∃ p ∈ parcelsOf (v.entryWindow 0 i) (v.entryLength 0 i), v.owner p ≠ 2) :
    s.applyCommand o = v.complete 0 0x0004 0 := by
  rw [applyCommand, hv, hturn]
  dsimp only
  rw [if_neg (by simp [hop, hwait]), if_neg (by simp [hlease]), if_neg (by omega), if_neg (by omega), if_pos]
  rw [Bool.not_eq_true', List.all_eq_false]
  obtain ⟨p, hp, hne⟩ := howner
  exact ⟨p, hp, by simpa using hne⟩

variable (hshared : ∀ p ∈ parcelsOf (v.entryWindow 0 i) (v.entryLength 0 i), v.owner p = 2)
  (hgood : v.hasBadLine (v.entryWindow 0 i) (v.entryLength 0 i) = false) (hstore : o.storeBad = false)
include hshared hgood hstore

/-- An image in SHARED-RO parcels without a bad line is authenticated (R284, R301). -/
theorem applyCommand_authenticates {img : Img} (himg : (v.winGet (v.entryWindow 0 i) (v.entryLength 0 i)).toArray = img)
    {res : Except Refused (List Section)}
    (hres : v.authenticate img ((SMap.find? (v.queue 0).via i).bind fun p => (v.port p).plan) = res) :
    s.applyCommand o = v.applyAnswer img o res := by
  rw [applyCommand, hv, hturn]
  dsimp only
  have hall : (parcelsOf (v.entryWindow 0 i) (v.entryLength 0 i)).all (fun p => v.owner p == 2) = true :=
    List.all_eq_true.2 fun p hp => beq_iff_eq.2 (hshared p hp)
  rw [if_neg (by simp [hop, hwait]), if_neg (by simp [hlease]), if_neg (by omega), if_neg (by omega), if_neg (by simp [hall]),
    if_neg (by simp [hgood, hstore]), himg, hres]
  cases res
  · rfl
  · rfl

end
end State

open State in
/-- Settles O37: APPLY, and what a commit leaves (R301, R305, R309-R314). -/
theorem applyAndCommit : Obligations.ApplyAndCommit := by
  refine ⟨?_, commitLeaves⟩
  intro s o i v a len img chosen rejected hturn hop hwait
  have hv : s.front = v := rfl
  have hnext := turn_next hturn
  refine ⟨fun hlease => ?_, fun hlease hlen hfits howner => ?_, fun hlease hlen hfits hshared hgood hstore => ⟨fun r hr => ?_, fun st hr => ?_,
    fun secs hsecs => ?_⟩⟩
  · exact does_of_eq rfl (applyCommand_noLease hv hturn hop hwait hlease) (completed_complete hnext ..)
  · exact does_of_eq rfl (applyCommand_owner hv hturn hop hwait hlease hlen hfits howner) (completed_complete hnext ..)
  · exact does_of_eq rfl (applyCommand_authenticates hv hturn hop hwait hlease hlen hfits hshared hgood hstore rfl hr)
      (refuseApply_rejects hnext 0x000B r)
  · exact does_of_eq rfl (applyCommand_authenticates hv hturn hop hwait hlease hlen hfits hshared hgood hstore rfl hr)
      (completed_complete hnext ..)
  · have heq := applyCommand_authenticates hv hturn hop hwait hlease hlen hfits hshared hgood hstore rfl hsecs
    refine does_of_eq rfl heq ?_
    intro checked
    have hdef : v.checkedPlan img secs = checked := rfl
    clear_value checked
    cases checked with
    | error r =>
      have hreject : v.applyAnswer img o (.ok secs) = v.refuseApply ⟨0x000B, some r⟩ := applyDoc_rejected hdef o
      rw [hreject]
      exact refuseApply_rejects hnext 0x000B r
    | ok x =>
      obtain ⟨d, ov, t⟩ := x
      exact fun hload hnew => applyDoc_commits hdef hload hnew

end Sys2Proof.Machine

namespace Sys2Proof.Machine
namespace State

/-! ### Entries of queue 0 where none waits to be skipped (R285) -/

theorem front_of_noSkip {s : State} (h : s.step.skip = []) : s.front = s := by
  rw [front, h]
  split
  · rfl
  · rfl

theorem checkedPlan_ok {s t : State} {m : Img} {secs : List Section} {d : PlanDoc} {ov : Over} (hdoc : decodePlan m secs (imageDigest m) = .ok d)
    (hshadows : s.planShadows d = .ok ov) (hvalid : s.validatePlan d ov = .ok t) : s.checkedPlan m secs = .ok (d, ov, t) := by
  rw [checkedPlan, hdoc]
  show (do
    let ov ← s.planShadows d
    let t ← s.validatePlan d ov
    .ok (d, ov, t)) = Except.ok (ε := Reject) (d, ov, t)
  rw [hshadows]
  show (do
    let t ← s.validatePlan d ov
    .ok (d, ov, t)) = Except.ok (ε := Reject) (d, ov, t)
  rw [hvalid]
  rfl

/-- A lease that is not refused fits. -/
theorem leaseFits_of_accepted {s : State} {l : Lease} (h : s.leaseRefusal l = none) : s.leaseFits l = true := by
  rw [leaseRefusal] at h
  by_cases hform : (!l.formOk || !l.signed) = true
  · rw [if_pos hform] at h
    cases h
  rw [if_neg hform] at h
  by_cases hkey : (!s.leaseKeys.contains l.key) = true
  · rw [if_pos hkey] at h
    cases h
  rw [if_neg hkey] at h
  by_cases hserial : l.serial ≠ s.man.serial
  · rw [if_pos hserial] at h
    cases h
  rw [if_neg hserial] at h
  by_cases hrole : (!s.roleAgrees l.role) = true
  · rw [if_pos hrole] at h
    cases h
  rw [if_neg hrole] at h
  by_cases htime : (!(s.locked && decide (l.issue ≤ s.meridian) && decide (s.meridian < l.expiry))) = true
  · rw [if_pos htime] at h
    cases h
  rw [Bool.not_eq_true, Bool.not_eq_false'] at hkey hrole htime
  rw [leaseFits, hkey, hrole, Bool.true_and, Bool.true_and]
  exact htime

theorem heldLease_isSome {s : State} {l : Lease} (hheld : s.twin.north = some l ∨ s.twin.south = some l) (hvalid : s.leaseValid l = true) :
    s.heldLease.isSome = true := by
  have hvalidOf : s.validOf (some l) = some l := by rw [validOf, Option.filter_some, if_pos hvalid]
  rw [heldLease]
  split
  · split
    · rfl
    · rfl
  · rfl
  · next hnone =>
    obtain h | h := hheld
    · rw [h, hvalidOf] at hnone
      cases hnone
    · rw [h, hvalidOf]
      rfl

theorem hasLease_acceptLease {s : State} {l : Lease} (h : s.leaseRefusal l = none) : (s.acceptLease l).hasLease = true := by
  obtain ⟨hnewest, hnorth, hsouth, -, -, hfits⟩ := s.acceptLease_accepts l
  refine heldLease_isSome (l := l) ?_ ?_
  · by_cases hcharge : s.inCharge = 0
    · exact .inl (hnorth hcharge).1
    · exact .inr (hsouth hcharge).1
  · rw [leaseValid, hfits, leaseFits_of_accepted h, leaseNewest, hnewest]
    simp

theorem hasLease_complete (s : State) (q status result : Nat) : (s.complete q status result).hasLease = s.hasLease := by
  unfold complete
  split
  · rfl
  · rfl

theorem stageDone_goesOn {s : State} (hphase : s.step.phase = .substituting) (hmore : s.migrateStage.migrated = false) :
    s.stageDone none [] = s.migrateStage := by
  rw [stageDone, if_pos hphase]
  exact if_neg (by simp [hmore])

end State

open State in
/-- Settles O60: the commands of queue 0 complete on conditions of the present state (R284, R285). -/
theorem queueZeroCompletes : Obligations.QueueZeroCompletes := by
  refine ⟨?_, fun s hphase hmore => ⟨_, congrArg s.answer (stageDone_goesOn hphase hmore), rfl⟩⟩
  intro s i hskip hturn a len
  have hfront := front_of_noSkip hskip
  have hnext := turn_next hturn
  refine ⟨fun hop => ?_, ?_, ?_, fun hop hlen hrange hok => ?_, fun hits hop hwait hlease hword => ?_, fun w hop hlease hlen hw hrange => ?_⟩
  · exact does_of_eq rfl ((nopCommand_eq hfront hturn).trans (if_pos hop)) (completed_complete hnext ..)
  · intro kat c eval hc hop hwait hok hsub
    have heq := stepCommand_begins (s := s) (eval := eval) (i := i) (bits13 kat)
    rw [hfront] at heq
    obtain ⟨hstep, -, -, -, -, hfurrow, -⟩ := s.beginStep_begins i eval
    refine does_of_eq (exec_stepCommand hc s) (heq hturn hop hwait hok hsub) ?_
    generalize s.beginStep i eval = u at *
    rw [hstep]
    exact ⟨rfl, rfl, rfl, rfl, rfl, rfl, hfurrow⟩
  · intro o secs d ov t img hop hwait hlease hlen hfits hshared hgood hstore hload hsecs hdoc hshadows hvalid hnew
    exact does_of_eq rfl ((applyCommand_authenticates hfront hturn hop hwait hlease hlen hfits hshared hgood hstore rfl hsecs).trans
      (applyDoc_commits (checkedPlan_ok hdoc hshadows hvalid) hload hnew)) rfl
  · generalize hl : Lease.ofBytes (s.winGet a 192) = l at hok ⊢
    have hcommand := leaseCommand_accepts hfront hturn hop hlen hrange hl hok
    obtain ⟨hnewest, -, -, hnext', hqueues, -⟩ := s.acceptLease_accepts l
    have hlease := hasLease_acceptLease hok
    generalize s.acceptLease l = t at *
    have htwin : (t.complete 0 0 l.expiry).twin = t.twin := (congrArg State.twin (complete_frame t 0 0 l.expiry) :)
    refine does_of_eq rfl hcommand ⟨by rw [htwin, hnewest], by rw [hasLease_complete, hlease], ?_⟩
    rw [fin_complete (hnext'.trans hnext), queue_congr hqueues]
  · have heq := duskCommand_eq hfront hturn hop hwait (s.duskHits hits)
    obtain h | h : s.entryWord 0 i 4 = 0 ∨ s.entryWord 0 i 4 = 1 := by omega
    · rw [if_neg (by simp [hlease]), if_neg (by rw [h]; decide), if_neg (by rw [entryWord_duskNominalDone, h]; decide)] at heq
      obtain ⟨hrunning, -, hpad, hloam, -⟩ := duskWait_shows s (s.duskHits hits) ⟨s.duskBegin.reproduced (s.duskBegin.duskPass (s.duskHits hits)), false⟩
      refine does_of_eq rfl heq ⟨hpad, hloam, ?_, ?_⟩
      · rw [decide_eq_true h]
        rfl
      · rw [if_pos h]
        exact hrunning
    · rw [if_neg (by simp [hlease]), if_neg (by rw [h]; decide), if_pos (by rw [entryWord_duskNominalDone, h])] at heq
      obtain ⟨hdusk, hrunning, -, hpad, hloam⟩ := duskNominalOnly_ends s (s.duskHits hits) (s.duskBegin.reproduced (s.duskBegin.duskPass (s.duskHits hits)))
      have hone : ¬ s.entryWord 0 i 4 = 0 := by omega
      refine does_of_eq rfl heq ⟨hpad, hloam, ?_, ?_⟩
      · rw [hdusk, decide_eq_false hone]
        rfl
      · rw [if_neg hone]
        exact hrunning
  · refine does_of_eq rfl (witnessCommand_copies hfront hturn hop hlease hlen hw hrange) ⟨?_, fin_complete_winPut hnext ..⟩
    rw [winGet_complete]
    exact winGet_winPut_same ..

end Sys2Proof.Machine

namespace Sys2Proof.Machine
namespace State

/-! ### What a close and an abandonment keep (R195, R342, R343) -/

/-- The registers of which the horizon close speaks. -/
@[reducible] def closeRegs : List Nat := [F.MEM_STATUS.CLOSE_NS.key, F.HV_STATUS.COMMITTED_S.key]

/-- The committed loam and its map stay as they are, and so does the step, and no waiting record is lost. -/
structure CommitKeeps (s t : State) : Prop where
  cur : t.mem.cur = s.mem.cur
  loam : t.mem.loam = s.mem.loam
  phase : t.step.phase = s.step.phase
  fault : t.step.fault = s.step.fault
  stepS : t.step.stepS = s.step.stepS
  recs : ∃ more, t.recs = s.recs ++ more

namespace CommitKeeps
variable {s t u : State}

theorem of_same (hmem : t.mem = s.mem) (hstep : t.step = s.step) (hrecs : t.recs = s.recs) : CommitKeeps s t :=
  ⟨by rw [hmem], by rw [hmem], by rw [hstep], by rw [hstep], by rw [hstep], [], by rw [hrecs, List.append_nil]⟩

theorem refl (s : State) : CommitKeeps s s := of_same rfl rfl rfl

theorem trans (h : CommitKeeps s t) (k : CommitKeeps t u) : CommitKeeps s u := by
  obtain ⟨xs, hx⟩ := h.recs
  obtain ⟨ys, hy⟩ := k.recs
  exact ⟨k.cur.trans h.cur, k.loam.trans h.loam, k.phase.trans h.phase, k.fault.trans h.fault, k.stepS.trans h.stepS, xs ++ ys,
    by rw [hy, hx, List.append_assoc]⟩

theorem foldl {β : Type} {g : State → β → State} (hg : ∀ (s : State) (x : β), CommitKeeps s (g s x)) (xs : List β) (s : State) :
    CommitKeeps s (xs.foldl g s) :=
  List.foldlRecOn (motive := fun t => CommitKeeps s t) _ _ (.refl s) fun _ h x _ => h.trans (hg _ x)

theorem mem_recs (h : CommitKeeps s t) {r : PRec} (hr : r ∈ s.recs) : r ∈ t.recs := by
  obtain ⟨more, hmore⟩ := h.recs
  rw [hmore]
  exact List.mem_append_left _ hr

end CommitKeeps

/-- Beside them the registers of the close, the marks of the step's writes and the fabric. -/
structure CloseKeeps (s t : State) : Prop extends CommitKeeps s t where
  regs : ∀ f : Fld, f.key ∈ closeRegs → t.getF f = s.getF f
  dirty : t.mem.dirty = s.mem.dirty
  fab : t.fab = s.fab
  base : s.base = none → t.base = none

namespace CloseKeeps
variable {s t u : State}

theorem of_same (hregs : t.regs = s.regs) (hbase : t.base = s.base) (hmem : t.mem = s.mem) (hstep : t.step = s.step)
    (hrecs : t.recs = s.recs) (hfab : t.fab = s.fab) : CloseKeeps s t :=
  ⟨.of_same hmem hstep hrecs, fun f _ => getF_congr hregs f, by rw [hmem], hfab, fun h => hbase.trans h⟩

theorem refl (s : State) : CloseKeeps s s := of_same rfl rfl rfl rfl rfl rfl

theorem trans (h : CloseKeeps s t) (k : CloseKeeps t u) : CloseKeeps s u :=
  ⟨h.toCommitKeeps.trans k.toCommitKeeps, fun f hf => (k.regs f hf).trans (h.regs f hf), k.dirty.trans h.dirty, k.fab.trans h.fab,
    fun hb => k.base (h.base hb)⟩

theorem foldl {β : Type} {g : State → β → State} {xs : List β} (hg : ∀ s : State, ∀ x ∈ xs, CloseKeeps s (g s x)) (s : State) :
    CloseKeeps s (xs.foldl g s) :=
  List.foldlRecOn (motive := fun t => CloseKeeps s t) _ _ (.refl s) fun _ h x hx => h.trans (hg _ x hx)

theorem keepF (s : State) {f : Fld} (hf : f.key ∉ closeRegs) (v : Nat) : CloseKeeps s (s.keepF f v) :=
  ⟨.of_same rfl rfl rfl, fun _ hg => getF_keepF_other _ _ fun h => hf (h ▸ hg), rfl, rfl, Option.map_eq_none_iff.2⟩

theorem nowF (s : State) {f : Fld} (hf : f.key ∉ closeRegs) (v : Nat) : CloseKeeps s (s.nowF f v) :=
  ⟨.of_same rfl rfl rfl, fun _ hg => getF_nowF_other _ _ fun h => hf (h ▸ hg), rfl, rfl, Option.map_eq_none_iff.2⟩

theorem setF (s : State) {f : Fld} (hf : f.key ∉ closeRegs) (v : Nat) : CloseKeeps s (s.setF f v) :=
  ⟨.of_same rfl rfl rfl, fun _ hg => getF_setF_other _ _ fun h => hf (h ▸ hg), rfl, rfl, fun h => h⟩

theorem modCkpt (s : State) (f : CkptSt → CkptSt) : CloseKeeps s (s.modCkpt f) := .of_same rfl rfl rfl rfl rfl rfl

theorem event (s : State) (code typ id d4 d5 : Nat) : CloseKeeps s (s.event code typ id d4 d5) :=
  ⟨⟨rfl, rfl, rfl, rfl, rfl, _, rfl⟩, fun _ _ => getF_event .., rfl, rfl, fun h => h⟩

end CloseKeeps

theorem not_mem_closeRegs {k : Nat} (h : k ≠ F.MEM_STATUS.CLOSE_NS.key ∧ k ≠ F.HV_STATUS.COMMITTED_S.key) : k ∉ closeRegs := by
  simpa [closeRegs] using h

/-! #### What a close takes and shows (R133, R195, R258, R344) -/

theorem closeKeeps_exposeDirty (s : State) : CloseKeeps s s.exposeDirty := by
  have hexpose (t : State) (k : Nat) : CloseKeeps t (t.expose k) := by
    unfold expose modParcel
    split
    · exact .refl t
    · exact .modCkpt t _
  unfold exposeDirty
  refine .trans (.foldl (fun t g _ => ?_) s) (.foldl (fun t g _ => hexpose ..) _)
  split
  · exact .refl t
  · dsimp only
    split
    · exact .refl t
    · exact hexpose ..

theorem closeKeeps_writeImage (s : State) (lid : Nat) : CloseKeeps s (s.writeImage lid) := by
  have himage (t : State) (m : SMap Byte) : CloseKeeps t { t with mem := { t.mem with image := m } } :=
    ⟨⟨rfl, rfl, rfl, rfl, rfl, [], (List.append_nil _).symm⟩, fun _ _ => rfl, rfl, rfl, fun h => h⟩
  unfold writeImage
  dsimp only
  split
  · exact .refl s
  · refine .trans (.foldl (fun t b _ => himage ..) s) (.keepF _ (not_mem_closeRegs ?_) _)
    simp only [Fld.key, F.PAD_STATUS.IMAGE_HALF, F.MEM_STATUS.CLOSE_NS, F.HV_STATUS.COMMITTED_S]
    omega

theorem closeKeeps_twinSend (s : State) (b : TwinBody) : CloseKeeps s (s.twinSend b) := by
  unfold twinSend
  split
  · exact .of_same rfl rfl rfl rfl rfl rfl
  · exact .refl s

theorem closeKeeps_emitManifest (s : State) : CloseKeeps s s.emitManifest := by
  have hdrain (t : State) (l i e n : Nat) (bs : List Byte) : CloseKeeps t (t.drainSeg l i e n bs) := by
    unfold drainSeg
    split
    · exact .refl t
    · exact .modCkpt t _
  have hrelease (t : State) (n : Nat) : CloseKeeps t (t.ledgerRelease n) := (CloseKeeps.modCkpt t _).trans (.nowF _ (by decide) _)
  have hroot (t : State) (root : List Byte) (is : List Nat) :
      CloseKeeps t (is.foldl (fun s i => s.keepF (F.CKPT_ROOT.ROOT i) (wordField root i 0 64)) t) := by
    refine .foldl (fun t i _ => .keepF t (not_mem_closeRegs ?_) _) t
    simp only [Fld.key, F.CKPT_ROOT.ROOT, F.MEM_STATUS.CLOSE_NS, F.HV_STATUS.COMMITTED_S]
    omega
  exact ((((CloseKeeps.modCkpt s _).trans (hroot ..)).trans (hdrain ..)).trans (closeKeeps_twinSend ..)).trans (hrelease ..)

theorem closeKeeps_checkDrain (s : State) : CloseKeeps s s.checkDrain := by
  have htold (t : State) (c : Bool) : CloseKeeps t (if c then t.emitManifest else t) := by
    split
    · exact closeKeeps_emitManifest t
    · exact .refl t
  have hends (t : State) (c : Bool) : CloseKeeps t (if c then t.nowF F.CKPT_STATUS.DRAINING 0 else t) := by
    split
    · exact .nowF t (by decide) 0
    · exact .refl t
  unfold checkDrain
  split
  · exact ((CloseKeeps.modCkpt s _).trans (htold ..)).trans (hends ..)
  · exact .refl s

theorem closeKeeps_snapshot (s : State) : CloseKeeps s s.snapshot := by
  refine CloseKeeps.trans ?_ (closeKeeps_checkDrain _)
  refine ((((((CloseKeeps.modCkpt s _).trans (.nowF _ ?_ _)).trans (.nowF _ ?_ _)).trans (.nowF _ ?_ _)).trans (.nowF _ ?_ _)).trans
    (.nowF _ ?_ _)).trans ((CloseKeeps.nowF _ ?_ _).trans (.nowF _ ?_ _))
  all_goals decide

theorem closeKeeps_recordStep (s : State) : CloseKeeps s s.recordStep := by
  have hwords (t : State) (a b : SMap Nat) : CloseKeeps t { t with step := { t.step with lastWords := a, lastLoose := b } } :=
    ⟨⟨rfl, rfl, rfl, rfl, rfl, [], (List.append_nil _).symm⟩, fun _ _ => rfl, rfl, rfl, fun h => h⟩
  refine (hwords s _ _).trans (.foldl (fun t x _ => .setF t (not_mem_closeRegs ?_) _) _)
  simp only [Fld.key, F.SLACK_MIN.SLACK, F.MEM_STATUS.CLOSE_NS, F.HV_STATUS.COMMITTED_S]
  omega

theorem closeKeeps_recordNorm (s : State) : CloseKeeps s s.recordNorm := by
  have hkey (i : Nat) : (F.HV_NORM.SUMSQ i).key ∉ closeRegs := by
    refine not_mem_closeRegs ?_
    simp only [Fld.key, F.HV_NORM.SUMSQ, F.MEM_STATUS.CLOSE_NS, F.HV_STATUS.COMMITTED_S]
    omega
  unfold recordNorm
  split
  · exact .foldl (fun t b _ => .setF t (hkey _) _) s
  · exact .foldl (fun t b _ => .setF t (hkey _) _) s

theorem closeKeeps_putDigest (s : State) {f : Nat → Fld} (hf : ∀ i < 8, (f i).key ∉ closeRegs) (d : List Byte) :
    CloseKeeps s (s.putDigest f d) :=
  .foldl (fun t i hi => .nowF t (hf i (List.mem_range.1 hi)) _) s

theorem closeKeeps_sowDigest (s : State) (d : List Byte) : CloseKeeps s (s.putDigest F.SOW_DIGEST.DIGEST d) := by
  refine closeKeeps_putDigest s (fun i hi => not_mem_closeRegs ?_) d
  simp only [Fld.key, F.SOW_DIGEST.DIGEST, F.MEM_STATUS.CLOSE_NS, F.HV_STATUS.COMMITTED_S]
  omega

theorem closeKeeps_hvDigest (s : State) (d : List Byte) : CloseKeeps s (s.putDigest F.HV_DIGEST.DIGEST d) := by
  refine closeKeeps_putDigest s (fun i hi => not_mem_closeRegs ?_) d
  simp only [Fld.key, F.HV_DIGEST.DIGEST, F.MEM_STATUS.CLOSE_NS, F.HV_STATUS.COMMITTED_S]
  omega

theorem closeKeeps_setKept (s : State) (gs : List HvSeg) : CloseKeeps s (s.setKept gs) := by
  have hkept : CloseKeeps s { s with hv := { s.hv with kept := gs } } := .of_same rfl rfl rfl rfl rfl rfl
  refine hkept.trans (.trans (.foldl (fun t h _ => .keepF t (not_mem_closeRegs ?_) _) _) (.keepF _ (by decide) _))
  simp only [Fld.key, F.HV_SEG_STATUS.TX_FREE, F.MEM_STATUS.CLOSE_NS, F.HV_STATUS.COMMITTED_S]
  omega

theorem closeKeeps_queueTrailers (s : State) (digest : List Byte) : CloseKeeps s (s.queueTrailers digest) := by
  refine .trans (.foldl (fun t c _ => ?_) s) (closeKeeps_setKept ..)
  split
  · exact closeKeeps_setKept ..
  · exact .refl t

theorem closeKeeps_formWitness (s : State) (ckpt : Bool) : CloseKeeps s (s.formWitness ckpt) := by
  have hobs (t : State) (o : ObsSt) : CloseKeeps t { t with obs := o } := .of_same rfl rfl rfl rfl rfl rfl
  exact ((hobs s _).trans (.nowF _ (by decide) _)).trans (.nowF _ (by decide) _)

theorem closeKeeps_endClaims (s : State) : CloseKeeps s s.endClaims := by
  have hsow (t : State) (x : SowSt) : CloseKeeps t { t with sow := x } := .of_same rfl rfl rfl rfl rfl rfl
  refine .trans (.foldl (fun t c _ => .foldl (fun t b _ => (hsow t _).trans (.keepF _ (not_mem_closeRegs ?_) _)) t) s) (hsow _ _)
  simp only [Fld.key, F.CHAN_STATUS.HELD_BLOCKS, F.MEM_STATUS.CLOSE_NS, F.HV_STATUS.COMMITTED_S]
  omega

theorem closeKeeps_setStale (s : State) : CloseKeeps s s.setStale := by
  refine .foldl (fun t l _ => .keepF t (not_mem_closeRegs ?_) 1) s
  simp only [Fld.key, F.PAD_STATUS.STALE, F.MEM_STATUS.CLOSE_NS, F.HV_STATUS.COMMITTED_S]
  omega

/-! #### A publication point of the close (R278, R282, R398) -/

theorem closeKeeps_traceHorizon (s : State) (committed : Bool) : CloseKeeps s (s.traceHorizon committed) := by
  have hobs (t : State) (o : ObsSt) : CloseKeeps t { t with obs := o } := .of_same rfl rfl rfl rfl rfl rfl
  have hout (t : State) (bs : List Byte) : CloseKeeps t (t.watchOut bs) := by
    unfold watchOut
    split
    · exact .nowF t (by decide) _
    · exact hobs t _
  have hrec (t : State) (r : PRec) : CloseKeeps t { t with recs := t.recs ++ [r] } :=
    ⟨⟨rfl, rfl, rfl, rfl, rfl, _, rfl⟩, fun _ _ => rfl, rfl, rfl, fun h => h⟩
  unfold traceHorizon
  split
  · unfold trace
    dsimp only
    split
    · exact ((hobs s _).trans (hout ..)).trans (hrec ..)
    · exact (hobs s _).trans (hout ..)
  · exact .refl s

theorem closeKeeps_showGleaners (s : State) (on : Bool) : CloseKeeps s (s.showGleaners on) := by
  refine .foldl (fun t h _ => ?_) s
  split
  · refine .foldl (fun v k _ => .keepF v (not_mem_closeRegs ?_) _) t
    simp only [Fld.key, F.GL_STATUS.ACTIVE, F.MEM_STATUS.CLOSE_NS, F.HV_STATUS.COMMITTED_S]
    omega
  · exact .refl t

theorem closeKeeps_setQueue (s : State) (q : Nat) (x : QueueSt) : CloseKeeps s (s.setQueue q x) := .of_same rfl rfl rfl rfl rfl rfl

theorem closeKeeps_finishStep (s : State) (status : Nat) : CloseKeeps s (s.finishStep status) := by
  unfold finishStep
  split
  · exact closeKeeps_setQueue ..
  · exact .refl s

theorem closeKeeps_writeStates (s : State) (k w : Nat) : CloseKeeps s (s.writeStates k w) := by
  refine ((CloseKeeps.nowF s (not_mem_closeRegs ?_) w).trans (.nowF _ (not_mem_closeRegs ?_) _)).trans (.nowF _ (by decide) _)
  all_goals
    simp only [Fld.key, F.ROW_MAP.SITE_STATE, F.ROW_MAP.SPARE_COUNT, F.MEM_STATUS.CLOSE_NS, F.HV_STATUS.COMMITTED_S]
    omega

theorem closeKeeps_goDark (s : State) (n : Nat) : CloseKeeps s (s.goDark n) := by
  have hpower : CloseKeeps s (s.powerRegion n false) := by
    have hwakes (t : State) : CloseKeeps t { t with power := { t.power with wakes := SMap.drop t.power.wakes n } } :=
      .of_same rfl rfl rfl rfl rfl rfl
    refine ((((CloseKeeps.keepF s (not_mem_closeRegs ?_) _).trans (.keepF _ (not_mem_closeRegs ?_) _)).trans (hwakes _)).trans
      (.keepF _ (not_mem_closeRegs ?_) 0)).trans (.foldl (fun t i _ => .keepF t (not_mem_closeRegs ?_) _) _)
    all_goals
      simp only [Fld.key, F.REGION_PSTAT.SWITCH, F.REGION_PSTAT.AWAKE, F.REGION_PSTAT.WAKING, F.LOAM_STATUS.POWERED,
        F.MEM_STATUS.CLOSE_NS, F.HV_STATUS.COMMITTED_S]
      omega
  have hsite (t : State) (p st : Nat) : CloseKeeps t (t.setSite p st) := by
    unfold setSite
    dsimp only
    split
    · exact .of_same rfl rfl rfl rfl rfl rfl
    · exact closeKeeps_writeStates ..
  have hdegrade (t : State) (row : Nat) : CloseKeeps t (t.degrade row) := by
    unfold degrade
    split
    · exact .refl t
    · exact (CloseKeeps.keepF t (by decide) 1).trans (.event ..)
  refine ((hpower.trans (.keepF _ (not_mem_closeRegs ?_) 1)).trans (.foldl (fun t i _ => hsite ..) _)).trans (hdegrade ..)
  simp only [Fld.key, F.REGION_PSTAT.DARK_LATCH, F.MEM_STATUS.CLOSE_NS, F.HV_STATUS.COMMITTED_S]
  omega

theorem closeKeeps_darkenDoomed (s : State) : CloseKeeps s s.darkenDoomed := by
  have hpower (t : State) (x : PowerSt) : CloseKeeps t { t with power := x } := .of_same rfl rfl rfl rfl rfl rfl
  exact (hpower s _).trans (.foldl (fun t n _ => closeKeeps_goDark t n) _)

theorem closeKeeps_sleepBetween (s : State) : CloseKeeps s s.sleepBetween := by
  have hpower (t : State) (x : PowerSt) : CloseKeeps t { t with power := x } := .of_same rfl rfl rfl rfl rfl rfl
  have hpads (t : State) (pad : SMap Byte) (cache : SMap (List Nat)) : CloseKeeps t { t with mem := { t.mem with pad := pad, cache := cache } } :=
    ⟨⟨rfl, rfl, rfl, rfl, rfl, [], (List.append_nil _).symm⟩, fun _ _ => rfl, rfl, rfl, fun h => h⟩
  refine .foldl (fun t n _ => ?_) s
  split
  · refine (((CloseKeeps.keepF t (not_mem_closeRegs ?_) 0).trans (.keepF _ (not_mem_closeRegs ?_) 0)).trans (hpower _ _)).trans
      (.foldl (fun t l _ => CloseKeeps.trans (.keepF t (not_mem_closeRegs ?_) 1) (hpads ..)) _)
    all_goals
      simp only [Fld.key, F.REGION_PSTAT.AWAKE, F.REGION_PSTAT.WAKING, F.PAD_STATUS.STALE, F.MEM_STATUS.CLOSE_NS,
        F.HV_STATUS.COMMITTED_S]
      omega
  · exact .refl t

theorem closeKeeps_attestPoint (s : State) : CloseKeeps s s.attestPoint := by
  unfold attestPoint
  split
  · exact .refl s
  · have hwin (t : State) (a : Nat) (bs : List Byte) : CloseKeeps t (t.winPut a bs) := .of_same rfl rfl rfl rfl rfl rfl
    have hobs (t : State) (o : ObsSt) : CloseKeeps t { t with obs := o } := .of_same rfl rfl rfl rfl rfl rfl
    exact ((hwin ..).trans (hobs _ _)).trans (.keepF _ (by decide) 1)

/-- What the publication point of a commit leaves of `s`, whose step it ends. -/
structure CommitOf (s u : State) : Prop where
  phase : u.step.phase = .idle
  fault : u.step.fault = none
  base : u.base = none
  fab : u.fab = FabricSt.zero
  pub : u.pub = u.regs
  horizon : ∃ r ∈ u.recs, r.kind = 1 ∧ r.code = 0x0001 ∧ r.d4 = s.step.stepS
  cur : u.mem.cur = s.mem.cur
  loam : u.mem.loam = s.mem.loam
  dirty : u.mem.dirty = s.mem.dirty
  regs : ∀ f : Fld, f.key ∈ closeRegs → u.getF f = s.getF f

theorem CommitOf.of_keeps {s t u : State} (h : CloseKeeps s t) (k : CommitOf t u) : CommitOf s u := by
  refine ⟨k.phase, k.fault, k.base, k.fab, k.pub, ?_, k.cur.trans h.cur, k.loam.trans h.loam, k.dirty.trans h.dirty,
    fun f hf => (k.regs f hf).trans (h.regs f hf)⟩
  rw [← h.stepS]
  exact k.horizon

theorem publishCommit_commits (s : State) : CommitOf s s.publishCommit := by
  obtain ⟨shown, hshown⟩ : ∃ t, t = (s.traceHorizon true).showGleaners false := ⟨_, rfl⟩
  have hkshown : CloseKeeps s shown := hshown ▸ (closeKeeps_traceHorizon s true).trans (closeKeeps_showGleaners ..)
  obtain ⟨posted, hposted⟩ : ∃ t, t = shown.event 0x0001 srcModule 0 s.step.stepS := ⟨_, rfl⟩
  have hkposted : CloseKeeps shown posted := hposted ▸ .event ..
  have hrec : ∃ r ∈ posted.recs, r.kind = 1 ∧ r.code = 0x0001 ∧ r.d4 = s.step.stepS := by
    rw [hposted]
    exact ⟨_, List.mem_append_right _ (List.mem_singleton_self _), rfl, rfl, rfl⟩
  obtain ⟨back, hback⟩ : ∃ t, t = (s.step.staged.foldl (fun s e => s.finish e.1 e.2.1 e.2.2 0) posted).finishStep 0 := ⟨_, rfl⟩
  have hkback : CloseKeeps posted back :=
    hback ▸ (CloseKeeps.foldl (fun t e _ => closeKeeps_setQueue ..) posted).trans (closeKeeps_finishStep ..)
  obtain ⟨idle, hidle⟩ : ∃ t : State, t = { back with
    plots := back.haltedPlots, base := none,
    mem := { back.mem with blockWritten := [], chunk := [], chunkNext := [], portGrains := [] },
    step := { back.step with phase := .idle, fault := none, staged := [], holdRun := [], copyHeld := false, judged := true } } := ⟨_, rfl⟩
  obtain ⟨sent, hsent⟩ : ∃ t, t = if s.step.asLead && !s.step.eval then idle.twinSend (.horizon s.step.stepS true) else idle := ⟨_, rfl⟩
  have hksent : CloseKeeps idle sent := by
    rw [hsent]
    split
    · exact closeKeeps_twinSend ..
    · exact .refl idle
  have hkend : CloseKeeps sent.clearFabric sent.clearFabric.darkenDoomed.sleepBetween.attestPoint :=
    ((closeKeeps_darkenDoomed _).trans (closeKeeps_sleepBetween _)).trans (closeKeeps_attestPoint _)
  have heq : s.publishCommit = sent.clearFabric.darkenDoomed.sleepBetween.attestPoint.refreshPub := by
    rw [hsent, hidle, hback, hposted, hshown]
    rfl
  have hks : CloseKeeps s back := (hkshown.trans hkposted).trans hkback
  have hidleRecs : idle.recs = back.recs := by rw [hidle]
  have hidleMem : idle.mem.cur = back.mem.cur ∧ idle.mem.loam = back.mem.loam ∧ idle.mem.dirty = back.mem.dirty := by
    rw [hidle]
    exact ⟨rfl, rfl, rfl⟩
  have hidleStep : idle.step.phase = .idle ∧ idle.step.fault = none ∧ idle.base = none ∧ idle.regs = back.regs := by
    rw [hidle]
    exact ⟨rfl, rfl, rfl, rfl⟩
  obtain ⟨hcur, hloam, hdirty⟩ := hidleMem
  obtain ⟨hphase, hfault, hbase, hregs⟩ := hidleStep
  obtain ⟨last, hlast⟩ : ∃ t, t = sent.clearFabric.darkenDoomed.sleepBetween.attestPoint := ⟨_, rfl⟩
  rw [← hlast] at hkend heq
  rw [heq]
  exact {
    phase := hkend.phase.trans (hksent.phase.trans hphase)
    fault := hkend.fault.trans (hksent.fault.trans hfault)
    base := hkend.base (hksent.base hbase)
    fab := hkend.fab
    pub := rfl
    horizon := by
      obtain ⟨r, hr, hkind⟩ := hrec
      have hidler : r ∈ idle.recs := hidleRecs ▸ hkback.mem_recs hr
      exact ⟨r, hkend.mem_recs (hksent.mem_recs hidler), hkind⟩
    cur := hkend.cur.trans (hksent.cur.trans (hcur.trans hks.cur))
    loam := hkend.loam.trans (hksent.loam.trans (hloam.trans hks.loam))
    dirty := hkend.dirty.trans (hksent.dirty.trans (hdirty.trans hks.dirty))
    regs := fun f hf => (hkend.regs f hf).trans ((hksent.regs f hf).trans ((getF_congr hregs f).trans (hks.regs f hf))) }

/-! ### The close of a step (R195, R196, R342) -/

/-- A horizon takes a grain into the map, or out of it. -/
@[reducible] def flipGrain (m : NSet) (g : Nat) : NSet := if NSet.mem m g then NSet.erase m g else NSet.insert m g

theorem mem_flipGrain (m : NSet) (j g : Nat) : NSet.mem (flipGrain m j) g = (NSet.mem m g != decide (j = g)) := by
  unfold flipGrain
  by_cases hj : j = g
  · subst hj
    split <;> simp [*]
  · split <;> simp [hj, NSet.mem_erase_other _ (Ne.symm hj), NSet.mem_insert_other _ (Ne.symm hj)]

/-- The map of a horizon flips the copies of the grains that the step has written. -/
theorem mem_flipGrains (dirty : NSet) (h : SMap.rising dirty = true) (cur : NSet) (g : Nat) :
    NSet.mem (dirty.foldl (fun m x => flipGrain m x.1) cur) g = (NSet.mem cur g != NSet.mem dirty g) := by
  induction dirty generalizing cur with
  | nil => simp [NSet.mem, SMap.find?]
  | cons x rest ih =>
    obtain ⟨j, v⟩ := x
    obtain ⟨habove, hrest⟩ := (SMap.rising_cons j v rest).1 h
    rw [List.foldl_cons, ih hrest, mem_flipGrain]
    by_cases hj : j = g
    · subst hj
      have hout : SMap.find? rest j = none := by
        cases hm : SMap.find? rest j with
        | none => rfl
        | some w => exact absurd (habove _ (SMap.mem_of_find? hm)) (Nat.lt_irrefl j)
      simp [hout, NSet.mem, SMap.find?]
    · simp [hj, NSet.mem, SMap.find?]

/-- What the close of a training step leaves beyond its publication point. -/
structure TrainedFrom (s u : State) : Prop where
  phase : u.step.phase = .idle
  fault : u.step.fault = none
  base : u.base = none
  dirty : u.mem.dirty = []
  fab : u.fab = FabricSt.zero
  pub : u.pub = u.regs
  closeNs : u.getF F.MEM_STATUS.CLOSE_NS = s.getF F.MEM_STATUS.CLOSE_NS
  horizon : ∃ r ∈ u.recs, r.kind = 1 ∧ r.code = 0x0001 ∧ r.d4 = s.step.stepS
  committed : u.getF F.HV_STATUS.COMMITTED_S = s.step.stepS % 2 ^ 48
  loam : u.mem.loam = s.mem.loam
  cur : u.mem.cur = s.mem.dirty.foldl (fun m x => flipGrain m x.1) s.mem.cur

theorem closeTraining_commits (s : State) : TrainedFrom s s.closeTraining := by
  obtain ⟨imaged, himaged⟩ : ∃ t, t = s.exposeDirty.plotList.foldl writeImage s.exposeDirty := ⟨_, rfl⟩
  have hkimaged : CloseKeeps s imaged := himaged ▸ (closeKeeps_exposeDirty s).trans (.foldl (fun t l _ => closeKeeps_writeImage t l) _)
  obtain ⟨flipped, hflipped⟩ : ∃ t, t = imaged.flipHorizonMap.flipResidual := ⟨_, rfl⟩
  have hcur : flipped.mem.cur = imaged.mem.dirty.foldl (fun m x => flipGrain m x.1) imaged.mem.cur ∧ flipped.mem.dirty = [] ∧
      flipped.mem.loam = imaged.mem.loam ∧ flipped.regs = imaged.regs ∧ flipped.step = imaged.step := by
    rw [hflipped]
    exact ⟨rfl, rfl, rfl, rfl, rfl⟩
  obtain ⟨counted, hcounted⟩ :
      ∃ t, t = flipped.nowF F.CKPT_STATUS.STEPS_SINCE (satAdd 16 (flipped.getF F.CKPT_STATUS.STEPS_SINCE) 1) := ⟨_, rfl⟩
  have hkcounted : CloseKeeps flipped counted := hcounted ▸ .nowF flipped (by decide) _
  obtain ⟨take, htake⟩ : ∃ b, b = (counted.ckptDue && !counted.draining) := ⟨_, rfl⟩
  obtain ⟨snapped, hsnapped⟩ : ∃ t, t = if take then counted.snapshot
      else if counted.ckptDue then counted.nowF F.CKPT_STATUS.DEFERRED 1 else counted := ⟨_, rfl⟩
  have hksnapped : CloseKeeps counted snapped := by
    rw [hsnapped]
    split
    · exact closeKeeps_snapshot counted
    · split
      · exact .nowF counted (by decide) 1
      · exact .refl counted
  obtain ⟨normed, hnormed⟩ : ∃ t, t = snapped.recordStep.recordNorm := ⟨_, rfl⟩
  have hknormed : CloseKeeps snapped normed := hnormed ▸ (closeKeeps_recordStep _).trans (closeKeeps_recordNorm _)
  obtain ⟨hv, hhv⟩ : ∃ d, d = normed.hvDigest normed.step.stepS := ⟨_, rfl⟩
  obtain ⟨digested, hdigested⟩ : ∃ t, t = (normed.putDigest F.SOW_DIGEST.DIGEST normed.sowDigest).putDigest F.HV_DIGEST.DIGEST hv := ⟨_, rfl⟩
  have hkdigested : CloseKeeps normed digested := hdigested ▸ (closeKeeps_sowDigest ..).trans (closeKeeps_hvDigest ..)
  obtain ⟨signed, hsigned⟩ : ∃ t, t = digested.nowF F.HV_STATUS.COMMITTED_S digested.step.stepS := ⟨_, rfl⟩
  have hsame : signed.mem = digested.mem ∧ signed.step = digested.step := by
    rw [hsigned]
    exact ⟨rfl, rfl⟩
  have hns : signed.getF F.MEM_STATUS.CLOSE_NS = digested.getF F.MEM_STATUS.CLOSE_NS := hsigned ▸ getF_nowF_other _ _ (by decide)
  have hcommitted : signed.getF F.HV_STATUS.COMMITTED_S = digested.step.stepS % 2 ^ 48 := hsigned ▸ getF_nowF_same ..
  obtain ⟨ended, hended⟩ : ∃ t, t = ((signed.queueTrailers hv).formWitness take).endClaims := ⟨_, rfl⟩
  have hkended : CloseKeeps signed ended :=
    hended ▸ ((closeKeeps_queueTrailers ..).trans (closeKeeps_formWitness ..)).trans (closeKeeps_endClaims _)
  have heq : s.closeTraining = ended.publishCommit := by
    rw [hended, hsigned, hdigested, hhv, hnormed, hsnapped, htake, hcounted, hflipped, himaged]
    rfl
  have hkmid : CloseKeeps flipped digested := ((hkcounted.trans hksnapped).trans hknormed).trans hkdigested
  obtain ⟨hflip, hclean, hloam, hregs, hstep⟩ := hcur
  obtain ⟨hsmem, hsstep⟩ := hsame
  have hstepS : digested.step.stepS = s.step.stepS :=
    hkmid.stepS.trans ((congrArg StepSt.stepS hstep).trans hkimaged.stepS)
  have hlast := ended.publishCommit_commits
  rw [heq]
  generalize ended.publishCommit = u at *
  exact {
    phase := hlast.phase
    fault := hlast.fault
    base := hlast.base
    dirty := hlast.dirty.trans (hkended.dirty.trans ((congrArg MemSt.dirty hsmem).trans (hkmid.dirty.trans hclean)))
    fab := hlast.fab
    pub := hlast.pub
    closeNs := calc u.getF F.MEM_STATUS.CLOSE_NS
      _ = signed.getF F.MEM_STATUS.CLOSE_NS := (hlast.regs _ (by decide)).trans (hkended.regs _ (by decide))
      _ = flipped.getF F.MEM_STATUS.CLOSE_NS := hns.trans (hkmid.regs _ (by decide))
      _ = s.getF F.MEM_STATUS.CLOSE_NS := (getF_congr hregs _).trans (hkimaged.regs _ (by decide))
    horizon := by
      have hends : ended.step.stepS = s.step.stepS := hkended.stepS.trans ((congrArg StepSt.stepS hsstep).trans hstepS)
      rw [← hends]
      exact hlast.horizon
    committed := by
      rw [hlast.regs _ (by decide), hkended.regs _ (by decide), hcommitted, hstepS]
    loam := calc u.mem.loam
      _ = signed.mem.loam := hlast.loam.trans hkended.loam
      _ = flipped.mem.loam := (congrArg MemSt.loam hsmem).trans hkmid.loam
      _ = s.mem.loam := hloam.trans hkimaged.loam
    cur := calc u.mem.cur
      _ = signed.mem.cur := hlast.cur.trans hkended.cur
      _ = flipped.mem.cur := (congrArg MemSt.cur hsmem).trans hkmid.cur
      _ = s.mem.dirty.foldl (fun m x => flipGrain m x.1) s.mem.cur := by rw [hflip, hkimaged.dirty, hkimaged.cur] }

/-- What the close of an evaluation step leaves beyond its publication point. -/
theorem closeEval_commits (s : State) : ∃ t, CloseKeeps s t ∧ CommitOf { t with mem := { t.mem with dirty := [] } } s.closeEval := by
  obtain ⟨shown, hshown⟩ : ∃ t, t = s.setStale.recordStep := ⟨_, rfl⟩
  have hkshown : CloseKeeps s shown := hshown ▸ (closeKeeps_setStale s).trans (closeKeeps_recordStep _)
  obtain ⟨signed, hsigned⟩ : ∃ t, t = (shown.putDigest F.SOW_DIGEST.DIGEST shown.sowDigest).formWitness false := ⟨_, rfl⟩
  have hksigned : CloseKeeps shown signed := hsigned ▸ (closeKeeps_sowDigest ..).trans (closeKeeps_formWitness ..)
  have heq : s.closeEval = ({ signed with mem := { signed.mem with dirty := [] } } : State).endClaims.publishCommit := by
    rw [hsigned, hshown]
    rfl
  rw [heq]
  exact ⟨signed, hkshown.trans hksigned, .of_keeps (closeKeeps_endClaims _) (publishCommit_commits _)⟩

/-! ### The abandonment of a step (R343) -/

theorem commitKeeps_advanceEpoch (s : State) : CommitKeeps s s.advanceEpoch := by
  have hsow (t : State) (x : SowSt) : CommitKeeps t { t with sow := x } := .of_same rfl rfl rfl
  have hkeep (t : State) (f : Fld) (v : Nat) : CommitKeeps t (t.keepF f v) := .of_same rfl rfl rfl
  have hinc (t : State) (f : Fld) : CommitKeeps t (t.incLive f 1) := .of_same rfl rfl rfl
  have hchans (t : State) : CommitKeeps t (t.resetChans (List.range 32)) :=
    .foldl (fun v c => ((hsow v _).trans (hkeep ..)).trans (hkeep ..)) _ t
  rw [advanceEpoch_eq]
  exact (((hkeep s ..).trans (hinc _ _)).trans (hchans _)).trans (CloseKeeps.event ..).toCommitKeeps

theorem commitKeeps_skipFront (n : Nat) (s : State) : CommitKeeps s (s.skipFront n) := by
  induction n generalizing s with
  | zero => exact .refl s
  | succ n ih =>
    unfold skipFront
    dsimp only
    split
    · have hstep (t : State) (k : List Nat) : CommitKeeps t { t with step := { t.step with skip := k } } :=
        ⟨rfl, rfl, rfl, rfl, rfl, [], (List.append_nil _).symm⟩
      have hdone (t : State) (v : Nat) : CommitKeeps t (t.nowF (F.QUEUE_STATE.DONE 0) v) := .of_same rfl rfl rfl
      exact (((closeKeeps_setQueue s ..).toCommitKeeps.trans (hdone ..)).trans (hstep ..)).trans (ih _)
    · exact .refl s

/-- Orders 1 and 2 of an abandonment: the fabric is cleared, and what the step wrote is undone. -/
def undoneStep (s : State) : State :=
  let undone := (((s.clearFabric.undoRegs).clearDirty).dropSegs).setStale
  let epoch := (if s.step.epochDone then undone else undone.advanceEpoch).dropClaims
  let counted := if s.step.phase = .closing then epoch else epoch.endUngranted
  if s.step.ledgered then counted.ledgerDrop s.step.stepS else counted

/-- Order 3: the cores halt, and what waited for the step's end is shown. -/
def haltedStep (s : State) : State :=
  let halted : State := { s with plots := s.haltedPlots, sow := { s.sow with digests := [] } }
  let halted : State := { halted with mem := { halted.mem with blockWritten := [], chunk := [], chunkNext := [], portGrains := [] } }
  ((halted.darkenDoomed.revealSites).traceHorizon false).showGleaners false

/-- Order 4: the step command and the entries given after it return, and the step is no more. -/
def returnedStep (s : State) (st : StepSt) : State :=
  let back := (s.event 0x0002 srcModule 0 st.stepS (st.fault.getD 0)).unstage.finishStep 0x000C
  let early := back.stepsGiven.foldl finishEarly back
  { early with step := { early.step with
      phase := .idle, fault := none, staged := [], holdRun := [], copyHeld := false, judged := true
      skip := early.step.skip ++ back.stepsGiven } }

theorem abandon_eq (s : State) : s.abandon =
    let idle := s.undoneStep.haltedStep.returnedStep s.step
    let skipped := idle.skipFront idle.step.skip.length
    (if s.step.asLead then skipped.twinSend (.horizon s.step.stepS false) else skipped).sleepBetween.attestPoint := rfl

theorem commitKeeps_undoneStep (s : State) : CommitKeeps s s.undoneStep := by
  have hundone : CommitKeeps s ((s.clearFabric.undoRegs.clearDirty).dropSegs).setStale := by
    have hclear : CommitKeeps s s.clearFabric.undoRegs.clearDirty := ⟨rfl, rfl, rfl, rfl, rfl, [], (List.append_nil _).symm⟩
    have hhv (t : State) (x : HarvestSt) : CommitKeeps t { t with hv := x } := .of_same rfl rfl rfl
    have hdrop (t : State) : CommitKeeps t t.dropSegs := (hhv t _).trans (closeKeeps_setKept ..).toCommitKeeps
    exact (hclear.trans (hdrop _)).trans (closeKeeps_setStale _).toCommitKeeps
  have hepoch (t : State) : CommitKeeps t (if s.step.epochDone then t else t.advanceEpoch).dropClaims := by
    have hsow (v : State) (x : SowSt) : CommitKeeps v { v with sow := x } := .of_same rfl rfl rfl
    have hclaims (t : State) : CommitKeeps t t.dropClaims := .foldl (fun v c => hsow v _) _ t
    split
    · exact hclaims t
    · exact (commitKeeps_advanceEpoch t).trans (hclaims _)
  have hcounted (t : State) : CommitKeeps t (if s.step.phase = .closing then t else t.endUngranted) := by
    split
    · exact .refl t
    · unfold endUngranted
      split
      · exact .of_same rfl rfl rfl
      · exact .refl t
  have hledger (t : State) : CommitKeeps t (if s.step.ledgered then t.ledgerDrop s.step.stepS else t) := by
    split
    · exact .of_same rfl rfl rfl
    · exact .refl t
  exact ((hundone.trans (hepoch _)).trans (hcounted _)).trans (hledger _)

theorem commitKeeps_haltedStep (s : State) : CommitKeeps s s.haltedStep := by
  obtain ⟨halted, hhalted⟩ : ∃ t : State, t = { s with
    plots := s.haltedPlots, sow := { s.sow with digests := [] }
    mem := { s.mem with blockWritten := [], chunk := [], chunkNext := [], portGrains := [] } } := ⟨_, rfl⟩
  have hkhalted : CommitKeeps s halted := hhalted ▸ ⟨rfl, rfl, rfl, rfl, rfl, [], (List.append_nil _).symm⟩
  have hreveal (t : State) : CommitKeeps t t.revealSites := by
    have hgrid (g : GridSt) : CommitKeeps t { t with grid := g } := .of_same rfl rfl rfl
    exact (hgrid _).trans (.foldl (fun v x => (closeKeeps_writeStates v ..).toCommitKeeps) _ _)
  have heq : s.haltedStep = ((halted.darkenDoomed.revealSites).traceHorizon false).showGleaners false := by
    rw [hhalted]
    rfl
  rw [heq]
  exact ((hkhalted.trans (closeKeeps_darkenDoomed halted).toCommitKeeps).trans (hreveal _)).trans
    ((closeKeeps_traceHorizon ..).trans (closeKeeps_showGleaners ..)).toCommitKeeps

theorem returnedStep_idle (s : State) (st : StepSt) : (s.returnedStep st).step.phase = .idle ∧ (s.returnedStep st).mem.cur = s.mem.cur ∧
    ∀ r ∈ s.recs, r ∈ (s.returnedStep st).recs := by
  obtain ⟨back, hback⟩ : ∃ t, t = (s.event 0x0002 srcModule 0 st.stepS (st.fault.getD 0)).unstage.finishStep 0x000C := ⟨_, rfl⟩
  have hkback : CommitKeeps s back := by
    have hunstage (t : State) : CommitKeeps t t.unstage := .foldl (fun v x => (closeKeeps_setQueue v ..).toCommitKeeps) _ t
    rw [hback]
    exact ((CloseKeeps.event s ..).toCommitKeeps.trans (hunstage _)).trans (closeKeeps_finishStep ..).toCommitKeeps
  obtain ⟨early, hearly⟩ : ∃ t, t = back.stepsGiven.foldl finishEarly back := ⟨_, rfl⟩
  have hkearly : CommitKeeps back early := hearly ▸ .foldl (fun v x => (closeKeeps_setQueue v ..).toCommitKeeps) _ back
  have heq : s.returnedStep st = { early with step := { early.step with
      phase := .idle, fault := none, staged := [], holdRun := [], copyHeld := false, judged := true
      skip := early.step.skip ++ back.stepsGiven } } := by
    rw [hearly, hback]
    rfl
  rw [heq]
  exact ⟨rfl, hkearly.cur.trans hkback.cur, fun r hr => hkearly.mem_recs (hkback.mem_recs hr)⟩

/-- An abandonment ends the step, flips no copy and loses no record. -/
theorem abandon_keeps (s : State) : s.abandon.step.phase = .idle ∧ s.abandon.mem.cur = s.mem.cur ∧ ∀ r ∈ s.recs, r ∈ s.abandon.recs := by
  have hkpre : CommitKeeps s s.undoneStep.haltedStep := (commitKeeps_undoneStep s).trans (commitKeeps_haltedStep _)
  obtain ⟨hphase, hcur, hrecs⟩ := s.undoneStep.haltedStep.returnedStep_idle s.step
  have heq := s.abandon_eq
  generalize s.undoneStep.haltedStep.returnedStep s.step = idle at *
  have hkpost : CommitKeeps idle s.abandon := by
    have hsend (t : State) : CommitKeeps t (if s.step.asLead then t.twinSend (.horizon s.step.stepS false) else t) := by
      split
      · exact (closeKeeps_twinSend ..).toCommitKeeps
      · exact .refl t
    rw [heq]
    exact ((commitKeeps_skipFront ..).trans (hsend _)).trans ((closeKeeps_sleepBetween _).trans (closeKeeps_attestPoint _)).toCommitKeeps
  exact ⟨hkpost.phase.trans hphase, hkpost.cur.trans (hcur.trans hkpre.cur), fun r hr => hkpost.mem_recs (hrecs r (hkpre.mem_recs hr))⟩

/-- A line that the close could not write is recorded and ends the step. -/
theorem closeWriteLost_faults {s : State} (h : s.step.phase = .closing) (p off : Nat) : (s.closeWriteLost p off).step.phase = .closing ∧
    (s.closeWriteLost p off).step.fault.isSome = true ∧ (s.closeWriteLost p off).step.eval = s.step.eval ∧
    (s.closeWriteLost p off).mem = s.mem ∧
    ∃ r ∈ (s.closeWriteLost p off).recs, r.code = 0x0102 ∧ r.srcId = p ∧ r.d6 = off ∧ r.abandoned = true := by
  have hattempt (t : State) (ht : t.step.phase = .closing) : t.inAttempt = true := by simp [inAttempt, ht]
  obtain ⟨t, ht⟩ : ∃ t, t = s.incLive (F.UNCORR.COUNT p) 1 := ⟨_, rfl⟩
  have hstep : t.step = s.step := by rw [ht]; rfl
  have hmem : t.mem = s.mem := by rw [ht]; rfl
  have hin := hattempt t (hstep ▸ h)
  rw [closeWriteLost, ← ht]
  refine ⟨?_, ?_, ?_, ?_, ?_⟩
  · rw [raise_step, faultStep_phase, hstep, h]
  · rw [raise_step, faultStep_fault, hin]
    rfl
  · obtain ⟨m, hm⟩ := t.faultStep_eq {
      code := 0x0102, srcType := srcSite, srcId := p, opUnit := opLoam, detail := off, unit := some (unitShell, p) }
    rw [raise_step, hm, hstep]
  · rw [raise_eq, hmem]
  · rw [raise_recs]
    exact ⟨_, List.mem_append_right _ (List.mem_singleton_self _), rfl, rfl, rfl, hin⟩

end State

open State in
/-- Settles O42: the state that a close leaves is followed through its parts up to the publication point, and the abandonment through its
orders; each keeps the map of the committed copies, the step and the records that wait. -/
theorem horizonClose : Obligations.HorizonClose := by
  unfold Obligations.HorizonClose
  intro s ns hphase
  have hclose : (s.step.phase == .closing) = true := by rw [hphase]; rfl
  have hexec (bad : List (BitVec 13 × BitVec 32)) (hbad : bad.all (fun x => decide (x.1.toNat < 5120)) = true) :
      exec (.horizonClose ⟨ns, bad⟩) s = s.answer (s.horizonClose ns.toNat (bad.map fun x => (x.1.toNat, x.2.toNat))) := answerIf_true _ _ hbad
  refine ⟨fun hfault => ?_, fun p off hp htrain => ?_, fun hfault htrain hblocked => ?_, fun hfault hfree => ?_⟩
  · have hrun : s.horizonClose ns.toNat [] = s.abandon := by
      simp [State.horizonClose, hclose, hfault]
    exact does_of_eq (hexec [] rfl) hrun rfl
  · obtain ⟨-, hfault, -, hmem, r, hr, hcode⟩ := closeWriteLost_faults hphase p.toNat off.toNat
    have hrun : s.horizonClose ns.toNat [(p.toNat, off.toNat)] = (s.closeWriteLost p.toNat off.toNat).abandon := by
      unfold State.horizonClose
      rw [if_pos hclose, htrain]
      exact if_pos hfault
    obtain ⟨hidle, hcur, hkept⟩ := (s.closeWriteLost p.toNat off.toNat).abandon_keeps
    refine does_of_eq (hexec [(p, off)] ?_) hrun ⟨hidle, hcur.trans (congrArg MemSt.cur hmem), r, hkept r hr, hcode⟩
    simpa using hp
  · have hrun : s.horizonClose ns.toNat [] = s := by
      simp [State.horizonClose, hclose, hfault, htrain, hblocked]
    exact does_of_eq (hexec [] rfl) hrun rfl
  · obtain ⟨t, ht⟩ : ∃ t, t = s.nowF F.MEM_STATUS.CLOSE_NS ns.toNat := ⟨_, rfl⟩
    have hns : t.getF F.MEM_STATUS.CLOSE_NS = ns.toNat := by
      rw [ht, getF_nowF_same]
      exact Nat.mod_eq_of_lt ns.isLt
    have hcommitted : t.getF F.HV_STATUS.COMMITTED_S = s.getF F.HV_STATUS.COMMITTED_S := ht ▸ getF_nowF_other _ _ (by decide)
    have hsame : t.step = s.step ∧ t.mem = s.mem := by
      rw [ht]
      exact ⟨rfl, rfl⟩
    obtain ⟨hstep, hmem⟩ := hsame
    have hrun : s.horizonClose ns.toNat [] = if s.step.eval then t.closeEval else if s.imageBlocked then s else t.closeTraining := by
      unfold State.horizonClose
      rw [if_pos hclose, List.foldl_nil, ite_self, ht]
      exact if_neg (by simp [hfault])
    cases heval : s.step.eval
    case true =>
      obtain ⟨v, hk, hc⟩ := t.closeEval_commits
      rw [heval, if_pos rfl] at hrun
      refine does_of_eq (hexec [] rfl) hrun ⟨hc.phase, hc.fault, hc.base, hc.dirty, hc.fab, hc.pub, ?_, ?_, fun _ => ⟨?_, ?_, ?_⟩,
        fun h => absurd h (by decide)⟩
      · exact (hc.regs _ (by decide)).trans ((hk.regs _ (by decide)).trans hns)
      · have hends : v.step.stepS = s.step.stepS := hk.stepS.trans (congrArg StepSt.stepS hstep)
        rw [← hends]
        exact hc.horizon
      · exact hc.cur.trans (hk.cur.trans (congrArg MemSt.cur hmem))
      · exact hc.loam.trans (hk.loam.trans (congrArg MemSt.loam hmem))
      · exact (hc.regs _ (by decide)).trans ((hk.regs _ (by decide)).trans hcommitted)
    case false =>
      rw [heval, if_neg (by decide), hfree heval, if_neg (by decide)] at hrun
      have hc := t.closeTraining_commits
      refine does_of_eq (hexec [] rfl) hrun ⟨hc.phase, hc.fault, hc.base, hc.dirty, hc.fab, hc.pub,
        hc.closeNs.trans hns, ?_, fun h => absurd h (by decide), fun _ => ⟨?_, ?_, fun hrising g => ?_⟩⟩
      · rw [← hstep]
        exact hc.horizon
      · rw [hc.committed, hstep]
      · exact hc.loam.trans (congrArg MemSt.loam hmem)
      · rw [hc.cur, hmem]
        exact mem_flipGrains _ hrising _ g

end Sys2Proof.Machine

namespace Sys2Proof.Machine
namespace State

/-! ### Messages from the twin (R39, R352, R358-R360) -/

/-- A change of step or clock that a twin's message brings is answered where the message agrees with this module's furrows (R39). -/
theorem notice_answers {s : State} (hfollows : s.followsTwin = true) (index boundary mt phase latency : Nat) :
    let agrees := mt = s.getF F.FURROW_CFG.FURROW_MT ∧ phase = s.furrowPhase ∧
      (s.getF F.TWIN_LOCK_STATUS.LOCKED = 1 ∨ latency + 2 < s.getF F.FURROW_CFG.GRANT_EVAL_MT)
    (agrees → (s.notice index boundary mt phase latency).time.notices = s.time.notices ++ [(index, boundary)] ∧
      (s.notice index boundary mt phase latency).getF F.TWIN_LOCK_STATUS.LOCKED = 1) ∧
    (¬ agrees → (s.notice index boundary mt phase latency).time.notices = s.time.notices ∧
      (s.notice index boundary mt phase latency).getF F.TWIN_LOCK_STATUS.LOCKED = 0 ∧
      ∃ x, (s.notice index boundary mt phase latency).recs = s.recs ++ [x] ∧ x.code = 0x0007) := by
  intro agrees
  have hcond : (mt = s.getF F.FURROW_CFG.FURROW_MT ∧ phase = s.furrowPhase ∧
      ((s.getF F.TWIN_LOCK_STATUS.LOCKED == 1) = true ∨ latency + 2 < s.getF F.FURROW_CFG.GRANT_EVAL_MT)) ↔ agrees := by
    simp [agrees]
  have hnotice : s.notice index boundary mt phase latency =
      if mt = s.getF F.FURROW_CFG.FURROW_MT ∧ phase = s.furrowPhase ∧
          ((s.getF F.TWIN_LOCK_STATUS.LOCKED == 1) = true ∨ latency + 2 < s.getF F.FURROW_CFG.GRANT_EVAL_MT) then
        let t := if s.getF F.TWIN_LOCK_STATUS.LOCKED == 1 then s
          else (s.nowF F.TWIN_LOCK_STATUS.LOCKED 1).keepF F.TWIN_LOCK_STATUS.LATENCY_MT latency
        { t with time := { t.time with notices := t.time.notices ++ [(index, boundary)] } }
      else (s.nowF F.TWIN_LOCK_STATUS.LOCKED 0).event 0x0007 srcModule 0 latency := if_pos hfollows
  refine ⟨fun h => ?_, fun h => ?_⟩
  · rw [hnotice, if_pos (hcond.2 h)]
    by_cases hlock : (s.getF F.TWIN_LOCK_STATUS.LOCKED == 1) = true
    · rw [if_pos hlock]
      exact ⟨rfl, eq_of_beq hlock⟩
    · rw [if_neg hlock]
      exact ⟨rfl, (getF_keepF_other _ _ (by decide)).trans (getF_nowF_same ..)⟩
  · rw [hnotice, if_neg fun hc => h (hcond.1 hc)]
    exact ⟨rfl, (getF_event ..).trans (getF_nowF_same ..), _, rfl, rfl⟩

theorem parcelAcked_acks {s : State} {k : Nat} {x : ParcelSt} (hx : s.parcel k = some x) (hdrain : s.draining = false) :
    (s.parcelAcked k).parcel k = some { x with acked := true } ∧ (s.parcelAcked k).mem = s.mem ∧ (s.parcelAcked k).twin = s.twin := by
  obtain ⟨t, ht⟩ : ∃ t, t = s.modCkpt fun c => { c with parcels := SMap.ins c.parcels k { x with acked := true } } := ⟨_, rfl⟩
  have hmod : (s.modParcel k fun x => { x with acked := true }) = t := by
    rw [modParcel, hx, ht]
  have hid : t.checkDrain = t := t.checkDrain_keeps.2 (by rw [ht]; exact hdrain)
  rw [parcelAcked, hmod, hid, ht]
  exact ⟨SMap.find?_ins_same .., rfl, rfl⟩

theorem ledgerDrop_drops (s : State) (stepS : Nat) : (s.ledgerDrop stepS).ckpt.ledger = s.ckpt.ledger.filter fun r => r.1 != stepS := rfl

/-! #### A lease of the twin (R358) -/

section
variable {s : State} {raw : List Byte} {l : Lease} (hl : Lease.ofBytes raw = l) (hpaired : s.isPaired = true) (hform : l.formOk = true)
  (hsigned : l.signed = true) (hfits : s.leaseFits l = true) (hlead : l.role = 1) (hheld : s.heldLease = none)
  (hnewer : ∀ o, s.twin.twinLease = some o → o.seq < l.seq)
include hl hpaired hform hsigned hfits hlead hheld hnewer

/-- A newer lead lease of the twin that comes as the module holds none valid is noted, and compared with the newest that it has held. -/
theorem twinLease_noted {t : State} (ht : t = { s with twin := { s.twin with twinLease := some l } }) : s.twinLease raw =
    if ∃ o, s.newestHeld = some o ∧ o.role = 1 ∧ o.seq < l.seq then (t.leaseBad 7 l.seq true).abandonIfNoBoundary else t := by
  have hsameHeld : t.heldLease = none := by rw [ht]; exact hheld
  have hsameNewest : t.newestHeld = s.newestHeld := by rw [ht]; rfl
  unfold twinLease
  simp only [hl, hpaired, hform, hsigned, hfits, hlead, hheld]
  cases hw : s.twin.twinLease with
  | none => cases hn : s.newestHeld <;> simp [← ht, hsameHeld, hsameNewest, hn]
  | some w => cases hn : s.newestHeld <;> simp [← ht, hsameHeld, hsameNewest, hn, hnewer w hw]

end

/-- A lease that ends the step is recorded; a step with no boundary to come is abandoned at once. -/
theorem leaseBad_ends (s : State) (reason seq : Nat) :
    ((s.leaseBad reason seq true).abandonIfNoBoundary).inAttempt = (s.inAttempt && s.running) ∧
    ∃ x ∈ ((s.leaseBad reason seq true).abandonIfNoBoundary).recs, x.code = 0x0703 ∧ x.abandoned = s.inAttempt := by
  obtain ⟨a, ha⟩ : ∃ a : FaultArgs, a = {
    code := 0x0703, srcType := srcModule, srcId := 0, detail := reason + seq % 2 ^ 48 * 2 ^ 16, abandons := true
    classifiable := false } := ⟨_, rfl⟩
  obtain ⟨t, ht⟩ : ∃ t, t = s.raise a := ⟨_, rfl⟩
  have hbad : s.leaseBad reason seq true = t := by
    rw [ht, ha]
    rfl
  have hrec : ∃ x ∈ t.recs, x.code = 0x0703 ∧ x.abandoned = s.inAttempt := by
    rw [ht, raise_recs]
    refine ⟨_, List.mem_append_right _ (List.mem_singleton_self _), ?_, ?_⟩
    · rw [ha]
      rfl
    · rw [ha]
      exact Bool.true_and _
  have hin : t.inAttempt = s.inAttempt := ht ▸ inAttempt_raise ..
  have hrun : t.running = s.running := ht ▸ running_raise ..
  have hfault (h : s.inAttempt = true) : t.step.fault.isSome = true := by
    rw [ht, raise_step, faultStep_fault, ha, h]
    rfl
  rw [hbad, abandonIfNoBoundary, hrun]
  split
  case isTrue h => exact ⟨by rw [hin, h, Bool.and_true], hrec⟩
  case isFalse h =>
    rw [Bool.eq_false_iff.2 h, Bool.and_false]
    by_cases hatt : s.inAttempt = true
    · obtain ⟨hidle, -, hkept⟩ := t.abandon_keeps
      obtain ⟨x, hx, hcode, hab⟩ := hrec
      have honce : t.abandonAtOnce = t.abandon := if_pos (by rw [hin, hatt, hfault hatt]; rfl)
      rw [honce]
      exact ⟨inAttempt_idle hidle, x, hkept x hx, hcode, hab⟩
    · have honce : t.abandonAtOnce = t := if_neg (by rw [hin, Bool.eq_false_iff.2 hatt, Bool.false_and]; decide)
      rw [honce]
      exact ⟨hin.trans (Bool.eq_false_iff.2 hatt), hrec⟩

/-! #### Messages stored and acknowledged (R347, R350, R352, R359, R360) -/

/-- A message to a paired twin is queued under the next sequence number. -/
theorem twinSend_queues {s : State} (h : s.isPaired = true) (b : TwinBody) : s.twinSend b = { s with twin := { s.twin with
    queue := s.twin.queue ++ [⟨b, s.twin.nextSeq, b.grains, none⟩], nextSeq := (s.twin.nextSeq + 1) % 2 ^ 64 } } := if_pos h

theorem twinSend_received (s : State) (b : TwinBody) : (s.twinSend b).twin.received = s.twin.received ∧
    (s.twinSend b).twin.parcels = s.twin.parcels ∧ (s.twinSend b).ckpt = s.ckpt ∧ (s.twinSend b).mem = s.mem := by
  unfold twinSend
  split
  · exact ⟨rfl, rfl, rfl, rfl⟩
  · exact ⟨rfl, rfl, rfl, rfl⟩

theorem heartbeat_acks (s : State) (acks : List Nat) (held : Nat) :
    (s.heartbeat acks held).twin = { s.twin with unacked := s.twin.unacked.filter fun m => !acks.contains m.seq } ∧
    (s.role = 1 → (s.heartbeat acks held).getF F.TWIN_STATUS.HELD_CKPT = held % 2 ^ 32) := by
  obtain ⟨t, ht⟩ : ∃ t : State, t = { s with twin := { s.twin with unacked := s.twin.unacked.filter fun m => !acks.contains m.seq } } := ⟨_, rfl⟩
  have hrole : t.role = s.role := by rw [ht]; rfl
  have heq : s.heartbeat acks held = if t.role = 1 then t.nowF F.TWIN_STATUS.HELD_CKPT held else t := by rw [ht]; rfl
  have htwin : t.twin = { s.twin with unacked := s.twin.unacked.filter fun m => !acks.contains m.seq } := by rw [ht]
  rw [heq, hrole]
  split
  case isTrue h => exact ⟨htwin, fun _ => getF_nowF_same ..⟩
  case isFalse h => exact ⟨htwin, fun h1 => absurd h1 h⟩

theorem ledgerMsg_stores {s : State} {rec : List Byte} (hrole : s.role = 2) (hnew : ∀ r ∈ s.ckpt.ledger, r.1 ≠ wordField rec 1 0 48)
    (hroom : s.ledgerUsed + rec.length ≤ s.ledgerArea) (seq : Nat) :
    (s.ledgerMsg seq rec).ckpt.ledger = s.ckpt.ledger ++ [(wordField rec 1 0 48, rec)] ∧
    (s.ledgerMsg seq rec).twin.received = s.twin.received ++ [seq] ∧
    (s.isPaired = true → (s.ledgerMsg seq rec).twin.queue.map (·.body) = s.twin.queue.map (·.body) ++ [.ackLedger (wordField rec 1 0 48)]) := by
  obtain ⟨stepS, hstepS⟩ : ∃ n, n = wordField rec 1 0 48 := ⟨_, rfl⟩
  rw [← hstepS] at hnew ⊢
  obtain ⟨t, ht⟩ : ∃ t, t = ((s.noteSeq seq).modCkpt fun c => { c with ledger := c.ledger ++ [(stepS, rec)] }).showLedger := ⟨_, rfl⟩
  have hany : (s.noteSeq seq).ckpt.ledger.any (fun r => r.1 == stepS) = false :=
    List.any_eq_false.2 fun r hr => by simpa using hnew r hr
  have heq : s.ledgerMsg seq rec = t.twinSend (.ackLedger stepS) := by
    have hput : (s.noteSeq seq).ledgerPut stepS rec = (t, true) := by
      rw [ht]
      exact if_pos hroom
    unfold ledgerMsg
    rw [if_pos hrole, ← hstepS]
    dsimp only
    rw [hany, hput]
    rfl
  obtain ⟨hreceived, -, hckpt, -⟩ := t.twinSend_received (.ackLedger stepS)
  rw [heq]
  refine ⟨?_, ?_, fun hpaired => ?_⟩
  · rw [hckpt, ht]
    rfl
  · rw [hreceived, ht]
    rfl
  · have hp : t.isPaired = true := by
      rw [ht]
      exact beq_iff_eq.2 ((getF_nowF_other _ _ (by decide)).trans (beq_iff_eq.1 hpaired))
    have hqueue : t.twin.queue = s.twin.queue := by
      rw [ht]
      rfl
    rw [twinSend_queues hp, hqueue]
    simp

theorem parcelMsg_holds {s : State} {key : Nat} (hrole : s.role = 2) (hkept : key ∈ s.keptKeys) (seq : Nat) (data : List Byte) :
    (s.parcelMsg seq key data).twin.parcels = SMap.ins s.twin.parcels key data ∧
    (s.parcelMsg seq key data).twin.received = s.twin.received ++ [seq] ∧ (s.parcelMsg seq key data).mem = s.mem := by
  have hcond : s.role = 2 ∧ s.keptKeys.contains key = true := ⟨hrole, List.contains_iff_mem.2 hkept⟩
  obtain ⟨t, ht⟩ : ∃ t : State, t = { s.noteSeq seq with twin := { (s.noteSeq seq).twin with parcels := SMap.ins (s.noteSeq seq).twin.parcels key data } } :=
    ⟨_, rfl⟩
  have heq : s.parcelMsg seq key data = t.twinSend (.ackParcel key) := by
    rw [parcelMsg, if_pos hcond, ht]
  obtain ⟨hreceived, hparcels, -, hmem⟩ := t.twinSend_received (.ackParcel key)
  rw [heq, hreceived, hparcels, hmem, ht]
  exact ⟨rfl, rfl, rfl⟩

/-- The twin link's state and a restore that runs stay as they are. -/
def TwinKeeps (s t : State) : Prop := t.twin = s.twin ∧ t.ckpt.restore = s.ckpt.restore

namespace TwinKeeps
variable {s t u : State}

theorem refl (s : State) : TwinKeeps s s := ⟨rfl, rfl⟩

theorem trans (h : TwinKeeps s t) (k : TwinKeeps t u) : TwinKeeps s u := ⟨k.1.trans h.1, k.2.trans h.2⟩

theorem foldl {β : Type} {g : State → β → State} (hg : ∀ (s : State) (x : β), TwinKeeps s (g s x)) (xs : List β) (s : State) :
    TwinKeeps s (xs.foldl g s) :=
  List.foldlRecOn (motive := fun t => TwinKeeps s t) _ _ (.refl s) fun _ h x _ => h.trans (hg _ x)

end TwinKeeps

theorem twinKeeps_restoreParcel (s : State) (k : Nat) (data : List Byte) : TwinKeeps s (s.restoreParcel k data) := by
  have hmem (t : State) (m : MemSt) : TwinKeeps t { t with mem := m } := ⟨rfl, rfl⟩
  have hhv (t : State) (x : HarvestSt) : TwinKeeps t { t with hv := x } := ⟨rfl, rfl⟩
  unfold restoreParcel
  dsimp only
  split
  · exact .foldl (fun t i => hmem t _) _ s
  · split
    · exact hmem s _
    · exact .foldl (fun t i => hhv t _) _ s

theorem twinKeeps_flipImages (s : State) : TwinKeeps s s.flipImages := by
  refine .foldl (fun t l => ?_) _ s
  split
  · exact ⟨rfl, rfl⟩
  · exact .refl t

theorem twinKeeps_zeroUnkept (s : State) : TwinKeeps s s.zeroUnkept := by
  have hmem (t : State) (m : MemSt) : TwinKeeps t { t with mem := m } := ⟨rfl, rfl⟩
  refine .foldl (fun t i => ?_) _ s
  split
  · exact .foldl (fun v l => hmem v _) _ t
  · exact .refl t

theorem twinKeeps_setStale (s : State) : TwinKeeps s s.setStale := .foldl (fun t _ => (⟨rfl, rfl⟩ : TwinKeeps t (t.keepF _ _))) _ s

/-- The registers of a checkpoint taken over whole: drained, and no horizon lost. -/
def showCommitted (s : State) : State :=
  ((((s.nowF F.CKPT_STATUS.STEPS_SINCE 0).nowF F.CKPT_STATUS.DRAINING 0).nowF F.CKPT_STATUS.DEFERRED 0).nowF
    F.MEM_STATUS.HORIZON_LOST 0).showRemain

theorem getF_showCommitted (s : State) : s.showCommitted.getF F.MEM_STATUS.HORIZON_LOST = 0 :=
  (getF_nowF_other _ _ (by decide)).trans (getF_nowF_same ..)

/-- The received data stands in the copies of the committed state. -/
def copiedParcels (s : State) (data : SMap (List Byte)) : State :=
  ((data.foldl (fun s d => s.restoreParcel d.1 d.2) s).flipImages.zeroUnkept).setStale

/-- It counts as a drained checkpoint. -/
def heldCopies (s : State) (data : SMap (List Byte)) : State :=
  let t := s.modCkpt fun c => { c with
    parcels := data.foldl (fun m d => SMap.ins m d.1 ⟨true, false, true, true, false⟩) []
    map := s.mem.cur, half := s.halfMap, resMap := s.hv.resCur, leaves := [], stage := [], broken := false, told := true
    held := [], out := c.out.filter fun d => decide (10 ≤ d.layer) }
  { t with mem := { t.mem with garbled := none } }

theorem commitCopies_eq (s : State) (data : SMap (List Byte)) :
    s.commitCopies data = (((s.copiedParcels data).heldCopies data).showCommitted.advanceEpoch).refreshPub := by
  unfold commitCopies copiedParcels heldCopies showCommitted
  rfl

theorem twinKeeps_copiedParcels (s : State) (data : SMap (List Byte)) : TwinKeeps s (s.copiedParcels data) := by
  have hdata : TwinKeeps s (data.foldl (fun s d => s.restoreParcel d.1 d.2) s) :=
    .foldl (fun t (d : Nat × List Byte) => twinKeeps_restoreParcel t d.1 d.2) _ s
  exact ((hdata.trans (twinKeeps_flipImages _)).trans (twinKeeps_zeroUnkept _)).trans (twinKeeps_setStale _)

/-- The received data becomes the committed state: the horizon is no longer lost, and the twin link keeps what it holds (R350, R360). -/
theorem commitCopies_commits (s : State) (data : SMap (List Byte)) : (s.commitCopies data).twin = s.twin ∧
    (s.commitCopies data).ckpt.restore = s.ckpt.restore ∧ (s.commitCopies data).getF F.MEM_STATUS.HORIZON_LOST = 0 := by
  have hheld (t : State) : TwinKeeps t (t.heldCopies data) := ⟨rfl, rfl⟩
  have hshown (t : State) : TwinKeeps t t.showCommitted := ⟨rfl, rfl⟩
  have hkept := ((s.twinKeeps_copiedParcels data).trans (hheld _)).trans (hshown _)
  have hfound := ((s.copiedParcels data).heldCopies data).getF_showCommitted
  rw [commitCopies_eq]
  generalize ((s.copiedParcels data).heldCopies data).showCommitted = t at hkept hfound
  obtain ⟨hframe, hother⟩ := t.advanceEpoch_frame
  have hlost : t.advanceEpoch.getF F.MEM_STATUS.HORIZON_LOST = 0 := by
    refine (hother _ (by decide) (by decide) fun c hc => ?_).trans hfound
    simp only [Fld.key, F.MEM_STATUS.HORIZON_LOST, F.CHAN_STATUS.EXPECT_SSEQ, F.CHAN_STATUS.HELD_BLOCKS]
    omega
  generalize t.advanceEpoch = u at hframe hlost
  exact ⟨(congrArg State.twin hframe :).trans hkept.1, (congrArg (fun v : State => v.ckpt.restore) hframe :).trans hkept.2, hlost⟩

/-- The standby commits the checkpoint that verifies (R360). -/
theorem manifestMsg_commits {s : State} {m : List Byte} (hrole : s.role = 2) (hform : s.manifestFault m = none)
    (hroot : s.rootMatches m s.twin.parcels = true) (seq : Nat) : (s.manifestMsg seq m).twin.parcels = [] ∧
    (s.manifestMsg seq m).getF F.TWIN_STATUS.HELD_CKPT = wordField m 6 0 32 ∧
    (s.manifestMsg seq m).getF F.MEM_STATUS.HORIZON_LOST = 0 ∧ (s.manifestMsg seq m).ckpt.restore = s.ckpt.restore := by
  obtain ⟨t, ht⟩ : ∃ t : State, t = { s.noteSeq seq with twin := { (s.noteSeq seq).twin with parcels := [] } } := ⟨_, rfl⟩
  have hfault : t.manifestFault m = s.manifestFault m := by rw [ht]; rfl
  have hmatch : t.rootMatches m s.twin.parcels = s.rootMatches m s.twin.parcels := by rw [ht]; rfl
  have heq : s.manifestMsg seq m =
      ((t.commitCopies s.twin.parcels).ledgerRelease (wordField m 2 0 48)).nowF F.TWIN_STATUS.HELD_CKPT (wordField m 6 0 32) := by
    unfold manifestMsg
    rw [if_pos hrole]
    dsimp only
    rw [← ht]
    exact if_pos (by rw [hfault, hform]; exact hmatch.trans hroot)
  obtain ⟨htwin, hrestore, hlost⟩ := t.commitCopies_commits s.twin.parcels
  rw [heq]
  generalize t.commitCopies s.twin.parcels = u at *
  refine ⟨?_, ?_, ?_, ?_⟩
  · exact (congrArg TwinSt.parcels htwin).trans (by rw [ht])
  · rw [getF_nowF_same]
    exact Nat.mod_mod_of_dvd _ (dvd_refl _)
  · rw [getF_nowF_other _ _ (by decide)]
    exact (getF_nowF_other _ _ (by decide)).trans hlost
  · exact hrestore.trans (by rw [ht]; rfl)

/-! ### Messages to the twin (R358, R359) -/

theorem twinPeriodic_sends {s : State} (hpaired : s.isPaired = true) (hheld : s.heldLease = none) :
    s.twinPeriodic.twin.received = [] ∧ s.twinPeriodic.twin.queue =
      s.twin.queue ++ [⟨.heartbeat s.twin.received, s.twin.nextSeq, (TwinBody.heartbeat s.twin.received).grains, none⟩] := by
  obtain ⟨t, ht⟩ : ∃ t, t = ({ s with twin := { s.twin with received := [] } } : State).twinSend (.heartbeat s.twin.received) := ⟨_, rfl⟩
  have hsent : t = { s with twin := { s.twin with
      received := []
      queue := s.twin.queue ++ [⟨.heartbeat s.twin.received, s.twin.nextSeq, (TwinBody.heartbeat s.twin.received).grains, none⟩]
      nextSeq := (s.twin.nextSeq + 1) % 2 ^ 64 } } := by
    rw [ht]
    exact twinSend_queues (s := { s with twin := { s.twin with received := [] } }) hpaired _
  have hnone : t.heldLease = none := by
    rw [hsent]
    exact hheld
  have heq : s.twinPeriodic = t := by
    rw [twinPeriodic, if_pos hpaired]
    dsimp only
    rw [← ht, tellLease, hnone]
  rw [heq, hsent]
  exact ⟨rfl, rfl⟩

/-- A message was sent two milliseconds ago or earlier (R359). -/
def sentLate (s : State) (m : TwinMsg) : Bool := match m.sentAt with
  | some t => decide (t + 2 * milliMt ≤ s.meridian)
  | none => false

theorem sentLate_iff (s : State) (m : TwinMsg) : s.sentLate m = true ↔ ∃ t, m.sentAt = some t ∧ t + 2 * 625000 ≤ s.meridian := by
  unfold sentLate
  cases m.sentAt with
  | none => simp
  | some t =>
    rw [decide_eq_true_iff, milliMt]
    refine ⟨fun h => ⟨t, rfl, h⟩, fun ⟨u, hu, h⟩ => ?_⟩
    cases hu
    exact h

theorem twinResend_eq (s : State) : s.twinResend = { s with twin := { s.twin with
    queue := s.twin.queue ++ (s.twin.unacked.filter s.sentLate).map fun m => { m with left := m.body.grains, sentAt := none }
    unacked := s.twin.unacked.filter fun m => !s.sentLate m } } := rfl

end State

/-! #### A superblock of the twin link (R359) -/

namespace State

/-- Messages of other types stay in the queue. -/
theorem serveType_other (ty : Nat) (gs : List (List Byte)) (ms : List TwinMsg) (h : ∀ m ∈ ms, m.body.type ≠ ty) :
    serveType ty gs ms = ⟨gs, ms, []⟩ := by
  induction ms with
  | nil => rfl
  | cons m ms ih =>
    obtain ⟨hm, hms⟩ := List.forall_mem_cons.1 h
    simp [serveType, hm, ih hms]

/-- What a superblock takes from the queue as it serves the types in turn. -/
def served (tys : List Nat) (r : TwinFill) : TwinFill := tys.foldl (fun (r : TwinFill) ty =>
  let q := serveType ty r.grains r.queue
  { q with done := r.done ++ q.done }) r

theorem served_other (tys : List Nat) (r : TwinFill) (h : ∀ m ∈ r.queue, m.body.type ∉ tys) : served tys r = r := by
  induction tys with
  | nil => rfl
  | cons ty tys ih =>
    have hty : ∀ m ∈ r.queue, m.body.type ≠ ty := fun m hm he => h m hm (he ▸ List.mem_cons_self)
    have hstep : served (ty :: tys) r = served tys r := by
      unfold served
      rw [List.foldl_cons, serveType_other _ _ _ hty]
      simp
    rw [hstep]
    exact ih fun m hm ht => h m hm (List.mem_cons_of_mem _ ht)

/-- A single message of the queue is served as its type's turn comes. -/
theorem served_single (m : TwinMsg) : served twinOrder ⟨[], [m], []⟩ = if m.left ≤ 240 then ⟨msgNext m m.left, [], [m]⟩
    else ⟨msgNext m 240, [{ m with left := m.left - 240 }], []⟩ := by
  have hmem : m.body.type ∈ twinOrder := by cases m.body <;> simp [twinOrder, TwinBody.type]
  obtain ⟨before, after, horder⟩ := List.append_of_mem hmem
  have hnodup : (before ++ m.body.type :: after).Nodup := horder ▸ (by decide : twinOrder.Nodup)
  obtain ⟨hb, ha⟩ : m.body.type ∉ before ∧ m.body.type ∉ after := by
    have := List.nodup_middle.1 hnodup
    simpa [not_or] using (List.nodup_cons.1 this).1
  have hfold : served twinOrder ⟨[], [m], []⟩ = served after (serveType m.body.type [] [m]) := by
    rw [horder]
    have hbefore := served_other before ⟨[], [m], []⟩ fun x hx => by
      obtain rfl := List.mem_singleton.1 hx
      exact hb
    unfold served at hbefore ⊢
    rw [List.foldl_append, hbefore]
    simp
  have hserve : serveType m.body.type [] [m] = if m.left ≤ 240 then ⟨msgNext m m.left, [], [m]⟩
      else ⟨msgNext m 240, [{ m with left := m.left - 240 }], []⟩ := by
    unfold serveType
    by_cases hleft : m.left ≤ 240
    · simp [serveType, hleft]
    · simp [serveType, hleft, Nat.min_eq_left (Nat.le_of_not_le hleft)]
  rw [hfold, hserve]
  split
  · exact served_other _ _ (by simp)
  · exact served_other _ _ (by simpa using ha)

theorem twinSuperblock_eq {s : State} (hpaired : s.isPaired = true) (hup : s.getF F.TWIN_STATUS.LINK_UP = 1) : s.twinSuperblock =
    let r := served twinOrder ⟨[], s.twin.queue, []⟩
    { s with twin := { s.twin with
        queue := r.queue, sent := r.done.map fun m => (m.seq, m.body)
        unacked := s.twin.unacked ++ (r.done.filter fun m => decide (4 ≤ m.body.type) && decide (m.body.type ≤ 6)).map fun m =>
          { m with left := 0, sentAt := some s.meridian }
        blocks := (List.range 16).map (twinBlock r.grains) } } := by
  have hcond : (s.isPaired && s.getF F.TWIN_STATUS.LINK_UP == 1) = true := by simp [hpaired, hup]
  exact if_pos hcond

end State

open State in
/-- Settles O44: what each message does is an equation or a frame of its own; a superblock serves the one message that waits as its
type's turn comes. -/
theorem twinLink : Obligations.TwinLink := by
  unfold Obligations.TwinLink
  refine ⟨fun s => ⟨?_, ?_, ?_, ?_, ?_, ?_, ?_, ?_, ?_⟩, fun s => ?_⟩
  · intro index boundary mt phase latency hfollows agrees
    obtain ⟨hyes, hno⟩ := notice_answers hfollows index.toNat boundary.toNat mt.toNat phase.toNat latency.toNat
    exact ⟨fun h => does_of_eq rfl rfl (hyes h), fun h => does_of_eq rfl rfl (hno h)⟩
  · intro st hatt hst
    refine does_of_eq rfl (u := { s with step := { s.step with ledgerAcked := true } }) (if_pos ?_) rfl
    simp [hatt, hst]
  · intro y t e x k hx hdrain
    exact does_of_eq rfl rfl (parcelAcked_acks hx hdrain)
  · intro st hrole
    refine does_of_eq rfl (u := s.ledgerDrop st.toNat) (if_pos ⟨hrole, rfl⟩) (ledgerDrop_drops ..)
  · intro raw hlen l hpaired hform hsigned hfits hlead hheld hnewer
    obtain ⟨t, ht⟩ : ∃ t : State, t = { s with twin := { s.twin with twinLease := some l } } := ⟨_, rfl⟩
    have hnoted := twinLease_noted rfl hpaired hform hsigned hfits hlead hheld hnewer ht
    have hexec : exec (.twinLease raw) s = s.answer (s.twinLease raw) := answerIf_true _ _ (decide_eq_true hlen)
    refine ⟨fun hnone => does_of_eq hexec (hnoted.trans (if_neg ?_)) ht, fun o ho hrole hseq => ?_⟩
    · simp [hnone]
    · obtain ⟨hin, x, hx, hcode, hab⟩ := t.leaseBad_ends 7 l.seq
      have hstep : t.step = s.step := by rw [ht]
      have hatt : t.inAttempt = s.inAttempt := by rw [inAttempt, hstep, inAttempt]
      have hrun : t.running = s.running := by rw [running, hstep, running]
      rw [hatt, hrun] at hin
      exact does_of_eq hexec (hnoted.trans (if_pos ⟨o, ho, hrole, hseq⟩)) ⟨hin, x, hx, hcode, hab.trans hatt⟩
  · intro acks held
    obtain ⟨htwin, hheld⟩ := s.heartbeat_acks (acks.map BitVec.toNat) held.toNat
    exact does_of_eq rfl rfl ⟨htwin, fun h => (hheld h).trans (Nat.mod_eq_of_lt held.isLt)⟩
  · intro seq rec hlen hrole hnew hroom
    exact does_of_eq (answerIf_true _ _ (decide_eq_true hlen)) rfl (ledgerMsg_stores hrole hnew hroom seq.toNat)
  · intro seq m hlen hrole hform hroot
    exact does_of_eq (answerIf_true _ _ (decide_eq_true hlen)) rfl (manifestMsg_commits hrole hform hroot seq.toNat)
  · intro seq y t e bs hlen hrole hkept
    exact does_of_eq (answerIf_true _ _ (decide_eq_true hlen)) rfl (parcelMsg_holds hrole hkept seq.toNat bs)
  intro late
  refine ⟨fun hpaired hheld => ?_, ?_, fun hpaired hup => ⟨fun hq => ?_, fun m hq hleft => ?_, fun m hq hleft => ?_⟩⟩
  · obtain ⟨hreceived, hqueue⟩ := twinPeriodic_sends hpaired hheld
    exact does_of_eq rfl rfl ⟨hreceived, _, hqueue, rfl, rfl, rfl⟩
  · have hlate (m : TwinMsg) : s.sentLate m = true ↔ late m := s.sentLate_iff m
    refine does_of_eq rfl s.twinResend_eq ⟨fun m => ?_, fun m hm hl => ?_, ⟨_, rfl⟩, rfl⟩
    · rw [List.mem_filter, ← hlate, Bool.not_eq_true', Bool.not_eq_true]
    · exact List.mem_append_right _ (List.mem_map.2 ⟨m, List.mem_filter.2 ⟨hm, (hlate m).2 hl⟩, rfl⟩)
  · have hserve := served_other twinOrder ⟨[], s.twin.queue, []⟩ (by simp [hq])
    refine does_of_eq rfl (twinSuperblock_eq hpaired hup) ?_
    dsimp only
    rw [hserve, hq]
    simp
  · refine does_of_eq rfl (twinSuperblock_eq hpaired hup) ?_
    have hserve := served_single m
    rw [if_neg (Nat.not_le.2 hleft)] at hserve
    dsimp only
    rw [hq, hserve]
    simp
  · refine does_of_eq rfl (twinSuperblock_eq hpaired hup) ?_
    have hserve := served_single m
    rw [if_pos hleft] at hserve
    dsimp only
    rw [hq, hserve]
    refine ⟨rfl, rfl, rfl, congrArg (s.twin.unacked ++ ·) ?_⟩
    by_cases hty : 4 ≤ m.body.type ∧ m.body.type ≤ 6
    · simp [hty]
    · simp [hty]

end Sys2Proof.Machine

namespace Sys2Proof.Machine
namespace State

/-! ### What the cores' work and a boundary leave alone (R21-R26, R40) -/

/-- The furrow index, the grant and the registers before them lie below. -/
@[reducible] def aboveGrant (k : Nat) : Prop := F.GRANT_STATUS.GRANTED.key < k

theorem aboveGrant_of_addr {f : Fld} (h : 0x100000010028 < f.addr) : aboveGrant f.key := by
  have hkey : F.GRANT_STATUS.GRANTED.key = 0x100000010028 * 64 + 8 := rfl
  rw [aboveGrant, hkey, Fld.key]
  omega

/-- The furrows granted, the phase of the step, the notices of a twin and the registers of the grant stay as they are. -/
structure BoundaryKeeps (s t : State) : Prop where
  regs : ∀ f : Fld, ¬ aboveGrant f.key → t.getF f = s.getF f
  notices : t.time.notices = s.time.notices
  granted : t.step.granted = s.step.granted
  judged : t.step.judged = s.step.judged
  phase : t.step.phase = s.step.phase

namespace BoundaryKeeps
variable {s t u : State}

theorem of_same (hregs : t.regs = s.regs) (htime : t.time = s.time) (hstep : t.step = s.step) : BoundaryKeeps s t :=
  ⟨fun f _ => getF_congr hregs f, by rw [htime], by rw [hstep], by rw [hstep], by rw [hstep]⟩

theorem refl (s : State) : BoundaryKeeps s s := of_same rfl rfl rfl

theorem trans (h : BoundaryKeeps s t) (k : BoundaryKeeps t u) : BoundaryKeeps s u :=
  ⟨fun f hf => (k.regs f hf).trans (h.regs f hf), k.notices.trans h.notices, k.granted.trans h.granted, k.judged.trans h.judged,
    k.phase.trans h.phase⟩

theorem foldl {β : Type} {g : State → β → State} (hg : ∀ (s : State) (x : β), BoundaryKeeps s (g s x)) (xs : List β) (s : State) :
    BoundaryKeeps s (xs.foldl g s) :=
  List.foldlRecOn (motive := fun t => BoundaryKeeps s t) _ _ (.refl s) fun _ h x _ => h.trans (hg _ x)

theorem ite {c : Prop} [Decidable c] (h : BoundaryKeeps s t) (k : BoundaryKeeps s u) : BoundaryKeeps s (if c then t else u) := by
  split
  · exact h
  · exact k

theorem setF (s : State) {f : Fld} (hf : aboveGrant f.key) (v : Nat) : BoundaryKeeps s (s.setF f v) :=
  ⟨fun _ hg => getF_setF_other _ _ fun h => hg (h ▸ hf), rfl, rfl, rfl, rfl⟩

theorem keepF (s : State) {f : Fld} (hf : aboveGrant f.key) (v : Nat) : BoundaryKeeps s (s.keepF f v) :=
  ⟨fun _ hg => getF_keepF_other _ _ fun h => hg (h ▸ hf), rfl, rfl, rfl, rfl⟩

theorem nowF (s : State) {f : Fld} (hf : aboveGrant f.key) (v : Nat) : BoundaryKeeps s (s.nowF f v) :=
  ⟨fun _ hg => getF_nowF_other _ _ fun h => hg (h ▸ hf), rfl, rfl, rfl, rfl⟩

theorem incF (s : State) {f : Fld} (hf : aboveGrant f.key) (v : Nat) : BoundaryKeeps s (s.incF f v) := .setF s hf _

theorem incLive (s : State) {f : Fld} (hf : aboveGrant f.key) (v : Nat) : BoundaryKeeps s (s.incLive f v) := .keepF s hf _

theorem setMem (s : State) (m : MemSt) : BoundaryKeeps s { s with mem := m } := .of_same rfl rfl rfl

theorem setFab (s : State) (x : FabricSt) : BoundaryKeeps s { s with fab := x } := .of_same rfl rfl rfl

theorem setHv (s : State) (x : HarvestSt) : BoundaryKeeps s { s with hv := x } := .of_same rfl rfl rfl

theorem modPlot (s : State) (lid : Nat) (f : PlotSt → PlotSt) : BoundaryKeeps s (s.modPlot lid f) := .of_same rfl rfl rfl

theorem event (s : State) (code typ id d4 d5 : Nat) : BoundaryKeeps s (s.event code typ id d4 d5) :=
  ⟨fun _ _ => getF_event .., rfl, rfl, rfl, rfl⟩

theorem raise (s : State) (a : FaultArgs) : BoundaryKeeps s (s.raise a) := by
  obtain ⟨m, hm⟩ := s.faultStep_eq a
  refine ⟨fun f _ => getF_raise .., by rw [raise_time], ?_, ?_, ?_⟩
  · rw [raise_step, hm]
  · rw [raise_step, hm]
  · rw [raise_step, hm]

end BoundaryKeeps

/-! #### The work of the cores, of which the READY steps stay as they are too -/

/-- What the work of the cores keeps: the boundary's state, and the step from which a shadow plane is READY (R84). -/
structure EngineKeeps (s t : State) : Prop where
  boundary : BoundaryKeeps s t
  ready : ∀ k, (t.plot k).readyAt = (s.plot k).readyAt

namespace EngineKeeps
variable {s t u : State}

theorem of_plots (h : BoundaryKeeps s t) (hplots : t.plots = s.plots) : EngineKeeps s t :=
  ⟨h, fun k => congrArg PlotSt.readyAt (plot_congr hplots k)⟩

theorem of_same (hregs : t.regs = s.regs) (htime : t.time = s.time) (hstep : t.step = s.step) (hplots : t.plots = s.plots) : EngineKeeps s t :=
  .of_plots (.of_same hregs htime hstep) hplots

theorem refl (s : State) : EngineKeeps s s := ⟨.refl s, fun _ => rfl⟩

theorem trans (h : EngineKeeps s t) (k : EngineKeeps t u) : EngineKeeps s u :=
  ⟨h.boundary.trans k.boundary, fun l => (k.ready l).trans (h.ready l)⟩

theorem foldl {β : Type} {g : State → β → State} (hg : ∀ (s : State) (x : β), EngineKeeps s (g s x)) (xs : List β) (s : State) :
    EngineKeeps s (xs.foldl g s) :=
  List.foldlRecOn (motive := fun t => EngineKeeps s t) _ _ (.refl s) fun _ h x _ => h.trans (hg _ x)

theorem ite {c : Prop} [Decidable c] (h : EngineKeeps s t) (k : EngineKeeps s u) : EngineKeeps s (if c then t else u) := by
  split
  · exact h
  · exact k

theorem setF (s : State) {f : Fld} (hf : aboveGrant f.key) (v : Nat) : EngineKeeps s (s.setF f v) := .of_plots (.setF s hf v) rfl

theorem keepF (s : State) {f : Fld} (hf : aboveGrant f.key) (v : Nat) : EngineKeeps s (s.keepF f v) := .of_plots (.keepF s hf v) (keepF_plots ..)

theorem nowF (s : State) {f : Fld} (hf : aboveGrant f.key) (v : Nat) : EngineKeeps s (s.nowF f v) := .of_plots (.nowF s hf v) rfl

theorem incF (s : State) {f : Fld} (hf : aboveGrant f.key) (v : Nat) : EngineKeeps s (s.incF f v) := .setF s hf _

theorem incLive (s : State) {f : Fld} (hf : aboveGrant f.key) (v : Nat) : EngineKeeps s (s.incLive f v) := .keepF s hf _

theorem setMem (s : State) (m : MemSt) : EngineKeeps s { s with mem := m } := .of_same rfl rfl rfl rfl

theorem setFab (s : State) (x : FabricSt) : EngineKeeps s { s with fab := x } := .of_same rfl rfl rfl rfl

/-- A change of a plot that leaves its READY step. -/
theorem modPlot (s : State) (lid : Nat) (f : PlotSt → PlotSt) (hf : ∀ x, (f x).readyAt = x.readyAt := by intro _; rfl) :
    EngineKeeps s (s.modPlot lid f) := by
  refine ⟨.modPlot s lid f, fun k => ?_⟩
  by_cases hk : k = lid
  · rw [hk, plot_modPlot_same, hf]
  · rw [plot_modPlot_other _ _ hk]

theorem event (s : State) (code typ id d4 d5 : Nat) : EngineKeeps s (s.event code typ id d4 d5) := .of_plots (.event s ..) rfl

theorem raise (s : State) (a : FaultArgs) : EngineKeeps s (s.raise a) := .of_plots (.raise s a) (by rw [raise_eq])

end EngineKeeps

/-! #### Faults of a core (R51, R100, R326) -/

theorem engineKeeps_writeStates (s : State) (k w : Nat) : EngineKeeps s (s.writeStates k w) :=
  ((EngineKeeps.nowF s (aboveGrant_of_addr (Nat.lt_add_right _ (by decide))) _).trans
    (.nowF _ (aboveGrant_of_addr (Nat.lt_add_right _ (by decide))) _)).trans (.nowF _ (aboveGrant_of_addr (by decide)) _)

theorem engineKeeps_fenceSite (s : State) (p : Nat) : EngineKeeps s (s.fenceSite p) := by
  have hgrid (t : State) (g : GridSt) : EngineKeeps t { t with grid := g } := .of_same rfl rfl rfl rfl
  have hsite : EngineKeeps s (s.setSite p 2) := by
    unfold setSite
    exact .ite (hgrid s _) (engineKeeps_writeStates ..)
  have hdegrade (t : State) (row : Nat) : EngineKeeps t (t.degrade row) := by
    unfold degrade
    exact .ite (.refl t) ((EngineKeeps.keepF t (aboveGrant_of_addr (by decide)) 1).trans (.event ..))
  have hpending (t : State) : EngineKeeps t (t.keepF F.REPAIR_STATUS.SUBST_PENDING 1) := .keepF t (aboveGrant_of_addr (by decide)) 1
  unfold fenceSite
  refine .ite (.refl s) ?_
  dsimp only
  split
  · exact (hsite.trans (hgrid _ _)).trans (hpending _)
  · exact ((hsite.trans (hgrid _ _)).trans (hpending _)).trans (hdegrade ..)

theorem engineKeeps_coreFault (s : State) (lid : Nat) (a : FaultArgs) : EngineKeeps s (s.coreFault lid a) :=
  (EngineKeeps.raise s _).trans (engineKeeps_fenceSite ..)

theorem engineKeeps_slotConflict (s : State) (lid opUnit op slot rule : Nat) : EngineKeeps s (s.slotConflict lid opUnit op slot rule) :=
  (EngineKeeps.incLive s (aboveGrant_of_addr (Nat.lt_add_right _ (by decide))) 1).trans (engineKeeps_coreFault ..)

theorem engineKeeps_checkFail (s : State) (lid : Nat) (a : FaultArgs) : EngineKeeps s (s.checkFail lid a) := by
  unfold checkFail
  dsimp only
  refine .ite (.ite ((EngineKeeps.modPlot s ..).trans (.raise ..)) (.refl s)) (.ite (.ite ?_ (.refl s)) (engineKeeps_coreFault ..))
  exact (EngineKeeps.modPlot s ..).trans (.raise ..)

/-! #### Counters, pads and loam (R184, R193, R414) -/

theorem engineKeeps_perf (s : State) (lid ev n : Nat) : EngineKeeps s (s.perf lid ev n) := by
  have hcount (i : Nat) : aboveGrant (F.PERF_COUNT.COUNT lid i).key :=
    aboveGrant_of_addr (Nat.lt_add_right _ (Nat.lt_add_right _ (by decide)))
  unfold perf
  exact .ite (.refl s) (.foldl (fun t i => .ite (.ite (.nowF t (hcount i) _) (.incF t (hcount i) _)) (.refl t)) _ s)

theorem engineKeeps_countConv (s : State) (lid : Nat) (cs : List Conv) : EngineKeeps s (s.countConv lid cs) := by
  have hcount (t : State) {f : Fld} (hf : aboveGrant f.key) (n : Nat) : EngineKeeps t (if n = 0 then t else t.incF f n) :=
    .ite (.refl t) (.incF t hf n)
  exact (hcount s (aboveGrant_of_addr (Nat.lt_add_right _ (by decide))) _).trans
    (hcount _ (aboveGrant_of_addr (Nat.lt_add_right _ (by decide))) _)

theorem engineKeeps_draw (s : State) (lid n : Nat) : EngineKeeps s (s.draw lid n).2 := by
  unfold draw
  split
  · exact .refl s
  · exact (EngineKeeps.modPlot s ..).trans (engineKeeps_perf ..)

theorem engineKeeps_padPut (s : State) (lid a : Nat) (bs : List Byte) : EngineKeeps s (s.padPut lid a bs) := by
  unfold padPut
  exact .ite (.refl s) (.setMem s _)

theorem engineKeeps_storeRows (s : State) (lid fmt : Nat) (rnd : Bool) (blk a pitch row : Nat) (v : Tile) (mask : BitVec 256) :
    EngineKeeps s (s.storeRows lid fmt rnd blk a pitch row v mask) := by
  have hput (t : State) (at0 : Nat) (bs : List Byte) (cs : List Conv) : EngineKeeps t ((t.padPut lid at0 bs).countConv lid cs) :=
    (engineKeeps_padPut t ..).trans (engineKeeps_countConv ..)
  unfold storeRows
  refine EngineKeeps.trans (engineKeeps_draw s lid _) (.ite (.foldl (fun t b => .ite (.refl t) ?_) _ _) (.ite
    (.foldl (fun t r => .ite (.refl t) (hput ..)) _ _) (.foldl (fun t r => .ite (.refl t) (hput ..)) _ _)))
  exact (engineKeeps_padPut t ..).trans (hput ..)

theorem engineKeeps_cacheInvalidate (s : State) (lid off n : Nat) : EngineKeeps s (s.cacheInvalidate lid off n) := by
  refine .foldl (fun t b => ?_) _ s
  exact .ite (.refl t) (.foldl (fun v k => .ite (.refl v) (.setMem v _)) _ t)

theorem engineKeeps_loamPut (s : State) (p off : Nat) (bs : List Byte) : EngineKeeps s (s.loamPut p off bs).1 := by
  obtain ⟨hframe, hF⟩ := s.loamPut_frame p off bs
  generalize (s.loamPut p off bs).1 = t at *
  refine .of_plots ⟨fun f hf => hF f fun g hg h => hf ?_, (congrArg (fun v : State => v.time.notices) hframe :),
    (congrArg (fun v : State => v.step.granted) hframe :), (congrArg (fun v : State => v.step.judged) hframe :),
    (congrArg (fun v : State => v.step.phase) hframe :)⟩ (congrArg State.plots hframe :)
  rw [h, List.mem_singleton.1 hg]
  exact aboveGrant_of_addr (Nat.lt_add_right _ (by decide))

theorem engineKeeps_loamStore (s : State) (lid off : Nat) (bs : List Byte) (invalidate : Bool) (unit op slot : Nat) :
    EngineKeeps s (s.loamStore lid off bs invalidate unit op slot) := by
  refine .foldl (fun t q => ?_) _ s
  have hinvalid : EngineKeeps t (if invalidate then t.cacheInvalidate lid q.1 q.2 else t) :=
    .ite (engineKeeps_cacheInvalidate ..) (.refl t)
  dsimp only
  generalize (if invalidate then t.cacheInvalidate lid q.1 q.2 else t) = v at *
  have hput := hinvalid.trans (engineKeeps_loamPut v (s.siteOf lid) q.1 ((bs.drop (q.1 - off)).take q.2))
  split
  · exact hput
  · exact hput.trans ((EngineKeeps.incLive _ (aboveGrant_of_addr (Nat.lt_add_right _ (by decide))) 1).trans (engineKeeps_coreFault ..))

theorem engineKeeps_looseLand (s : State) (lid off : Nat) (bs mask : List Byte) : EngineKeeps s (s.looseLand lid off bs mask) :=
  engineKeeps_loamStore ..

/-! #### A step of a core's array (R92, R100, R143, R186) -/

theorem engineKeeps_land1 (s : State) (lid : Nat) (l : Landing) : EngineKeeps s (s.land1 lid l) := by
  cases l with
  | greg i v => exact .ite (.refl s) (.modPlot s ..)
  | tile i v mask mz =>
    unfold land1
    exact .modPlot s ..
  | mask i v mask mz => exact .ite (.refl s) (.modPlot s ..)
  | pad a bs => exact engineKeeps_padPut ..
  | store fmt rnd blk a pitch row n v mask => exact engineKeeps_storeRows ..

theorem engineKeeps_finishMove (s : State) (lid : Nat) (t : Transfer) : EngineKeeps s (s.finishMove lid t) := by
  unfold finishMove
  dsimp only
  exact .ite (.foldl (fun t b => engineKeeps_padPut ..) _ s)
    (.ite (engineKeeps_loamStore ..) ((EngineKeeps.setFab s _).trans (engineKeeps_perf ..)))

theorem engineKeeps_landAt (s : State) (lid p : Nat) : EngineKeeps s (s.landAt lid p) := by
  unfold landAt
  dsimp only
  have hland (t : State) (ls : List (Nat × Landing)) : EngineKeeps t (ls.foldl (fun s l => s.land1 lid l.2) t) :=
    .foldl (fun t l => engineKeeps_land1 ..) ls t
  have hmoves (t : State) (ts : List Transfer) : EngineKeeps t (ts.foldl (fun s t => s.finishMove lid t) t) :=
    .foldl (fun t l => engineKeeps_finishMove ..) ts t
  have hstores (t : State) (ts : List LooseStore) :
      EngineKeeps t (ts.foldl (fun s t => t.bytes.foldl (fun s b => s.looseLand lid b.1 b.2.1 b.2.2) s) t) :=
    .foldl (fun t l => .foldl (fun t b => engineKeeps_looseLand ..) _ t) ts t
  have hlast (t : State) (c : Prop) [Decidable c] : EngineKeeps t (if c then t.modPlot lid fun x => { x with shadow := buildPlane x.shadow } else t) :=
    .ite (.modPlot t ..) (.refl t)
  exact ((((((EngineKeeps.modPlot s ..).trans (hland ..)).trans (.modPlot ..)).trans (hmoves ..)).trans (.modPlot ..)).trans
    (hstores ..)).trans (hlast ..)

theorem engineKeeps_writeRow (s : State) (lid : Nat) (fl : RowFlight) (vals : List (BitVec 32)) : EngineKeeps s (s.writeRow lid fl vals) := by
  unfold writeRow
  refine .ite ?_ (.ite (engineKeeps_padPut ..) ?_)
  · refine .trans (.ite (.refl s) (.incF s ?_ _)) (engineKeeps_padPut ..)
    exact aboveGrant_of_addr (Nat.lt_add_right _ (by decide))
  · exact ((engineKeeps_draw s ..).trans (engineKeeps_countConv ..)).trans (engineKeeps_padPut ..)

theorem engineKeeps_countOutcome (s : State) (lid o : Nat) : EngineKeeps s (s.countOutcome lid o) :=
  ((EngineKeeps.incF s (aboveGrant_of_addr (Nat.lt_add_right _ (Nat.lt_add_right _ (by decide)))) 1).trans
    (.incF _ (aboveGrant_of_addr (Nat.lt_add_right _ (by decide))) 1)).trans (engineKeeps_perf ..)

theorem engineKeeps_rowDue (s : State) (lid : Nat) (fl : RowFlight) (flips : List (Nat × BitVec 32)) (disagree : Bool) :
    EngineKeeps s (s.rowDue lid fl flips disagree) := by
  have hkeep (t : State) {f : Fld} (hf : 0x100000010028 < f.addr) (v : Nat) : EngineKeeps t (t.keepF f v) :=
    .keepF t (aboveGrant_of_addr hf) v
  unfold rowDue
  dsimp only
  refine (((EngineKeeps.modPlot s ..).trans (engineKeeps_writeRow ..)).trans (engineKeeps_countOutcome ..)).trans (.ite ?_ (.refl _))
  refine (((((hkeep _ ?_ _).trans (hkeep _ ?_ _)).trans (hkeep _ ?_ _)).trans (hkeep _ ?_ _)).trans (hkeep _ ?_ _)).trans
    (engineKeeps_checkFail ..)
  all_goals exact Nat.lt_add_right _ (by decide)

theorem engineKeeps_outcomesAt (s : State) (lid p : Nat) : EngineKeeps s (s.outcomesAt lid p) :=
  .foldl (fun _ _ => engineKeeps_rowDue ..) _ s

theorem engineKeeps_openStep (s : State) (lid p : Nat) : EngineKeeps s (s.openStep lid p) := by
  unfold openStep
  exact .ite (.refl s) ((engineKeeps_outcomesAt s ..).trans (engineKeeps_landAt ..))

theorem engineKeeps_closeFenced (s : State) (lid : Nat) : EngineKeeps s (s.closeFenced lid) :=
  (engineKeeps_outcomesAt s ..).trans (.modPlot ..)

theorem engineKeeps_enterRow (s : State) (lid at0 : Nat) (f : Feed) (i : Nat) (as bs : List Byte) :
    EngineKeeps s (s.enterRow lid at0 f i as bs) := by
  have hrow (t : State) : EngineKeeps t (t.countRow lid) :=
    (EngineKeeps.incF t (aboveGrant_of_addr (Nat.lt_add_right _ (by decide))) 1).trans (engineKeeps_perf ..)
  unfold enterRow
  refine .ite (.modPlot s ..) (.ite ?_ (.ite (.modPlot s ..) ((EngineKeeps.modPlot s ..).trans (hrow _))))
  refine .ite ((EngineKeeps.modPlot s ..).trans (hrow _)) (((EngineKeeps.modPlot s ..).trans (hrow _)).trans (.incF _ ?_ _))
  exact aboveGrant_of_addr (Nat.lt_add_right _ (by decide))

theorem engineKeeps_destPorts (s : State) (lid at0 : Nat) (f : Feed) (rows : List Nat) : EngineKeeps s (s.destPorts lid at0 f rows) := by
  unfold destPorts
  exact .ite (.refl s) (.trans (.ite (.modPlot s ..) (.refl s)) (.modPlot ..))

theorem engineKeeps_feedAt (s : State) (lid p : Nat) (f : Feed) : EngineKeeps s (s.feedAt lid p f) := by
  have hportA (t : State) (q : Nat) (spans : List (Nat × Nat)) :
      EngineKeeps t (if f.mode = 4 then t else t.usePort lid q ⟨spans, false, opArray, f.mode, f.slot⟩) := .ite (.refl t) (.modPlot t ..)
  have hportB (t : State) (c : Bool) (a : PadAccess) : EngineKeeps t (if c then t.usePort lid p a else t) := .ite (.modPlot t ..) (.refl t)
  have hput (t : State) (g : Feed) : EngineKeeps t (t.putFeed lid f g) := .modPlot t ..
  unfold feedAt
  dsimp only
  refine .ite (.ite (.ite ?_ (.refl s)) ?_) (.ite (.refl s) ?_)
  · exact (((hportA s ..).trans (engineKeeps_enterRow ..)).trans (engineKeeps_destPorts ..)).trans (hput ..)
  · exact ((hportA s ..).trans (hportB ..)).trans (hput ..)
  · have hrows (t v : State) : EngineKeeps t v → ∀ rows : List Nat, ∀ bs : State → Nat → List Byte, ∀ cs : State → Nat → List Byte,
        EngineKeeps t (rows.foldl (fun s i => s.enterRow lid p f i (bs s i) (cs s i)) v) := fun h rows bs cs =>
      h.trans (.foldl (fun _ _ => engineKeeps_enterRow ..) rows v)
    exact ((hrows s _ ((hportA s ..).trans (hportB ..)) _ (fun s i => s.padRead lid p (f.srcA + i * f.strideA) _) _).trans
      (engineKeeps_destPorts ..)).trans (hput ..)

theorem engineKeeps_loadRows (s : State) (lid p : Nat) (l : LoadRun) : EngineKeeps s (s.loadRows lid p l) := by
  unfold loadRows
  exact .ite (.refl s) ((EngineKeeps.modPlot s ..).trans (.modPlot ..))

theorem engineKeeps_loadsDone (s : State) (lid p : Nat) : EngineKeeps s (s.loadsDone lid p) := by
  unfold loadsDone
  exact .ite (.refl s) ((EngineKeeps.modPlot s ..).trans
    (.foldl (fun t _ => (engineKeeps_countConv t ..).trans (.modPlot ..)) _ _))

theorem engineKeeps_moverGroup (s : State) (lid p : Nat) (x : Transfer) : EngineKeeps s (s.moverGroup lid p x) := by
  have hport (t : State) (c : Prop) [Decidable c] (q : Nat) (a : PadAccess) : EngineKeeps t (if c then t.usePort lid q a else t) :=
    .ite (.modPlot t ..) (.refl t)
  have hgrains (t : State) (c : Prop) [Decidable c] (f : MemSt → MemSt) : EngineKeeps t (if c then t.modMem f else t) :=
    .ite (.setMem t _) (.refl t)
  unfold moverGroup
  dsimp only
  refine .ite (.refl s) ?_
  exact ((((((hport s ..).trans (hport ..)).trans (hgrains ..)).trans (engineKeeps_perf ..)).trans (engineKeeps_perf ..)).trans
    (engineKeeps_perf ..)).trans (.modPlot ..)

theorem engineKeeps_portsAt (s : State) (lid p : Nat) : EngineKeeps s (s.portsAt lid p) := by
  unfold portsAt
  dsimp only
  refine .ite (.refl s) ?_
  have hbad (t : State) (a : PadAccess) (rule : Nat) :
      EngineKeeps t (if t.accessBad lid a then t.slotConflict lid a.unit a.op a.slot rule else t) :=
    .ite (engineKeeps_slotConflict ..) (.refl t)
  have hover (t : State) (a : PadAccess) (as : List PadAccess) (b : Nat) : EngineKeeps t (if t.bankOver lid b as then
      (t.incLive (F.BANK_CONFLICTS.COUNT lid) 1).slotConflict lid a.unit a.op a.slot ruleBank else t) :=
    .ite ((EngineKeeps.incLive t (aboveGrant_of_addr (Nat.lt_add_right _ (by decide))) 1).trans (engineKeeps_slotConflict ..)) (.refl t)
  split
  · exact (EngineKeeps.modPlot s ..).trans (.foldl (fun t a => hbad t a _) _ _)
  · exact ((EngineKeeps.modPlot s ..).trans (.foldl (fun t a => hbad t a _) _ _)).trans (.foldl (fun t b => hover t _ _ b) _ _)

theorem engineKeeps_workAt (s : State) (lid p : Nat) : EngineKeeps s (s.workAt lid p) := by
  have hacc (t : State) : EngineKeeps t (t.accReads lid p) := .modPlot t ..
  have hfeeds (t : State) (fs : List Feed) : EngineKeeps t (fs.foldl (fun s f => s.feedAt lid p f) t) :=
    .foldl (fun t f => engineKeeps_feedAt t lid p f) fs t
  have hloads (t : State) (ls : List LoadRun) : EngineKeeps t (ls.foldl (fun s l => s.loadRows lid p l) t) :=
    .foldl (fun t l => engineKeeps_loadRows t lid p l) ls t
  have hmoves (t : State) (ms : List Transfer) : EngineKeeps t (ms.foldl (fun s m => s.moverGroup lid p m) t) :=
    .foldl (fun t m => engineKeeps_moverGroup t lid p m) ms t
  unfold workAt
  dsimp only
  exact (((((hfeeds s _).trans (hacc _)).trans (hloads _ _)).trans (engineKeeps_loadsDone ..)).trans (hmoves _ _)).trans
    (engineKeeps_portsAt ..)

theorem engineKeeps_stepsFrom (lid n : Nat) (s : State) : EngineKeeps s (s.stepsFrom lid n) := by
  induction n generalizing s with
  | zero => exact .refl s
  | succ n ih =>
    unfold stepsFrom
    dsimp only
    refine .ite (.modPlot s ..) (.ite ((engineKeeps_closeFenced s lid).trans (.modPlot ..)) ?_)
    exact (((engineKeeps_openStep s ..).trans (engineKeeps_workAt ..)).trans (.modPlot ..)).trans (ih _)

theorem engineKeeps_advance (s : State) (lid p : Nat) : EngineKeeps s (s.advance lid p) := engineKeeps_stepsFrom ..

/-! #### The boundary after a furrow's slots, and the next furrow (R21-R23, R32, R37) -/

theorem boundaryKeeps_judgePlot (s : State) (lid : Nat) : BoundaryKeeps s (s.judgePlot lid) := by
  have hslack (t : State) (m : SMap Nat) : BoundaryKeeps t { t with step := { t.step with slackMin := m } } :=
    ⟨fun _ _ => rfl, rfl, rfl, rfl, rfl⟩
  have hwarn (t : State) (n k : Nat) :
      BoundaryKeeps t (({ t with time := { t.time with slackEvents := n } } : State).event 0x0005 srcPlot lid k) :=
    ⟨fun _ _ => getF_event .., rfl, rfl, rfl, rfl⟩
  have hover (t : State) : aboveGrant (F.OVERRUN_COUNT.COUNT (t.regionOf lid)).key := aboveGrant_of_addr (Nat.lt_add_right _ (by decide))
  unfold judgePlot
  exact .ite ((BoundaryKeeps.incF s (hover s) 1).trans (engineKeeps_coreFault ..).boundary)
    (.ite (.refl s) (.ite ((hslack s _).trans (hwarn ..)) (hslack s _)))

/-- A boundary takes no notice of a twin away. -/
theorem endSlots_notices (s : State) : s.endSlots.time.notices = s.time.notices := by
  have hadvance (t : State) (ls : List Nat) (p : Nat) : BoundaryKeeps t (ls.foldl (fun s l => s.advance l p) t) :=
    .foldl (fun t l => (engineKeeps_advance t l p).boundary) ls t
  have hplots (t : State) (m : SMap PlotSt) : BoundaryKeeps t { t with plots := m } := .of_same rfl rfl rfl
  have hjudge (t : State) (ls : List Nat) : BoundaryKeeps t (ls.foldl judgePlot t) := .foldl boundaryKeeps_judgePlot ls t
  have hpeaks (t : State) (gs : SMap Nat) : BoundaryKeeps t (gs.foldl (fun s (g : Nat × Nat) =>
      s.setF (F.PORT_PEAK.COUNT g.1) (max g.2 (s.getF (F.PORT_PEAK.COUNT g.1)))) t) :=
    .foldl (fun v _ => .setF v (aboveGrant_of_addr (Nat.lt_add_right _ (by decide))) _) gs t
  have hlast (t : State) (m : MemSt) (st : StepSt) : ({ t with mem := m, step := st } : State).time.notices = t.time.notices := rfl
  unfold endSlots
  split
  · exact (hlast _ _ _).trans ((((hadvance s ..).trans (hplots _ _)).trans (hjudge ..)).trans (hpeaks ..)).notices
  · rfl

theorem boundaryKeeps_freeSeg (s : State) (c : Nat) (g : Seg) : BoundaryKeeps s (s.freeSeg c g) := by
  have hsow (t : State) (x : SowSt) : BoundaryKeeps t { t with sow := x } := .of_same rfl rfl rfl
  exact (hsow s _).trans (.keepF _ (aboveGrant_of_addr (Nat.lt_add_right _ (by decide))) _)

theorem boundaryKeeps_setKept (s : State) (gs : List HvSeg) : BoundaryKeeps s (s.setKept gs) :=
  (BoundaryKeeps.setHv s _).trans (.trans
    (.foldl (fun t _ => .keepF t (aboveGrant_of_addr (Nat.lt_add_right _ (by decide))) _) _ _) (.keepF _ (aboveGrant_of_addr (by decide)) _))

theorem plots_showTx (s : State) : s.showTx.plots = s.plots := by
  unfold showTx
  rw [keepF_plots]
  exact List.foldlRecOn (motive := fun u : State => u.plots = s.plots) _ _ rfl fun _ h _ _ => (keepF_plots _ _ _).trans h

theorem plots_setKept (s : State) (gs : List HvSeg) : (s.setKept gs).plots = s.plots := plots_showTx _

theorem boundaryKeeps_endFurrow (s : State) : BoundaryKeeps s s.endFurrow ∧ s.endFurrow.plots = s.plots := by
  have hsegs : BoundaryKeeps s s.completeSegs ∧ s.completeSegs.plots = s.plots := by
    unfold completeSegs
    dsimp only
    refine List.foldlRecOn (motive := fun t : State => BoundaryKeeps s t ∧ t.plots = s.plots) _ _ ⟨.setHv s _, rfl⟩ fun t h x _ => ?_
    split
    · exact h
    · exact ⟨h.1.trans (boundaryKeeps_setKept ..), (plots_setKept ..).trans h.2⟩
  have hspent (t : State) : BoundaryKeeps t t.returnSpent ∧ t.returnSpent.plots = t.plots :=
    List.foldlRecOn (motive := fun v : State => BoundaryKeeps t v ∧ v.plots = t.plots) _ _ ⟨.refl t, rfl⟩ fun _ h _ _ =>
      ⟨h.1.trans (boundaryKeeps_freeSeg ..), h.2⟩
  have hcross (t : State) : BoundaryKeeps t t.endCrossings ∧ t.endCrossings.plots = t.plots := ⟨.setFab t _, rfl⟩
  unfold endFurrow
  split
  · exact ⟨(hsegs.1.trans (hspent _).1).trans (hcross _).1, (hcross _).2.trans ((hspent _).2.trans hsegs.2)⟩
  · exact ⟨.refl s, rfl⟩

/-! #### The next furrow begins (R21, R37, R245, R258) -/

theorem boundaryKeeps_discardStale (s : State) (n : Nat) : BoundaryKeeps s (s.discardStale n) :=
  .foldl (fun t _ => .foldl (fun v _ => .trans (.incLive v (aboveGrant_of_addr (Nat.lt_add_right _ (by decide))) 1)
    (boundaryKeeps_freeSeg ..)) _ t) _ s

theorem boundaryKeeps_landStreams (s : State) (n : Nat) : BoundaryKeeps s (s.landStreams n) := by
  have hlids (t : State) (ls : List Nat) (runs : Nat → List (Nat × List Byte)) (bad : State → Nat × List Byte → Bool) :
      BoundaryKeeps t (ls.foldl (fun s lid => (runs lid).foldl (fun s r =>
        if bad s r then s.slotConflict lid opRouter 0 0 ruleAlign else s.loamStore lid r.1 r.2 true opRouter 0 0) s) t) :=
    .foldl (fun t _ => .foldl (fun _ _ => .ite (engineKeeps_slotConflict ..).boundary (engineKeeps_loamStore ..).boundary) _ t) ls t
  unfold landStreams
  dsimp only
  exact (BoundaryKeeps.setFab s _).trans (hlids _ _ _ _)

theorem boundaryKeeps_deliverVotes (s : State) (c : Nat) : BoundaryKeeps s (s.deliverVotes c) := by
  have hset (t : State) {f : Fld} (hf : 0x100000010028 < f.addr) (v : Nat) : BoundaryKeeps t (t.setF f v) :=
    .setF t (aboveGrant_of_addr hf) v
  unfold deliverVotes
  refine .trans (.foldl (fun t v => ?_) _ s) (.setFab _ _)
  refine (((BoundaryKeeps.setFab t _).trans (hset _ ?_ _)).trans (hset _ ?_ _)).trans (hset _ ?_ _)
  all_goals exact Nat.lt_add_right _ (by decide)

theorem boundaryKeeps_formNorm (s : State) : BoundaryKeeps s s.formNorm := by
  have hnorm (t : State) (x : Option (List (Nat × Nat × Nat))) : BoundaryKeeps t { t with step := { t.step with norm := x } } :=
    ⟨fun _ _ => rfl, rfl, rfl, rfl, rfl⟩
  unfold formNorm
  refine .ite ?_ (.refl s)
  split
  · exact .refl s
  · exact (hnorm s _).trans (boundaryKeeps_setKept ..)

theorem boundaryKeeps_sleepAt (s : State) (k : Nat) : BoundaryKeeps s (s.sleepAt k) := by
  have hkeep (t : State) {f : Fld} (hf : 0x100000010028 < f.addr) (v : Nat) : BoundaryKeeps t (t.keepF f v) :=
    .keepF t (aboveGrant_of_addr hf) v
  have hpower (t : State) (x : PowerSt) : BoundaryKeeps t { t with power := x } := .of_same rfl rfl rfl
  have hplot (t : State) (l : Nat) : BoundaryKeeps t (t.modPlot l PlotSt.slept) := .modPlot t ..
  refine .foldl (fun t n => .ite ?_ (.refl t)) _ s
  refine (((hkeep t ?_ 0).trans (hkeep _ ?_ 0)).trans (hpower _ _)).trans (.foldl (fun v l => (hplot v l).trans (.setMem _ _)) _ _)
  all_goals exact Nat.lt_add_right _ (by decide)

/-- The furrow that a granted boundary begins. -/
def begunFurrow (s : State) : State :=
  let s := s.keepF F.FURROW_INDEX.INDEX (furrowAdd s.furrow 1)
  { s with
    step := { s.step with granted := s.step.granted + 1, holdRun := [], judged := false, copyHeld := false, stretch := [], slip := [] }
    obs := { s.obs with sampled := s.obs.sampled + 1 }, fab := { s.fab with sent := [] }, sow := { s.sow with sent := [] }, hv := { s.hv with pos := [] } }

theorem beginFurrow_eq (s : State) : s.beginFurrow =
    let t := ((List.range 16).foldl deliverVotes ((s.begunFurrow.discardStale s.begunFurrow.furrow).landStreams
      (s.begunFurrow.discardStale s.begunFurrow.furrow).furrow))
    let u := ((t.fetchStreams s.step.granted).countStreams.formNorm).sleepAt s.step.granted
    u.runningPlots.foldl (fun s l => s.perf l 0x01 1) u := by
  unfold beginFurrow begunFurrow
  rfl

theorem boundaryKeeps_beginFurrow (s : State) : BoundaryKeeps s.begunFurrow s.beginFurrow := by
  have hvotes (t : State) (cs : List Nat) : BoundaryKeeps t (cs.foldl deliverVotes t) := .foldl boundaryKeeps_deliverVotes cs t
  have hfetch (t : State) (k : Nat) : BoundaryKeeps t (t.fetchStreams k) := (BoundaryKeeps.setFab t _).trans (.setMem _ _)
  have hcount (t : State) : BoundaryKeeps t t.countStreams := .setMem t _
  have hperf (t : State) (ls : List Nat) : BoundaryKeeps t (ls.foldl (fun s l => s.perf l 0x01 1) t) :=
    .foldl (fun _ _ => (engineKeeps_perf ..).boundary) ls t
  rw [beginFurrow_eq]
  exact (((boundaryKeeps_discardStale _ _).trans (boundaryKeeps_landStreams ..)).trans (hvotes ..)).trans
    (((((hfetch ..).trans (hcount _)).trans (boundaryKeeps_formNorm _)).trans (boundaryKeeps_sleepAt ..)).trans (hperf ..))

/-! ### The boundary (R21-R26) -/

/-- The state at the boundary `b`, its furrow's slots ended. -/
def atBoundary (s : State) (b : Nat) : State := ({ s.keepF F.MERIDIAN_COUNT.COUNT b with time := { s.time with sampled := false } } : State).endSlots

/-- What a boundary does with the terms `t` once the slots have ended. -/
def decideBoundary (s : State) (t : Nat) : State :=
  let w := s.keepF F.GRANT_STATUS.GRANTED (b2n (s.running && s.step.fault.isNone && decide (s.step.granted < s.step.length) && decide (t = 255)))
  if w.inAttempt && w.step.fault.isSome then
    (if w.running && decide (w.step.granted < w.step.length) && bitOf t 0 then (w.notGranted t).raiseHolds else w).abandon
  else if w.running then
    if w.step.granted = w.step.length then (w.endFurrow.incF (F.HOLD_BY_TERM.COUNT 0) 1).takeHorizon
    else if t = 255 then w.endFurrow.beginFurrow
    else if bitOf t 0 then w.notGranted t
    else w.incF (F.HOLD_BY_TERM.COUNT 0) 1
  else w.incF (F.HOLD_BY_TERM.COUNT 0) 1

theorem furrowBoundary_eq {s : State} (href : s.time.refRunning = true) (hsampled : s.time.sampled = true) (hnotices : s.time.notices = []) :
    s.furrowBoundary = (s.atBoundary s.nextBoundary).decideBoundary (s.getF F.GRANT_STATUS.TERMS) := by
  have hnone : (s.atBoundary s.nextBoundary).time.notices = [] := (endSlots_notices _).trans hnotices
  have hadopt : (s.atBoundary s.nextBoundary).adoptNotices s.nextBoundary = s.atBoundary s.nextBoundary := by
    have htime (t : State) (h : t.time.notices = []) : { t with time := { t.time with notices := [] } } = t := by
      rw [← h]
    unfold adoptNotices
    rw [hnone]
    exact htime _ hnone
  have hterms : (s.keepF F.MERIDIAN_COUNT.COUNT s.nextBoundary).getF F.GRANT_STATUS.TERMS = s.getF F.GRANT_STATUS.TERMS :=
    getF_keepF_other _ _ (by decide)
  have heq : s.furrowBoundary = ((s.atBoundary s.nextBoundary).adoptNotices s.nextBoundary).decideBoundary
      ((s.keepF F.MERIDIAN_COUNT.COUNT s.nextBoundary).getF F.GRANT_STATUS.TERMS) := by
    unfold furrowBoundary decideBoundary atBoundary
    rw [if_pos href, if_pos hsampled]
    rfl
  rw [heq, hadopt, hterms]

/-- The coming boundary is the first count past the present one on which FURROW_MT counts from FURROW_PHASE (R21). -/
theorem nextBoundary_first {s : State} (hmt : 0 < s.getF F.FURROW_CFG.FURROW_MT)
    (hphase : s.getF F.FURROW_CFG.FURROW_PHASE ≤ s.meridian + s.getF F.FURROW_CFG.FURROW_MT) :
    let on (m : Nat) : Prop := ((m : Int) - s.getF F.FURROW_CFG.FURROW_PHASE) % s.getF F.FURROW_CFG.FURROW_MT = 0
    s.meridian < s.nextBoundary ∧ on s.nextBoundary ∧ ∀ m, s.meridian < m → m < s.nextBoundary → ¬ on m := by
  intro on
  obtain ⟨mt, hmteq⟩ : ∃ n, n = s.getF F.FURROW_CFG.FURROW_MT := ⟨_, rfl⟩
  obtain ⟨phase, hphaseeq⟩ : ∃ n, n = s.getF F.FURROW_CFG.FURROW_PHASE := ⟨_, rfl⟩
  have hnext : s.nextBoundary = phase + (s.meridian + mt - phase) / mt * mt := by
    have hmax : s.furrowMt = mt := by
      rw [furrowMt, ← hmteq, Nat.max_eq_right (hmteq ▸ hmt)]
    rw [nextBoundary, boundaryAfter, hmax, furrowPhase, ← hphaseeq]
  have hon (m : Nat) : on m ↔ (mt : Int) ∣ (m : Int) - phase := by
    rw [hmteq, hphaseeq]
    exact (Int.dvd_iff_emod_eq_zero).symm
  rw [← hmteq] at hmt hphase
  rw [← hphaseeq] at hphase
  generalize s.meridian = now at *
  obtain ⟨q, hq⟩ : ∃ q, q = (now + mt - phase) / mt := ⟨_, rfl⟩
  have hlow : q * mt ≤ now + mt - phase := hq ▸ Nat.div_mul_le_self ..
  have hhigh : now + mt - phase < (q + 1) * mt := by
    rw [hq, Nat.add_mul, Nat.one_mul]
    exact Nat.lt_div_mul_add hmt
  rw [hnext, ← hq]
  rw [Nat.add_mul, Nat.one_mul] at hhigh
  refine ⟨by omega, (hon _).2 ⟨q, by push_cast; ring⟩, fun m hm hlt hmon => ?_⟩
  obtain ⟨k, hk⟩ := (hon m).1 hmon
  have hkq : k < q := by
    by_contra hge
    have : (mt : Int) * q ≤ mt * k := Int.mul_le_mul_of_nonneg_left (Int.not_lt.1 hge) (Int.natCast_nonneg mt)
    have hcast : ((q * mt : Nat) : Int) = mt * q := by push_cast; ring
    omega
  have hstep : (mt : Int) * k + mt ≤ mt * q := by
    have : (mt : Int) * (k + 1) ≤ mt * q := Int.mul_le_mul_of_nonneg_left hkq (Int.natCast_nonneg mt)
    linarith
  have hcast : ((q * mt : Nat) : Int) = mt * q := by push_cast; ring
  omega

section
variable {v : State}

theorem decideBoundary_outside (h : v.inAttempt = false) (t : Nat) :
    v.decideBoundary t = (v.keepF F.GRANT_STATUS.GRANTED 0).incF (F.HOLD_BY_TERM.COUNT 0) 1 := by
  have hrun : v.running = false := by
    simp only [inAttempt, Bool.or_eq_false_iff] at h
    exact h.1.1
  unfold decideBoundary
  rw [hrun]
  dsimp only
  have hin (x : Nat) : (v.keepF F.GRANT_STATUS.GRANTED x).inAttempt = false := h
  have hout (x : Nat) : (v.keepF F.GRANT_STATUS.GRANTED x).running = false := hrun
  rw [hin, hout]
  rfl

variable (hrun : v.running = true) (hfault : v.step.fault = none)
include hrun hfault

/-- A boundary of a running step without a fault. -/
theorem decideBoundary_running (t : Nat) : v.decideBoundary t =
    let w := v.keepF F.GRANT_STATUS.GRANTED (b2n (decide (v.step.granted < v.step.length) && decide (t = 255)))
    if v.step.granted = v.step.length then (w.endFurrow.incF (F.HOLD_BY_TERM.COUNT 0) 1).takeHorizon
    else if t = 255 then w.endFurrow.beginFurrow
    else if bitOf t 0 then w.notGranted t
    else w.incF (F.HOLD_BY_TERM.COUNT 0) 1 := by
  unfold decideBoundary
  rw [hrun, hfault]
  dsimp only
  have hout (x : Nat) : (v.keepF F.GRANT_STATUS.GRANTED x).running = true := hrun
  have hnone (x : Nat) : (v.keepF F.GRANT_STATUS.GRANTED x).step.fault.isSome = false := by
    rw [keepF_step, hfault]
    rfl
  rw [hout, hnone, Bool.and_false]
  rfl

theorem decideBoundary_grants (hlt : v.step.granted < v.step.length) : v.decideBoundary 255 =
    (v.keepF F.GRANT_STATUS.GRANTED 1).endFurrow.beginFurrow := by
  rw [decideBoundary_running hrun hfault]
  dsimp only
  rw [if_neg (Nat.ne_of_lt hlt), if_pos rfl, decide_eq_true hlt]
  rfl

theorem decideBoundary_holds (hlt : v.step.granted < v.step.length) {t : Nat} (ht : t ≠ 255) (hstep : bitOf t 0 = true) :
    v.decideBoundary t = (v.keepF F.GRANT_STATUS.GRANTED 0).notGranted t := by
  rw [decideBoundary_running hrun hfault]
  dsimp only
  rw [if_neg (Nat.ne_of_lt hlt), if_neg ht, if_pos hstep, decide_eq_false ht, Bool.and_false]
  rfl

theorem decideBoundary_closes (hall : v.step.granted = v.step.length) (t : Nat) :
    v.decideBoundary t = ((v.keepF F.GRANT_STATUS.GRANTED 0).endFurrow.incF (F.HOLD_BY_TERM.COUNT 0) 1).takeHorizon := by
  rw [decideBoundary_running hrun hfault]
  dsimp only
  rw [if_pos hall, decide_eq_false (Nat.not_lt.2 (Nat.le_of_eq hall.symm)), Bool.false_and]
  rfl

end

/-- The terms that are false at a boundary count, each once. -/
def countHolds (s : State) (isFalse : Nat → Bool) (is : List Nat) : State :=
  is.foldl (fun (s : State) i => if isFalse i then s.incF (F.HOLD_BY_TERM.COUNT i) 1 else s) s

theorem countHolds_frame (s : State) (isFalse : Nat → Bool) (is : List Nat) : { s.countHolds isFalse is with regs := s.regs } = s ∧
    BoundaryKeeps s (s.countHolds isFalse is) := by
  refine List.foldlRecOn (motive := fun t : State => { t with regs := s.regs } = s ∧ BoundaryKeeps s t) _ _ ⟨rfl, .refl s⟩ fun t h i _ => ?_
  split
  · exact ⟨h.1, h.2.trans (.incF t (aboveGrant_of_addr (Nat.lt_add_right _ (by decide))) 1)⟩
  · exact h

theorem countHolds_counts (isFalse : Nat → Bool) (is : List Nat) (hnodup : is.Nodup) (s : State) (i : Nat) :
    (s.countHolds isFalse is).getF (F.HOLD_BY_TERM.COUNT i) =
      if i ∈ is ∧ isFalse i = true then (s.getF (F.HOLD_BY_TERM.COUNT i) + 1) % 2 ^ 48 else s.getF (F.HOLD_BY_TERM.COUNT i) := by
  induction is generalizing s with
  | nil => simp [countHolds]
  | cons j is ih =>
    obtain ⟨hj, hrest⟩ := List.nodup_cons.1 hnodup
    have hstep : s.countHolds isFalse (j :: is) =
        (if isFalse j then s.incF (F.HOLD_BY_TERM.COUNT j) 1 else s).countHolds isFalse is := rfl
    rw [hstep, ih hrest]
    by_cases hij : i = j
    · subst hij
      cases hf : isFalse i
      · simp
      · simp only [hj, List.mem_cons_self, false_and, if_false, if_true, and_self]
        exact getF_incF_same _ _ _
    · have hother : (if isFalse j then s.incF (F.HOLD_BY_TERM.COUNT j) 1 else s).getF (F.HOLD_BY_TERM.COUNT i) =
          s.getF (F.HOLD_BY_TERM.COUNT i) := by
        split
        · refine getF_incF_other _ _ ?_
          simp only [Fld.key, F.HOLD_BY_TERM.COUNT]
          omega
        · rfl
      simp [hother, hij]

/-- Beside what a boundary keeps: the cores, the memories and the counts of the terms. -/
structure HoldKeeps (s t : State) : Prop extends BoundaryKeeps s t where
  plots : t.plots = s.plots
  mem : t.mem = s.mem
  counts : ∀ i < 8, t.getF (F.HOLD_BY_TERM.COUNT i) = s.getF (F.HOLD_BY_TERM.COUNT i)

namespace HoldKeeps
variable {s t u : State}

theorem refl (s : State) : HoldKeeps s s := ⟨.refl s, rfl, rfl, fun _ _ => rfl⟩

theorem trans (h : HoldKeeps s t) (k : HoldKeeps t u) : HoldKeeps s u :=
  ⟨h.toBoundaryKeeps.trans k.toBoundaryKeeps, k.plots.trans h.plots, k.mem.trans h.mem, fun i hi => (k.counts i hi).trans (h.counts i hi)⟩

end HoldKeeps

/-- A boundary at which a term is false begins nothing: the false terms count (R25, R26). -/
theorem notGranted_holds (s : State) (t : Nat) : BoundaryKeeps s (s.notGranted t) ∧ (s.notGranted t).plots = s.plots ∧
    (s.notGranted t).mem = s.mem ∧ ∀ i ∈ [1, 2, 3, 4, 5, 6], (s.notGranted t).getF (F.HOLD_BY_TERM.COUNT i) =
      if bitOf t i then s.getF (F.HOLD_BY_TERM.COUNT i) else (s.getF (F.HOLD_BY_TERM.COUNT i) + 1) % 2 ^ 48 := by
  obtain ⟨c, hc⟩ : ∃ c, c = s.countHolds (fun i => !bitOf t i) [1, 2, 3, 4, 5, 6] := ⟨_, rfl⟩
  obtain ⟨hframe, hkeeps⟩ := s.countHolds_frame (fun i => !bitOf t i) [1, 2, 3, 4, 5, 6]
  have hcounts (i : Nat) := countHolds_counts (fun i => !bitOf t i) [1, 2, 3, 4, 5, 6] (by decide) s i
  have hruns (v : State) (runs : SMap Nat) (n : Nat) : HoldKeeps v { v with step := { v.step with holdRun := runs, held := n } } :=
    ⟨⟨fun _ _ => rfl, rfl, rfl, rfl, rfl⟩, rfl, rfl, fun _ _ => rfl⟩
  have hheld (v : State) (b : Bool) : HoldKeeps v (if b then v.incF F.HOLD_COUNT.COUNT 1 else v) := by
    split
    · refine ⟨.incF v (aboveGrant_of_addr (by decide)) 1, rfl, rfl, fun i hi => getF_incF_other _ _ ?_⟩
      simp only [Fld.key, F.HOLD_BY_TERM.COUNT, F.HOLD_COUNT.COUNT]
      omega
    · exact .refl v
  have halone (v : State) (b : Bool) : HoldKeeps v (if b then v.incLive F.CKPT_UNPLANNED.COUNT 1 else v) := by
    split
    · refine ⟨.incLive v (aboveGrant_of_addr (by decide)) 1, rfl, rfl, fun i hi => getF_incLive_other _ _ ?_⟩
      simp only [Fld.key, F.HOLD_BY_TERM.COUNT, F.CKPT_UNPLANNED.COUNT]
      omega
    · exact .refl v
  have hrest : HoldKeeps c (s.notGranted t) := by
    unfold notGranted
    rw [hc]
    exact ((hruns ..).trans (hheld ..)).trans (halone ..)
  rw [← hc] at hframe hkeeps hcounts
  refine ⟨hkeeps.trans hrest.toBoundaryKeeps, hrest.plots.trans (congrArg State.plots hframe :),
    hrest.mem.trans (congrArg State.mem hframe :), fun i hi => ?_⟩
  have hi8 : i < 8 := by
    have hall : ∀ i ∈ [1, 2, 3, 4, 5, 6], i < 8 := by decide
    exact hall i hi
  rw [hrest.counts i hi8, hcounts i]
  cases bitOf t i
  · simp [hi]
  · simp

/-- A granted boundary begins the next furrow (R21, R23). -/
theorem grantedFurrow_begins (v : State) : let u := (v.keepF F.GRANT_STATUS.GRANTED 1).endFurrow.beginFurrow
    u.step.granted = v.step.granted + 1 ∧ u.furrow = furrowAdd v.furrow 1 ∧ u.getF F.GRANT_STATUS.GRANTED = 1 ∧ u.step.judged = false ∧
      u.step.phase = v.step.phase := by
  have hend := (v.keepF F.GRANT_STATUS.GRANTED 1).boundaryKeeps_endFurrow.1
  generalize (v.keepF F.GRANT_STATUS.GRANTED 1).endFurrow = x at *
  have hbegin := x.boundaryKeeps_beginFurrow
  have hindex : x.furrow = v.furrow := (hend.regs F.FURROW_INDEX.INDEX (by decide)).trans (getF_keepF_other _ _ (by decide))
  have hgrant : x.getF F.GRANT_STATUS.GRANTED = 1 := (hend.regs F.GRANT_STATUS.GRANTED (by decide)).trans (getF_keepF_same ..)
  refine ⟨?_, ?_, ?_, hbegin.judged, ?_⟩
  · exact hbegin.granted.trans (congrArg (· + 1) hend.granted)
  · rw [← hindex]
    refine (hbegin.regs F.FURROW_INDEX.INDEX (by decide)).trans ((getF_keepF_same ..).trans ?_)
    exact Nat.mod_mod _ _
  · exact (hbegin.regs F.GRANT_STATUS.GRANTED (by decide)).trans ((getF_keepF_other _ _ (by decide)).trans hgrant)
  · exact hbegin.phase.trans hend.phase

theorem takeHorizon_closes (s : State) : s.takeHorizon.step.phase = .closing ∧ s.takeHorizon.step.granted = s.step.granted ∧
    s.takeHorizon.plots = s.plots := by
  unfold takeHorizon endUngranted
  split
  · exact ⟨rfl, rfl, rfl⟩
  · exact ⟨rfl, rfl, rfl⟩

end State

open State in
/-- Settles O19: a boundary is what it decides in the state in which the furrow's slots have ended; each case of the decision is an equation,
and what it keeps is a frame of the cores' work, of the segments, and of the furrow that begins. -/
theorem furrowBoundaries : Obligations.FurrowBoundaries := by
  unfold Obligations.FurrowBoundaries
  intro s href hsampled hnotices b terms v
  have heq : s.furrowBoundary = v.decideBoundary terms := furrowBoundary_eq href hsampled hnotices
  refine ⟨fun hout => ?_, fun hrun hfault hlt hall => ?_, fun hrun hfault hlt hne hstep => ?_, fun hrun hfault hlast => ?_, fun hmt hphase => ?_⟩
  · obtain ⟨x, hx⟩ : ∃ x : State, x = { (s.keepF F.MERIDIAN_COUNT.COUNT b) with time := { s.time with sampled := false } } := ⟨_, rfl⟩
    have hxout : x.inAttempt = false := by
      rw [hx]
      exact hout
    have hv : v = x := by
      have hrun : x.running = false := by
        simp only [inAttempt, Bool.or_eq_false_iff] at hxout
        exact hxout.1.1
      have hends : x.endSlots = x := if_neg (by simp [hrun])
      rw [← hends, hx]
    have hmeridian : x.getF F.MERIDIAN_COUNT.COUNT = b % 2 ^ 64 := by
      rw [hx]
      exact getF_keepF_same ..
    have hother {f : Fld} (hf : f.key ≠ F.MERIDIAN_COUNT.COUNT.key) : x.getF f = s.getF f := by
      rw [hx]
      exact getF_keepF_other _ _ hf
    have hrest : x.time.sampled = false ∧ x.step = s.step := by
      rw [hx]
      exact ⟨rfl, rfl⟩
    have houtside : v.decideBoundary terms = (x.keepF F.GRANT_STATUS.GRANTED 0).incF (F.HOLD_BY_TERM.COUNT 0) 1 :=
      (congrArg (fun y : State => y.decideBoundary terms) hv).trans (decideBoundary_outside hxout terms)
    refine does_of_eq rfl (heq.trans houtside) ⟨?_, hrest.1, ?_, ?_, ?_, hrest.2⟩
    · exact (getF_incF_other _ _ (by decide)).trans ((getF_keepF_other _ _ (by decide)).trans hmeridian)
    · exact (getF_incF_other _ _ (by decide)).trans (getF_keepF_same ..)
    · rw [getF_incF_same, getF_keepF_other _ _ (by decide), hother (by decide)]
      rfl
    · exact (getF_incF_other _ _ (by decide)).trans ((getF_keepF_other _ _ (by decide)).trans (hother (by decide)))
  · obtain ⟨hgranted, hfurrow, hgrant, hjudged, hphase⟩ := v.grantedFurrow_begins
    have hgrants : v.decideBoundary terms = (v.keepF F.GRANT_STATUS.GRANTED 1).endFurrow.beginFurrow := by
      rw [hall]
      exact decideBoundary_grants hrun hfault hlt
    exact does_of_eq rfl (heq.trans hgrants) ⟨hgranted, hfurrow, hgrant, hjudged, (congrArg (· == Phase.running) hphase).trans hrun⟩
  · obtain ⟨w, hw⟩ : ∃ w, w = v.keepF F.GRANT_STATUS.GRANTED 0 := ⟨_, rfl⟩
    have hholds : v.decideBoundary terms = w.notGranted terms := hw ▸ decideBoundary_holds hrun hfault hlt hne hstep
    have hwv {f : Fld} (hf : f.key ≠ F.GRANT_STATUS.GRANTED.key) : w.getF f = v.getF f := hw ▸ getF_keepF_other _ _ hf
    have hsame : w.step = v.step ∧ w.plots = v.plots ∧ w.mem = v.mem := by
      rw [hw]
      exact ⟨rfl, rfl, rfl⟩
    obtain ⟨hwstep, hwplots, hwmem⟩ := hsame
    obtain ⟨hkeeps, hplots, hmem, hcounts⟩ := w.notGranted_holds terms
    refine does_of_eq rfl (heq.trans hholds) ⟨hkeeps.granted.trans (congrArg StepSt.granted hwstep), ?_, ?_, ?_, hplots.trans hwplots,
      hmem.trans hwmem, fun i hi => ?_⟩
    · exact (hkeeps.regs F.FURROW_INDEX.INDEX (by decide)).trans (hwv (by decide))
    · exact (hkeeps.regs F.GRANT_STATUS.GRANTED (by decide)).trans (hw ▸ getF_keepF_same ..)
    · exact (congrArg (· == Phase.running) (hkeeps.phase.trans (congrArg StepSt.phase hwstep))).trans hrun
    · have hkey : w.getF (F.HOLD_BY_TERM.COUNT i) = v.getF (F.HOLD_BY_TERM.COUNT i) := by
        refine hwv ?_
        simp only [Fld.key, F.HOLD_BY_TERM.COUNT, F.GRANT_STATUS.GRANTED]
        omega
      rw [hcounts i hi, hkey]
  · obtain ⟨hkeeps, hplots⟩ := (v.keepF F.GRANT_STATUS.GRANTED 0).boundaryKeeps_endFurrow
    obtain ⟨hclosing, hgranted, hends⟩ := ((v.keepF F.GRANT_STATUS.GRANTED 0).endFurrow.incF (F.HOLD_BY_TERM.COUNT 0) 1).takeHorizon_closes
    exact does_of_eq rfl (heq.trans (decideBoundary_closes hrun hfault hlast terms))
      ⟨hclosing, hgranted.trans hkeeps.granted, hends.trans hplots⟩
  · exact nextBoundary_first (Nat.lt_of_lt_of_le (by decide) hmt) hphase

end Sys2Proof.Machine

namespace Sys2Proof.Machine
namespace State

/-! ### The end of slot 47 (R149, R153) -/

/-- The core's furrow is over: its word signature starts anew. -/
@[reducible] def freshPlot (s : State) (lid : Nat) : State := s.modPlot lid fun x => { x with crc := 0xFFFFFFFF, fetched := 0 }

theorem slotsEnd_core {s : State} {lid : Nat} (hwork : s.atWork lid (48 * s.step.granted - 1) = true) (hjudged : s.step.judged = false)
    (hprog : s.hasProgram lid = true) (hcore : (s.advance lid (48 * s.step.granted)).coreFenced lid = false) :
    let u := s.advance lid (48 * s.step.granted)
    s.slotsEnd lid [] [] = if crc32c (wordsBytes (u.furrowWords lid)) ≠ (u.plot lid).crc ^^^ 0xFFFFFFFF then
        ((u.freshPlot lid).incLive (F.SIGNATURE_FAIL.COUNT lid) 1).coreFault lid {
          code := 0x0205, srcType := srcPlot, srcId := lid, opUnit := opSequencer
          detail := crc32c (wordsBytes (u.furrowWords lid)) + ((u.plot lid).crc ^^^ 0xFFFFFFFF) * 2 ^ 32 }
      else (u.freshPlot lid).latchFork lid := by
  intro u
  simp only [atWork, Bool.and_eq_true, decide_eq_true_eq] at hwork
  obtain ⟨⟨⟨⟨⟨⟨hrun, hgranted⟩, hpresent⟩, -⟩, hnow⟩, -⟩, -⟩ := hwork
  have hstep : 48 * s.step.granted - 1 + 1 = 48 * s.step.granted := by omega
  have hcond : (s.running && decide (0 < s.step.granted) && !s.step.judged && s.present lid && s.hasProgram lid &&
      decide ((s.plot lid).now ≤ 48 * s.step.granted - 1)) = true := by simp [hrun, hgranted, hjudged, hpresent, hprog, hnow]
  have hsigned : u.signedWords lid = u.furrowWords lid := by
    rw [signedWords, if_neg]
    simp [u, hcore]
  unfold slotsEnd
  dsimp only
  rw [if_pos hcond, hstep]
  change u.coreFenced lid = false at hcore
  change (let v := if u.coreFenced lid then u else u
    let want := crc32c (wordsBytes (v.signedWords lid))
    let got := (v.plot lid).crc ^^^ 0xFFFFFFFF
    let x := v.freshPlot lid
    if want ≠ got then (x.incLive (F.SIGNATURE_FAIL.COUNT lid) 1).coreFault lid {
      code := 0x0205, srcType := srcPlot, srcId := lid, opUnit := opSequencer, detail := want + got * 2 ^ 32 }
    else if x.coreFenced lid then x else x.latchFork lid) = _
  clear_value u
  have hfresh : (u.freshPlot lid).coreFenced lid = false := hcore
  dsimp only
  rw [ite_self, hsigned, hfresh]
  rfl

/-- The fork register names a variant, or none of those of the fork. -/
theorem latchFork_some {s : State} {lid x : Nat}
    (h : forkAhead (s.slotMem lid) 32768 (bitsOf (s.slotMem lid s.step.program) 0 15) s.step.granted = some x) :
    s.latchFork lid =
      let v := (s.gregAt lid (bitsOf x 0 5)).toNat % 4
      let f := bitsOf x 24 8
      if v < bitsOf x 5 3 then
        (((s.modPlot lid fun y => { y with variants := SMap.ins y.variants f v, lastFork := f }).incF (F.FORKS_TAKEN.COUNT lid v) 1).keepF
          (F.CTL_STATUS.LAST_VARIANT lid) v).keepF (F.CTL_STATUS.LAST_FORK lid) f
      else s.coreFault lid {
        code := 0x0207, srcType := srcPlot, srcId := lid, opUnit := opSequencer, detail := f + v * 256 } := by
  rw [latchFork, h]

theorem latchFork_none {s : State} {lid : Nat}
    (h : forkAhead (s.slotMem lid) 32768 (bitsOf (s.slotMem lid s.step.program) 0 15) s.step.granted = none) : s.latchFork lid = s := by
  rw [latchFork, h]

end State

open State in
/-- Settles O15: the core's furrow ends in the state in which its slots have been carried out; the cases are those of the signature and of
the fork ahead. -/
theorem furrowSlotsEnd : Obligations.FurrowSlotsEnd := by
  unfold Obligations.FurrowSlotsEnd
  intro s l lid u w fork matches' hwork hjudged hprog hcore hrun
  have hend : s.slotsEnd lid [] [] = _ := slotsEnd_core hwork hjudged hprog hcore
  have hexec (t : State) (ht : s.slotsEnd lid [] [] = t) (htrun : t.running = true) :
      exec (.furrowSlotsEnd l ⟨[], []⟩) s = .next (s.returned t) := by
    have h : exec (.furrowSlotsEnd l ⟨[], []⟩) s = s.answerIf (Instr.furrowSlotsEnd l ⟨[], []⟩).wellFormed t := ht ▸ rfl
    exact exec_running h rfl htrun
  have hw : u.freshPlot lid = w := rfl
  have hfork : forkAhead (w.slotMem lid) 32768 (bitsOf (w.slotMem lid w.step.program) 0 15) w.step.granted = fork := rfl
  have hgreg (i : Nat) : w.gregAt lid i = u.gregAt lid i := by
    rw [gregAt, gregAt, ← hw, freshPlot, plot_modPlot_same]
    rfl
  have hwrun : w.running = true := hrun
  have hwcore : w.coreFenced lid = false := hcore
  change s.slotsEnd lid [] [] = if crc32c (wordsBytes (u.furrowWords lid)) ≠ (u.plot lid).crc ^^^ 0xFFFFFFFF then
      (w.incLive (F.SIGNATURE_FAIL.COUNT lid) 1).coreFault lid {
        code := 0x0205, srcType := srcPlot, srcId := lid, opUnit := opSequencer
        detail := crc32c (wordsBytes (u.furrowWords lid)) + ((u.plot lid).crc ^^^ 0xFFFFFFFF) * 2 ^ 32 }
    else w.latchFork lid at hend
  have hwu : w.recs = u.recs ∧ w.step = u.step := ⟨rfl, rfl⟩
  obtain ⟨hwrecs, hwstep⟩ := hwu
  have hfailed {t : State} {code : Nat} (h : w.coreFailed t lid code) : u.coreFailed t lid code := h
  clear_value w u
  refine ⟨fun hm hnone => ?_, fun hm x hx => ⟨fun hlt => ?_, fun hle => ?_⟩, fun hm => ?_⟩
  · rw [if_neg (not_not.2 hm), latchFork_none (hfork.trans hnone)] at hend
    exact hexec w hend hwrun
  · obtain ⟨v, hv⟩ : ∃ v, v = (u.gregAt lid (bitsOf x 0 5)).toNat % 4 := ⟨_, rfl⟩
    rw [← hv] at hlt ⊢
    rw [if_neg (not_not.2 hm), latchFork_some (hfork.trans hx), hgreg, ← hv] at hend
    dsimp only at hend
    obtain ⟨latched, hlatched⟩ : ∃ t, t = w.modPlot lid fun y => { y with
      variants := SMap.ins y.variants (bitsOf x 24 8) v, lastFork := bitsOf x 24 8 } := ⟨_, rfl⟩
    have hsame : latched.plot lid = { w.plot lid with
        variants := SMap.ins (w.plot lid).variants (bitsOf x 24 8) v, lastFork := bitsOf x 24 8 } ∧
        (∀ k, k ≠ lid → latched.plot k = w.plot k) ∧ { latched with plots := w.plots } = w := by
      rw [hlatched]
      exact ⟨plot_modPlot_same .., fun k hk => plot_modPlot_other _ _ hk, rfl⟩
    obtain ⟨hplot, hother, hframe⟩ := hsame
    have hregs (f : Fld) : latched.getF f = w.getF f := getF_congr (congrArg State.regs hframe :) f
    rw [if_pos hlt, ← hlatched] at hend
    refine ⟨_, hexec _ hend ?_, ?_, ⟨hplot, hother, fun f hf => ?_, ?_⟩, ?_, ?_⟩
    · exact (congrArg State.running hframe :).trans hwrun
    · exact (congrArg State.recs hframe :).trans hwrecs
    · exact (getF_keepF_other _ _ (hf _ (by simp))).trans ((getF_keepF_other _ _ (hf _ (by simp))).trans
        ((getF_incF_other _ _ (hf _ (by simp))).trans (hregs f)))
    · exact congrArg (fun y : State => { y with regs := w.regs, pub := w.pub, base := w.base, pending := w.pending, man := w.man }) hframe
    · refine (getF_keepF_other _ _ ?_).trans ((getF_keepF_same ..).trans (Nat.mod_eq_of_lt ?_))
      · simp only [Fld.key, F.CTL_STATUS.LAST_VARIANT, F.CTL_STATUS.LAST_FORK]
        omega
      · rw [hv]
        exact (Nat.mod_lt _ (by decide) : _ % 4 < 4)
    · refine (getF_keepF_same ..).trans (Nat.mod_eq_of_lt ?_)
      rw [bitsOf_eq]
      exact Nat.mod_lt _ (by decide)
  · rw [if_neg (not_not.2 hm), latchFork_some (hfork.trans hx), hgreg] at hend
    dsimp only at hend
    rw [if_neg (Nat.not_lt.2 hle)] at hend
    have hfault := coreFaulted_coreFault (s := w) (lid := lid) {
      code := 0x0207, srcType := srcPlot, srcId := lid, opUnit := opSequencer
      detail := bitsOf x 24 8 + (u.gregAt lid (bitsOf x 0 5)).toNat % 4 * 256 } (inAttempt_of_running hwrun) hwcore
    exact ⟨_, hexec _ hend (hfault.running_eq.trans hwrun), hfailed (hfault.coreFailed (inAttempt_of_running hwrun) rfl)⟩
  · rw [if_pos hm] at hend
    have hkey : plotKeys ≤ (F.SIGNATURE_FAIL.COUNT lid).key := by
      simp only [plotKeys, Fld.key, F.SIGNATURE_FAIL.COUNT]
      omega
    have hcount : w.getF (F.SIGNATURE_FAIL.COUNT lid) = u.getF (F.SIGNATURE_FAIL.COUNT lid) := by
      rw [← hw]
      rfl
    obtain ⟨hrunning, hfail, hcounted⟩ := countedCoreFault (u := w) (lid := lid) {
      code := 0x0205, srcType := srcPlot, srcId := lid, opUnit := opSequencer
      detail := crc32c (wordsBytes (u.furrowWords lid)) + ((u.plot lid).crc ^^^ 0xFFFFFFFF) * 2 ^ 32 } hkey l.isLt hwrun hwcore rfl
    rw [hcount] at hcounted
    exact ⟨_, hexec _ hend hrunning, hfailed hfail, hcounted⟩

end Sys2Proof.Machine

namespace Sys2Proof.Machine
namespace State

/-! ### What an operation of one plot changes (R127, R414) -/

/-- `t` is `s` but for the plot `lid`, which is `x`, and the register fields in `fs`. -/
structure PlotSets (s t : State) (lid : Nat) (x : PlotSt) (fs : List Fld) : Prop where
  plot : t.plot lid = x
  others : ∀ k, k ≠ lid → t.plot k = s.plot k
  regs : s.fieldsBut t fs
  frame : { t with plots := s.plots, regs := s.regs, pub := s.pub, base := s.base } = s

namespace PlotSets
variable {s t u : State} {lid : Nat} {x y : PlotSt} {fs gs : List Fld}

theorem refl (s : State) (lid : Nat) (fs : List Fld) : PlotSets s s lid (s.plot lid) fs := ⟨rfl, fun _ _ => rfl, fun _ _ => rfl, rfl⟩

theorem trans (h : PlotSets s t lid x fs) (k : PlotSets t u lid y fs) : PlotSets s u lid y fs where
  plot := k.plot
  others l hl := (k.others l hl).trans (h.others l hl)
  regs f hf := (k.regs f hf).trans (h.regs f hf)
  frame := (congrArg (fun v : State => { v with plots := s.plots, regs := s.regs, pub := s.pub, base := s.base }) k.frame :).trans h.frame

theorem mono (h : PlotSets s t lid x fs) (hsub : fs ⊆ gs) : PlotSets s t lid x gs :=
  ⟨h.plot, h.others, fun f hf => h.regs f fun g hg => hf g (hsub hg), h.frame⟩

theorem cast (h : PlotSets s t lid x fs) (hx : x = y) : PlotSets s t lid y fs := hx ▸ h

theorem modPlot (s : State) (lid : Nat) (f : PlotSt → PlotSt) (fs : List Fld) : PlotSets s (s.modPlot lid f) lid (f (s.plot lid)) fs :=
  ⟨plot_modPlot_same .., fun _ hk => plot_modPlot_other _ _ hk, fun _ _ => rfl, rfl⟩

theorem setF (s : State) (lid : Nat) {f : Fld} (hf : f ∈ fs) (v : Nat) : PlotSets s (s.setF f v) lid (s.plot lid) fs :=
  ⟨rfl, fun _ _ => rfl, fun _ hg => getF_setF_other _ _ (hg f hf), rfl⟩

theorem incF (s : State) (lid : Nat) {f : Fld} (hf : f ∈ fs) (v : Nat) : PlotSets s (s.incF f v) lid (s.plot lid) fs := .setF s lid hf _

theorem nowF (s : State) (lid : Nat) {f : Fld} (hf : f ∈ fs) (v : Nat) : PlotSets s (s.nowF f v) lid (s.plot lid) fs :=
  ⟨rfl, fun _ _ => rfl, fun _ hg => getF_nowF_other _ _ (hg f hf), rfl⟩

/-- A change that leaves the plot, after one that sets it. -/
theorem andThen (h : PlotSets s t lid x fs) (k : PlotSets t u lid (t.plot lid) fs) : PlotSets s u lid x fs := (h.trans k).cast h.plot

theorem perf (s : State) (lid ev n : Nat) (hsub : perfFields lid ⊆ fs) : PlotSets s (s.perf lid ev n) lid (s.plot lid) fs := by
  unfold State.perf
  split
  · exact .refl s lid fs
  · refine List.foldlRecOn (motive := fun t => PlotSets s t lid (s.plot lid) fs) _ _ (.refl s lid fs) fun t h i hi => ?_
    have hcounter : F.PERF_COUNT.COUNT lid i ∈ fs := hsub (List.mem_map_of_mem hi)
    split
    · split
      · exact h.andThen (.nowF t lid hcounter _)
      · exact h.andThen (.incF t lid hcounter _)
    · exact h

theorem step_eq (h : PlotSets s t lid x fs) : t.step = s.step := (congrArg State.step h.frame :)
theorem mem_eq (h : PlotSets s t lid x fs) : t.mem = s.mem := (congrArg State.mem h.frame :)
theorem win_eq (h : PlotSets s t lid x fs) : t.win = s.win := (congrArg State.win h.frame :)
theorem recs_eq (h : PlotSets s t lid x fs) : t.recs = s.recs := (congrArg State.recs h.frame :)
theorem running_eq (h : PlotSets s t lid x fs) : t.running = s.running := (congrArg State.running h.frame :)

/-- What a statement says of such a change, as the command answers it. -/
theorem plotOnly_returned (h : PlotSets s t lid x fs) (r : State) : s.plotOnly (r.returned t) lid x fs :=
  ⟨h.plot, h.others, h.regs, congrArg (fun v : State => { v with pending := s.pending, man := s.man }) h.frame⟩

end PlotSets

/-! ### Array words (R80-R91, R168) -/

theorem exec_arrayWord {c : Instr} {s : State} {i : Issue} {mode : Nat} {o : ArrayWord} (hc : exec c s = s.answerIf c.wellFormed (s.arrayWord i mode o))
    (hwf : c.wellFormed = true) (hv : s.isV i.lid.toNat = false) (h : s.issues i (s.arrayFetched i mode o)) {t : State}
    (ht : arrayOp mode i.slot.toNat o (s.arrayFetched i mode o) i.lid.toNat (s.issueStep i) = t) (hrun : t.running = true) :
    exec c s = .next (s.returned t) := by
  obtain ⟨hcan, hcore, -⟩ := h
  have hword : s.arrayWord i mode o = t := by
    have hissue := issueWord_runs s i opArray mode o.bits (fun _ _ => true) (arrayOp mode i.slot.toNat o) hcan hcore
    rw [arrayWord, hv]
    exact hissue.trans ht
  rw [hword] at hc
  exact exec_running hc hwf hrun

/-- The feed of an array word that begins at step `p` (R86-R91). -/
def feedOf (s : State) (lid mode slot p n : Nat) (o : ArrayWord) : Feed :=
  let reg (r : BitVec 5) : Nat := (s.gregAt lid r.toNat).toNat
  { mode := mode, p0 := p, slot := slot, count := n, next := 0, gotA := [], gotB := []
    srcA := reg o.ra % 2 ^ 32, strideA := reg o.ra / 2 ^ 32, srcB := reg o.rb % 2 ^ 32, strideB := reg o.rb / 2 ^ 32
    fmtA := o.fmtA.toNat, fmtB := o.fmtB.toNat, dst := reg o.rd % 2 ^ 32, dstStride := reg o.rd / 2 ^ 32
    outFmt := o.outFmt.toNat, acc := o.acc, rnd := o.rnd, clr := o.clr }

theorem arrayOp_wload {u : State} {lid p slot : Nat} {o : ArrayWord} (h : u.arrayRefusal lid p mWload o = none) :
    arrayOp mWload slot o u lid p = (u.modPlot lid fun x => { x with mode := 6 }).modPlot lid fun x => { x with
      shadow := { Plane.empty with state := 1, fmt := o.fmtA.toNat }, readyAt := p + 136, loadFree := p + 128
      feeds := x.feeds ++ [u.feedOf lid 6 slot p 128 o] } := by
  unfold arrayOp
  rw [h]
  rfl

theorem arrayOp_swap {u : State} {lid p slot : Nat} {o : ArrayWord} (h : u.arrayRefusal lid p mSwap o = none) :
    arrayOp mSwap slot o u lid p = (u.modPlot lid fun x => { x with mode := 7 }).modPlot lid fun x => { x with
      active := x.shadow, shadow := x.active } := by
  unfold arrayOp
  rw [h]
  rfl

/-- The rows that a stream feeds (R86-R91). -/
def rowCount (s : State) (lid mode : Nat) (o : ArrayWord) : Nat :=
  if mode = mOdrain then 128 else if o.csrc then o.cimm.toNat else (s.gregAt lid o.rc.toNat).toNat

/-- The plot in the mode of its array word. -/
def inMode (mode : Nat) (x : PlotSt) : PlotSt := { x with mode := mode }

/-- The plot as a stream of `n` rows begins, its last row at step `last` (R86-R91). -/
def streaming (mode n last : Nat) (o : ArrayWord) (f : Feed) (x : PlotSt) : PlotSt :=
  { x with
    feedEnd := some (last, mode), feeds := if n = 0 then x.feeds else x.feeds ++ [f]
    accp := if mode = 3 ∧ o.clr then AccPlane.start ((pairClass f.fmtA f.fmtB).getD 1) else x.accp }

/-- A stream before its empty outcome counts. -/
def streamStart (u : State) (lid p mode n last : Nat) (o : ArrayWord) (f : Feed) : State :=
  ((u.modPlot lid (inMode mode)).modPlot lid (streaming mode n (p + last) o f)).perf lid 0x10 (last + 1)

theorem arrayOp_stream {u : State} {lid p mode slot : Nat} {o : ArrayWord} (hmode : mode ≠ 6 ∧ mode ≠ 7)
    (h : u.arrayRefusal lid p mode o = none) : arrayOp mode slot o u lid p =
    let n := u.rowCount lid mode o
    let f := u.feedOf lid mode slot p n o
    let v := u.streamStart lid p mode n (feedLength (f.half (u.plot lid).active.fmt) n) o f
    if n = 0 then v.countOutcome lid 1 else v := by
  have hcount : (if mode = 4 ∨ mode = 6 then 128 else if o.csrc then o.cimm.toNat else (u.gregAt lid o.rc.toNat).toNat) =
      u.rowCount lid mode o := by
    simp only [rowCount, mOdrain, hmode.1, or_false]
    rfl
  unfold arrayOp
  rw [h, ← hcount]
  dsimp only
  rw [if_neg hmode.2, if_neg hmode.1]
  rfl

/-- Rows are fed at step `p` or later (R83). -/
def stillFeeding (x : PlotSt) (p : Nat) : Bool :=
  match x.feedEnd with
  | none => false
  | some (f, _) => decide (p ≤ f)

/-- An exchange of the planes is refused where no plane is ready or rows are fed. -/
theorem arrayRefusal_swap {u : State} {lid p : Nat} {o : ArrayWord} (hshadow : (u.plot lid).shadow.state = 2)
    (hfeed : ∀ x, (u.plot lid).feedEnd = some x → x.1 < p) (hlen : p < 48 * u.step.length) : u.arrayRefusal lid p mSwap o = none := by
  have hfeeding : stillFeeding (u.plot lid) p = false := by
    unfold stillFeeding
    cases hf : (u.plot lid).feedEnd with
    | none => rfl
    | some x => exact decide_eq_false (Nat.not_le.mpr (hfeed x hf))
  have hrefusal : u.arrayRefusal lid p mSwap o = if 7 = mSwap ∧ ((u.plot lid).shadow.state ≠ 2 ∨ stillFeeding (u.plot lid) p) then some ruleArray
      else if 48 * u.step.length ≤ p then some ruleRange else none := rfl
  rw [hrefusal, hshadow, hfeeding, if_neg (by simp), if_neg (Nat.not_le.mpr hlen)]

theorem chkCount_ne_perf (lid : Nat) {o : Nat} (ho : o < 5) : ∀ g ∈ perfFields lid, (F.CHK_COUNT.COUNT lid o).key ≠ g.key := by
  simp only [perfFields, List.mem_map, List.mem_range]
  rintro _ ⟨i, hi, rfl⟩
  simp only [Fld.key, F.CHK_COUNT.COUNT, F.PERF_COUNT.COUNT]
  omega

theorem chkCount_ne_sum (lid o : Nat) : (F.CHK_COUNT.COUNT lid o).key ≠ (F.CHK_SUM.COUNT o).key := by
  simp only [Fld.key, F.CHK_COUNT.COUNT, F.CHK_SUM.COUNT]
  omega

/-- An outcome counts on its plot, on its module and in the performance counters (R99, R100). -/
theorem countOutcome_sets (s : State) (lid : Nat) {o : Nat} (ho : o < 5) :
    PlotSets s (s.countOutcome lid o) lid (s.plot lid) (F.CHK_COUNT.COUNT lid o :: F.CHK_SUM.COUNT o :: perfFields lid) ∧
      (s.countOutcome lid o).getF (F.CHK_COUNT.COUNT lid o) = (s.getF (F.CHK_COUNT.COUNT lid o) + 1) % 2 ^ 48 := by
  have hperf := PlotSets.perf ((s.incF (F.CHK_COUNT.COUNT lid o) 1).incF (F.CHK_SUM.COUNT o) 1) lid 0x04 1 (fun _ h => h)
  constructor
  · exact ((PlotSets.incF s lid (by simp) 1).andThen (.incF _ lid (by simp) 1)).andThen (hperf.mono (by simp))
  · refine (hperf.regs _ (chkCount_ne_perf lid ho)).trans ((getF_incF_other _ _ (chkCount_ne_sum lid o)).trans (getF_incF_same ..))

/-- The plot after a stream has begun at step `p` that ends `last` steps later. -/
def streamPlot (u : State) (lid p mode n last : Nat) (o : ArrayWord) (f : Feed) : PlotSt :=
  { u.plot lid with
    mode := mode, feedEnd := some (p + last, mode), feeds := (u.plot lid).feeds ++ (if n = 0 then [] else [f])
    accp := if mode = mOacc ∧ o.clr then AccPlane.start ((pairClass f.fmtA f.fmtB).getD 1) else (u.plot lid).accp }

/-- A stream begins: its feed waits for its rows, or an empty outcome counts (R92, R100). -/
theorem arrayOp_stream_sets {u : State} {lid p mode slot n last : Nat} {o : ArrayWord} {f : Feed} (hmode : mode ≠ 6 ∧ mode ≠ 7)
    (h : u.arrayRefusal lid p mode o = none) (hn : u.rowCount lid mode o = n) (hf : u.feedOf lid mode slot p n o = f)
    (hlast : feedLength (f.half (u.plot lid).active.fmt) n = last) {t : State} (ht : arrayOp mode slot o u lid p = t) :
    PlotSets u t lid (u.streamPlot lid p mode n last o f) (F.CHK_COUNT.COUNT lid 1 :: F.CHK_SUM.COUNT 1 :: perfFields lid) ∧
      t.getF (F.CHK_COUNT.COUNT lid 1) =
        if n = 0 then (u.getF (F.CHK_COUNT.COUNT lid 1) + 1) % 2 ^ 48 else u.getF (F.CHK_COUNT.COUNT lid 1) := by
  rw [arrayOp_stream hmode h] at ht
  dsimp only at ht
  rw [hn, hf, hlast] at ht
  have hplot : PlotSets u (u.streamStart lid p mode n last o f) lid (u.streamPlot lid p mode n last o f) (perfFields lid) := by
    have hmod := (PlotSets.modPlot u lid (inMode mode) (perfFields lid)).trans (.modPlot _ lid (streaming mode n (p + last) o f) _)
    rw [plot_modPlot_same] at hmod
    refine (hmod.andThen (.perf _ lid 0x10 (last + 1) (fun _ h => h))).cast ?_
    have hfeeds : (if n = 0 then (u.plot lid).feeds else (u.plot lid).feeds ++ [f]) = (u.plot lid).feeds ++ (if n = 0 then [] else [f]) := by
      split <;> simp
    unfold streaming inMode
    rw [hfeeds]
    rfl
  have hsub : perfFields lid ⊆ F.CHK_COUNT.COUNT lid 1 :: F.CHK_SUM.COUNT 1 :: perfFields lid := by simp
  have hkept := hplot.regs _ (chkCount_ne_perf lid (o := 1) (by decide))
  by_cases hn0 : n = 0
  · rw [if_pos hn0] at ht ⊢
    obtain ⟨hcount, hvalue⟩ := countOutcome_sets (u.streamStart lid p mode n last o f) lid (o := 1) (by decide)
    rw [ht] at hcount hvalue
    exact ⟨(hplot.mono hsub).andThen hcount, hvalue.trans (by rw [hkept])⟩
  · rw [if_neg hn0] at ht ⊢
    subst ht
    exact ⟨hplot.mono hsub, hkept⟩

/-- The words that stream rows run `arrayOp` with their modes (R86-R91). -/
theorem exec_stream {s : State} {i : Issue} {o : ArrayWord} {c : Instr} {mode : Nat}
    (h : (c, mode) ∈ [(.rows i o, mRows), (.trows i o, mTrows), (.oacc i o, mOacc), (.ediag i o, mEdiag), (.odrain i o, mOdrain)]) :
    exec c s = s.answerIf c.wellFormed (s.arrayWord i mode o) ∧ mode ≠ 6 ∧ mode ≠ 7 := by
  simp only [List.mem_cons, Prod.mk.injEq, List.not_mem_nil, or_false] at h
  obtain ⟨rfl, rfl⟩ | ⟨rfl, rfl⟩ | ⟨rfl, rfl⟩ | ⟨rfl, rfl⟩ | ⟨rfl, rfl⟩ := h <;> exact ⟨rfl, by decide⟩

open State in
/-- Settles O12: the feeds, planes and outcomes that a word of the matrix array leaves. -/
theorem arrayWords : Obligations.ArrayWords := by
  unfold Obligations.ArrayWords
  refine ⟨fun s i o => ⟨?_, ?_⟩, fun s i o c mode hc => ?_⟩
  · intro u reg hwf hv hissues hnone
    have ht := arrayOp_wload (slot := i.slot.toNat) hnone
    have hsets := (PlotSets.modPlot u i.lid.toNat (fun x => { x with mode := 6 }) []).trans (.modPlot _ i.lid.toNat (fun x => { x with
      shadow := { Plane.empty with state := 1, fmt := o.fmtA.toNat }, readyAt := s.issueStep i + 136, loadFree := s.issueStep i + 128
      feeds := x.feeds ++ [u.feedOf i.lid.toNat 6 i.slot.toNat (s.issueStep i) 128 o] }) _)
    rw [plot_modPlot_same, ← ht] at hsets
    have hrun := hsets.running_eq.trans hissues.2.2
    exact ⟨_, _, exec_arrayWord rfl hwf hv hissues rfl hrun, rfl, rfl, hsets.plotOnly_returned s, rfl, rfl, rfl, rfl, rfl, rfl, rfl⟩
  · intro u hwf hv hissues hshadow hfeed hlen
    have ht := arrayOp_swap (o := o) (slot := i.slot.toNat) (arrayRefusal_swap hshadow hfeed hlen)
    have hsets := (PlotSets.modPlot u i.lid.toNat (fun x => { x with mode := 7 }) []).trans (.modPlot _ i.lid.toNat (fun x => { x with
      active := x.shadow, shadow := x.active }) _)
    rw [plot_modPlot_same, ← ht] at hsets
    have hrun := hsets.running_eq.trans hissues.2.2
    exact ⟨_, exec_arrayWord rfl hwf hv hissues rfl hrun, rfl, rfl, hsets.plotOnly_returned s⟩
  · intro lid p u reg n f last hwf hv hissues hnone
    obtain ⟨hexec, hmode⟩ := exec_stream hc
    obtain ⟨t, ht⟩ : ∃ t, arrayOp mode i.slot.toNat o u lid p = t := ⟨_, rfl⟩
    obtain ⟨hsets, hcount⟩ := arrayOp_stream_sets hmode hnone (show _ = n from rfl) (show _ = f from rfl) rfl ht
    have hrun := hsets.running_eq.trans hissues.2.2
    exact ⟨_, exec_arrayWord hexec hwf hv hissues ht hrun, rfl, rfl, hsets.plotOnly_returned s, hcount⟩

end State
end Sys2Proof.Machine

namespace Sys2Proof.Machine
namespace State

/-! ### The mover of a plot (R131-R134, R32) -/

theorem furrowIndex_ne_slip (r lid : Nat) :
    ∀ g ∈ F.SLIP_COUNT.COUNT r :: perfFields lid, F.FURROW_INDEX.INDEX.key ≠ g.key := by
  simp only [perfFields, List.mem_cons, List.mem_map, List.mem_range]
  rintro _ (rfl | ⟨i, hi, rfl⟩) <;>
  · simp only [Fld.key, F.FURROW_INDEX.INDEX, F.SLIP_COUNT.COUNT, F.PERF_COUNT.COUNT]
    omega

/-- A slip of `n` steps on plot `lid` is counted: for its region, in its step and in the performance counters (R32). -/
structure Slips (s t : State) (lid n : Nat) : Prop where
  plots : ∀ k, t.plot k = s.plot k
  mem : t.mem = s.mem
  win : t.win = s.win
  furrow : t.furrow = s.furrow
  running : t.running = s.running
  regs : s.fieldsBut t (F.SLIP_COUNT.COUNT (s.regionOf lid) :: perfFields lid)
  seed : t.step.seed = s.step.seed
  slip : SMap.get 0 t.step.slip lid = SMap.get 0 s.step.slip lid + n

theorem addSlip_slips (s : State) (lid n : Nat) : s.Slips (s.addSlip lid n) lid n := by
  unfold addSlip
  split
  next h =>
    subst h
    exact ⟨fun _ => rfl, rfl, rfl, rfl, rfl, fun _ _ => rfl, rfl, rfl⟩
  next h =>
    obtain ⟨u, hu⟩ : ∃ u, u = { s with step := { s.step with slip := SMap.modify 0 s.step.slip lid (· + n) } } := ⟨_, rfl⟩
    have hregion : u.regionOf lid = s.regionOf lid := by rw [hu]; rfl
    have hcount := PlotSets.incF u lid (f := F.SLIP_COUNT.COUNT (s.regionOf lid))
      (List.mem_cons_self (l := perfFields lid)) n
    have hsets := hcount.andThen (.perf _ lid 0x09 n (List.subset_cons_self _ _))
    rw [← hu]
    dsimp only
    rw [hregion]
    exact {
      plots := fun k => by
        by_cases hk : k = lid
        · rw [hk, hsets.plot, hu]
          rfl
        · rw [hsets.others k hk, hu]
          rfl
      mem := hsets.mem_eq.trans (by rw [hu])
      win := hsets.win_eq.trans (by rw [hu])
      furrow := (hsets.regs _ (furrowIndex_ne_slip _ lid)).trans (by rw [hu]; rfl)
      running := hsets.running_eq.trans (by rw [hu]; rfl)
      regs := fun f hf => (hsets.regs f hf).trans (by rw [hu]; rfl)
      seed := by rw [hsets.step_eq, hu]
      slip := by rw [hsets.step_eq, hu]; exact SMap.get_set_same .. }

/-- The transfer of a mover word that begins at step `p` (R132). -/
def transferOf (s : State) (lid op slot p len : Nat) (o : MoverWord) : Transfer :=
  let r := moverRate o.ssp.toNat o.dsp.toNat
  { p0 := p, slot := slot, ssp := if op = 2 then 3 else o.ssp.toNat, dsp := o.dsp.toNat
    src := (s.gregAt lid o.gs.toNat).toNat % 2 ^ 32, dst := (s.gregAt lid o.gd.toNat).toNat % 2 ^ 32
    len := len, rate := r.1, lat := r.2, fill := s.gregAt lid o.gs.toNat
    pageIn := if o.aprev then (s.furrow + 2 ^ 48 - 1) % 2 ^ 48 else s.furrow, pageOut := s.furrow, got := [] }

/-- The GRAINS of a mover word (R132). -/
def moverLen (s : State) (lid : Nat) (o : MoverWord) : Nat := if o.lsrc then o.len.toNat else (s.gregAt lid o.gl.toNat).toNat

/-- The slip of a mover word: of a copy from loam alone (R32). -/
def moverSlip (op : Nat) (o : MoverWord) (ms : List Mishap) : Nat := if op = 1 ∧ o.ssp = 1 then loamSlip ms else 0

theorem gregAt_congr {s t : State} {lid : Nat} (hregs : (t.plot lid).gregs = (s.plot lid).gregs) (hseed : t.step.seed = s.step.seed) (r : Nat) :
    t.gregAt lid r = s.gregAt lid r := by
  simp only [gregAt, hregs, hseed]

/-- The plot and the slip as a mover word takes its steps. -/
def moverTaken (u : State) (lid op p : Nat) (o : MoverWord) (ms : List Mishap) : State :=
  (u.addSlip lid (moverSlip op o ms)).modPlot lid fun x => { x with
    moverFree := p + max 1 (ceilDiv (u.moverLen lid o) (moverRate o.ssp.toNat o.dsp.toNat).1) }

theorem moverTaken_gregAt (u : State) (lid op p : Nat) (o : MoverWord) (ms : List Mishap) (r : Nat) :
    (u.moverTaken lid op p o ms).gregAt lid r = u.gregAt lid r := by
  have hslip := addSlip_slips u lid (moverSlip op o ms)
  refine gregAt_congr (t := u.moverTaken lid op p o ms) ?_ hslip.seed r
  rw [moverTaken, plot_modPlot_same, hslip.plots]

theorem moverTaken_furrow (u : State) (lid op p : Nat) (o : MoverWord) (ms : List Mishap) : (u.moverTaken lid op p o ms).furrow = u.furrow :=
  (addSlip_slips u lid (moverSlip op o ms)).furrow

/-- A mover word that nothing refuses slips its plot, takes the mover and queues its transfer. -/
theorem moverOp_eq {u : State} {lid op slot p : Nat} {o : MoverWord} {ms : List Mishap}
    (h : u.moverRefusal lid p op o (u.moverLen lid o) ((u.gregAt lid o.gs.toNat).toNat % 2 ^ 32)
      ((u.gregAt lid o.gd.toNat).toNat % 2 ^ 32) = none) :
    moverOp op slot o ms u lid p =
      if u.moverLen lid o = 0 then u.moverTaken lid op p o ms
      else (u.moverTaken lid op p o ms).modPlot lid fun x => { x with
        moves := x.moves ++ [u.transferOf lid op slot p (u.moverLen lid o) o] } := by
  have hslip : (if op = 1 ∧ o.ssp = 1 then u.addSlip lid (loamSlip ms) else u) = u.addSlip lid (moverSlip op o ms) := by
    unfold moverSlip
    split <;> rfl
  have hfill := moverTaken_gregAt u lid op p o ms o.gs.toNat
  have hfurrow := moverTaken_furrow u lid op p o ms
  unfold moverTaken moverLen at *
  unfold moverOp
  dsimp only
  rw [h]
  dsimp only
  rw [hslip, hfill, hfurrow]
  rfl

/-- What a mover word leaves of its plot and of the rest (R32, R131-R134). -/
theorem moverOp_sets {u : State} {lid op slot p : Nat} {o : MoverWord} {ms : List Mishap} {t : State}
    (h : u.moverRefusal lid p op o (u.moverLen lid o) ((u.gregAt lid o.gs.toNat).toNat % 2 ^ 32)
      ((u.gregAt lid o.gd.toNat).toNat % 2 ^ 32) = none) (ht : moverOp op slot o ms u lid p = t) :
    t.plot lid = { u.plot lid with
        moverFree := p + max 1 (ceilDiv (u.moverLen lid o) (moverRate o.ssp.toNat o.dsp.toNat).1)
        moves := (u.plot lid).moves ++
          (if u.moverLen lid o = 0 then [] else [u.transferOf lid op slot p (u.moverLen lid o) o]) } ∧
      (∀ k, k ≠ lid → t.plot k = u.plot k) ∧ t.mem = u.mem ∧ t.win = u.win ∧ t.running = u.running ∧
      u.fieldsBut t (F.SLIP_COUNT.COUNT (u.regionOf lid) :: perfFields lid) ∧
      SMap.get 0 t.step.slip lid = SMap.get 0 u.step.slip lid + moverSlip op o ms := by
  have hslip := addSlip_slips u lid (moverSlip op o ms)
  have hplot : (u.moverTaken lid op p o ms).plot lid = { u.plot lid with
      moverFree := p + max 1 (ceilDiv (u.moverLen lid o) (moverRate o.ssp.toNat o.dsp.toNat).1) } := by
    rw [moverTaken, plot_modPlot_same, hslip.plots]
  have hothers (k : Nat) (hk : k ≠ lid) : (u.moverTaken lid op p o ms).plot k = u.plot k := by
    rw [moverTaken, plot_modPlot_other _ _ hk, hslip.plots]
  rw [moverOp_eq h] at ht
  by_cases h0 : u.moverLen lid o = 0
  · rw [if_pos h0] at ht ⊢
    subst ht
    exact ⟨hplot.trans (by rw [List.append_nil]), hothers, hslip.mem, hslip.win, hslip.running, hslip.regs, hslip.slip⟩
  · rw [if_neg h0] at ht ⊢
    subst ht
    exact ⟨by rw [plot_modPlot_same, hplot], fun k hk => (plot_modPlot_other _ _ hk).trans (hothers k hk),
      hslip.mem, hslip.win, hslip.running, hslip.regs, hslip.slip⟩

theorem exec_mover {s : State} {i : Issue} {o : MoverWord} {c : Instr} {op : Nat} (hc : (c, op) ∈ [(.mcopy i o, 1), (.mfill i o, 2)])
    (hwf : c.wellFormed = true) (h : s.issues i (s.moverFetched i op o)) {t : State}
    (ht : moverOp op i.slot.toNat o i.mis (s.moverFetched i op o) i.lid.toNat (s.issueStep i) = t) (hrun : t.running = true) :
    exec c s = .next (s.returned t) := by
  have hexec : exec c s = s.answerIf c.wellFormed (s.moverWord i op o) := by
    simp only [List.mem_cons, Prod.mk.injEq, List.not_mem_nil, or_false] at hc
    obtain ⟨rfl, rfl⟩ | ⟨rfl, rfl⟩ := hc <;> rfl
  obtain ⟨hcan, hcore, -⟩ := h
  have hissue := issueWord_runs s i opMover op o.bits (fun _ _ => true) (moverOp op i.slot.toNat o i.mis) hcan hcore
  rw [moverWord, hissue.trans ht] at hexec
  exact exec_running hexec hwf hrun

/-- The rate and the latency of a mover word, by whether loam takes part (R132). -/
theorem moverRate_eq (o : MoverWord) : moverRate o.ssp.toNat o.dsp.toNat =
    if decide (o.ssp = 1) || decide (o.dsp = 1) then (8, 40) else (32, 12) := by
  have hnat (v : BitVec 2) : v.toNat = 1 ↔ v = 1 := ⟨fun h => BitVec.eq_of_toNat_eq h, fun h => h ▸ rfl⟩
  simp [moverRate, hnat]

open State in
/-- Settles O13: the mover's steps, its queued transfer and the slip of a copy from loam. -/
theorem moverWords : Obligations.MoverWords := by
  unfold Obligations.MoverWords
  intro s i o c op hc lid p u reg len loam rate slip x hwf hissues hnone
  obtain ⟨t, ht⟩ : ∃ t, moverOp op i.slot.toNat o i.mis u lid p = t := ⟨_, rfl⟩
  obtain ⟨hplot, hothers, hmem, hwin, hrunning, hregs, hslip⟩ := moverOp_sets hnone ht
  have hboth : moverRate o.ssp.toNat o.dsp.toNat = (rate, if loam then 40 else 12) := by
    rw [moverRate_eq]
    exact (apply_ite₂ Prod.mk _ _ _ _ _).symm
  have hrate : (moverRate o.ssp.toNat o.dsp.toNat).1 = rate := congrArg Prod.fst hboth
  have htransfer : u.transferOf lid op i.slot.toNat p (u.moverLen lid o) o = x := by
    unfold transferOf
    rw [hboth]
    rfl
  rw [hrate, htransfer] at hplot
  exact ⟨_, exec_mover hc hwf hissues ht (hrunning.trans hissues.2.2), rfl, rfl, hplot, hothers, hmem, hwin, hregs, hslip⟩

end State
end Sys2Proof.Machine

namespace Sys2Proof.Machine
namespace State

/-! ### A plot with nothing under way (R127) -/

theorem quiet_atRest {x : PlotSt} (h : quiet x = true) : x.atRest ∧ x.shadow.state ≠ 1 := by
  simpa [quiet, PlotSt.atRest, and_assoc] using h

theorem PlotSets.sameGrid {s t : State} {lid : Nat} {x : PlotSt} {fs : List Fld} (h : PlotSets s t lid x fs)
    (hfs : ∀ f ∈ fs, plotKeys ≤ f.key) : s.SameGrid t :=
  ⟨(congrArg State.grid h.frame :), fun f hf => h.regs f fun g hg => by have := hfs g hg; omega⟩

/-- The step of a plot with nothing under way passes. -/
theorem advance_quiet {s : State} {lid p : Nat} (hquiet : quiet (s.plot lid) = true) (hp : (s.plot lid).now ≤ p) :
    PlotSets s (s.advance lid p) lid { s.plot lid with now := p } [] := by
  obtain ⟨n, rfl⟩ := Nat.exists_eq_add_of_le hp
  rw [advance, Nat.add_sub_cancel_left]
  cases n with
  | zero => exact .refl s lid []
  | succ n =>
    rw [stepsFrom]
    dsimp only
    rw [if_pos hquiet]
    exact .modPlot s lid _ []

/-- The plot once the landings that are due by step `p` have left its lists. -/
def withoutDue (p : Nat) (x : PlotSt) : PlotSt :=
  { x with
    land := x.land.filter fun l => decide (p < l.1), moves := x.moves.filter fun t => decide (p < xferDone t)
    stores := x.stores.filter fun t => decide (p < t.due), loosePend := x.loosePend.filter fun l => decide (p < l.1 + 48) }

theorem withoutDue_atRest {x : PlotSt} (h : x.atRest) (p : Nat) : withoutDue p x = x := by
  obtain ⟨-, -, hland, -, hmoves, hstores, -, hpend⟩ := h
  cases x
  cases hland
  cases hmoves
  cases hstores
  cases hpend
  rfl

/-- Where nothing waits to land, a shadow plane that is READY is all that lands (R84). -/
theorem landAt_atRest {s : State} {lid p : Nat} (hrest : (s.plot lid).atRest) :
    PlotSets s (s.landAt lid p) lid
      (if (s.plot lid).shadow.state = 1 ∧ (s.plot lid).readyAt ≤ p then { s.plot lid with shadow := buildPlane (s.plot lid).shadow }
        else s.plot lid) [] := by
  obtain ⟨u, hu⟩ : ∃ u, u = ((s.modPlot lid fun x => { x with land := x.land.filter fun l => decide (p < l.1) }).modPlot lid fun x =>
      { x with moves := x.moves.filter fun t => decide (p < xferDone t) }).modPlot lid fun x =>
      { x with stores := x.stores.filter fun t => decide (p < t.due), loosePend := x.loosePend.filter fun l => decide (p < l.1 + 48) } := ⟨_, rfl⟩
  have hsets : PlotSets s u lid (s.plot lid) [] := by
    have hmod := ((PlotSets.modPlot s lid (fun x => { x with land := x.land.filter fun l => decide (p < l.1) }) []).trans (.modPlot _ lid (fun x =>
      { x with moves := x.moves.filter fun t => decide (p < xferDone t) }) [])).trans (.modPlot _ lid (fun x =>
      { x with stores := x.stores.filter fun t => decide (p < t.due), loosePend := x.loosePend.filter fun l => decide (p < l.1 + 48) }) [])
    rw [← hu, plot_modPlot_same, plot_modPlot_same] at hmod
    exact hmod.cast (withoutDue_atRest hrest p)
  have hland : s.landAt lid p =
      if (s.plot lid).shadow.state = 1 ∧ (s.plot lid).readyAt ≤ p then u.modPlot lid fun x => { x with shadow := buildPlane x.shadow } else u := by
    obtain ⟨-, -, hland, -, hmoves, hstores, -, -⟩ := hrest
    rw [hu]
    unfold landAt
    simp only [hland, hmoves, hstores, List.filter_nil, List.foldl_nil]
  rw [hland]
  split
  next hshadow =>
    refine (hsets.trans (.modPlot u lid (fun x => { x with shadow := buildPlane x.shadow }) [])).cast ?_
    rw [hsets.plot]
  next => exact hsets

/-- Nothing lands on a plot with nothing under way. -/
theorem openStep_quiet {s : State} (lid p : Nat) (hquiet : quiet (s.plot lid) = true) : PlotSets s (s.openStep lid p) lid (s.plot lid) [] := by
  obtain ⟨hrest, hshadow⟩ := quiet_atRest hquiet
  have hland := landAt_atRest (p := p) hrest
  rw [if_neg (fun h => hshadow h.1)] at hland
  obtain ⟨-, hflight, -⟩ := hrest
  unfold openStep
  split
  · exact .refl s lid []
  · unfold outcomesAt
    rw [hflight]
    exact hland

/-- A plot with nothing under way comes to step `p`. -/
theorem advanceTo_quiet {s : State} {lid p : Nat} (hquiet : quiet (s.plot lid) = true) (hp : (s.plot lid).now ≤ p) :
    PlotSets s (s.advanceTo lid p) lid { s.plot lid with now := p } [] := by
  have hadvance := advance_quiet hquiet hp
  have hstep := openStep_quiet (s := s.advance lid p) lid p (by rw [hadvance.plot]; exact hquiet)
  exact hadvance.andThen hstep

theorem canIssue_facts {s : State} {i : Issue} (h : s.canIssue i = true) :
    s.running = true ∧ s.coreFenced i.lid.toNat = false ∧ (s.plot i.lid.toNat).now ≤ s.issueStep i := by
  simp only [canIssue, Bool.and_eq_true, Bool.not_eq_true', decide_eq_true_eq] at h
  obtain ⟨⟨⟨⟨⟨⟨hrun, -⟩, -⟩, -⟩, -⟩, hcore⟩, hnow⟩ := h
  exact ⟨hrun, hcore, hnow⟩

/-- The plot as it has fetched a word at step `p` (R153, R160). -/
def wordFetched (i : Issue) (kind op operands p : Nat) (x : PlotSt) : PlotSt :=
  { x with now := p, crc := crcRun 0x82F63B78 (leBytes 8 (i.raw kind op operands)) x.crc, fetched := x.fetched + 1 }

theorem wordFetched_now (i : Issue) (kind op operands p q : Nat) (x : PlotSt) :
    wordFetched i kind op operands p { x with now := q } = wordFetched i kind op operands p x := by
  unfold wordFetched
  dsimp only

theorem plotKeys_le_perf (lid : Nat) : ∀ f ∈ perfFields lid, plotKeys ≤ f.key := by
  simp only [perfFields, List.mem_map, List.mem_range]
  rintro _ ⟨i, hi, rfl⟩
  simp only [Fld.key, F.PERF_COUNT.COUNT, plotKeys]
  omega

theorem plotKeys_le_issued (lid : Nat) : ∀ f ∈ F.WORDS_ISSUED.COUNT lid :: perfFields lid, plotKeys ≤ f.key := by
  refine List.forall_mem_cons.mpr ⟨?_, plotKeys_le_perf lid⟩
  simp only [Fld.key, F.WORDS_ISSUED.COUNT, plotKeys]
  omega

/-- A word that meets no mishap is fetched (R153, R160). -/
def fetches (u : State) (i : Issue) (kind op operands p : Nat) : State :=
  ((u.modPlot i.lid.toNat (wordFetched i kind op operands p)).incF (F.WORDS_ISSUED.COUNT i.lid.toNat) 1).perf i.lid.toNat 0x02 1

theorem fetches_sets (u : State) (i : Issue) (kind op operands p : Nat) :
    PlotSets u (u.fetches i kind op operands p) i.lid.toNat (wordFetched i kind op operands p (u.plot i.lid.toNat))
      (F.WORDS_ISSUED.COUNT i.lid.toNat :: perfFields i.lid.toNat) := by
  have hword := PlotSets.modPlot u i.lid.toNat (wordFetched i kind op operands p) (F.WORDS_ISSUED.COUNT i.lid.toNat :: perfFields i.lid.toNat)
  have hcount := hword.andThen (.incF _ _ (f := F.WORDS_ISSUED.COUNT i.lid.toNat) (List.mem_cons_self ..) 1)
  exact hcount.andThen (.perf _ _ 0x02 1 (List.subset_cons_self _ _))

theorem mishaps_nil (s : State) (lid unit op slot : Nat) (live : Nat → Bool) : s.mishaps lid unit op slot live [] = s := rfl

theorem fetched_unmarked {s : State} {i : Issue} (kind op operands : Nat) (live : State → Nat → Bool) (hmis : i.mis = [])
    (hcore : (s.advanceTo i.lid.toNat (s.issueStep i)).coreFenced i.lid.toNat = false) :
    s.fetched i kind op operands live = (s.advanceTo i.lid.toNat (s.issueStep i)).fetches i kind op operands (s.issueStep i) := by
  have hopen : s.fetched i kind op operands live = if (s.advanceTo i.lid.toNat (s.issueStep i)).coreFenced i.lid.toNat then
      s.advanceTo i.lid.toNat (s.issueStep i)
      else ((s.advanceTo i.lid.toNat (s.issueStep i)).fetches i kind op operands (s.issueStep i)).mishaps i.lid.toNat kind op i.slot.toNat
        (live ((s.advanceTo i.lid.toNat (s.issueStep i)).fetches i kind op operands (s.issueStep i))) i.mis := by
    unfold fetched fetches
    rfl
  rw [hopen, if_neg (ne_true_of_eq_false hcore), hmis, mishaps_nil]

/-- A plot with nothing under way fetches a word that meets no mishap. -/
theorem fetched_quiet {s : State} {i : Issue} (kind op operands : Nat) (live : State → Nat → Bool) (hmis : i.mis = [])
    (hcan : s.canIssue i = true) (hquiet : quiet (s.plot i.lid.toNat) = true) :
    PlotSets s (s.fetched i kind op operands live) i.lid.toNat (wordFetched i kind op operands (s.issueStep i) (s.plot i.lid.toNat))
      (F.WORDS_ISSUED.COUNT i.lid.toNat :: perfFields i.lid.toNat) := by
  obtain ⟨hrun, hcore, hnow⟩ := canIssue_facts hcan
  have hcome := advanceTo_quiet hquiet hnow
  rw [fetched_unmarked kind op operands live hmis (((hcome.sameGrid (by simp)).coreFenced_eq i.lid.isLt).trans hcore)]
  obtain ⟨u, hu⟩ : ∃ u, s.advanceTo i.lid.toNat (s.issueStep i) = u := ⟨_, rfl⟩
  rw [hu] at hcome ⊢
  have hfetch := fetches_sets u i kind op operands (s.issueStep i)
  rw [hcome.plot, wordFetched_now] at hfetch
  exact (hcome.mono (List.nil_subset _)).trans hfetch

/-! ### The special function unit (R142) -/

/-- An SFU word that issues with its unit free and its checks passed lands its result after 16 steps. -/
theorem exec_sfu {s : State} {i : Issue} {o : VecWord} (hwf : (Instr.sfu i o).wellFormed = true) (hv : s.isV i.lid.toNat = true)
    (h : s.issues i (s.vecFetched i 0x3E o)) (hfree : ((s.vecFetched i 0x3E o).plot i.lid.toNat).sfuFree ≤ s.issueStep i) {w : State}
    (hw : sfuBegun i.slot.toNat o i.mis (s.vecFetched i 0x3E o) i.lid.toNat (s.issueStep i) = w)
    (hcore : w.coreFenced i.lid.toNat = false) (hrun : w.running = true) :
    exec (.sfu i o) s = .next (s.returned (w.landLater i.lid.toNat (s.issueStep i + 16) (.tile o.td.toNat
      (flipped i.mis ((w.tileAt i.lid.toNat o.ta.toNat).map (sfuElem (VecWordExt o 0 3))))
      ((s.vecFetched i 0x3E o).maskAt i.lid.toNat o.msk.toNat) o.mz))) := by
  obtain ⟨hcan, hfetched, -⟩ := h
  obtain ⟨u, hu⟩ : ∃ u, s.vecFetched i 0x3E o = u := ⟨_, rfl⟩
  have hissue := issueWord_runs s i opVector 0x3E o.bits (vecLive 0x3E o i.lid.toNat) (sfuOp i.slot.toNat o i.mis) hcan hfetched
  change s.issueWord i opVector 0x3E o.bits (vecLive 0x3E o i.lid.toNat) (sfuOp i.slot.toNat o i.mis) =
    sfuOp i.slot.toNat o i.mis (s.vecFetched i 0x3E o) i.lid.toNat (s.issueStep i) at hissue
  rw [hu] at hissue hfree hw ⊢
  have hop : sfuOp i.slot.toNat o i.mis u i.lid.toNat (s.issueStep i) = w.landLater i.lid.toNat (s.issueStep i + 16) (.tile o.td.toNat
      (flipped i.mis ((w.tileAt i.lid.toNat o.ta.toNat).map (sfuElem (VecWordExt o 0 3)))) (u.maskAt i.lid.toNat o.msk.toNat) o.mz) := by
    rw [sfuOp, if_neg (Nat.not_lt.mpr hfree), hw, if_neg (ne_true_of_eq_false hcore)]
    rfl
  have hexec : exec (.sfu i o) s = s.answerIf (Instr.sfu i o).wellFormed (if s.isV i.lid.toNat then
      s.issueWord i opVector 0x3E o.bits (vecLive 0x3E o i.lid.toNat) (sfuOp i.slot.toNat o i.mis) else s) := rfl
  rw [if_pos hv, hissue, hop] at hexec
  exact exec_running hexec hwf hrun

theorem residues_nil (s : State) (lid op slot : Nat) (mask : BitVec 256) : s.residues lid op slot mask [] = s := rfl

/-- The unit of an SFU word that meets no mismatch (R136, R142). -/
theorem sfuBegun_sets (u : State) (lid p slot : Nat) (o : VecWord) :
    PlotSets u (sfuBegun slot o [] u lid p) lid { u.plot lid with sfuFree := p + 4 } (F.SFU_OPS.COUNT lid :: perfFields lid) := by
  have hfree := PlotSets.modPlot u lid (fun x => { x with sfuFree := p + 4 }) (F.SFU_OPS.COUNT lid :: perfFields lid)
  have hcount := hfree.andThen (.incF _ _ (f := F.SFU_OPS.COUNT lid) (List.mem_cons_self ..) 1)
  have hbegun := hcount.andThen (.perf _ _ 0x06 1 (List.subset_cons_self _ _))
  unfold sfuBegun
  rw [residues_nil]
  exact hbegun

theorem maskAt_congr {s t : State} {lid : Nat} (h : (t.plot lid).masks = (s.plot lid).masks) (k : Nat) : t.maskAt lid k = s.maskAt lid k := by
  rw [maskAt, maskAt, h]

theorem tileAt_congr {s t : State} {lid : Nat} (h : (t.plot lid).tiles = (s.plot lid).tiles) (k : Nat) : t.tileAt lid k = s.tileAt lid k := by
  rw [tileAt, tileAt, h]

theorem flipped_nil (t : Tile) : flipped [] t = t := rfl

theorem plotKeys_le_sfu (lid : Nat) :
    ∀ f ∈ F.WORDS_ISSUED.COUNT lid :: F.SFU_OPS.COUNT lid :: perfFields lid, plotKeys ≤ f.key := by
  obtain ⟨hissued, hperf⟩ := List.forall_mem_cons.mp (plotKeys_le_issued lid)
  refine List.forall_mem_cons.mpr ⟨hissued, List.forall_mem_cons.mpr ⟨?_, hperf⟩⟩
  simp only [Fld.key, F.SFU_OPS.COUNT, plotKeys]
  omega

/-- The state in which an SFU word without mishaps begins, on a plot with nothing under way. -/
theorem sfuBegun_quiet {s : State} {i : Issue} (o : VecWord) (hmis : i.mis = []) (hcan : s.canIssue i = true)
    (hquiet : quiet (s.plot i.lid.toNat) = true) {u : State} (hu : s.vecFetched i 0x3E o = u) :
    s.issues i u ∧ u.plot i.lid.toNat = wordFetched i opVector 0x3E o.bits (s.issueStep i) (s.plot i.lid.toNat) ∧
      PlotSets s (sfuBegun i.slot.toNat o [] u i.lid.toNat (s.issueStep i)) i.lid.toNat
        { wordFetched i opVector 0x3E o.bits (s.issueStep i) (s.plot i.lid.toNat) with sfuFree := s.issueStep i + 4 }
        (F.WORDS_ISSUED.COUNT i.lid.toNat :: F.SFU_OPS.COUNT i.lid.toNat :: perfFields i.lid.toNat) := by
  obtain ⟨hrun, hcore, -⟩ := canIssue_facts hcan
  have hfetch := fetched_quiet opVector 0x3E o.bits (vecLive 0x3E o i.lid.toNat) hmis hcan hquiet
  change PlotSets s (s.vecFetched i 0x3E o) i.lid.toNat _ _ at hfetch
  rw [hu] at hfetch
  have hunit := sfuBegun_sets u i.lid.toNat (s.issueStep i) i.slot.toNat o
  rw [hfetch.plot] at hunit
  exact ⟨⟨hcan, ((hfetch.sameGrid (plotKeys_le_issued _)).coreFenced_eq i.lid.isLt).trans hcore, hfetch.running_eq.trans hrun⟩,
    hfetch.plot, (hfetch.mono (by simp)).trans (hunit.mono (by simp))⟩

open State in
/-- Settles O11: the landing of the special function unit, and its word on a plot with nothing under way. -/
theorem specialFunctions : Obligations.SpecialFunctions := by
  unfold Obligations.SpecialFunctions
  refine ⟨fun s i o => ?_, fun s i o => ?_⟩
  · intro lid u p w hwf hv hissues hfree hcore hrun
    refine ⟨⟨_, exec_sfu hwf hv hissues hfree rfl hcore hrun, rfl, rfl, plot_landLater_same .., fun k hk => plot_landLater_other _ _ _ hk, rfl⟩,
      fun hmis => ?_⟩
    have hunit : w = sfuBegun i.slot.toNat o [] u lid p := congrArg (fun ms => sfuBegun i.slot.toNat o ms u lid p) hmis
    rw [hunit, (sfuBegun_sets u lid p _ o).plot]
  · intro lid p x hmis hcan hquiet hv hfree hwf
    obtain ⟨hrun, hcore, -⟩ := canIssue_facts hcan
    obtain ⟨u, hu⟩ : ∃ u, s.vecFetched i 0x3E o = u := ⟨_, rfl⟩
    obtain ⟨w, hw⟩ : ∃ w, sfuBegun i.slot.toNat o [] u lid p = w := ⟨_, rfl⟩
    obtain ⟨hissues, hplot, hbegun⟩ := sfuBegun_quiet o hmis hcan hquiet hu
    change PlotSets s (sfuBegun i.slot.toNat o [] u lid p) _ _ _ at hbegun
    rw [hw] at hbegun
    have hexec := exec_sfu (w := w) hwf hv (hu.symm ▸ hissues) (by rw [hu, hplot]; exact hfree) (by rw [hu, hmis]; exact hw)
      (((hbegun.sameGrid (plotKeys_le_sfu lid)).coreFenced_eq i.lid.isLt).trans hcore) (hbegun.running_eq.trans hrun)
    have htile : w.tileAt lid o.ta.toNat = s.tileAt lid o.ta.toNat := tileAt_congr (by rw [hbegun.plot]; rfl) _
    have hmask : u.maskAt lid o.msk.toNat = s.maskAt lid o.msk.toNat := maskAt_congr (by rw [hplot]; rfl) _
    have hland : x.land = [] := (quiet_atRest hquiet).1.2.2.1
    rw [hu, hmis] at hexec
    have hsets := hbegun.trans (.modPlot w lid (fun y => { y with land := y.land ++ [(p + 16, .tile o.td.toNat
      (flipped [] ((w.tileAt lid o.ta.toNat).map (sfuElem (VecWordExt o 0 3)))) (u.maskAt lid o.msk.toNat) o.mz)] }) _)
    refine ⟨_, hexec, (hsets.cast ?_).plotOnly_returned s⟩
    rw [hbegun.plot, htile, hmask, flipped_nil]
    change (s.plot i.lid.toNat).land = [] at hland
    unfold wordFetched
    dsimp only
    rw [hland, List.nil_append]

end State
end Sys2Proof.Machine

namespace Sys2Proof.Machine
namespace State

/-! ### Shadow planes and loose accesses at their steps (R84, R143) -/

theorem atWork_facts {s : State} {lid p : Nat} (h : s.atWork lid p = true) :
    s.running = true ∧ s.coreFenced lid = false ∧ (s.plot lid).now ≤ p := by
  simp only [atWork, Bool.and_eq_true, Bool.not_eq_true', decide_eq_true_eq] at h
  obtain ⟨⟨⟨⟨⟨⟨hrun, -⟩, -⟩, hcore⟩, hnow⟩, -⟩, -⟩ := h
  exact ⟨hrun, hcore, hnow⟩

/-- A plot that stands at a step needs no step carried out. -/
theorem advance_now {s : State} {lid p : Nat} (h : (s.plot lid).now = p) : s.advance lid p = s := by
  rw [advance, h, Nat.sub_self]
  rfl

theorem shadowReady_eq {s : State} {lid : Nat} (hshadow : (s.plot lid).shadow.state = 1) (hwork : s.atWork lid (s.plot lid).readyAt = true) :
    s.shadowReady lid = (s.advanceTo lid (s.plot lid).readyAt).modPlot lid fun x => { x with now := max x.now (s.plot lid).readyAt } := by
  have hready : ((s.advanceTo lid (s.plot lid).readyAt).plot lid).readyAt = (s.plot lid).readyAt :=
    ((engineKeeps_advance s lid _).trans (engineKeeps_openStep _ lid _)).ready lid
  unfold shadowReady
  dsimp only
  rw [if_pos ⟨hshadow, hwork⟩]
  unfold modPlot
  dsimp only
  rw [hready]

/-- A plot at rest that stands at its READY step builds its plane there. -/
theorem advanceTo_ready {s : State} {lid : Nat} (hshadow : (s.plot lid).shadow.state = 1) (hrest : (s.plot lid).atRest)
    (hnow : (s.plot lid).now = (s.plot lid).readyAt) (hcore : s.coreFenced lid = false) :
    PlotSets s (s.advanceTo lid (s.plot lid).readyAt) lid { s.plot lid with shadow := buildPlane (s.plot lid).shadow } [] := by
  have hland := landAt_atRest (p := (s.plot lid).readyAt) hrest
  rw [if_pos ⟨hshadow, Nat.le_refl _⟩] at hland
  obtain ⟨-, hflight, -⟩ := hrest
  rw [advanceTo, advance_now hnow, openStep, if_neg (ne_true_of_eq_false hcore), outcomesAt, hflight]
  exact hland

theorem shadowReady_sets {s : State} {lid : Nat} (hshadow : (s.plot lid).shadow.state = 1) (hrest : (s.plot lid).atRest)
    (hnow : (s.plot lid).now = (s.plot lid).readyAt) (hwork : s.atWork lid (s.plot lid).readyAt = true) :
    PlotSets s (s.shadowReady lid) lid { s.plot lid with shadow := buildPlane (s.plot lid).shadow } [] := by
  obtain ⟨-, hcore, -⟩ := atWork_facts hwork
  have hready := advanceTo_ready hshadow hrest hnow hcore
  rw [shadowReady_eq hshadow hwork]
  refine (hready.trans (.modPlot _ lid (fun x => { x with now := max x.now (s.plot lid).readyAt }) [])).cast ?_
  rw [hready.plot]
  dsimp only
  rw [← hnow, Nat.max_self]

/-- A command that answers a running state of its own, whatever its operands. -/
theorem exec_answered {c : Instr} {s t : State} (hc : exec c s = s.answer t) (hrun : t.running = true) : exec c s = .next (s.returned t) := by
  rw [hc, answer, after_running (h := hrun), returned]

/-- The fault of a loose access past its bound (R143, R322). -/
def overrunArgs (lid slot unit op a : Nat) : FaultArgs := {
  code := 0x0302, srcType := srcPlot, srcId := lid, opUnit := unit, op := op, slot := slot, detail := a % 2 ^ 32 }

/-- A loose access that is not complete by its bound fails its core. -/
theorem looseOverrun_fails {s : State} {lid q slot unit op a : Nat} {more : List (Nat × Nat × Nat × Nat × Nat)}
    (hpend : (s.plot lid).loosePend = (q, slot, unit, op, a) :: more) (hwork : s.atWork lid (q + 48) = true) {u : State}
    (hu : s.advance lid (q + 48) = u) (hcore : u.coreFenced lid = false) (hrun : u.running = true) :
    (s.looseOverrun lid).running = true ∧ u.coreFailed (s.looseOverrun lid) lid 0x0302 ∧
      (s.looseOverrun lid).mem = u.mem ∧ (s.looseOverrun lid).win = u.win := by
  have hcore' : (u.modPlot lid fun x => { x with now := q + 48 }).coreFenced lid = false := hcore
  have hover : s.looseOverrun lid = (u.modPlot lid fun x => { x with now := q + 48 }).coreFault lid (overrunArgs lid slot unit op a) := by
    unfold looseOverrun
    rw [hpend]
    dsimp only
    rw [if_pos hwork, hu, if_neg (ne_true_of_eq_false hcore)]
    rfl
  have hin := inAttempt_of_running (s := u.modPlot lid fun x => { x with now := q + 48 }) hrun
  have hfault := coreFaulted_coreFault (overrunArgs lid slot unit op a) hin hcore'
  rw [hover]
  have hfailed := hfault.coreFailed hin rfl
  refine ⟨hfault.running_eq.trans hrun, hfailed, ?_⟩
  obtain ⟨regs, base, more, ht, -, -⟩ := hfault
  rw [ht]
  exact ⟨rfl, rfl⟩

/-! ### Vote results (R75) -/

theorem filter_of_chan {votes : List VoteSt} {v : VoteSt} {c : Nat} {due : VoteSt → Bool} (h : votes.filter (fun v => v.chan == c) = [v])
    (hdue : due v = true) : votes.filter (fun x => x.chan == c && due x) = [v] ∧
      votes.filter (fun x => !(x.chan == c && due x)) = votes.filter fun x => x.chan != c := by
  constructor
  · have hboth := List.filter_filter (p := due) (q := fun v => v.chan == c) (l := votes)
    rw [h, List.filter_cons_of_pos hdue, List.filter_nil] at hboth
    exact (List.filter_congr fun x _ => Bool.and_comm _ _).trans hboth.symm
  · refine List.filter_congr fun x hx => ?_
    by_cases hchan : (x.chan == c) = true
    · have hmem : x ∈ votes.filter fun v => v.chan == c := List.mem_filter.mpr ⟨hx, hchan⟩
      rw [h, List.mem_singleton] at hmem
      rw [bne, hmem, hdue, Bool.and_true]
    · rw [bne, eq_false_of_ne_true hchan, Bool.false_and]

/-- The one vote of a channel whose result is readable in this furrow is delivered. -/
theorem deliverVotes_one {s : State} {c : Nat} {v : VoteSt} (h : s.fab.votes.filter (fun v => v.chan == c) = [v])
    (hnow : furrowAdd v.furrow 6 = s.furrow) : s.deliverVotes c =
      { deliverVote c s v with fab := { (deliverVote c s v).fab with votes := s.fab.votes.filter fun x => x.chan != c } } := by
  have hdue : (furrowAdd v.furrow 6 == s.furrow || furrowLater s.furrow (furrowAdd v.furrow 6)) = true := by rw [hnow]; simp
  obtain ⟨hone, hrest⟩ := filter_of_chan (due := fun v => furrowAdd v.furrow 6 == s.furrow || furrowLater s.furrow (furrowAdd v.furrow 6)) h hdue
  have hfilter : s.fab.votes.filter (s.voteDue c) = [v] := hone
  rw [deliverVotes_eq, hfilter]
  exact congrArg (fun votes => { deliverVote c s v with fab := { (deliverVote c s v).fab with votes := votes } }) hrest

/-- What the delivery of the one vote of a channel leaves (R75, R76). -/
theorem deliverVotes_leaves {s : State} {c : Nat} {v : VoteSt} (h : s.fab.votes.filter (fun v => v.chan == c) = [v])
    (hnow : furrowAdd v.furrow 6 = s.furrow) {t : State} (ht : s.deliverVotes c = t) :
    SMap.find? t.fab.readable c = some (v.acc, s.votePoisoned c, s.furrow) ∧
      t.getF (F.VOTE_RESULT.VALUE c) = (if v.acc then 1 else 0) ∧
      t.getF (F.VOTE_RESULT.POISONED c) = (if s.votePoisoned c then 1 else 0) ∧
      t.fab.votes = s.fab.votes.filter (fun x => x.chan != c) ∧ t.recs = s.recs ∧ t.step = s.step ∧ t.voteCarried c = true := by
  rw [deliverVotes_one h hnow] at ht
  have hb2n (b : Bool) : b2n b % 2 ^ 1 = if b then 1 else 0 := by cases b <;> rfl
  have hread : SMap.find? t.fab.readable c = some (v.acc, s.votePoisoned c, s.furrow) := by
    rw [← ht, ← hnow]
    exact SMap.find?_ins_same ..
  have hfurrow : t.furrow = s.furrow := by
    rw [← ht]
    have hkey (lo w : Nat) : F.FURROW_INDEX.INDEX.key ≠ (Fld.mk (0x100000030100 + 0x8 * c) lo w 0).key := by
      simp only [Fld.key, F.FURROW_INDEX.INDEX]
      omega
    exact (getF_setF_other _ _ (hkey 2 48)).trans ((getF_setF_other _ _ (hkey 1 1)).trans (getF_setF_other _ _ (hkey 0 1)))
  have hne (lo lo' w w' : Nat) (hlo : lo ≠ lo') : (Fld.mk (0x100000030100 + 0x8 * c) lo w 0).key ≠ (Fld.mk (0x100000030100 + 0x8 * c) lo' w' 0).key := by
    simp only [Fld.key]
    omega
  have hcarried : t.voteCarried c = true := by
    rw [voteCarried, hread, hfurrow]
    simp
  refine ⟨hread, ?_, ?_, ?_, ?_, ?_, hcarried⟩
  · rw [← ht]
    refine (getF_setF_other _ _ (hne 0 2 1 48 (by decide))).trans ((getF_setF_other _ _ (hne 0 1 1 1 (by decide))).trans ?_)
    exact (getF_setF_same ..).trans (hb2n _)
  · rw [← ht]
    refine (getF_setF_other _ _ (hne 1 2 1 48 (by decide))).trans ?_
    exact (getF_setF_same ..).trans (hb2n _)
  · rw [← ht]
  · rw [← ht]
    rfl
  · rw [← ht]
    rfl

/-- The fault of a region whose copies of a vote disagree (R75, R322). -/
def voteArgs (region c : Nat) : FaultArgs := {
  code := 0x0404, srcType := srcRegion, srcId := region, detail := c, opUnit := opRouter, unit := some (unitRegion, region) }

/-! ### Row outcomes (R99-R101, R105) -/

theorem rowOutcome_lt (fl : RowFlight) (vals : List (BitVec 32)) (shift : Nat) (disagree : Bool) : (rowOutcome fl vals shift disagree).1 < 5 := by
  unfold rowOutcome
  dsimp only
  repeat' split
  all_goals decide

/-- The lowest key of what outcomes count: what the grid's first rows and the action of checks read lies below. -/
def rowKeys : Nat := 0x100000040010 * 64

/-- What the steps of a row outcome before its fault keep of `s`. -/
structure RowKeeps (s t : State) (lid o : Nat) : Prop where
  step : t.step = s.step
  recs : t.recs = s.recs
  grid : t.grid = s.grid
  low : ∀ f : Fld, f.key < rowKeys → t.getF f = s.getF f
  flight : (t.plot lid).flight = (s.plot lid).flight
  count : t.getF (F.CHK_COUNT.COUNT lid o) = s.getF (F.CHK_COUNT.COUNT lid o)

namespace RowKeeps
variable {s t u : State} {lid o : Nat} {f : Fld}

theorem refl (s : State) (lid o : Nat) : RowKeeps s s lid o := ⟨rfl, rfl, rfl, fun _ _ => rfl, rfl, rfl⟩

theorem trans (h : RowKeeps s t lid o) (k : RowKeeps t u lid o) : RowKeeps s u lid o :=
  ⟨k.step.trans h.step, k.recs.trans h.recs, k.grid.trans h.grid, fun f hf => (k.low f hf).trans (h.low f hf), k.flight.trans h.flight, k.count.trans h.count⟩

/-- A change of registers of the plot, its outcome counter apart. -/
theorem of_usesCache {fs : List Fld} (h : s.UsesCache t fs) (hfs : ∀ f ∈ fs, rowKeys ≤ f.key ∧ (F.CHK_COUNT.COUNT lid o).key ≠ f.key) :
    RowKeeps s t lid o where
  step := h.step_eq
  recs := h.recs_eq
  grid := h.grid_eq
  low f hf := h.2 f fun g hg => by have := (hfs g hg).1; omega
  flight := congrArg PlotSt.flight (h.plot_eq lid)
  count := h.2 _ fun g hg => (hfs g hg).2

theorem modPlot (s : State) {g : PlotSt → PlotSt} (hg : ∀ x, (g x).flight = x.flight) : RowKeeps s (s.modPlot lid g) lid o :=
  ⟨rfl, rfl, rfl, fun _ _ => rfl, by rw [plot_modPlot_same, hg], rfl⟩

theorem incF (s : State) (n : Nat) (hf : rowKeys ≤ f.key ∧ (F.CHK_COUNT.COUNT lid o).key ≠ f.key) : RowKeeps s (s.incF f n) lid o :=
  .of_usesCache (usesCache_incF s (List.mem_singleton_self f) n) (by simpa using hf)

theorem keepF (s : State) (n : Nat) (hf : rowKeys ≤ f.key ∧ (F.CHK_COUNT.COUNT lid o).key ≠ f.key) : RowKeeps s (s.keepF f n) lid o :=
  .of_usesCache (fs := [f]) ⟨rfl, fun _ hg => getF_keepF_other _ _ (hg f (by simp))⟩ (by simpa using hf)

theorem perf (s : State) (ev n : Nat) (ho : o < 5) : RowKeeps s (s.perf lid ev n) lid o :=
  .of_usesCache (usesCache_perf s lid ev n) fun f hf => ⟨Nat.le_trans (by decide) (plotKeys_le_perf lid f hf), chkCount_ne_perf lid ho f hf⟩

theorem padPut (s : State) (lid o a : Nat) (bs : List Byte) : RowKeeps s (s.padPut lid a bs) lid o := by
  unfold State.padPut
  split
  · exact .refl s lid o
  · exact ⟨rfl, rfl, rfl, fun _ _ => rfl, rfl, rfl⟩

theorem countConv (s : State) (cs : List Conv) (ho : o < 5) : RowKeeps s (s.countConv lid cs) lid o := by
  refine .of_usesCache (usesCache_countConv s lid cs) ?_
  simp only [List.mem_cons, List.not_mem_nil, or_false, forall_eq_or_imp, forall_eq, Fld.key, F.CHK_COUNT.COUNT, F.CONV_SAT_COUNT.COUNT,
    F.CONV_NONFINITE_COUNT.COUNT, rowKeys]
  omega

theorem draw (s : State) (n : Nat) (ho : o < 5) : RowKeeps s (s.draw lid n).2 lid o := by
  unfold State.draw
  split
  · exact .refl s lid o
  · generalize rngDraw n (s.rngState lid) = r
    dsimp only
    refine .trans (.modPlot s fun _ => ?_) (.perf _ 0x0F n ho)
    rfl

/-- A row that is written counts what it saturates and draws (R105, R121). -/
theorem writeRow (s : State) (fl : RowFlight) (vals : List (BitVec 32)) (ho : o < 5) : RowKeeps s (s.writeRow lid fl vals) lid o := by
  have hsat : rowKeys ≤ (F.SAT_COUNT.COUNT lid).key ∧ (F.CHK_COUNT.COUNT lid o).key ≠ (F.SAT_COUNT.COUNT lid).key := by
    simp only [Fld.key, F.CHK_COUNT.COUNT, F.SAT_COUNT.COUNT, rowKeys]
    omega
  have hcount (n : Nat) : RowKeeps s (if n = 0 then s else s.incF (F.SAT_COUNT.COUNT lid) n) lid o := by
    split
    · exact .refl s lid o
    · exact .incF s n hsat
  unfold State.writeRow
  split
  · exact (hcount _).trans (.padPut ..)
  · split
    · exact .padPut ..
    · exact ((RowKeeps.draw s _ ho).trans (.countConv _ _ ho)).trans (.padPut ..)

end RowKeeps

/-- The bytes of a row that is not accumulated, as INT32 or binary32 (R105). -/
theorem writeRow_mem (s : State) (lid : Nat) {fl : RowFlight} (vals : List (BitVec 32)) (hfmt : fl.outFmt = 13 ∨ fl.outFmt = 0)
    (hacc : fl.acc = false) : (s.writeRow lid fl vals).mem = (s.padPut lid fl.dst (packElems 32 (vals.map BitVec.toNat))).mem := by
  have hvals : (List.zipIdx vals).map Prod.fst = vals := List.zipIdx_map_fst ..
  unfold writeRow
  obtain hfmt | hfmt := hfmt
  · have hsums : (List.zipIdx vals).map (fun v => (v.1, false)) = vals.map fun v => (v, false) := by
      conv_rhs => rw [← hvals, List.map_map]
      rfl
    rw [if_pos hfmt]
    simp only [hacc, Bool.false_eq_true, if_false]
    rw [hsums]
    simp [List.map_map, Function.comp_def]
  · rw [if_neg (by rw [hfmt]; decide), if_pos hfmt]
    simp only [hacc, Bool.false_eq_true, if_false]
    rw [hvals]

/-- The values of a row and its checks with what the injected bits change (R99). -/
def flippedVals (flips : List (Nat × BitVec 32)) (vals : List (BitVec 32)) : List (BitVec 32) :=
  flips.foldl (fun (v : List (BitVec 32)) f => v.set f.1 (v.getD f.1 0 ^^^ f.2)) vals
def flippedRow (flips : List (Nat × BitVec 32)) (fl : RowFlight) : RowFlight :=
  flips.foldl (fun (fl : RowFlight) f =>
    if f.1 = 128 then { fl with cF := fl.cF ^^^ f.2, cI := (BitVec.ofInt 64 fl.cI ^^^ f.2.setWidth 64).toInt }
    else if f.1 = 129 then { fl with aF := fl.aF ^^^ f.2 }
    else fl) fl

/-- The bits of a checksum or a bound leave where the row goes. -/
theorem flippedRow_dest (flips : List (Nat × BitVec 32)) (fl : RowFlight) : (flippedRow flips fl).outFmt = fl.outFmt ∧
    (flippedRow flips fl).acc = fl.acc ∧ (flippedRow flips fl).dst = fl.dst ∧ (flippedRow flips fl).cls = fl.cls ∧
    (flippedRow flips fl).due = fl.due ∧ (flippedRow flips fl).row = fl.row ∧ (flippedRow flips fl).slot = fl.slot := by
  unfold flippedRow
  refine List.foldlRecOn (motive := fun g : RowFlight => g.outFmt = fl.outFmt ∧ g.acc = fl.acc ∧ g.dst = fl.dst ∧ g.cls = fl.cls ∧
    g.due = fl.due ∧ g.row = fl.row ∧ g.slot = fl.slot) _ _ ⟨rfl, rfl, rfl, rfl, rfl, rfl, rfl⟩ fun g h f _ => ?_
  split
  · exact h
  · split
    · exact h
    · exact h

/-- The row leaves its plot's flights. -/
def landedRow (fl : RowFlight) (x : PlotSt) : PlotSt :=
  { x with flight := x.flight.filter fun y => !(y.due == fl.due && y.row == fl.row && y.slot == fl.slot) }

/-- A row that is written and whose outcome `o` counts (R99, R105). -/
def rowCounted (s : State) (lid : Nat) (fl : RowFlight) (vals : List (BitVec 32)) (o : Nat) : State :=
  ((s.modPlot lid (landedRow fl)).writeRow lid fl vals).countOutcome lid o

/-- The registers of the last failed check (R100). -/
def lastFailed (s : State) (lid : Nat) (fl : RowFlight) (ratio : BitVec 32) : State :=
  ((((s.keepF (F.LAST_FAIL.FURROW lid) s.furrow).keepF (F.LAST_FAIL.SLOT lid) fl.slot).keepF (F.LAST_FAIL_DETAIL.ROW lid) fl.row).keepF
    (F.LAST_FAIL_DETAIL.MODE lid) fl.mode).keepF (F.LAST_FAIL_DETAIL.RATIO lid) ratio.toNat

/-- The fault of a row whose check fails (R100, R322). -/
def rowArgs (lid : Nat) (fl : RowFlight) (ratio : BitVec 32) : FaultArgs := {
  code := 0x0201, srcType := srcPlot, srcId := lid, opUnit := opArray, op := fl.mode, slot := fl.slot
  detail := fl.row % 2 ^ 24 + fl.mode * 2 ^ 24 + ratio.toNat * 2 ^ 32 }

theorem rowDue_eq (s : State) (lid : Nat) (fl : RowFlight) (flips : List (Nat × BitVec 32)) (disagree : Bool) :
    let vals := flippedVals flips fl.vals
    let g := flippedRow flips fl
    let o := rowOutcome g vals (s.checkShift g.cls) disagree
    let v := s.rowCounted lid g vals o.1
    s.rowDue lid fl flips disagree = if o.1 = 2 then (v.lastFailed lid g o.2).checkFail lid (rowArgs lid g o.2) else v := by
  unfold rowDue rowCounted lastFailed
  rfl

theorem RowKeeps.lastFailed (s : State) {lid o : Nat} (fl : RowFlight) (ratio : BitVec 32) (ho : o < 5) :
    RowKeeps s (s.lastFailed lid fl ratio) lid o := by
  have hkeys (a lo w : Nat) (ha : 0x200000004040 ≤ a) (halo : lo < 64) (hle : a ≤ 0x200000004048) : rowKeys ≤ (Fld.mk (a + 0x100000 * lid) lo w 0).key ∧
      (F.CHK_COUNT.COUNT lid o).key ≠ (Fld.mk (a + 0x100000 * lid) lo w 0).key := by
    simp only [Fld.key, F.CHK_COUNT.COUNT, rowKeys]
    omega
  have hfurrow := RowKeeps.keepF s s.furrow (hkeys 0x200000004040 0 48 (by decide) (by decide) (by decide))
  have hslot := hfurrow.trans (.keepF _ fl.slot (hkeys 0x200000004040 48 6 (by decide) (by decide) (by decide)))
  have hrow := hslot.trans (.keepF _ fl.row (hkeys 0x200000004048 0 24 (by decide) (by decide) (by decide)))
  have hmode := hrow.trans (.keepF _ fl.mode (hkeys 0x200000004048 24 3 (by decide) (by decide) (by decide)))
  exact hmode.trans (.keepF _ ratio.toNat (hkeys 0x200000004048 32 32 (by decide) (by decide) (by decide)))

theorem coreFenced_low {s t : State} {lid : Nat} (hgrid : t.grid = s.grid) (hlow : ∀ f : Fld, f.key < rowKeys → t.getF f = s.getF f)
    (hrow : s.rowOf lid < 512) : t.coreFenced lid = s.coreFenced lid := by
  have hdiv := siteOf_div s lid
  have hkeys (k lo w r : Nat) (hk : k ≤ 512) (hlo : lo < 64) :
      t.getF (Fld.mk (0x100000021000 + 0x8 * k) lo w r) = s.getF (Fld.mk (0x100000021000 + 0x8 * k) lo w r) := by
    refine hlow _ ?_
    simp only [Fld.key, rowKeys]
    omega
  exact coreFenced_congr hgrid (hlow _ (by decide)) (hkeys _ _ _ _ (by omega) (by decide)) (hkeys _ _ _ _ (by omega) (by decide))

/-- What a row outcome leaves before its fault: the row in the pad, and its verdict counted. -/
structure RowCounted (s v : State) (lid o : Nat) (fl : RowFlight) (vals : List (BitVec 32)) : Prop where
  step : v.step = s.step
  recs : v.recs = s.recs
  grid : v.grid = s.grid
  low : ∀ f : Fld, f.key < rowKeys → v.getF f = s.getF f
  flight : (v.plot lid).flight = []
  count : v.getF (F.CHK_COUNT.COUNT lid o) = (s.getF (F.CHK_COUNT.COUNT lid o) + 1) % 2 ^ 48
  mem : (fl.outFmt = 13 ∨ fl.outFmt = 0) → fl.acc = false → v.mem = (s.padPut lid fl.dst (packElems 32 (vals.map BitVec.toNat))).mem

theorem PlotSets.grid_eq {s t : State} {lid : Nat} {x : PlotSt} {fs : List Fld} (h : PlotSets s t lid x fs) : t.grid = s.grid :=
  (congrArg State.grid h.frame :)

theorem countedKeys (lid o : Nat) (f : Fld) (hf : f.key < rowKeys) :
    ∀ g ∈ F.CHK_COUNT.COUNT lid o :: F.CHK_SUM.COUNT o :: perfFields lid, f.key ≠ g.key := by
  have hsum : rowKeys ≤ (F.CHK_SUM.COUNT o).key := by
    simp only [Fld.key, F.CHK_SUM.COUNT, rowKeys]
    omega
  have hcount : rowKeys ≤ (F.CHK_COUNT.COUNT lid o).key := by
    simp only [Fld.key, F.CHK_COUNT.COUNT, rowKeys]
    omega
  have hperf (g : Fld) (hg : g ∈ perfFields lid) : rowKeys ≤ g.key := Nat.le_trans (by decide) (plotKeys_le_perf lid g hg)
  refine List.forall_mem_cons.mpr ⟨by omega, List.forall_mem_cons.mpr ⟨by omega, fun g hg => ?_⟩⟩
  have := hperf g hg
  omega

theorem padPut_mem_modPlot (s : State) (lid a : Nat) (bs : List Byte) (g : PlotSt → PlotSt) :
    ((s.modPlot lid g).padPut lid a bs).mem = (s.padPut lid a bs).mem := by
  have hok : (s.modPlot lid g).padOk lid a bs.length = s.padOk lid a bs.length := rfl
  unfold padPut
  rw [hok]
  split <;> rfl

theorem rowCounted_leaves {s : State} {lid o : Nat} {fl : RowFlight} (vals : List (BitVec 32)) (hflight : (s.plot lid).flight = [fl]) {g : RowFlight}
    (hdue : g.due = fl.due) (hrow : g.row = fl.row) (hslot : g.slot = fl.slot) (ho : o < 5) :
    RowCounted s (s.rowCounted lid g vals o) lid o g vals := by
  have hland : ((s.modPlot lid (landedRow g)).plot lid).flight = [] := by
    rw [plot_modPlot_same]
    simp [landedRow, hflight, hdue, hrow, hslot]
  have hwrite := RowKeeps.writeRow (s.modPlot lid (landedRow g)) (lid := lid) g vals ho
  have hmem := writeRow_mem (s.modPlot lid (landedRow g)) lid (fl := g) vals
  obtain ⟨w, hw⟩ : ∃ w, (s.modPlot lid (landedRow g)).writeRow lid g vals = w := ⟨_, rfl⟩
  rw [hw] at hwrite hmem
  obtain ⟨hcount, hvalue⟩ := countOutcome_sets w lid ho
  have hv : s.rowCounted lid g vals o = w.countOutcome lid o := congrArg (fun u => countOutcome u lid o) hw
  rw [hv]
  exact {
    step := hcount.step_eq.trans hwrite.step
    recs := hcount.recs_eq.trans hwrite.recs
    grid := hcount.grid_eq.trans hwrite.grid
    low := fun f hf => (hcount.regs f (countedKeys lid o f hf)).trans (hwrite.low f hf)
    flight := (congrArg PlotSt.flight hcount.plot).trans (hwrite.flight.trans hland)
    count := by rw [hvalue, show w.getF (F.CHK_COUNT.COUNT lid o) = s.getF (F.CHK_COUNT.COUNT lid o) from hwrite.count]
    mem := fun hfmt hacc => hcount.mem_eq.trans ((hmem hfmt hacc).trans (padPut_mem_modPlot ..)) }

/-- A failed check of a core in service whose ACTION is 0 fails the core (R100, R326). -/
theorem checkFail_faults {s : State} {lid : Nat} (a : FaultArgs) (haction : s.getF F.CHECK_CFG.ACTION = 0) (hcore : s.coreFenced lid = false) :
    s.checkFail lid a = s.coreFault lid a := by
  unfold checkFail
  dsimp only
  rw [if_neg (by rw [haction]; decide), if_neg (ne_true_of_eq_false hcore)]

/-- What a row outcome leaves of a core in service whose failed checks abandon (R99, R100, R105). -/
structure RowLanded (s t : State) (lid : Nat) (fl : RowFlight) (vals : List (BitVec 32)) (verdict : Nat) : Prop where
  running : t.running = true
  flight : (t.plot lid).flight = []
  count : t.getF (F.CHK_COUNT.COUNT lid verdict) = (s.getF (F.CHK_COUNT.COUNT lid verdict) + 1) % 2 ^ 48
  mem : fl.outFmt = 13 ∨ fl.outFmt = 0 → fl.acc = false → t.mem = (s.padPut lid fl.dst (packElems 32 (vals.map BitVec.toNat))).mem
  failed : verdict = 2 → s.coreFailed t lid 0x0201
  passed : verdict ≠ 2 → t.recs = s.recs ∧ t.step = s.step

theorem chkCount_plotKeys (lid o : Nat) : plotKeys ≤ (F.CHK_COUNT.COUNT lid o).key := by
  simp only [Fld.key, F.CHK_COUNT.COUNT, plotKeys]
  omega

/-- The row of a failed check, its core failed. -/
theorem rowLanded_failed {s v : State} {lid : Nat} {fl : RowFlight} {vals : List (BitVec 32)} (hv : RowCounted s v lid 2 fl vals)
    (ratio : BitVec 32) (hrow : s.rowOf lid < 512) (hcore : s.coreFenced lid = false) (hrun : s.running = true)
    (haction : s.getF F.CHECK_CFG.ACTION = 0) : RowLanded s ((v.lastFailed lid fl ratio).checkFail lid (rowArgs lid fl ratio)) lid fl vals 2 := by
  have hkept := RowKeeps.lastFailed v (lid := lid) fl ratio (o := 2) (by decide)
  have hmem : (v.lastFailed lid fl ratio).mem = v.mem := rfl
  obtain ⟨w, hw⟩ : ∃ w, v.lastFailed lid fl ratio = w := ⟨_, rfl⟩
  rw [hw] at hkept hmem ⊢
  have hcoreW : w.coreFenced lid = false :=
    (coreFenced_low (hkept.grid.trans hv.grid) (fun f hf => (hkept.low f hf).trans (hv.low f hf)) hrow).trans hcore
  rw [checkFail_faults _ ((hkept.low _ (by decide)).trans ((hv.low _ (by decide)).trans haction)) hcoreW]
  have hrunW : w.running = true := by rw [State.running, hkept.step, hv.step]; exact hrun
  have hin := inAttempt_of_running hrunW
  have hfault := coreFaulted_coreFault (rowArgs lid fl ratio) hin hcoreW
  have hfailed := hfault.coreFailed hin rfl
  have hrunning := hfault.running_eq
  obtain ⟨t, ht⟩ : ∃ t, w.coreFault lid (rowArgs lid fl ratio) = t := ⟨_, rfl⟩
  rw [ht] at hfault hfailed hrunning ⊢
  obtain ⟨regs, base, more, hframe, hregs, -⟩ := hfault
  have hkey := plotKeys_ne (chkCount_plotKeys lid 2)
  exact {
    running := hrunning.trans hrunW
    flight := by rw [show t.plot lid = w.plot lid from plot_congr (by rw [hframe]) lid, hkept.flight, hv.flight]
    count := by rw [hregs.getF_eq hkey.1 hkey.2, hkept.count, hv.count]
    mem := fun hfmt hacc => by rw [show t.mem = w.mem by rw [hframe], hmem, hv.mem hfmt hacc]
    failed := fun _ => by
      rw [coreFailed, hkept.recs, hkept.step, hv.recs, hv.step] at hfailed
      exact hfailed
    passed := fun h => absurd rfl h }

/-- The outcome of the one row in flight. -/
theorem rowDue_lands {s : State} {lid : Nat} {fl : RowFlight} (flips : List (Nat × BitVec 32)) (disagree : Bool)
    (hflight : (s.plot lid).flight = [fl]) (hrow : s.rowOf lid < 512) (hcore : s.coreFenced lid = false) (hrun : s.running = true)
    (haction : s.getF F.CHECK_CFG.ACTION = 0) : RowLanded s (s.rowDue lid fl flips disagree) lid (flippedRow flips fl) (flippedVals flips fl.vals)
      (rowOutcome (flippedRow flips fl) (flippedVals flips fl.vals) (s.checkShift fl.cls) disagree).1 := by
  obtain ⟨-, -, -, hcls, hdue, hat, hslot⟩ := flippedRow_dest flips fl
  have heq := rowDue_eq s lid fl flips disagree
  dsimp only at heq
  rw [heq, hcls]
  have hlt := rowOutcome_lt (flippedRow flips fl) (flippedVals flips fl.vals) (s.checkShift fl.cls) disagree
  generalize rowOutcome (flippedRow flips fl) (flippedVals flips fl.vals) (s.checkShift fl.cls) disagree = o at *
  have hv := rowCounted_leaves (flippedVals flips fl.vals) hflight hdue hat hslot hlt
  by_cases hfail : o.1 = 2
  · rw [if_pos hfail]
    rw [hfail] at hv ⊢
    exact rowLanded_failed hv o.2 hrow hcore hrun haction
  · rw [if_neg hfail]
    exact {
      running := by rw [State.running, hv.step]; exact hrun
      flight := hv.flight
      count := hv.count
      mem := hv.mem
      failed := fun h => absurd h hfail
      passed := fun _ => ⟨hv.recs, hv.step⟩ }

/-- The outcome of the row that its plot has in flight, at its step. -/
theorem arrayRowOutcome_one {s : State} {lid slot row : Nat} {fl : RowFlight} (flips : List (BitVec 8 × BitVec 32)) (disagree : Bool)
    (hwork : s.atWork lid (48 * (s.step.granted - 1) + slot) = true) (hnow : (s.plot lid).now = 48 * (s.step.granted - 1) + slot)
    (hflight : (s.plot lid).flight = [fl]) (hdue : fl.due = 48 * (s.step.granted - 1) + slot) (hrow : fl.row = row) :
    s.arrayRowOutcome lid slot row flips disagree [] = s.rowDue lid fl (flips.map fun f => (f.1.toNat, f.2)) disagree := by
  have hrows : s.rowsDue lid (48 * (s.step.granted - 1) + slot) = true := by rw [rowsDue, hwork, Bool.true_or]
  have hbefore : ([fl].filter fun fl => decide (fl.due ≤ 48 * (s.step.granted - 1) + slot) && decide (fl.row < row)) = [] := by
    simp [hrow]
  have hfind : ([fl].find? fun fl => fl.due == 48 * (s.step.granted - 1) + slot && fl.row == row) = some fl := by
    simp [hdue, hrow]
  unfold arrayRowOutcome
  dsimp only
  rw [if_pos hrows, advance_now hnow, hflight, hbefore, List.foldl_nil, hflight, hfind]
  rfl

theorem flippedVals_map (flips : List (BitVec 8 × BitVec 32)) (vals : List (BitVec 32)) :
    flippedVals (flips.map fun f => (f.1.toNat, f.2)) vals =
      flips.foldl (fun v f => v.set f.1.toNat (v.getD f.1.toNat 0 ^^^ f.2)) vals := List.foldl_map ..

theorem flippedRow_map (flips : List (BitVec 8 × BitVec 32)) (fl : RowFlight) :
    flippedRow (flips.map fun f => (f.1.toNat, f.2)) fl = flips.foldl (fun fl f =>
      if f.1 = 128 then { fl with cF := fl.cF ^^^ f.2, cI := (BitVec.ofInt 64 fl.cI ^^^ f.2.setWidth 64).toInt }
      else if f.1 = 129 then { fl with aF := fl.aF ^^^ f.2 } else fl) fl := by
  have h128 (b : BitVec 8) : (b.toNat = 128) = (b = 128) := propext ⟨fun h => BitVec.eq_of_toNat_eq h, fun h => h ▸ rfl⟩
  have h129 (b : BitVec 8) : (b.toNat = 129) = (b = 129) := propext ⟨fun h => BitVec.eq_of_toNat_eq h, fun h => h ▸ rfl⟩
  unfold flippedRow
  rw [List.foldl_map]
  simp only [h128, h129]

open State in
/-- Settles O14: the plane that is READY, the outcome of a row, the bound of a loose access and the result of a vote. -/
theorem plotEvents : Obligations.PlotEvents := by
  unfold Obligations.PlotEvents
  intro s l
  refine ⟨?_, ?_, ?_, ?_, ?_⟩
  · intro hshadow hwork u hrun
    have heq := shadowReady_eq hshadow hwork
    have hsets := PlotSets.modPlot u l.toNat (fun x => { x with now := max x.now (s.plot l.toNat).readyAt }) []
    rw [← heq] at hsets
    exact ⟨_, exec_answered rfl (hsets.running_eq.trans hrun), rfl, rfl, hsets.plotOnly_returned s⟩
  · intro hshadow hrest hnow hwork
    have hsets := shadowReady_sets hshadow hrest hnow hwork
    exact ⟨_, exec_answered rfl (hsets.running_eq.trans (atWork_facts hwork).1), rfl, rfl, hsets.plotOnly_returned s⟩
  · intro slot row flips disagree fl p flip vals checked verdict hslot hwork hnow hflight hdue hrow hrows haction
    obtain ⟨hrun, hcore, -⟩ := atWork_facts hwork
    have hlanded := rowDue_lands (flips.map fun f => (f.1.toNat, f.2)) disagree hflight hrows hcore hrun haction
    obtain ⟨hfmt, hacc, hdst, hcls, -⟩ := flippedRow_dest (flips.map fun f => (f.1.toNat, f.2)) fl
    rw [← hcls] at hlanded
    have hvals : flippedVals (flips.map fun f => (f.1.toNat, f.2)) fl.vals = vals := flippedVals_map flips fl.vals
    have hchecked : flippedRow (flips.map fun f => (f.1.toNat, f.2)) fl = checked := flippedRow_map flips fl
    rw [hchecked] at hfmt hacc hdst hcls
    rw [hvals, hchecked, hcls] at hlanded
    change RowLanded s _ l.toNat checked vals verdict at hlanded
    have hone := arrayRowOutcome_one flips disagree hwork hnow hflight hdue hrow
    rw [← hone] at hlanded
    have hexec : exec (.arrayRowOutcome l slot row flips disagree []) s = .next (s.returned
        (s.arrayRowOutcome l.toNat slot.toNat row.toNat flips disagree [])) :=
      exec_running rfl (decide_eq_true hslot) hlanded.running
    refine ⟨_, hexec, hlanded.flight, hlanded.count, fun hout hplain => ?_, fun h => hlanded.failed h, fun h => hlanded.passed h⟩
    rw [← hdst]
    exact hlanded.mem (by rw [hfmt]; exact hout) (hacc.trans hplain)
  · intro q slot unit op a more u hpend hwork
    refine ⟨fun hcore hrun => ?_, fun hnow => ?_⟩
    · obtain ⟨hrunning, hfailed, -⟩ := looseOverrun_fails hpend hwork (u := u) rfl hcore hrun
      exact ⟨_, exec_answered rfl hrunning, hfailed⟩
    · obtain ⟨hrun, hcore, -⟩ := atWork_facts hwork
      obtain ⟨hrunning, hfailed, hmem, hwin⟩ := looseOverrun_fails hpend hwork (advance_now hnow) hcore hrun
      exact ⟨_, exec_answered rfl hrunning, hfailed, hmem, hwin⟩
  · intro k g v hrun hvotes hfurrow
    have hrunning := (deliverVotes_running s k.toNat).trans hrun
    obtain ⟨t, ht⟩ : ∃ t, s.deliverVotes k.toNat = t := ⟨_, rfl⟩
    obtain ⟨hread, hvalue, hpoisoned, hleft, hrecs, hstep, hcarried⟩ := deliverVotes_leaves hvotes hfurrow ht
    rw [ht] at hrunning ⊢
    refine ⟨⟨_, exec_answered (t := t) ?_ hrunning, hread, hvalue, hpoisoned, hleft, hrecs, hstep⟩, ?_⟩
    · have hresult : s.voteResult k.toNat g.toNat false = t := by rw [voteResult, if_pos hrun, ht]; rfl
      rw [← hresult]
      rfl
    · have hresult : s.voteResult k.toNat g.toNat true = t.raise (voteArgs g.toNat k.toNat) := by
        rw [voteResult, if_pos hrun, ht]
        dsimp only
        rw [hcarried]
        rfl
      have hin := inAttempt_of_running hrunning
      refine ⟨_, t.faultRecord (voteArgs g.toNat k.toNat), exec_answered (t := s.voteResult k.toNat g.toNat true) rfl ?_, ?_, rfl, rfl, rfl, rfl, ?_, ?_, ?_⟩
      · rw [hresult, running_raise, hrunning]
      · rw [hresult, returned_recs, raise_recs, hrecs]
      · rw [faultRecord, hin]
        rfl
      · rw [hresult, returned_step, raise_step, faultStep_fault, hin]
        rfl
      · rw [hresult, returned_fab, raise_eq]

end State
end Sys2Proof.Machine

namespace Sys2Proof.Machine
namespace State

/-! ### Loam as a plot's counters and cache leave it (R192, R194) -/

/-- `t` reads loam as `s`: the memories agree but for the cache, and so do the registers below those of the plots. -/
structure SameLoam (s t : State) : Prop where
  mem : { t.mem with cache := s.mem.cache } = s.mem
  low : ∀ f : Fld, f.key < plotKeys → t.getF f = s.getF f

namespace SameLoam
variable {s t : State}

theorem part_eq (h : s.SameLoam t) {i : Nat} (hi : i < 8) : t.partType i = s.partType i ∧ t.partCodec i = s.partCodec i ∧
    t.partBase i = s.partBase i ∧ t.partSize i = s.partSize i := by
  have hkey (a lo w : Nat) (ha : a ≤ 0x100000080180) (hlo : lo < 64) : t.getF (Fld.mk (a + 0x8 * i) lo w 0) = s.getF (Fld.mk (a + 0x8 * i) lo w 0) := by
    refine h.low _ ?_
    simp only [Fld.key, plotKeys]
    omega
  exact ⟨hkey _ _ _ (by decide) (by decide), hkey _ _ _ (by decide) (by decide), hkey _ _ _ (by decide) (by decide),
    hkey _ _ _ (by decide) (by decide)⟩

theorem partOf_eq (h : s.SameLoam t) (off n : Nat) : t.partOf off n = s.partOf off n := by
  refine List.find?_congr fun i hi => ?_
  obtain ⟨htype, -, hbase, hsize⟩ := h.part_eq (List.mem_range.mp hi)
  simp only [partPresent, htype, hbase, hsize]

theorem partOf_lt {off n i : Nat} (h : s.partOf off n = some i) : i < 8 := List.mem_range.mp (List.mem_of_find?_eq_some h)

theorem loamByte_eq (h : s.SameLoam t) {i : Nat} (hi : i < 8) (p off : Nat) : t.loamByte p i off = s.loamByte p i off := by
  obtain ⟨htype, hcodec, -, -⟩ := h.part_eq hi
  have hloam : t.mem.loam = s.mem.loam := (congrArg MemSt.loam h.mem :)
  have htrans : t.mem.trans = s.mem.trans := (congrArg MemSt.trans h.mem :)
  have hdirty : t.mem.dirty = s.mem.dirty := (congrArg MemSt.dirty h.mem :)
  have hcur : t.mem.cur = s.mem.cur := (congrArg MemSt.cur h.mem :)
  have hblock : t.mem.blockWritten = s.mem.blockWritten := (congrArg MemSt.blockWritten h.mem :)
  have hwipes : t.mem.wipes = s.mem.wipes := (congrArg MemSt.wipes h.mem :)
  have hconfig : t.getF F.PLAN_STATUS.CONFIG_COUNT = s.getF F.PLAN_STATUS.CONFIG_COUNT := h.low _ (by decide)
  have hcommitted : t.partCommitted i = s.partCommitted i := by rw [partCommitted, partCommitted, htype]
  have hcopy : t.readCopy p off = s.readCopy p off := by
    unfold readCopy curCopy
    rw [hdirty, hcur]
  unfold loamByte
  rw [hcommitted, hcopy, hcodec, hloam, htrans, hblock, hwipes, hconfig]

theorem loamGet_eq (h : s.SameLoam t) (p off n : Nat) : t.loamGet p off n = s.loamGet p off n := by
  have ht : t.loamGet p off n = ((t.partOf off n).elim [] fun i => (List.range n).map fun k => t.loamByte p i (off + k)) := by
    unfold loamGet
    cases t.partOf off n <;> rfl
  have hs : s.loamGet p off n = ((s.partOf off n).elim [] fun i => (List.range n).map fun k => s.loamByte p i (off + k)) := by
    unfold loamGet
    cases s.partOf off n <;> rfl
  rw [ht, hs, h.partOf_eq]
  cases hpart : s.partOf off n with
  | none => rfl
  | some i => exact List.map_congr_left fun k _ => h.loamByte_eq (partOf_lt hpart) p (off + k)

theorem loamWriteBad_eq (h : s.SameLoam t) (hstep : t.step = s.step) (off n : Nat) : t.loamWriteBad off n = s.loamWriteBad off n := by
  have ht : t.loamWriteBad off n = ((t.partOf off n).elim true fun i => (t.partCommitted i && t.step.eval) ||
      (t.partCodec i == 1 && (decide (off % 1024 ≠ 0) || decide (n % 1024 ≠ 0)))) := by
    unfold loamWriteBad
    cases t.partOf off n <;> rfl
  have hs : s.loamWriteBad off n = ((s.partOf off n).elim true fun i => (s.partCommitted i && s.step.eval) ||
      (s.partCodec i == 1 && (decide (off % 1024 ≠ 0) || decide (n % 1024 ≠ 0)))) := by
    unfold loamWriteBad
    cases s.partOf off n <;> rfl
  rw [ht, hs, h.partOf_eq]
  cases hpart : s.partOf off n with
  | none => rfl
  | some i =>
    obtain ⟨htype, hcodec, -, -⟩ := h.part_eq (partOf_lt hpart)
    simp only [Option.elim, partCommitted, htype, hcodec, hstep]

end SameLoam

/-- A plot reads the same loam from two states that agree on it, on the plot and on the site behind the plot. -/
theorem loamRead_congr {s t : State} {lid : Nat} (h : s.SameLoam t) (hplot : t.plot lid = s.plot lid) (hsite : t.siteOf lid = s.siteOf lid)
    (p off n : Nat) : t.loamRead lid p off n = s.loamRead lid p off n := by
  simp only [loamRead, raced, h.loamGet_eq, hplot, hsite]

/-- With no transfer and no store under way a plot reads its loam as it is. -/
theorem loamRead_plain {s : State} {lid : Nat} (hmoves : (s.plot lid).moves = []) (hstores : (s.plot lid).stores = []) (p off n : Nat) :
    s.loamRead lid p off n = s.loamGet (s.siteOf lid) off n := by
  simp only [loamRead, hmoves, hstores]
  rfl

/-! ### What a tile access changes (R140, R143) -/

/-- `t` is `s` but for the plot `lid`, which is `x`, the lines that caches hold and the register fields in `fs`. -/
structure PlotUses (s t : State) (lid : Nat) (x : PlotSt) (fs : List Fld) : Prop where
  plot : t.plot lid = x
  others : ∀ k, k ≠ lid → t.plot k = s.plot k
  regs : s.fieldsBut t fs
  frame : { t with plots := s.plots, regs := s.regs, pub := s.pub, base := s.base, mem := { t.mem with cache := s.mem.cache } } = s

namespace PlotUses
variable {s t u : State} {lid : Nat} {x y : PlotSt} {fs gs : List Fld}

theorem of_sets (h : PlotSets s t lid x fs) : PlotUses s t lid x fs where
  plot := h.plot
  others := h.others
  regs := h.regs
  frame := (congrArg (fun v : State => { v with mem := { t.mem with cache := s.mem.cache } }) h.frame :).trans (by rw [h.mem_eq])

theorem of_usesCache (h : s.UsesCache t fs) (lid : Nat) : PlotUses s t lid (s.plot lid) fs where
  plot := h.plot_eq lid
  others k _ := h.plot_eq k
  regs := h.2
  frame := (congrArg (fun v : State => { v with plots := s.plots }) h.1 :)

theorem trans (h : PlotUses s t lid x fs) (k : PlotUses t u lid y fs) : PlotUses s u lid y fs where
  plot := k.plot
  others l hl := (k.others l hl).trans (h.others l hl)
  regs f hf := (k.regs f hf).trans (h.regs f hf)
  frame := (congrArg (fun v : State => { v with
    plots := s.plots, regs := s.regs, pub := s.pub, base := s.base, mem := { v.mem with cache := s.mem.cache } }) k.frame :).trans h.frame

theorem mono (h : PlotUses s t lid x fs) (hsub : fs ⊆ gs) : PlotUses s t lid x gs :=
  ⟨h.plot, h.others, fun f hf => h.regs f fun g hg => hf g (hsub hg), h.frame⟩

theorem cast (h : PlotUses s t lid x fs) (hx : x = y) : PlotUses s t lid y fs := hx ▸ h

theorem modPlot (h : PlotUses s t lid x fs) (f : PlotSt → PlotSt) : PlotUses s (t.modPlot lid f) lid (f x) fs :=
  (h.trans (.of_sets (.modPlot t lid f fs))).cast (by rw [h.plot])

theorem thenUses (h : PlotUses s t lid x fs) (k : t.UsesCache u fs) : PlotUses s u lid x fs :=
  (h.trans (.of_usesCache k lid)).cast h.plot

theorem step_eq (h : PlotUses s t lid x fs) : t.step = s.step := (congrArg State.step h.frame :)
theorem mem_eq (h : PlotUses s t lid x fs) : { t.mem with cache := s.mem.cache } = s.mem := (congrArg State.mem h.frame :)
theorem win_eq (h : PlotUses s t lid x fs) : t.win = s.win := (congrArg State.win h.frame :)
theorem recs_eq (h : PlotUses s t lid x fs) : t.recs = s.recs := (congrArg State.recs h.frame :)
theorem running_eq (h : PlotUses s t lid x fs) : t.running = s.running := (congrArg State.running h.frame :)

end PlotUses

/-! #### The words that load and store tiles -/

/-- The step until which a tile word is in flight, of its body's state `u` and the state `w` before it (R158). -/
def flightEnd (w u : State) (lid p : Nat) : Nat :=
  (((u.plot lid).land.drop (w.plot lid).land.length).map (·.1)).foldl max
    (if (u.plot lid).stores.length ≠ (w.plot lid).stores.length then p + dLoose
      else if (u.plot lid).loads.length ≠ (w.plot lid).loads.length then p + 10 else p + 4)

theorem inFlight_eq (w u : State) (lid p : Nat) :
    w.inFlight u lid p = u.modPlot lid fun z => { z with busyUntil := max z.busyUntil (w.flightEnd u lid p) } := rfl

/-- The run of a load of tile rows from pad (R172). -/
def loadRunOf (slot : Nat) (o : VecWord) (addr pitch p : Nat) (m : BitVec 256) : LoadRun := {
  p0 := p, slot := slot, td := o.td.toNat, fmt := VecWordExt o 20 4, blk := VecWordExt o 18 2, addr := addr, pitch := pitch
  mask := m, mz := o.mz, got := [] }

theorem tileLoad_aligned {w : State} {lid slot p : Nat} {o : VecWord} {m : BitVec 256} (haddr : (w.tileAddress lid o).2.2 = none) :
    tileLoad slot o w lid p m = w.modPlot lid fun x => { x with
      loads := x.loads ++ [loadRunOf slot o (w.tileAddress lid o).1 (w.tileAddress lid o).2.1 p m] } := by
  unfold tileLoad
  dsimp only
  rw [haddr]
  rfl

/-- A tile load is in flight for ten steps. -/
theorem tileLoad_sets {w : State} {lid slot p : Nat} {o : VecWord} {m : BitVec 256} (haddr : (w.tileAddress lid o).2.2 = none) :
    PlotSets w (w.inFlight (tileLoad slot o w lid p m) lid p) lid { w.plot lid with
      loads := (w.plot lid).loads ++ [loadRunOf slot o (w.tileAddress lid o).1 (w.tileAddress lid o).2.1 p m]
      busyUntil := max (w.plot lid).busyUntil (p + 10) } [] := by
  have hload := PlotSets.modPlot w lid (fun x => { x with
    loads := x.loads ++ [loadRunOf slot o (w.tileAddress lid o).1 (w.tileAddress lid o).2.1 p m] }) []
  rw [← tileLoad_aligned haddr] at hload
  have hend : w.flightEnd (tileLoad slot o w lid p m) lid p = p + 10 := by
    simp [flightEnd, hload.plot]
  rw [inFlight_eq, hend]
  refine (hload.trans (.modPlot _ lid (fun z => { z with busyUntil := max z.busyUntil (p + 10) }) [])).cast ?_
  rw [hload.plot]

/-- The access of the port of a tile store for four of its rows (R172). -/
def storePort (slot : Nat) (o : VecWord) (addr pitch k : Nat) : PadAccess :=
  ⟨tileSpans (VecWordExt o 20 4) (VecWordExt o 18 2) addr pitch (4 * k), true, opVector, 0x3B, slot⟩
def storeLanding (slot : Nat) (o : VecWord) (addr pitch p : Nat) (t : Tile) (m : BitVec 256) (k : Nat) : Nat × Landing :=
  (p + 7 + k, .store (VecWordExt o 20 4) (VecWordExt o 17 1 == 1) (VecWordExt o 18 2) addr pitch (4 * k) slot t m)

/-- Four rows take the port and wait to be written. -/
def storeGroup (slot : Nat) (o : VecWord) (addr pitch lid p : Nat) (t : Tile) (m : BitVec 256) (s : State) (k : Nat) : State :=
  (s.usePort lid (p + 1 + k) (storePort slot o addr pitch k)).modPlot lid fun x => { x with
    land := x.land ++ [storeLanding slot o addr pitch p t m k] }

theorem tileStore_aligned {w : State} {lid slot p : Nat} {o : VecWord} {m : BitVec 256} (haddr : (w.tileAddress lid o).2.2 = none) :
    tileStore slot o w lid p m = (List.range 4).foldl
      (storeGroup slot o (w.tileAddress lid o).1 (w.tileAddress lid o).2.1 lid p (w.tileAt lid o.ta.toNat) m) w := by
  unfold tileStore
  dsimp only
  rw [haddr]
  rfl

/-- The plot once the groups of rows `ks` of a tile store wait. -/
def storeWaits (slot : Nat) (o : VecWord) (addr pitch p : Nat) (t : Tile) (m : BitVec 256) (ks : List Nat) (x : PlotSt) : PlotSt :=
  { x with
    ports := ks.foldl (fun ports k => SMap.modify [] ports (p + 1 + k) (· ++ [storePort slot o addr pitch k])) x.ports
    land := x.land ++ ks.map (storeLanding slot o addr pitch p t m) }

theorem storeGroups_sets (slot : Nat) (o : VecWord) (addr pitch lid p : Nat) (t : Tile) (m : BitVec 256) (ks : List Nat) (w : State) :
    PlotSets w (ks.foldl (storeGroup slot o addr pitch lid p t m) w) lid (storeWaits slot o addr pitch p t m ks (w.plot lid)) [] := by
  induction ks generalizing w with
  | nil => exact (PlotSets.refl w lid []).cast (by rw [storeWaits, List.map_nil, List.append_nil]; rfl)
  | cons k ks ih =>
    have hport := PlotSets.modPlot w lid (fun x => { x with
      ports := SMap.modify [] x.ports (p + 1 + k) (· ++ [storePort slot o addr pitch k]) }) []
    have hgroup := hport.trans (.modPlot _ lid (fun x => { x with land := x.land ++ [storeLanding slot o addr pitch p t m k] }) [])
    refine (hgroup.trans (ih _)).cast ?_
    change storeWaits slot o addr pitch p t m ks ((storeGroup slot o addr pitch lid p t m w k).plot lid) = _
    rw [show (storeGroup slot o addr pitch lid p t m w k).plot lid = _ from hgroup.plot, hport.plot]
    simp only [storeWaits, List.map_cons, List.foldl_cons, List.append_assoc, List.cons_append, List.nil_append]

/-- A tile store is in flight until its last rows are written. -/
theorem tileStore_sets {w : State} {lid slot p : Nat} {o : VecWord} {m : BitVec 256} (haddr : (w.tileAddress lid o).2.2 = none) :
    PlotSets w (w.inFlight (tileStore slot o w lid p m) lid p) lid
      { storeWaits slot o (w.tileAddress lid o).1 (w.tileAddress lid o).2.1 p (w.tileAt lid o.ta.toNat) m (List.range 4) (w.plot lid) with
        busyUntil := max (w.plot lid).busyUntil (p + 10) } [] := by
  have hstore := storeGroups_sets slot o (w.tileAddress lid o).1 (w.tileAddress lid o).2.1 lid p (w.tileAt lid o.ta.toNat) m (List.range 4) w
  rw [← tileStore_aligned haddr] at hstore
  have hsteps : ((List.range 4).map (storeLanding slot o (w.tileAddress lid o).1 (w.tileAddress lid o).2.1 p (w.tileAt lid o.ta.toNat) m)).map
      (·.1) = [p + 7, p + 8, p + 9, p + 10] := rfl
  have hend : w.flightEnd (tileStore slot o w lid p m) lid p = p + 10 := by
    rw [flightEnd, hstore.plot]
    simp only [storeWaits, ne_eq, not_true_eq_false, if_false, List.drop_left, hsteps, List.foldl_cons, List.foldl_nil]
    omega
  rw [inFlight_eq, hend]
  refine (hstore.trans (.modPlot _ lid (fun z => { z with busyUntil := max z.busyUntil (p + 10) }) [])).cast ?_
  rw [hstore.plot]
  rfl

end State
end Sys2Proof.Machine

namespace Sys2Proof.Machine
namespace State

/-! ### Loose tile accesses (R143, R190, R191) -/

/-- The spans of a loose tile access. -/
def looseRows (w : State) (lid : Nat) (o : VecWord) : List (Nat × Nat) :=
  ([0, 4, 8, 12].map fun r => tileSpans (VecWordExt o 20 4) (VecWordExt o 18 2) (w.tileAddress lid o).1 (w.tileAddress lid o).2.1 r).flatten

/-- The reads of a loose tile load, one range after another. -/
def looseReads (lid p b : Nat) (offs : List (Nat × Nat)) (r : List (List Byte) × State) : List (List Byte) × State :=
  offs.foldl (fun r q => (r.1 ++ [(r.2.looseRead lid p b q.1 q.2).1], (r.2.looseRead lid p b q.1 q.2).2)) r

/-- A loose load that nothing refuses reads, is noted, counts its conversions and lands. -/
def looseLoaded (slot : Nat) (o : VecWord) (lid p a : Nat) (m : BitVec 256) (r : List (List Byte) × State) : State :=
  let cs := loadedWords (VecWordExt o 20 4) r.1
  ((r.2.loosePending lid p slot opVector 0x3C a).countConv lid (((List.zipIdx cs).filter fun c => m.getLsbD c.2).map (·.1))).landLater lid
    (p + 48) (.tile o.td.toNat (cs.map fun c => BitVec.ofNat 32 c.bits) m o.mz)

theorem looseTileLoad_eq {w : State} {lid slot p b : Nat} {o : VecWord} {m : BitVec 256} {offs : List (Nat × Nat)}
    (haddr : (w.tileAddress lid o).2.2 = none) (hspans : w.looseSpans lid (w.looseBase lid o) (w.looseRows lid o) = some (b, offs)) :
    looseTileLoad slot o w lid p m = looseLoaded slot o lid p (w.tileAddress lid o).1 m (looseReads lid p b offs ([], w)) := by
  unfold looseTileLoad
  dsimp only
  rw [haddr, show w.looseSpans lid (w.looseBase lid o) (List.map (fun r => tileSpans (VecWordExt o 20 4) (VecWordExt o 18 2)
    (w.tileAddress lid o).1 (w.tileAddress lid o).2.1 r) [0, 4, 8, 12]).flatten = some (b, offs) from hspans]
  rfl

/-- What a loose access uses leaves the loam that its plot reads. -/
theorem sameLoam_usesCache {s t : State} {fs : List Fld} (h : s.UsesCache t fs) (hfs : ∀ f ∈ fs, plotKeys ≤ f.key) : s.SameLoam t :=
  ⟨h.mem_eq, fun f hf => h.2 f fun g hg => by have := hfs g hg; omega⟩

theorem sameGrid_usesCache {s t : State} {fs : List Fld} (h : s.UsesCache t fs) (hfs : ∀ f ∈ fs, plotKeys ≤ f.key) : s.SameGrid t :=
  ⟨h.grid_eq, fun f hf => h.2 f fun g hg => by have := hfs g hg; omega⟩

theorem plotKeys_le_misses (lid : Nat) : ∀ f ∈ F.CACHE_MISSES.COUNT lid :: perfFields lid, plotKeys ≤ f.key := by
  refine List.forall_mem_cons.mpr ⟨?_, plotKeys_le_perf lid⟩
  simp only [Fld.key, F.CACHE_MISSES.COUNT, plotKeys]
  omega

/-- The reads of a loose load return what the plot reads before them. -/
theorem looseReads_eq {w : State} {lid : Nat} (hlid : lid < 2 ^ 24) (p b : Nat) (offs : List (Nat × Nat)) (acc : List (List Byte)) {v : State}
    (hv : w.UsesCache v (F.CACHE_MISSES.COUNT lid :: perfFields lid)) :
    (looseReads lid p b offs (acc, v)).1 = acc ++ offs.map (fun q => w.loamRead lid p q.1 q.2) ∧
      w.UsesCache (looseReads lid p b offs (acc, v)).2 (F.CACHE_MISSES.COUNT lid :: perfFields lid) := by
  induction offs generalizing acc v with
  | nil => exact ⟨(List.append_nil acc).symm, hv⟩
  | cons q offs ih =>
    have hread : v.loamRead lid p q.1 q.2 = w.loamRead lid p q.1 q.2 :=
      loamRead_congr (sameLoam_usesCache hv (plotKeys_le_misses lid)) (hv.plot_eq lid)
        ((sameGrid_usesCache hv (plotKeys_le_misses lid)).siteOf_eq hlid) p q.1 q.2
    obtain ⟨hbytes, huses⟩ := ih (acc ++ [v.loamRead lid p q.1 q.2]) (hv.trans (usesCache_looseRead v lid p b q.1 q.2))
    refine ⟨hbytes.trans ?_, huses⟩
    rw [hread, List.append_assoc]
    rfl

/-- The fields that a loose load counts in. -/
def loadCounts (lid : Nat) : List Fld :=
  F.CACHE_MISSES.COUNT lid :: F.CONV_SAT_COUNT.COUNT lid :: F.CONV_NONFINITE_COUNT.COUNT lid :: perfFields lid

/-- The fields that a loose store counts in. -/
def storeCounts (lid : Nat) : List Fld := F.CONV_SAT_COUNT.COUNT lid :: F.CONV_NONFINITE_COUNT.COUNT lid :: perfFields lid

theorem perf_sub_storeCounts (lid : Nat) : perfFields lid ⊆ storeCounts lid := List.subset_cons_of_subset _ (List.subset_cons_self _ _)

theorem conv_sub_storeCounts (lid : Nat) : [F.CONV_SAT_COUNT.COUNT lid, F.CONV_NONFINITE_COUNT.COUNT lid] ⊆ storeCounts lid := by
  simp [storeCounts]

theorem storeCounts_sub_loadCounts (lid : Nat) : storeCounts lid ⊆ loadCounts lid := List.subset_cons_self _ _

theorem misses_sub_loadCounts (lid : Nat) : F.CACHE_MISSES.COUNT lid :: perfFields lid ⊆ loadCounts lid :=
  List.cons_subset_cons _ (perf_sub_storeCounts lid)

/-- The plot after a loose tile load. -/
structure LooseLoaded (w : State) (lid slot p a : Nat) (l : Landing) (y : PlotSt) : Prop where
  land : y.land = (w.plot lid).land ++ [(p + 48, l)]
  loosePend : y.loosePend = (w.plot lid).loosePend ++ [(p, slot, opVector, 0x3C, a)]

/-- A loose tile load lands what the plot reads 48 steps later. -/
theorem looseTileLoad_uses {w : State} {lid slot p b : Nat} {o : VecWord} {m : BitVec 256} {offs : List (Nat × Nat)} (hlid : lid < 2 ^ 24)
    (haddr : (w.tileAddress lid o).2.2 = none) (hspans : w.looseSpans lid (w.looseBase lid o) (w.looseRows lid o) = some (b, offs)) :
    ∃ y, PlotUses w (w.inFlight (looseTileLoad slot o w lid p m) lid p) lid y (loadCounts lid) ∧
      LooseLoaded w lid slot p (w.tileAddress lid o).1 (.tile o.td.toNat
        ((loadedWords (VecWordExt o 20 4) (offs.map fun q => w.loamRead lid p q.1 q.2)).map fun c => BitVec.ofNat 32 c.bits) m o.mz) y := by
  rw [looseTileLoad_eq haddr hspans, inFlight_eq]
  obtain ⟨hbytes, huses⟩ := looseReads_eq hlid p b offs [] (UsesCache.refl w _)
  obtain ⟨r, hr⟩ : ∃ r, looseReads lid p b offs ([], w) = r := ⟨_, rfl⟩
  rw [hr] at hbytes huses ⊢
  rw [List.nil_append] at hbytes
  obtain ⟨v, n, hv, hpend⟩ := loosePending_eq r.2 lid p slot opVector 0x3C (w.tileAddress lid o).1
  have hnoted := ((PlotUses.of_usesCache huses lid).mono (gs := loadCounts lid) (misses_sub_loadCounts lid)).thenUses
    (hv.mono (List.Subset.trans (perf_sub_storeCounts lid) (storeCounts_sub_loadCounts lid)))
  have hpending := hnoted.modPlot fun x => { x with
    loose := max x.loose n, loosePend := x.loosePend ++ [(p, slot, opVector, 0x3C, (w.tileAddress lid o).1)] }
  rw [← hpend] at hpending
  have hcounted := hpending.thenUses ((usesCache_countConv _ lid (((List.zipIdx (loadedWords (VecWordExt o 20 4) r.1)).filter fun c =>
    m.getLsbD c.2).map (·.1))).mono (List.Subset.trans (conv_sub_storeCounts lid) (storeCounts_sub_loadCounts lid)))
  have hland := hcounted.modPlot fun x => { x with land := x.land ++ [(p + 48, .tile o.td.toNat
    ((loadedWords (VecWordExt o 20 4) r.1).map fun c => BitVec.ofNat 32 c.bits) m o.mz)] }
  have hflight := hland.modPlot fun z => { z with
    busyUntil := max z.busyUntil (w.flightEnd (looseLoaded slot o lid p (w.tileAddress lid o).1 m r) lid p) }
  refine ⟨_, hflight, ?_, rfl⟩
  dsimp only
  rw [hbytes]

/-! #### Loose tile stores -/

/-- What is written, unless no element of the row is unmasked. -/
theorem guarded_offsets {c : Prop} [Decidable c] {offs : List (Nat × Nat)} {ys : List (Nat × List Byte × List Byte)} {zs : List Conv}
    (h : ∀ y ∈ ys, ∃ q ∈ offs, y.1 = q.1) : ∀ y ∈ (if c then (([], []) : List (Nat × List Byte × List Byte) × List Conv) else (ys, zs)).1, ∃ q ∈ offs, y.1 = q.1 := by
  split
  · exact fun _ h => absurd h List.not_mem_nil
  · exact h

/-- A row of a loose store writes at the offsets it is given. -/
theorem looseTileBytes_offsets (fmt : Nat) (rs : List Round) (row : Nat) (t : Tile) (m : BitVec 256) (offs : List (Nat × Nat)) :
    ∀ y ∈ (looseTileBytes fmt rs row t m offs).1, ∃ q ∈ offs, y.1 = q.1 := by
  unfold looseTileBytes
  dsimp only
  by_cases hmx : isMx fmt = true
  · rw [if_pos hmx]
    obtain _ | ⟨x, _ | ⟨y, _ | _⟩⟩ := offs
    · exact fun _ h => absurd h List.not_mem_nil
    · exact fun _ h => absurd h List.not_mem_nil
    · exact guarded_offsets (by simp)
    · exact fun _ h => absurd h List.not_mem_nil
  · rw [if_neg hmx]
    obtain _ | ⟨x, offs⟩ := offs
    · exact fun _ h => absurd h List.not_mem_nil
    · dsimp only
      by_cases hfmt : fmt = 14
      · rw [if_pos hfmt]
        exact guarded_offsets (by simp)
      · rw [if_neg hfmt]
        exact guarded_offsets (by simp)

/-- The rounding of each element of a loose store that does not draw, and of one that does (R143, R105). -/
def storeRounds (sr : Bool) (drawn : List Nat) : List Round := if sr then drawn.map Round.sr else List.replicate 256 .rne

/-- Whether a tile store rounds by drawn bits. -/
def storeDraws (o : VecWord) : Bool := VecWordExt o 17 1 == 1 && !(VecWordExt o 20 4 == 0 || VecWordExt o 20 4 == 13)

/-- The ranges of a row, and the rows that a format stores as one. -/
def rowRanges (fmt : Nat) : Nat := if isMx fmt then 2 else 1
def rowStarts (fmt : Nat) : List Nat := if isMx fmt then (List.range 8).map (2 * ·) else List.range 16

/-- The bytes and conversions of the rows of a loose store. -/
def storeParts (fmt : Nat) (rs : List Round) (t : Tile) (m : BitVec 256) (offs : List (Nat × Nat)) :
    List (List (Nat × List Byte × List Byte) × List Conv) :=
  (List.zipIdx (rowStarts fmt)).map fun r => looseTileBytes fmt ((rs.drop (16 * r.1)).take (16 * rowRanges fmt)) r.1 t m
    ((offs.drop (rowRanges fmt * r.2)).take (rowRanges fmt))

/-- A loose store that nothing refuses, in the state that has drawn: it counts its conversions, writes and is noted. -/
def looseStored (slot lid p b a : Nat) (parts : List (List (Nat × List Byte × List Byte) × List Conv)) (v : State) : State :=
  ((v.countConv lid (parts.map (·.2)).flatten).looseWrite lid p b (parts.map (·.1)).flatten).loosePending lid p slot opVector 0x3D a

theorem looseTileStore_eq {w : State} {lid slot p b : Nat} {o : VecWord} {m : BitVec 256} {offs : List (Nat × Nat)}
    (haddr : (w.tileAddress lid o).2.2 = none) (hspans : w.looseSpans lid (w.looseBase lid o) (w.looseRows lid o) = some (b, offs))
    (hbad : (offs.any fun q => w.loamWriteBad q.1 q.2) = false) :
    looseTileStore slot o w lid p m =
      let d := w.draw lid (if storeDraws o then 256 else 0)
      looseStored slot lid p b (w.tileAddress lid o).1
        (storeParts (VecWordExt o 20 4) (storeRounds (storeDraws o) d.1) (w.tileAt lid o.ta.toNat) m offs) d.2 := by
  unfold looseTileStore
  dsimp only
  rw [haddr, show w.looseSpans lid (w.looseBase lid o) (List.map (fun r => tileSpans (VecWordExt o 20 4) (VecWordExt o 18 2)
    (w.tileAddress lid o).1 (w.tileAddress lid o).2.1 r) [0, 4, 8, 12]).flatten = some (b, offs) from hspans]
  dsimp only
  rw [if_neg (ne_true_of_eq_false hbad)]
  rfl

/-- A store writes at the offsets of its rows. -/
theorem storeParts_offsets (fmt : Nat) (rs : List Round) (t : Tile) (m : BitVec 256) (offs : List (Nat × Nat)) :
    ∀ y ∈ ((storeParts fmt rs t m offs).map (·.1)).flatten, ∃ q ∈ offs, y.1 = q.1 := by
  intro y hy
  obtain ⟨ys, hys, hy⟩ := List.mem_flatten.mp hy
  simp only [storeParts, List.map_map, List.mem_map] at hys
  obtain ⟨r, -, rfl⟩ := hys
  obtain ⟨q, hq, heq⟩ := looseTileBytes_offsets _ _ _ _ _ _ y hy
  exact ⟨q, List.mem_of_mem_drop (List.mem_of_mem_take hq), heq⟩

/-- The rows that a format stores as one lie within the tile. -/
theorem rowStarts_lt {fmt : Nat} {r : Nat × Nat} (h : r ∈ List.zipIdx (rowStarts fmt)) : 16 * r.1 + 16 * rowRanges fmt ≤ 256 := by
  have hmem : r.1 ∈ rowStarts fmt := List.fst_mem_of_mem_zipIdx h
  unfold rowStarts at hmem
  unfold rowRanges
  split at hmem
  · rw [if_pos ‹_›]
    obtain ⟨k, hk, hkr⟩ := List.mem_map.mp hmem
    have := List.mem_range.mp hk
    omega
  · rw [if_neg ‹_›]
    have := List.mem_range.mp hmem
    omega

/-- The bytes and conversions of the rows when every element rounds to nearest. -/
def nearestParts (fmt : Nat) (t : Tile) (m : BitVec 256) (offs : List (Nat × Nat)) :
    List (List (Nat × List Byte × List Byte) × List Conv) :=
  (List.zipIdx (rowStarts fmt)).map fun r =>
    looseTileBytes fmt (List.replicate (16 * rowRanges fmt) .rne) r.1 t m ((offs.drop (rowRanges fmt * r.2)).take (rowRanges fmt))

/-- A store that draws nothing rounds every element to nearest, ties to even. -/
theorem storeParts_nearest (fmt : Nat) (drawn : List Nat) (t : Tile) (m : BitVec 256) (offs : List (Nat × Nat)) :
    storeParts fmt (storeRounds false drawn) t m offs = nearestParts fmt t m offs := by
  refine List.map_congr_left fun r hr => ?_
  have hlt := rowStarts_lt hr
  have hrounds : ((storeRounds false drawn).drop (16 * r.1)).take (16 * rowRanges fmt) = List.replicate (16 * rowRanges fmt) .rne := by
    have hall : storeRounds false drawn = List.replicate 256 .rne := rfl
    rw [hall, List.drop_replicate, List.take_replicate, Nat.min_eq_left (by omega)]
  rw [hrounds]

/-- Drawn bits leave what waits in the plot. -/
theorem draw_uses (w : State) (lid n : Nat) : ∃ y, PlotUses w (w.draw lid n).2 lid y (perfFields lid) ∧
    y.stores = (w.plot lid).stores ∧ y.loosePend = (w.plot lid).loosePend := by
  unfold draw
  split
  · exact ⟨_, .of_sets (.refl w lid _), rfl, rfl⟩
  · generalize rngDraw n (w.rngState lid) = r
    dsimp only
    have hdraw := PlotSets.modPlot w lid (fun x => { x with rng := some r.2, words := x.words + n }) (perfFields lid)
    refine ⟨_, .of_sets (hdraw.andThen (.perf _ lid 0x0F n fun _ h => h)), ?_, ?_⟩
    · rfl
    · rfl

/-- A loose tile store waits with its bytes for 48 steps. -/
theorem looseTileStore_uses {w : State} {lid slot p b : Nat} {o : VecWord} {m : BitVec 256} {offs : List (Nat × Nat)}
    (haddr : (w.tileAddress lid o).2.2 = none) (hspans : w.looseSpans lid (w.looseBase lid o) (w.looseRows lid o) = some (b, offs))
    (hbad : (offs.any fun q => w.loamWriteBad q.1 q.2) = false) :
    ∃ y ws, PlotUses w (w.inFlight (looseTileStore slot o w lid p m) lid p) lid y (storeCounts lid) ∧
      y.stores = (w.plot lid).stores ++ [⟨p + 48, ws⟩] ∧
      y.loosePend = (w.plot lid).loosePend ++ [(p, slot, opVector, 0x3D, (w.tileAddress lid o).1)] ∧
      (∀ z ∈ ws, ∃ q ∈ offs, z.1 = q.1) ∧
      (VecWordExt o 17 1 = 0 → ws = ((nearestParts (VecWordExt o 20 4) (w.tileAt lid o.ta.toNat) m offs).map (·.1)).flatten) := by
  rw [looseTileStore_eq haddr hspans hbad, inFlight_eq]
  dsimp only
  obtain ⟨x, hdraw, hstores, hloose⟩ := draw_uses w lid (if storeDraws o then 256 else 0)
  obtain ⟨parts, hparts⟩ : ∃ parts, storeParts (VecWordExt o 20 4) (storeRounds (storeDraws o) (w.draw lid (if storeDraws o then 256 else 0)).1)
    (w.tileAt lid o.ta.toNat) m offs = parts := ⟨_, rfl⟩
  have hoffsets := storeParts_offsets (VecWordExt o 20 4) (storeRounds (storeDraws o) (w.draw lid (if storeDraws o then 256 else 0)).1)
    (w.tileAt lid o.ta.toNat) m offs
  have hnearest (h : VecWordExt o 17 1 = 0) : parts = nearestParts (VecWordExt o 20 4) (w.tileAt lid o.ta.toNat) m offs := by
    have hno : storeDraws o = false := by rw [storeDraws, h]; rfl
    rw [hno] at hparts
    exact hparts.symm.trans (storeParts_nearest ..)
  rw [hparts] at hoffsets ⊢
  obtain ⟨d, hd⟩ : ∃ d, (w.draw lid (if storeDraws o then 256 else 0)).2 = d := ⟨_, rfl⟩
  rw [hd] at hdraw ⊢
  have hcounted := (hdraw.mono (perf_sub_storeCounts lid)).thenUses
    ((usesCache_countConv d lid (parts.map (·.2)).flatten).mono (conv_sub_storeCounts lid))
  obtain ⟨v, hv, hwrite⟩ := looseWrite_eq (d.countConv lid (parts.map (·.2)).flatten) lid p b (parts.map (·.1)).flatten
  have hwritten := (hcounted.thenUses (hv.mono (List.nil_subset _))).modPlot fun x => { x with
    stores := x.stores ++ [⟨p + 48, (parts.map (·.1)).flatten⟩] }
  rw [← hwrite] at hwritten
  obtain ⟨u, n, hu, hpend⟩ := loosePending_eq ((d.countConv lid (parts.map (·.2)).flatten).looseWrite lid p b (parts.map (·.1)).flatten) lid p slot
    opVector 0x3D (w.tileAddress lid o).1
  have hnoted := (hwritten.thenUses (hu.mono (perf_sub_storeCounts lid))).modPlot fun x => { x with
    loose := max x.loose n, loosePend := x.loosePend ++ [(p, slot, opVector, 0x3D, (w.tileAddress lid o).1)] }
  rw [← hpend] at hnoted
  have hflight := hnoted.modPlot fun z => { z with
    busyUntil := max z.busyUntil (w.flightEnd (looseStored slot lid p b (w.tileAddress lid o).1 parts d) lid p) }
  refine ⟨_, _, hflight, ?_, ?_, hoffsets, fun h => ?_⟩
  · exact congrArg (· ++ _) hstores
  · exact congrArg (· ++ _) hloose
  · rw [hnearest h]

end State
end Sys2Proof.Machine

namespace Sys2Proof.Machine
namespace State

/-! ### The words that access tiles (R140, R143, R172) -/

/-- A tile access issues in the state `w` that its word begins: its pipe is free, its checks pass and its address is aligned. -/
structure TileReady (s : State) (i : Issue) (op : Nat) (o : VecWord) (w : State) : Prop where
  issues : s.issues i (s.vecFetched i op o)
  pipe : (s.vecFetched i op o).pipeTaken i.lid.toNat (s.issueStep i) = false
  begun : vecBegun op i.slot.toNat o i.mis (s.vecFetched i op o) i.lid.toNat (s.issueStep i) = w
  core : w.coreFenced i.lid.toNat = false
  running : w.running = true
  aligned : (w.tileAddress i.lid.toNat o).2.2 = none

/-- The mask that a tile access names. -/
def maskOfWord (s : State) (i : Issue) (op : Nat) (o : VecWord) : BitVec 256 := (s.vecFetched i op o).maskAt i.lid.toNat o.msk.toNat

/-- A tile access that is ready leaves its body's state, in flight. -/
theorem exec_tileAccess {c : Instr} {s : State} {i : Issue} {op : Nat} {o : VecWord} {w : State} {body : State → Nat → Nat → BitVec 256 → State}
    (hc : exec c s = s.answerIf c.wellFormed (s.vecWord i op o body)) (hwf : c.wellFormed = true) (h : s.TileReady i op o w)
    (hrun : (body w i.lid.toNat (s.issueStep i) (s.maskOfWord i op o)).running = true) :
    exec c s = .next (s.returned (w.inFlight (body w i.lid.toNat (s.issueStep i) (s.maskOfWord i op o)) i.lid.toNat (s.issueStep i))) := by
  obtain ⟨hissues, hpipe, hbegun, hcore, -, -⟩ := h
  subst hbegun
  exact exec_vecWord hc hwf hissues hpipe hcore hrun

theorem exec_vld {s : State} {i : Issue} {o : VecWord} {w : State} (hwf : (Instr.vld i o).wellFormed = true) (h : s.TileReady i 0x3A o w) :
    ∃ t, exec (.vld i o) s = .next (s.returned t) ∧ PlotSets w t i.lid.toNat { w.plot i.lid.toNat with
      loads := (w.plot i.lid.toNat).loads ++ [loadRunOf i.slot.toNat o (w.tileAddress i.lid.toNat o).1 (w.tileAddress i.lid.toNat o).2.1
        (s.issueStep i) (s.maskOfWord i 0x3A o)]
      busyUntil := max (w.plot i.lid.toNat).busyUntil (s.issueStep i + 10) } [] := by
  have hsets := tileLoad_sets (slot := i.slot.toNat) (p := s.issueStep i) (m := s.maskOfWord i 0x3A o) h.aligned
  exact ⟨_, exec_tileAccess rfl hwf h (hsets.running_eq.trans h.running), hsets⟩

theorem exec_vst {s : State} {i : Issue} {o : VecWord} {w : State} (hwf : (Instr.vst i o).wellFormed = true) (h : s.TileReady i 0x3B o w) :
    ∃ t, exec (.vst i o) s = .next (s.returned t) ∧ PlotSets w t i.lid.toNat
      { storeWaits i.slot.toNat o (w.tileAddress i.lid.toNat o).1 (w.tileAddress i.lid.toNat o).2.1 (s.issueStep i) (w.tileAt i.lid.toNat o.ta.toNat)
          (s.maskOfWord i 0x3B o) (List.range 4) (w.plot i.lid.toNat) with
        busyUntil := max (w.plot i.lid.toNat).busyUntil (s.issueStep i + 10) } [] := by
  have hsets := tileStore_sets (slot := i.slot.toNat) (p := s.issueStep i) (m := s.maskOfWord i 0x3B o) h.aligned
  exact ⟨_, exec_tileAccess rfl hwf h (hsets.running_eq.trans h.running), hsets⟩

theorem exec_vldl {s : State} {i : Issue} {o : VecWord} {w : State} {b : Nat} {offs : List (Nat × Nat)} (hwf : (Instr.vldl i o).wellFormed = true)
    (h : s.TileReady i 0x3C o w)
    (hspans : w.looseSpans i.lid.toNat (w.looseBase i.lid.toNat o) (w.looseRows i.lid.toNat o) = some (b, offs)) :
    ∃ t y, exec (.vldl i o) s = .next (s.returned t) ∧ PlotUses w t i.lid.toNat y (loadCounts i.lid.toNat) ∧
      LooseLoaded w i.lid.toNat i.slot.toNat (s.issueStep i) (w.tileAddress i.lid.toNat o).1 (.tile o.td.toNat
        ((loadedWords (VecWordExt o 20 4) (offs.map fun q => w.loamRead i.lid.toNat (s.issueStep i) q.1 q.2)).map fun c => BitVec.ofNat 32 c.bits)
        (s.maskOfWord i 0x3C o) o.mz) y := by
  obtain ⟨y, huses, hloaded⟩ := looseTileLoad_uses (slot := i.slot.toNat) (p := s.issueStep i) (m := s.maskOfWord i 0x3C o) i.lid.isLt h.aligned hspans
  exact ⟨_, y, exec_tileAccess rfl hwf h (huses.running_eq.trans h.running), huses, hloaded⟩

/-- The plot after a loose tile store. -/
structure LooseStored (s w : State) (i : Issue) (o : VecWord) (offs : List (Nat × Nat)) (ws : List (Nat × List Byte × List Byte)) (y : PlotSt) : Prop where
  stores : y.stores = (w.plot i.lid.toNat).stores ++ [⟨s.issueStep i + 48, ws⟩]
  loosePend : y.loosePend = (w.plot i.lid.toNat).loosePend ++
    [(s.issueStep i, i.slot.toNat, opVector, 0x3D, (w.tileAddress i.lid.toNat o).1)]
  offsets : ∀ z ∈ ws, ∃ q ∈ offs, z.1 = q.1
  nearest : VecWordExt o 17 1 = 0 →
    ws = ((nearestParts (VecWordExt o 20 4) (w.tileAt i.lid.toNat o.ta.toNat) (s.maskOfWord i 0x3D o) offs).map (·.1)).flatten

theorem exec_vstl {s : State} {i : Issue} {o : VecWord} {w : State} {b : Nat} {offs : List (Nat × Nat)} (hwf : (Instr.vstl i o).wellFormed = true)
    (h : s.TileReady i 0x3D o w)
    (hspans : w.looseSpans i.lid.toNat (w.looseBase i.lid.toNat o) (w.looseRows i.lid.toNat o) = some (b, offs))
    (hbad : (offs.any fun q => w.loamWriteBad q.1 q.2) = false) :
    ∃ t y ws, exec (.vstl i o) s = .next (s.returned t) ∧ PlotUses w t i.lid.toNat y (storeCounts i.lid.toNat) ∧ LooseStored s w i o offs ws y := by
  obtain ⟨y, ws, huses, hstores, hpend, hoffsets, hnearest⟩ :=
    looseTileStore_uses (slot := i.slot.toNat) (p := s.issueStep i) (m := s.maskOfWord i 0x3D o) h.aligned hspans hbad
  exact ⟨_, y, ws, exec_tileAccess rfl hwf h (huses.running_eq.trans h.running), huses, hstores, hpend, hoffsets, hnearest⟩

/-! #### On a plot with nothing under way -/

/-- The fields that the issue of a tile access counts in. -/
def issueCounts (lid : Nat) : List Fld := F.WORDS_ISSUED.COUNT lid :: F.TILE_OPS.COUNT lid :: perfFields lid

theorem plotKeys_le_issueCounts (lid : Nat) : ∀ f ∈ issueCounts lid, plotKeys ≤ f.key := by
  obtain ⟨hissued, hperf⟩ := List.forall_mem_cons.mp (plotKeys_le_issued lid)
  refine List.forall_mem_cons.mpr ⟨hissued, List.forall_mem_cons.mpr ⟨?_, hperf⟩⟩
  simp only [Fld.key, F.TILE_OPS.COUNT, plotKeys]
  omega

theorem SameGrid.isV_eq {s t : State} (h : s.SameGrid t) (lid : Nat) : t.isV lid = s.isV lid := by
  have hnarrow : t.narrow = s.narrow := by rw [narrow, narrow, h.2 _ (by decide)]
  simp only [isV, posOf, rowLen, hnarrow]

/-- The plot whose tile access has taken its pipe at step `p` (R136). -/
def tileBegun (v : Bool) (i : Issue) (op : Nat) (o : VecWord) (p : Nat) (x : PlotSt) : PlotSt :=
  { wordFetched i opVector op o.bits p x with pipeFree := p + (if v then 1 else 4) }

theorem vecBegun_nil (op slot : Nat) (o : VecWord) (u : State) (lid p : Nat) : vecBegun op slot o [] u lid p = u.takePipe lid p := by
  rw [vecBegun, residues_nil]

theorem takePipe_sets (u : State) (lid p : Nat) : PlotSets u (u.takePipe lid p) lid { u.plot lid with pipeFree := p + (if u.isV lid then 1 else 4) }
    (F.TILE_OPS.COUNT lid :: perfFields lid) := by
  have hpipe := PlotSets.modPlot u lid (fun x => { x with pipeFree := p + (if u.isV lid then 1 else 4) }) (F.TILE_OPS.COUNT lid :: perfFields lid)
  have hcount := hpipe.andThen (.incF _ _ (f := F.TILE_OPS.COUNT lid) (List.mem_cons_self ..) 1)
  have hbegun := hcount.andThen (.perf _ _ 0x05 1 (List.subset_cons_self _ _))
  unfold takePipe
  exact hbegun

theorem tileAddress_congr {s t : State} {lid : Nat} (hregs : (t.plot lid).gregs = (s.plot lid).gregs) (hseed : t.step.seed = s.step.seed)
    (o : VecWord) : t.tileAddress lid o = s.tileAddress lid o := by
  simp only [tileAddress, gregAt_congr hregs hseed]

/-- The windows of loose accesses are no registers that the issue of a word counts in. -/
theorem window_ne_issueCounts (lid a lo w r : Nat) (ha : 0x8000 ≤ a) (ha' : a < 0x9100) (hlo : lo < 64) :
    ∀ g ∈ issueCounts lid, (Fld.mk (0x200000000000 + a + 0x100000 * lid) lo w r).key ≠ g.key := by
  simp only [issueCounts, perfFields, List.mem_cons, List.mem_map, List.mem_range]
  rintro _ (rfl | rfl | ⟨i, hi, rfl⟩)
  · simp only [Fld.key, F.WORDS_ISSUED.COUNT]
    omega
  · simp only [Fld.key, F.TILE_OPS.COUNT]
    omega
  · simp only [Fld.key, F.PERF_COUNT.COUNT]
    omega

/-- The windows of loose accesses stay as they are while a word begins. -/
theorem looseOffset_begun {s w : State} {lid : Nat} {x : PlotSt} (h : PlotSets s w lid x (issueCounts lid)) (base a n : Nat) :
    w.looseOffset lid base a n = s.looseOffset lid base a n := by
  have hV := (h.sameGrid (plotKeys_le_issueCounts lid)).isV_eq lid
  have hmode : w.getF (F.PAD_CFG.MODE lid) = s.getF (F.PAD_CFG.MODE lid) :=
    h.regs _ (window_ne_issueCounts lid 0x8000 _ _ _ (by decide) (by decide) (by decide))
  have hbank : bitsOf base 29 3 < 8 := by
    rw [State.bitsOf_eq]
    exact Nat.mod_lt _ (by decide)
  have hwin (lo wd : Nat) (hlo : lo < 64) : w.getF (Fld.mk (0x200000008008 + 0x100000 * lid + 0x8 * bitsOf base 29 3) lo wd 0) =
      s.getF (Fld.mk (0x200000008008 + 0x100000 * lid + 0x8 * bitsOf base 29 3) lo wd 0) := by
    have hkey := window_ne_issueCounts lid (0x8008 + 0x8 * bitsOf base 29 3) lo wd 0 (by omega) (by omega) hlo
    have haddr : 0x200000000000 + (0x8008 + 0x8 * bitsOf base 29 3) + 0x100000 * lid = 0x200000008008 + 0x100000 * lid + 0x8 * bitsOf base 29 3 := by omega
    rw [haddr] at hkey
    exact h.regs _ hkey
  have hbase := hwin 0 32 (by decide)
  have hsize := hwin 32 16 (by decide)
  change w.getF (F.CACHE_WIN.BASE lid (bitsOf base 29 3)) = s.getF (F.CACHE_WIN.BASE lid (bitsOf base 29 3)) at hbase
  change w.getF (F.CACHE_WIN.SIZE lid (bitsOf base 29 3)) = s.getF (F.CACHE_WIN.SIZE lid (bitsOf base 29 3)) at hsize
  unfold looseOffset bankMode padBanks
  dsimp only
  rw [hV, hmode, hbase, hsize]

theorem looseSpans_begun {s w : State} {lid : Nat} {x : PlotSt} (h : PlotSets s w lid x (issueCounts lid)) (base : Nat) (spans : List (Nat × Nat)) :
    w.looseSpans lid base spans = s.looseSpans lid base spans := by
  simp only [looseSpans, looseOffset_begun h]

/-- A tile access without mishaps is ready on a plot with nothing under way, its pipe free and its address aligned. -/
theorem tileReady_quiet {s : State} {i : Issue} (op : Nat) {o : VecWord} (hmis : i.mis = []) (hcan : s.canIssue i = true)
    (hquiet : quiet (s.plot i.lid.toNat) = true) (hfree : (s.plot i.lid.toNat).pipeFree ≤ s.issueStep i)
    (haddr : (s.tileAddress i.lid.toNat o).2.2 = none) :
    ∃ w, s.TileReady i op o w ∧ PlotSets s w i.lid.toNat (tileBegun (s.isV i.lid.toNat) i op o (s.issueStep i) (s.plot i.lid.toNat))
      (issueCounts i.lid.toNat) ∧ s.maskOfWord i op o = s.maskAt i.lid.toNat o.msk.toNat := by
  obtain ⟨hrun, hcore, -⟩ := canIssue_facts hcan
  have hfetch := fetched_quiet opVector op o.bits (vecLive op o i.lid.toNat) hmis hcan hquiet
  change PlotSets s (s.vecFetched i op o) i.lid.toNat _ _ at hfetch
  have hgrid := hfetch.sameGrid (plotKeys_le_issued _)
  have htake := takePipe_sets (s.vecFetched i op o) i.lid.toNat (s.issueStep i)
  rw [hgrid.isV_eq, hfetch.plot] at htake
  have hbegun : PlotSets s ((s.vecFetched i op o).takePipe i.lid.toNat (s.issueStep i)) i.lid.toNat
      (tileBegun (s.isV i.lid.toNat) i op o (s.issueStep i) (s.plot i.lid.toNat)) (issueCounts i.lid.toNat) :=
    (hfetch.mono (by simp [issueCounts])).trans (htake.mono (by simp [issueCounts]))
  refine ⟨_, ⟨⟨hcan, (hgrid.coreFenced_eq i.lid.isLt).trans hcore, hfetch.running_eq.trans hrun⟩, ?_, ?_,
    ((hbegun.sameGrid (plotKeys_le_issueCounts _)).coreFenced_eq i.lid.isLt).trans hcore, hbegun.running_eq.trans hrun, ?_⟩, hbegun, ?_⟩
  · rw [pipeTaken, hfetch.plot]
    exact decide_eq_false (Nat.not_lt.mpr hfree)
  · rw [hmis, vecBegun_nil]
  · rw [tileAddress_congr (s := s) (by rw [hbegun.plot]; rfl) (by rw [hbegun.step_eq]), haddr]
  · exact maskAt_congr (by rw [hfetch.plot]; rfl) _

/-- What a tile access reads of the state in which its word begins is as it was before (R153). -/
structure ReadsAlike (s w : State) (lid : Nat) (o : VecWord) : Prop where
  address : w.tileAddress lid o = s.tileAddress lid o
  tile : w.tileAt lid o.ta.toNat = s.tileAt lid o.ta.toNat
  spans : w.looseSpans lid (w.looseBase lid o) (w.looseRows lid o) = s.looseSpans lid (s.looseBase lid o) (s.looseRows lid o)
  loam : ∀ off n, w.loamGet (w.siteOf lid) off n = s.loamGet (s.siteOf lid) off n
  writeBad : ∀ off n, w.loamWriteBad off n = s.loamWriteBad off n

theorem readsAlike_begun {s w : State} {lid : Nat} {x : PlotSt} (h : PlotSets s w lid x (issueCounts lid)) (hlid : lid < 2 ^ 24)
    (hgregs : x.gregs = (s.plot lid).gregs) (htiles : x.tiles = (s.plot lid).tiles) (o : VecWord) : ReadsAlike s w lid o := by
  have hregs : (w.plot lid).gregs = (s.plot lid).gregs := by rw [h.plot, hgregs]
  have hseed : w.step.seed = s.step.seed := by rw [h.step_eq]
  have haddr := tileAddress_congr hregs hseed o
  have hgrid := h.sameGrid (plotKeys_le_issueCounts lid)
  have hloam : s.SameLoam w := ⟨by rw [h.mem_eq], hgrid.2⟩
  refine ⟨haddr, tileAt_congr (by rw [h.plot, htiles]) _, ?_, fun off n => ?_, hloam.loamWriteBad_eq h.step_eq⟩
  · rw [looseSpans_begun h, looseBase, gregAt_congr hregs hseed, looseRows, haddr]
    rfl
  · rw [hloam.loamGet_eq, hgrid.siteOf_eq hlid]

/-- A tile access without mishaps that its plot, with nothing under way, can begin. -/
structure QuietAccess (s : State) (i : Issue) (o : VecWord) : Prop where
  mis : i.mis = []
  can : s.canIssue i = true
  quiet : State.quiet (s.plot i.lid.toNat) = true
  free : (s.plot i.lid.toNat).pipeFree ≤ s.issueStep i
  aligned : (s.tileAddress i.lid.toNat o).2.2 = none

/-- A loose access after the issue of its word. -/
theorem PlotSets.thenUses {s w t : State} {lid : Nat} {x y : PlotSt} {fs gs : List Fld} (h : PlotSets s w lid x gs) (k : PlotUses w t lid y fs) :
    PlotUses s t lid y (fs ++ gs) :=
  ((PlotUses.of_sets h).mono (List.subset_append_right _ _)).trans (k.mono (List.subset_append_left _ _))

theorem loadCounts_issueCounts (lid : Nat) : loadCounts lid ++ issueCounts lid ⊆
    F.CACHE_MISSES.COUNT lid :: F.CONV_SAT_COUNT.COUNT lid :: F.CONV_NONFINITE_COUNT.COUNT lid :: issueCounts lid := by
  simp [loadCounts, issueCounts, List.subset_def]
  tauto

theorem storeCounts_issueCounts (lid : Nat) : storeCounts lid ++ issueCounts lid ⊆
    F.CONV_SAT_COUNT.COUNT lid :: F.CONV_NONFINITE_COUNT.COUNT lid :: issueCounts lid := by
  simp [storeCounts, issueCounts, List.subset_def]
  tauto

namespace QuietAccess
variable {s : State} {i : Issue} {o : VecWord}

/-- It begins in a state that reads alike. -/
theorem begins (h : s.QuietAccess i o) (op : Nat) : ∃ w, s.TileReady i op o w ∧
    PlotSets s w i.lid.toNat (tileBegun (s.isV i.lid.toNat) i op o (s.issueStep i) (s.plot i.lid.toNat)) (issueCounts i.lid.toNat) ∧
    s.maskOfWord i op o = s.maskAt i.lid.toNat o.msk.toNat ∧ ReadsAlike s w i.lid.toNat o := by
  obtain ⟨w, hready, hbegun, hmask⟩ := tileReady_quiet op h.mis h.can h.quiet h.free h.aligned
  exact ⟨w, hready, hbegun, hmask, readsAlike_begun hbegun i.lid.isLt rfl rfl o⟩

theorem vld (h : s.QuietAccess i o) (hwf : (Instr.vld i o).wellFormed = true) : ∃ t, exec (.vld i o) s = .next (s.returned t) ∧
    PlotSets s t i.lid.toNat { tileBegun (s.isV i.lid.toNat) i 0x3A o (s.issueStep i) (s.plot i.lid.toNat) with
      loads := [loadRunOf i.slot.toNat o (s.tileAddress i.lid.toNat o).1 (s.tileAddress i.lid.toNat o).2.1 (s.issueStep i)
        (s.maskAt i.lid.toNat o.msk.toNat)]
      busyUntil := max (s.plot i.lid.toNat).busyUntil (s.issueStep i + 10) } (issueCounts i.lid.toNat) := by
  obtain ⟨w, hready, hbegun, hmask, halike⟩ := h.begins 0x3A
  obtain ⟨t, hexec, hsets⟩ := exec_vld hwf hready
  have hloads : (s.plot i.lid.toNat).loads = [] := by
    obtain ⟨⟨-, -, -, hloads, -⟩, -⟩ := quiet_atRest h.quiet
    exact hloads
  refine ⟨t, hexec, (hbegun.trans (hsets.mono (List.nil_subset _))).cast ?_⟩
  rw [hmask, halike.address, hbegun.plot]
  unfold tileBegun wordFetched
  dsimp only
  rw [hloads, List.nil_append]

theorem vst (h : s.QuietAccess i o) (hwf : (Instr.vst i o).wellFormed = true) : ∃ t, exec (.vst i o) s = .next (s.returned t) ∧
    PlotSets s t i.lid.toNat { tileBegun (s.isV i.lid.toNat) i 0x3B o (s.issueStep i) (s.plot i.lid.toNat) with
      ports := (List.range 4).foldl (fun ports k => SMap.modify [] ports (s.issueStep i + 1 + k)
        (· ++ [storePort i.slot.toNat o (s.tileAddress i.lid.toNat o).1 (s.tileAddress i.lid.toNat o).2.1 k])) []
      land := (List.range 4).map (storeLanding i.slot.toNat o (s.tileAddress i.lid.toNat o).1 (s.tileAddress i.lid.toNat o).2.1 (s.issueStep i)
        (s.tileAt i.lid.toNat o.ta.toNat) (s.maskAt i.lid.toNat o.msk.toNat))
      busyUntil := max (s.plot i.lid.toNat).busyUntil (s.issueStep i + 10) } (issueCounts i.lid.toNat) := by
  obtain ⟨w, hready, hbegun, hmask, halike⟩ := h.begins 0x3B
  obtain ⟨t, hexec, hsets⟩ := exec_vst hwf hready
  obtain ⟨⟨-, -, hland, -, -, -, hports, -⟩, -⟩ := quiet_atRest h.quiet
  refine ⟨t, hexec, (hbegun.trans (hsets.mono (List.nil_subset _))).cast ?_⟩
  rw [hmask, halike.address, halike.tile, hbegun.plot]
  unfold storeWaits tileBegun wordFetched
  dsimp only
  rw [hland, hports, List.nil_append]

/-- What a loose tile load lands and what it leaves of the rest. -/
theorem vldl (h : s.QuietAccess i o) (hwf : (Instr.vldl i o).wellFormed = true) {b : Nat} {offs : List (Nat × Nat)}
    (hspans : s.looseSpans i.lid.toNat (s.looseBase i.lid.toNat o) (s.looseRows i.lid.toNat o) = some (b, offs)) :
    ∃ t y, exec (.vldl i o) s = .next (s.returned t) ∧ PlotUses s t i.lid.toNat y (loadCounts i.lid.toNat ++ issueCounts i.lid.toNat) ∧
      y.land = [(s.issueStep i + 48, .tile o.td.toNat ((loadedWords (VecWordExt o 20 4)
        (offs.map fun q => s.loamGet (s.siteOf i.lid.toNat) q.1 q.2)).map fun c => BitVec.ofNat 32 c.bits) (s.maskAt i.lid.toNat o.msk.toNat) o.mz)] ∧
      y.loosePend = [(s.issueStep i, i.slot.toNat, opVector, 0x3C, (s.tileAddress i.lid.toNat o).1)] := by
  obtain ⟨w, hready, hbegun, hmask, halike⟩ := h.begins 0x3C
  obtain ⟨t, y, hexec, huses, hland, hpend⟩ := exec_vldl hwf hready (halike.spans.trans hspans)
  obtain ⟨⟨-, -, hnoland, -, hmoves, hstores, -, hnopend⟩, -⟩ := quiet_atRest h.quiet
  have hread (q : Nat × Nat) : w.loamRead i.lid.toNat (s.issueStep i) q.1 q.2 = s.loamGet (s.siteOf i.lid.toNat) q.1 q.2 :=
    (loamRead_plain (by rw [hbegun.plot]; exact hmoves) (by rw [hbegun.plot]; exact hstores) _ _ _).trans (halike.loam q.1 q.2)
  refine ⟨t, y, hexec, hbegun.thenUses huses, ?_, ?_⟩
  · rw [hland, hmask, hbegun.plot, show (tileBegun _ i 0x3C o _ _).land = [] from hnoland, List.nil_append]
    simp only [hread]
  · rw [hpend, halike.address, hbegun.plot, show (tileBegun _ i 0x3C o _ _).loosePend = [] from hnopend, List.nil_append]

/-- What a loose tile store leaves waiting and what it leaves of the rest. -/
theorem vstl (h : s.QuietAccess i o) (hwf : (Instr.vstl i o).wellFormed = true) {b : Nat} {offs : List (Nat × Nat)}
    (hspans : s.looseSpans i.lid.toNat (s.looseBase i.lid.toNat o) (s.looseRows i.lid.toNat o) = some (b, offs))
    (hbad : (offs.any fun q => s.loamWriteBad q.1 q.2) = false) :
    ∃ t y ws, exec (.vstl i o) s = .next (s.returned t) ∧ PlotUses s t i.lid.toNat y (storeCounts i.lid.toNat ++ issueCounts i.lid.toNat) ∧
      y.stores = [⟨s.issueStep i + 48, ws⟩] ∧ (∀ z ∈ ws, ∃ q ∈ offs, z.1 = q.1) ∧
      y.loosePend = [(s.issueStep i, i.slot.toNat, opVector, 0x3D, (s.tileAddress i.lid.toNat o).1)] := by
  obtain ⟨w, hready, hbegun, hmask, halike⟩ := h.begins 0x3D
  have hbadW : (offs.any fun q => w.loamWriteBad q.1 q.2) = false := by
    simp only [halike.writeBad]
    exact hbad
  obtain ⟨t, y, ws, hexec, huses, hstores, hpend, hoffsets, -⟩ := exec_vstl hwf hready (halike.spans.trans hspans) hbadW
  obtain ⟨⟨-, -, -, -, -, hnostores, -, hnopend⟩, -⟩ := quiet_atRest h.quiet
  refine ⟨t, y, ws, hexec, hbegun.thenUses huses, ?_, hoffsets, ?_⟩
  · rw [hstores, hbegun.plot, show (tileBegun _ i 0x3D o _ _).stores = [] from hnostores, List.nil_append]
  · rw [hpend, halike.address, hbegun.plot, show (tileBegun _ i 0x3D o _ _).loosePend = [] from hnopend, List.nil_append]

end QuietAccess

open State in
/-- Settles O10: the accesses that tile words begin, what they count, and their issue on a plot with nothing under way. -/
theorem tileAccesses : Obligations.TileAccesses := by
  unfold Obligations.TileAccesses
  refine ⟨fun s i o => ?_, fun s i o b offs => ?_, fun s i o => ?_⟩
  · intro lid p begun ready mask addr pitch fmt blk
    have hready {op : Nat} (h : ready op) : s.TileReady i op o (begun op) := by
      obtain ⟨hissues, hpipe, hcore, hrun, haddr⟩ := h
      exact ⟨hissues, hpipe, rfl, hcore, hrun, haddr⟩
    refine ⟨fun hwf h => ?_, fun hwf h => ?_⟩
    · obtain ⟨t, hexec, hsets⟩ := exec_vld hwf (hready h)
      exact ⟨_, hexec, rfl, rfl, hsets.plotOnly_returned s⟩
    · obtain ⟨t, hexec, hsets⟩ := exec_vst hwf (hready h)
      exact ⟨_, hexec, rfl, rfl, hsets.plotOnly_returned s⟩
  · intro lid p begun mask a fmt spans ready
    have hready {op : Nat} (h : ready op) : s.TileReady i op o (begun op) ∧
        (begun op).looseSpans lid ((begun op).looseBase lid o) ((begun op).looseRows lid o) = some (b, offs) := by
      obtain ⟨hissues, hpipe, hcore, hrun, haddr, hspans⟩ := h
      exact ⟨⟨hissues, hpipe, rfl, hcore, hrun, haddr⟩, hspans⟩
    refine ⟨fun hwf h => ?_, fun hwf h hbad => ?_⟩
    · intro w
      obtain ⟨t, y, hexec, huses, hland, hpend⟩ := exec_vldl hwf (hready h).1 (hready h).2
      exact ⟨_, hexec, rfl, rfl, (congrArg PlotSt.land huses.plot).trans hland, (congrArg PlotSt.loosePend huses.plot).trans hpend, huses.others,
        huses.mem_eq, huses.win_eq, huses.regs⟩
    · intro w
      obtain ⟨t, y, ws, hexec, huses, hstores, hpend, hoffsets, hnearest⟩ := exec_vstl hwf (hready h).1 (hready h).2 hbad
      refine ⟨_, ws, hexec, rfl, rfl, (congrArg PlotSt.stores huses.plot).trans hstores, hoffsets, fun hrne => ?_,
        (congrArg PlotSt.loosePend huses.plot).trans hpend, huses.others, huses.mem_eq, huses.win_eq, huses.regs⟩
      exact (hnearest hrne).trans (by rw [nearestParts, List.map_map]; rfl)
  · intro lid p x fmt blk a mask fetched counted hmis hcan hquiet hfree haddr
    have h : s.QuietAccess i o := ⟨hmis, hcan, hquiet, hfree, haddr⟩
    refine ⟨fun hwf => ?_, fun hwf => ?_, fun b offs hspans => ⟨fun hwf => ?_, fun hwf hbad => ?_⟩⟩
    · obtain ⟨t, hexec, hsets⟩ := h.vld hwf
      exact ⟨_, hexec, hsets.plotOnly_returned s⟩
    · obtain ⟨t, hexec, hsets⟩ := h.vst hwf
      exact ⟨_, hexec, hsets.plotOnly_returned s⟩
    · obtain ⟨t, y, hexec, huses, hland, hpend⟩ := h.vldl hwf hspans
      exact ⟨_, hexec, (congrArg PlotSt.land huses.plot).trans hland, (congrArg PlotSt.loosePend huses.plot).trans hpend, huses.others,
        huses.mem_eq, huses.win_eq, huses.recs_eq, (huses.mono (loadCounts_issueCounts lid)).regs⟩
    · obtain ⟨t, y, ws, hexec, huses, hstores, hoffsets, hpend⟩ := h.vstl hwf hspans hbad
      exact ⟨_, ws, hexec, (congrArg PlotSt.stores huses.plot).trans hstores, hoffsets, (congrArg PlotSt.loosePend huses.plot).trans hpend,
        huses.others, huses.mem_eq, huses.win_eq, huses.recs_eq, (huses.mono (storeCounts_issueCounts lid)).regs⟩

end State
end Sys2Proof.Machine
